-- ==== Sys2Proof/Word.lean ====
section
/-!
DEFINITION. The word and byte types of the block, and the plainest arithmetic on them: registers are 32-bit words
read and written whole (R7), fields are natural numbers below a power of two, and a saturating count stays at its
largest value.
-/
namespace Sys2Proof

/-- A byte of a buffer, a frame or a memory. -/
abbrev Byte := BitVec 8

/-- A 32-bit register word (R7). -/
abbrev Word := BitVec 32

/-- The bits `hi` to `lo` of a natural number, as a natural number. -/
abbrev bitsOf (v hi lo : Nat) : Nat := v / 2 ^ lo % 2 ^ (hi - lo + 1)

/-- 1 for true and 0 for false. -/
abbrev b2n (b : Bool) : Nat := if b then 1 else 0

/-- Two's complement of width `w`: the register value of a signed number. -/
abbrev ofInt (w : Nat) (i : Int) : Nat := (i % (2 ^ w : Int)).toNat

/-- The signed number a register value of width `w` stands for. -/
abbrev toInt (w v : Nat) : Int := if v < 2 ^ (w - 1) then (v : Int) else (v : Int) - 2 ^ w

/-- A count that saturates at `top`. -/
abbrev satAdd (top a b : Nat) : Nat := min top (a + b)

end Sys2Proof
end

