-- ==== Sys2Proof/Syntax.lean ====
section
/-!
DEFINITION. The commands and events that act on the A16: one constructor of `Instr` for each row of the opcode table,
with the row's operands. What the outside world contributes (a voltage, a received frame, a measured time, the bytes
read from a memory) is an operand; what the A16 itself holds is in `Sys2Proof.Machine.State`.
-/
namespace Sys2Proof

/-- The two agents that write registers: the host session of the host port and the application runtime (R574). -/
inductive Agent where
  | host
  | runtime
  deriving DecidableEq, Repr

/-- The units of R50 that follow the state machine of R55. -/
inductive UnitId where
  | hs (c : Fin 40)
  | out (n : Fin 16)
  | vpl (n : Fin 16)
  | dpy
  deriving DecidableEq, Repr

/-- The verdict of one pilot period (R244). -/
inductive PilotVerdict where
  | a | b | c | d | e | inv
  deriving DecidableEq, Repr

/-- What the weld window measured (R258): for AC, per used phase the supply-side voltage, the lowest load-side voltage
over the window (mV), and for DC the largest difference of the two sides over the window (mV). -/
inductive WeldWindow where
  | ac (supply load : List Nat)
  | dc (maxDiff : Nat)
  deriving DecidableEq, Repr

/-- The two halves of the safety part (R351). -/
inductive SafHalf where
  | curator
  | keeper
  deriving DecidableEq, Repr

/-- The memory classes that R490 tells apart. -/
inductive MemClass where
  | sram        -- application, reading room or PLC baseband SRAM
  | critical    -- Curator, metrology engine or carrel SRAM
  | mramOther   -- an MRAM partition not named by the other classes
  | mramStore   -- billing and metrology store, or carrel store
  | mramLegal   -- legal area or closed stacks partition
  deriving DecidableEq, Repr

/-- How the octal SPI memory answered a bulk transfer (R538). -/
inductive OspiResult where
  | done (bytes : List Byte)
  | error
  deriving DecidableEq, Repr


/-- The figures of one cycle for one phase and candidate channel (R134, R135), in µW, µvar or µVA: P1, Q1, S1 and the
reactive power over all harmonics; also used for their sums over samples. -/
structure CycSum where
  p1 : Int
  q1 : Int
  s1 : Int
  qt : Int
  deriving DecidableEq, Repr

/-- No figure. -/
def CycSum.zero : CycSum := ⟨0, 0, 0, 0⟩

/-- What the synchronous DFT gives for a phase over a quantum (R134, R136, R137): the fundamental voltage (mV), its
angle to phase 0 and φ1 (0.01°), the THD of voltage and current (0.1 %), and the corrections of R136 to the active
power (µW) and to the squared current (mA²) of each candidate channel. -/
structure PhaseDft where
  v1 : Nat
  vang : Int
  phi : Int
  thdV : Nat
  thdI : Nat
  dP : List Int
  dI2 : List Int
  deriving DecidableEq, Repr

/-- What the synchronous DFT gives for a meter: the zero-sequence voltage in mV (R146) and its phases. -/
structure MeterDft where
  v0 : Nat
  ph : List PhaseDft
  deriving DecidableEq, Repr

/-- The harmonic window of MET.HSEL (R143): the fundamental RMS, and (magnitude in 0.01 %, angle in 0.01°) for h = 1 on. -/
structure HarmWindow where
  rms1 : Nat
  harm : List (Nat × Int)
  deriving DecidableEq, Repr

/-- The operations of the crypto engines (R468). -/
inductive CryptoOp where
  | aes | hmac | sign | verify | ecdh
  deriving DecidableEq, Repr

/-- A tone map (R326): its index, the interval [start, stop) in 1/256 of the mains half-cycle, the codes of guard
interval (0 to 2) and rate (0 to 3), and the bits of carriers 62 to 955. -/
structure ToneMap where
  idx : Nat
  start : Nat
  stop : Nat
  gi : Nat
  rate : Nat
  bits : List Nat
  deriving DecidableEq, Repr

/-- What a receiver measures in a frame (R328): the half-cycle position of the payload in 1/256, the delay spread in
samples, and the SNR of carriers 62 to 955 in 0.1 dB. -/
structure RxMeas where
  pos : Nat
  spread : Nat
  snr : List Int
  deriving DecidableEq, Repr

/-- A MAC frame that the runtime's buffer of a Q[8] item holds: the final node, PROTO and payload (R345). -/
structure TxBuf where
  edst : Nat
  proto : Nat
  payload : List Byte
  deriving DecidableEq, Repr

/-- An entry of a LINKS message (R345): neighbour, cost, E in 0.1 Mbit/s and F in 0.1 %. -/
structure LinkReport where
  nbr : Nat
  cost : Nat
  e : Nat
  f : Nat
  deriving DecidableEq, Repr

/-- What a round of the card reader's enumeration finds (R441 to R444): the UIDs of the Type A cards in the field, the
PUPIs of the Type B cards that answer cleanly in order, and, when a frame error outlasts its repeats, how many cards the
round had listed by then (R443). -/
structure PollRound where
  uids : List (List Byte)
  pupis : List (List Byte)
  cut : Option Nat
  deriving DecidableEq, Repr

/-- The memories that R519 tells apart. -/
inductive BistMem where
  | appSram
  | annex
  | rroom
  | carrel
  | circ
  | acc
  | appMram
  | other       -- Curator, metrology engine or PLC baseband SRAM and the stores, catalogue and firmware banks
  | legal       -- legal area or closed stacks partition
  deriving DecidableEq, Repr

/-- A failing address that a test finds: the memory, the units with a byte in its row (tiles, segments, pages, carrels
or blocks), its macro or array and whether that is MRAM, and its location path (R500). -/
structure BistFail where
  mem : BistMem
  units : List Nat
  macroNo : Nat
  mram : Bool
  loc : Nat
  deriving DecidableEq, Repr

/-- What a group test finds: the LBIST signature and its expected value, whether the MBIST signature matches, the failing
addresses, and the duration in ms. -/
structure BistResult where
  misr : Nat
  expected : Nat
  mbistOk : Bool
  fails : List BistFail
  ms : Nat
  deriving DecidableEq, Repr

/-- What a start finds in steps 3 and 4 of R69: the banks whose boot loader fails (R488), the banks whose staged parts no
longer match their hashes (R484), the key slots whose selected copy does not decrypt or agree (R476), and whether the
fuses of a pending transition read blown within three attempts (R464). -/
structure StartFacts where
  bltBad : List Nat
  partsBad : List Nat
  badSlots : List Nat
  fuseOk : Bool
  deriving DecidableEq, Repr


/-- The commands and events of the block, one constructor per row of spec/opcode_table.json, in its order. -/
inductive Instr where
  /-- `REGISTER_WRITE` (R9): A write to a register field that has no row of its own, judged by access code, mode (R57) and session level (R575). -/
  | registerWrite (a : Agent) (addr : Nat) (value : Nat)
  /-- `RWL_FIELD_WRITE` (R120): A write to an RWL metrology field stores a pending value that the engine does not use until a commit. -/
  | rwlFieldWrite (a : Agent) (addr : Nat) (value : Nat)
  /-- `RWS_WRITE` (R547): A staged write is stored under a field mask in the writing agent's open bind set, or counted as NOSET. -/
  | rwsWrite (a : Agent) (addr : Nat) (value : Nat)
  /-- `DISC_CLR` (R56): Writing 1 to DISC_CLR sets a unit's discard counter to 0. -/
  | discClr (a : Agent) (u : UnitId)
  /-- `RTC_SECOND_EDGE` (R30): The RTC second edge ends quantum 9, holds the CLK_DSP count N, updates DEV and advances and persists PWR.OPSEC. -/
  | rtcSecondEdge (cycles : Nat)
  /-- `CLK_DISC_RANGE` (R31): DEV has exceeded 100 ppm for three consecutive seconds, and a Minor fault is raised. -/
  | clkDiscRange
  /-- `QUANTUM_BOUNDARY` (R198): At a quantum boundary the billing engine books, closes intervals and periods, activates calendars and switches rates, then persists. -/
  | quantumBoundary
  /-- `CLK_ROOT_LOST` (R33): The Keeper sees the 1 kHz tick leave 0.9 to 1.1 ms, opens every LSE and asserts PMI_B_N. -/
  | clkRootLost
  /-- `CLK_PLL_UNLOCK` (R34): The PLL loses lock and a Major fault is raised. -/
  | clkPllUnlock
  /-- `RTC_OSC_FAIL` (R187): The RTC oscillator stops, so ticks and quanta run free from CLK_DSP and FREE is set. -/
  | rtcOscFail
  /-- `FABRIC_REQUEST` (R42): A requester presents a fabric request that the arbiter grants beat by beat by class and cap. -/
  | fabricRequest (now : Nat) (port : Nat) (cls : Fin 6) (beats : Fin 4) (metro : Bool)
  /-- `REQUEST_AGED` (R46): A P4 or P5 request that has waited 40 µs becomes aged and goes ahead of the requests that are not aged. -/
  | requestAged (port : Nat)
  /-- `SYS_FAB_STARVE` (R47): A P4 or P5 request not granted within 50 µs increments STARVE and raises a Minor fault. -/
  | sysFabStarve (port : Nat)
  /-- `FORCING_CONDITION_BEGINS` (R53): A forcing condition starts a shut-down of a unit, clears its pending enable and refuses enables while it lasts. -/
  | forcingConditionBegins (u : UnitId)
  /-- `UNIT_START_COMPLETE` (R55): A unit's start sequence completes and the unit enters ON. -/
  | unitStartComplete (u : UnitId) (vlsMv : Nat)
  /-- `UNIT_SHUTDOWN_COMPLETE` (R55): A unit's shut-down completes, it enters RESTING and its off-timer starts. -/
  | unitShutdownComplete (u : UnitId)
  /-- `OFF_TIMER_EXPIRED` (R55): A unit's minimum off-time ends, and it starts a pending enable or returns to OFF. -/
  | offTimerExpired (u : UnitId)
  /-- `VBAT_APPLIED` (R60): VBAT applied to an unpowered device enters DORMANT with the AON functions running. -/
  | vbatApplied
  /-- `SUPPLY_GOOD` (R67): Supply good enters LOADING, increments PWR.CYCLES and starts the start sequence of R69. -/
  | supplyGood (facts : StartFacts)
  /-- `CORE_UNDER_VOLTAGE` (R60): Core under-voltage makes every output safe within 1 ms and enters DORMANT. -/
  | coreUnderVoltage (now : Fin 32768)
  /-- `RESET_N_LOW` (R68): A filtered low on RESET_N holds the core die in reset and makes every output safe within 1 ms. -/
  | resetNLow
  /-- `RESET_N_RELEASE` (R60): Release of RESET_N enters LOADING and increments PWR.CYCLES. -/
  | resetNRelease (facts : StartFacts)
  /-- `IMAGE_LOAD_COMPLETE` (R74): The Dweold image copies have been read and checked, and LOADING proceeds by the result. -/
  | imageLoadComplete (copyA copyB : List Byte)
  /-- `SHELF_ENUMERATION_COMPLETE` (R77): The listed modules have been read, each entry gets an outcome, and the A16 enters START_TEST. -/
  | shelfEnumerationComplete (answers : List (Option (List Byte))) (safeSel : Fin 256)
  /-- `BIST_GROUP_DONE` (R515): A start-test group completes on its lane, its signatures are compared, and the next group starts. -/
  | bistGroupDone (g : Fin 8) (r : BistResult)
  /-- `FIRST_QUANTUM_BOUNDARY` (R70): At the first quantum boundary of step 8 metering starts and persisted state is restored. -/
  | firstQuantumBoundary (loads : List (List Nat)) (badCopies : List Nat)
  /-- `START_TEST_PASSED` (R60): START_TEST ends and the A16 enters FACTORY_TEST, COMMISSIONING, OPERATIONAL or DEGRADED. -/
  | startTestPassed (startMs : Nat)
  /-- `RUNTIME_READY` (R60): The application runtime reports ready, ending WARM_THROUGH or completing the start. -/
  | runtimeReady
  /-- `MODE_REQ_COMMISSIONING` (R65): A mode request COMMISSIONING is judged and carried out or refused. -/
  | modeReqCommissioning (a : Agent) (lost : Bool)
  /-- `MODE_REQ_OPERATIONAL` (R65): A mode request OPERATIONAL leaves COMMISSIONING or SERVICE. -/
  | modeReqOperational (a : Agent) (lost : Bool)
  /-- `MODE_REQ_SERVICE` (R65): A mode request SERVICE enters SERVICE when no carrel is energising. -/
  | modeReqService (a : Agent) (lost : Bool)
  /-- `MODE_REQ_SHUTDOWN` (R85): A mode request SHUTDOWN enters SERVICE and starts the controlled shut-down sequence. -/
  | modeReqShutdown (a : Agent) (lost : Bool)
  /-- `MODE_REQ_WAKE` (R65): A mode request WAKE of a parked unit enters LOADING. -/
  | modeReqWake (a : Agent) (lost : Bool) (facts : StartFacts)
  /-- `MODE_REQ_ACK` (R63): A mode request ACK in SAFE_HOLD returns to the mode that the base mode gives. -/
  | modeReqAck (a : Agent) (lost : Bool) (cool : Fin 4)
  /-- `MODE_REQ_RELOAD` (R65): A mode request RELOAD in LOADING reads the image again. -/
  | modeReqReload (a : Agent) (lost : Bool) (facts : StartFacts)
  /-- `APP_CLUSTER_RESET` (R81): An application-cluster reset enters WARM_THROUGH and starts the warm-through timer. -/
  | appClusterReset
  /-- `WARM_MAX_EXPIRED` (R82): The warm-through timer reaches WARM_MAX and every energising carrel is suspended. -/
  | warmMaxExpired
  /-- `WARM_THROUGH_TIMEOUT` (R60): 60 s pass without a ready runtime, so the A16 enters SAFE_HOLD with MODE_APP_LOST. -/
  | warmThroughTimeout
  /-- `POWER_FAIL_WARNING` (R158): A power-fail warning enters RIDE_THROUGH and starts the flush. -/
  | powerFailWarning (pfLow vauxLow : Bool) (now : Fin 32768) (nowMs : Nat)
  /-- `PARTIAL_QUANTUM_CLOSE` (R159): The last sample of the partial quantum passes the latency and the partial quantum is booked. -/
  | partialQuantumClose (dft : List MeterDft) (harm : HarmWindow)
  /-- `FLUSH_COMPLETE` (R159): Every flush write is committed, the flush marker is written and LAST_US is set. -/
  | flushComplete (us : Nat)
  /-- `RIDE_THROUGH_END` (R84): Every warning source has been clear for 20 ms, so the previous mode returns. -/
  | rideThroughEnd
  /-- `CURATOR_RESET` (R353): A Curator reset opens every LSE at once and raises SAF_CUR_RESET. -/
  | curatorReset
  /-- `SHUTDOWN_TEST_DONE` (R523): The destructive shut-down test ends with a pass or a fail. -/
  | shutdownTestDone (results : List BistResult)
  /-- `SHUTDOWN_PARK` (R85): The PLC baseband is reloaded, the backbone rejoined and PARKED set. -/
  | shutdownPark
  /-- `PARK_MAX_EXPIRED` (R86): PARK_MAX after parking, the A16 enters LOADING as on WAKE. -/
  | parkMaxExpired (facts : StartFacts)
  /-- `SL_FRAME_RECEIVED` (R93): A sensor-link frame is checked and its element samples are taken, or held when it is discarded. -/
  | slFrameReceived (n : Fin 16) (bytes : List Byte)
  /-- `SLK_LINK_LOST` (R94): Eight consecutive frames are discarded and the link is lost. -/
  | slkLinkLost (n : Fin 16)
  /-- `SL_LINK_RETRY` (R94): A lost sensor link is retried every 100 ms. -/
  | slLinkRetry (n : Fin 16) (ok : Bool)
  /-- `MCH_BITSTREAM_LOST` (R91): A stuck or out-of-density bitstream declares MB[n] lost. -/
  | mchBitstreamLost (n : Fin 96)
  /-- `MB_INPUT_RESTORED` (R91): MB[n] is taken back 100 ms after both loss criteria clear. -/
  | mbInputRestored (n : Fin 96)
  /-- `SLK_ELEMENT` (R103): An element is saturated for 8 samples or frozen for a quantum, so it fails and its head becomes unusable. -/
  | slkElement (n : Fin 16) (e : Fin 32)
  /-- `SLK_FIELD` (R104): The head field exceeds FIELD_LIM for three quanta and the head is under external field. -/
  | slkField (n : Fin 16)
  /-- `QUANTUM_CLOSE` (R142): The metrology engine closes a quantum when its last sample has passed the common latency. -/
  | quantumClose (dft : List MeterDft) (harm : HarmWindow)
  /-- `MET_DISAGREE` (R109): A tenth consecutive disagreeing quantum moves the phase to its reference. -/
  | metDisagree (m : Fin 17) (p : Fin 3)
  /-- `VERIFICATION_END` (R112): Ten consecutive agreeing quanta end start-up verification of a phase. -/
  | verificationEnd (m : Fin 17) (p : Fin 3)
  /-- `RETURN_TO_PRIMARY` (R113): After 600 agreeing quanta a phase returns from its reference to its primary. -/
  | returnToPrimary (m : Fin 17) (p : Fin 3)
  /-- `MET_TEST_START` (R114): A write of MET.TEST.START starts the scheduled accuracy test. -/
  | metTestStart (a : Agent)
  /-- `ACCURACY_TEST_TIME` (R114): The daily TEST_TIME starts the accuracy test. -/
  | accuracyTestTime
  /-- `ACCURACY_TEST_END` (R114): The accuracy test collects 600 counting quanta or runs out of 6,000 and gives its verdict. -/
  | accuracyTestEnd
  /-- `SEAL_CHANGE` (R119): The metrology seal pair changes state after its filter and a SEAL record is written. -/
  | sealChange (st : Fin 3)
  /-- `LEGAL_COMMIT_GO` (R121): A write of LEGAL.COMMIT.GO starts a commit or refuses it. -/
  | legalCommitGo (a : Agent) (image : Bool)
  /-- `LEGAL_COMMIT_COMPLETE` (R122): The constant records and the commit record of a commit have been written. -/
  | legalCommitComplete
  /-- `TRACKER_CYCLE` (R132): At the end of each resampled cycle the frequency tracker updates f_est and lock. -/
  | trackerCycle (m : Fin 17) (ang : Int) (n : Nat) (vals : List CycSum)
  /-- `MET_FREQ_RANGE` (R132): METER[16] is unlocked or clamped for 10 quanta and a Minor fault is raised. -/
  | metFreqRange
  /-- `FNOM_SET` (R133): The first 10 locked quanta of METER[16] set MET.FNOM. -/
  | fnomSet (meanMhz : Nat)
  /-- `MET_PHASE_SEQ` (R145): A negative or indeterminate sequence for 10 quanta sets SEQ_STK and raises a Minor fault. -/
  | metPhaseSeq (m : Fin 17)
  /-- `MET_NEUTRAL_LOST` (R146): Ten consecutive quanta with the conditions enter the missing-neutral state. -/
  | metNeutralLost (m : Fin 17)
  /-- `NEUTRAL_RESTORED` (R146): Fifty quanta with V0 below 10 % leave the missing-neutral state. -/
  | neutralRestored (m : Fin 17)
  /-- `CYCLE_RMS_REFRESH` (R147): Every half cycle the cycle RMS is refreshed and judged against the voltage event thresholds. -/
  | cycleRmsRefresh (m : Fin 17) (rms : List Nat) (nowMs : Nat)
  /-- `PQ_SLOW_EVENT` (R148): A frequency, unbalance or THD condition holds or clears for its count of quanta. -/
  | pqSlowEvent (kind : Fin 3) (m : Fin 17) (start : Bool) (phases : Fin 8) (extreme : Nat) (nowMs : Nat)
  /-- `HSEL_WRITE` (R143): A write of MET.HSEL clears VALID until the next publication fills MET.HARM. -/
  | hselWrite (a : Agent) (cur : Bool) (phase : Fin 4) (meter : Fin 32)
  /-- `FOLIO_COMMIT` (R155): A boundary's folio commit word is written, committing the boundary. -/
  | folioCommit
  /-- `BATT_WINDOW` (R168): In DORMANT, every BATT_PERIOD the AON domain measures an 800-sample window and accumulates the estimate. -/
  | battWindow (i0 i1 i2 : Nat)
  /-- `TAMPER_LOOP_CHANGE` (R170): A tamper loop opens or closes after its 20 ms filter. -/
  | tamperLoopChange (t : Fin 4) (isOpen : Bool)
  /-- `TAMP_DRV_PULSE` (R170): TAMP_DRV pulses every 125 ms and each dynamic loop takes its extra sample. -/
  | tampDrvPulse (follow : Fin 16)
  /-- `TMP_LOOP` (R170): A dynamic loop misses 8 consecutive pulses, is reported open and raises a Minor fault. -/
  | tmpLoop (t : Fin 4)
  /-- `TMP_STICKY_CLEAR` (R173): Writing 1 to a TMP.STATUS sticky bit ends its action once the cause is gone. -/
  | tmpStickyClear (a : Agent) (w : Nat)
  /-- `RTC_SET_REQUEST` (R183): RTC.SET_CTL.GO submits a time request that is refused, ignored, slewed or stepped. -/
  | rtcSetRequest (a : Agent) (frac : Fin 32768) (now : Fin 32768)
  /-- `BEACON_TIME_COMPARE` (R347): Every 64 s a synchronised node compares network time with its RTC as the beacon source. -/
  | beaconTimeCompare (clk : Nat) (now : Fin 32768)
  /-- `RTC_NOW_READ` (R180): A read of RTC.NOW_SEC latches RTC.NOW_FRAC. -/
  | rtcNowRead (now : Fin 32768)
  /-- `TAR_ARM` (R191): Writing ARM checks the passive calendar and arms it with a bind set. -/
  | tarArm (a : Agent)
  /-- `TAR_DISARM` (R191): Writing DISARM cancels the arming and frees its bind set. -/
  | tarDisarm (a : Agent)
  /-- `BIL_CLOSE_GO` (R196): A write of BIL.CLOSE.GO requests a period close at the next boundary. -/
  | bilCloseGo (a : Agent)
  /-- `BIL_SEL_WRITE` (R176): A write of BIL.SEL latches the selected value and stamp. -/
  | bilSelWrite (a : Agent) (hist : Fin 32) (meter : Fin 32) (qty : Fin 64) (rate : Fin 32)
  /-- `EMERGENCY_REQUEST` (R216): A write of CRD.CTL.EMERG requests emergency credit for the next boundary. -/
  | emergencyRequest (a : Agent)
  /-- `CRD_BALANCE_READ` (R205): A read of CRD.SITE_LO or CRD.OWED_LO latches the high word. -/
  | crdBalanceRead (owed : Bool)
  /-- `VOUCHER_SUBMIT` (R223): VCH.SUBMIT with FORM 0 queues the voucher in VCH.IN for verification. -/
  | voucherSubmit (a : Agent) (carrel : Fin 256) (tag : Fin 256)
  /-- `SHORT_CODE_SUBMIT` (R229): VCH.SUBMIT with FORM 1 queues the short code in VCH.DIGITS for verification. -/
  | shortCodeSubmit (a : Agent) (tag : Fin 256)
  /-- `VOUCHER_QUEUE_SUBMISSION` (R223): The runtime submits a voucher or short code through the voucher queue. -/
  | voucherQueueSubmission (src : Fin 4) (tag : Fin 256) (carrel : Fin 256) (short : Bool) (data : List Byte)
  /-- `VOUCHER_VERIFY` (R224): The submission at the head of the FIFO is verified and becomes pending or is refused. -/
  | voucherVerify
  /-- `SHORT_CODE_LOCKOUT_END` (R231): A short-code lockout ends after 3,600 operating seconds. -/
  | shortCodeLockoutEnd
  /-- `ENERGISE` (R252): OUT command ENERGISE binds a carrel and moves the outlet to READY, latches it, or refuses it. -/
  | energise (a : Agent) (n : Fin 16) (c : Fin 256) (load : List Nat)
  /-- `STOP` (R255): OUT command STOP starts a stop that ramps. -/
  | outStop (a : Agent) (n : Fin 16)
  /-- `PRECHARGE` (R250): OUT command PRECHARGE moves a DC outlet from CABLE_CHECK to PRECHARGE. -/
  | outPrecharge (a : Agent) (n : Fin 16) (diffMv : Nat)
  /-- `DELIVER` (R250): OUT command DELIVER moves PRECHARGE to ENERGISED and lifts the 2 A clamp. -/
  | outDeliver (a : Agent) (n : Fin 16)
  /-- `RECHECK` (R260): OUT command RECHECK runs a weld check to clear a weld FAULT. -/
  | outRecheck (a : Agent) (n : Fin 16)
  /-- `CLEAR` (R260): OUT command CLEAR starts the test that clears an RCM trip. -/
  | outClear (a : Agent) (n : Fin 16)
  /-- `ACD_DOWN` (R265): OUT command ACD_DOWN turns on MOVE_DN of a connection device. -/
  | acdDown (a : Agent) (n : Fin 16)
  /-- `ACD_UP` (R265): OUT command ACD_UP turns on MOVE_UP, or latches it after a stop. -/
  | acdUp (a : Agent) (n : Fin 16)
  /-- `RCM_TEST` (R259): OUT command RCM_TEST drives RCM_TST for a test of the sensor. -/
  | rcmTest (a : Agent) (n : Fin 16)
  /-- `OUT_CMD_UNDEFINED` (R252): An OUT[n].CTL command code of 10 to 255 is refused with code 31. -/
  | outCmdUndefined (a : Agent) (n : Fin 16) (cmd : Fin 256)
  /-- `CP_CTRL_WRITE` (R242): A write of OUT[n].CP_CTRL sets the pilot generator, or is ignored with OUT_CP_REFUSED. -/
  | cpCtrlWrite (a : Agent) (n : Fin 16) (mode : Fin 4) (duty : Fin 1024)
  /-- `OUT_LIMIT_WRITE` (R248): A write of OUT[n].LIMIT.I_MAX recomputes I_CAP within 1 ms. -/
  | outLimitWrite (a : Agent) (n : Fin 16) (iMax : Nat)
  /-- `PILOT_STATE_CHANGE` (R245): The decoded pilot state changes and the outlet acts on vehicle presence and charging state. -/
  | pilotStateChange (n : Fin 16) (high : Int) (low : Int) (load : List Nat)
  /-- `OUT_PILOT_ERR` (R246): A decoded E or 10 INV periods raises a pilot error and stops the outlet. -/
  | outPilotErr (n : Fin 16)
  /-- `PROXIMITY_CHANGE` (R247): The proximity measurement changes cable capacity or presence. -/
  | proximityChange (n : Fin 16) (ohms : Nat)
  /-- `LOCK_FEEDBACK_CHANGE` (R266): LOCK_FB[n] confirms or releases the lock. -/
  | lockFeedbackChange (n : Fin 16) (confirmed : Bool)
  /-- `READY_T_ELAPSED` (R250): READY_T passes without closing and the outlet returns to CONNECTED. -/
  | readyTElapsed (n : Fin 16)
  /-- `CLOSE_T_ELAPSED` (R250): CLOSE_T elapses: a DC outlet enters CABLE_CHECK, an unverified AC outlet opens with OUT_CLOSE_FAIL. -/
  | closeTElapsed (n : Fin 16)
  /-- `CLOSURE_VERIFIED` (R256): AC load-side voltages reach 80 % of supply and the outlet is ENERGISED. -/
  | closureVerified (n : Fin 16) (load : List Nat) (supply : List Nat)
  /-- `RAMP_END` (R255): Outlet current falls below 1 A or 200 ms pass, and the coils go off. -/
  | rampEnd (n : Fin 16)
  /-- `WELD_CHECK_START` (R258): DROP_T after coils off, the weld check window starts. -/
  | weldCheckStart (n : Fin 16) (vLoad : Nat)
  /-- `WELD_VERDICT` (R258): The weld window ends with an open, welded or no verdict. -/
  | weldVerdict (n : Fin 16) (w : WeldWindow) (load : List Nat)
  /-- `COOL_OFF` (R250): COOL goes off 30 s after OPENING ends. -/
  | coolOff (n : Fin 16)
  /-- `OUT_RCM_TRIP` (R259): A filtered RCM trip turns the coils off within 1 ms and latches the trip. -/
  | outRcmTrip (n : Fin 16)
  /-- `RCM_TEST_RESULT` (R259): The RCM test ends with a pass or OUT_RCM_TEST. -/
  | rcmTestResult (n : Fin 16) (lowMs : Option Nat) (highMs : Option Nat) (load : List Nat)
  /-- `FAULT_CLEAR_A_HELD` (R260): A decoded A held for 1 s clears FAULT after a trip or pilot error. -/
  | faultClearAHeld (n : Fin 16) (rcmHealthy : Bool)
  /-- `INSULATION_RESULT` (R261): A pair of insulation states gives one result in ohm per volt. -/
  | insulationResult (n : Fin 16) (vpA : Int) (vnA : Int) (vpB : Int) (vnB : Int)
  /-- `SETPOINT` (R264): Every SP_PERIOD each module is sent its clamped SETPOINT frame for the outlet state. -/
  | setpoint (n : Fin 16)
  /-- `STATUS` (R263): A STATUS frame is received from a power module. -/
  | statusFrame (bus : Fin 2) (node : Fin 128) (bytes : List Byte)
  /-- `SHELF` (R263): A SHELF frame with shelfmark bytes is received from a power module. -/
  | shelfFrame (bus : Fin 2) (node : Fin 128) (bytes : List Byte)
  /-- `OUT_MOD_LOST` (R264): No valid STATUS for 5 × SP_PERIOD: the module is lost and the outlet stops. -/
  | outModLost (n : Fin 16) (k : Fin 4)
  /-- `ACD_END_POSITION` (R265): The end position of a connection device move is reached. -/
  | acdEndPosition (n : Fin 16) (lowered : Bool)
  /-- `OUT_ACD_TIMEOUT` (R265): A device move exceeds ACD_T and ends with a Minor fault. -/
  | outAcdTimeout (n : Fin 16)
  /-- `CAN_BUS_OFF` (R263): A CAN FD bus goes bus-off and a Minor fault is raised. -/
  | canBusOff (b : Fin 2)
  /-- `RESERVE` (R274): CRL command RESERVE allocates a carrel Reserved for an outlet. -/
  | crlReserve (a : Agent) (carrel : Fin 256) (outlet : Fin 16)
  /-- `AUTHORISE` (R274): CRL command AUTHORISE copies the authorisation form into a carrel. -/
  | crlAuthorise (a : Agent) (carrel : Fin 256) (outlet : Fin 16)
  /-- `CANCEL` (R274): CRL command CANCEL frees a Reserved carrel or closes an Authorised one. -/
  | crlCancel (a : Agent) (carrel : Fin 256)
  /-- `CLOSE` (R274): CRL command CLOSE closes or starts closing a carrel. -/
  | crlClose (a : Agent) (carrel : Fin 256)
  /-- `ACK` (R282): CRL command ACK frees a Closed carrel whose SESSION matches. -/
  | crlAck (a : Agent) (carrel : Fin 256)
  /-- `LIMIT` (R279): CRL command LIMIT copies new current and power limits into a carrel. -/
  | crlLimit (a : Agent) (carrel : Fin 256)
  /-- `CRL_CMD_UNDEFINED` (R274): A CRL command code of 7 to 255 is refused with code 11. -/
  | crlCmdUndefined (a : Agent) (carrel : Fin 256) (cmd : Fin 256)
  /-- `RESERVATION_EXPIRED` (R272): RES_T elapses at a boundary and the Reserved carrel becomes Free. -/
  | reservationExpired (carrel : Fin 256)
  /-- `AUTHORISATION_EXPIRED` (R272): AUTH_T elapses at a boundary and the Authorised carrel is Closed. -/
  | authorisationExpired (carrel : Fin 256)
  /-- `SUSPENSION_EXPIRED` (R272): A carrel Suspended longer than SUSP_MAX enters Closing. -/
  | suspensionExpired (carrel : Fin 256)
  /-- `VPL_CTL_WRITE` (R295): A write of VPL[n].CTL enables or disables a Green PHY instance, or sets TX_ATTEN. -/
  | vplCtlWrite (a : Agent) (n : Fin 16) (en : Bool) (atten : Fin 64)
  /-- `CONVERTER_CHECK_PASSED` (R297): The converter check passes and the instance enters LISTEN. -/
  | converterCheckPassed (n : Fin 16)
  /-- `VPL_TX_FAULT` (R296): A transmitter fault becomes a forcing condition of the instance. -/
  | vplTxFault (n : Fin 16)
  /-- `CM_SLAC_PARM_REQ` (R298): CM_SLAC_PARM.REQ is answered and the instance enters SOUNDING. -/
  | cmSlacParmReq (n : Fin 16) (runId : Nat)
  /-- `CM_START_ATTEN_CHAR_IND` (R300): CM_START_ATTEN_CHAR.IND opens the MNBC sounding window. -/
  | cmStartAttenCharInd (n : Fin 16) (runId : Nat) (numSounds : Fin 256)
  /-- `SOUND_RECEIVED` (R299): A sound is received and added to the attenuation profile. -/
  | soundReceived (n : Fin 16) (ok : Bool) (att : List (List Nat))
  /-- `CM_SLAC_MATCH_REQ` (R297): CM_SLAC_MATCH.REQ is answered with NID and NMK and the instance enters MATCHED. -/
  | cmSlacMatchReq (n : Fin 16) (runId : Nat) (evMac : Nat)
  /-- `CM_VALIDATE_REQ` (R299): CM_VALIDATE.REQ is answered that validation is not required. -/
  | cmValidateReq (n : Fin 16)
  /-- `CM_AMP_MAP_REQ` (R299): CM_AMP_MAP.REQ is ignored. -/
  | cmAmpMapReq (n : Fin 16)
  /-- `MATCHED_STATION_FRAME` (R297): A valid frame from the matched station under the NMK links the instance or refreshes supervision. -/
  | matchedStationFrame (n : Fin 16)
  /-- `GP_FRAME_RECEIVED` (R303): A Green PHY frame for the runtime is delivered or buffered. -/
  | gpFrameReceived (n : Fin 16) (bytes : List Byte)
  /-- `SLAC_INIT_ELAPSED` (R297): SLAC_INIT elapses in LISTEN and failure 1 is posted. -/
  | slacInitElapsed (n : Fin 16)
  /-- `MNBC_ELAPSED` (R297): The sounding window ends and the instance matches or returns to LISTEN. -/
  | mnbcElapsed (n : Fin 16)
  /-- `MATCH_T_ELAPSED` (R297): MATCH_T elapses in MATCHING and failure 3 is posted. -/
  | matchTElapsed (n : Fin 16)
  /-- `JOIN_T_ELAPSED` (R297): JOIN_T elapses in MATCHED and the instance returns to STARTING. -/
  | joinTElapsed (n : Fin 16)
  /-- `VPL_LINK_LOST` (R297): No valid frame for LINK_T and the instance returns to STARTING. -/
  | vplLinkLost (n : Fin 16) (ms : Nat)
  /-- `FFT_REQUEST` (R293): A symbol end requests a transform from the shared FFT engines. -/
  | fftRequest (req : Fin 17) (now : Nat)
  /-- `FFT_COMPLETE` (R293): A transform completes and its result returns to the requester. -/
  | fftComplete (req : Fin 17) (now : Nat)
  /-- `VPL_FFT_OVERRUN` (R294): A transform not complete within 23.4 µs discards the symbol. -/
  | vplFftOverrun (req : Fin 17) (now : Nat)
  /-- `SELECTIVE_ACK_RECEIVED` (R301): A selective acknowledgement makes the instance retransmit failed physical blocks. -/
  | selectiveAckReceived (n : Fin 16) (failed : List Nat)
  /-- `CYCLE_START` (R329): A coordinator starts a poll cycle and sends its central beacon. -/
  | cycleStart (now : Fin 32768) (clk zcAge : Nat)
  /-- `RELAY_BEACON_SLOT` (R331): A named relay sends its compact relay beacon in its slot. -/
  | relayBeaconSlot (clk : Nat)
  /-- `SAFETY_SLOT` (R381): A safety group member sends its safety message in its slot and on ETH[1]. -/
  | safetySlot
  /-- `JOIN_MINI_SLOT` (R341): A listening node sends a compact join request in a join mini-slot. -/
  | joinMiniSlot
  /-- `BEACON` (R330): A central beacon is received, synchronising the node and carrying flags and votes. -/
  | beacon (fc : Nat) (d : Option (List Byte)) (clk : Nat)
  /-- `RELAY_BEACON` (R331): A relay beacon is received and used for synchronisation. -/
  | relayBeacon (r : Fin 16) (f : List Byte) (clk : Nat)
  /-- `SAFETY_FRAME` (R384): A compact safety frame is received and its copy judged for acceptance. -/
  | safetyFrame (slot : Fin 64) (f : Option (List Byte))
  /-- `JOIN_REQUEST` (R341): A join request is received and passed to the coordinator. -/
  | joinRequest (via : Fin 4096) (f : List Byte)
  /-- `POLL_START` (R333): The coordinator starts the next poll of a member along its path. -/
  | pollStart (left : Nat) (bufs : List TxBuf)
  /-- `POLL` (R333): A POLL is received and forwarded or answered. -/
  | poll (fc : Nat) (p : List Byte) (bufs : List TxBuf) (pos : Fin 256)
  /-- `DATA` (R333): A DATA frame is received and acknowledged with a SACK. -/
  | dataFrame (fc : Nat) (blocks : List (Option (List Byte))) (meas : RxMeas) (long : Nat) (pos : Fin 256)
  /-- `NULL` (R333): A NULL frame answers a POLL. -/
  | nullFrame (fc : Nat) (pos : Fin 256)
  /-- `SACK` (R333): A SACK is received and failed blocks are retransmitted. -/
  | sackFrame (fc : Nat) (pos : Fin 256)
  /-- `FRAME_ABSENT` (R333): No preamble within IFS plus 120 µs: the frame is absent and is repeated or the poll ends. -/
  | frameAbsent (hop : Nat)
  /-- `EPOCH_START` (R336): At each epoch the coordinator computes paths of least cost. -/
  | epochStart
  /-- `TONE_MAP_CHOOSE` (R328): After every 16th frame in an interval the receiver chooses a new tone map. -/
  | toneMapChoose (nbr : Fin 4096) (k : Fin 6)
  /-- `TONEMAP` (R326): A TONEMAP management message is received and acknowledged. -/
  | toneMap (src : Fin 4096) (t : ToneMap)
  /-- `LINKS` (R336): A LINKS message reports incoming link costs. -/
  | links (src : Fin 4096) (l : List LinkReport)
  /-- `ADMIT_A` (R342): The coordinator receives a joiner's ephemeral key. -/
  | admitA (long : Nat) (qj : List Byte)
  /-- `ADMIT_B` (R342): The joiner receives the coordinator's key and Tc. -/
  | admitB (coord : Nat) (qc tc : List Byte)
  /-- `ADMIT_C` (R342): The coordinator receives the joiner's Tj. -/
  | admitC (tj : List Byte)
  /-- `ADMIT_D` (R342): The joiner receives its node identifier and the wrapped NEK. -/
  | admitD (node : Fin 4096) (idx : Fin 2) (wrapped : List Byte)
  /-- `NEK_UPDATE` (R344): A member receives a new NEK wrapped under its KEK. -/
  | nekUpdate (idx : Fin 2) (wrapped : List Byte)
  /-- `VOTE_CALL` (R348): A member receives a group activation vote call. -/
  | voteCall (id : Fin 65536) (hash act deadline : Nat) (named : List Nat)
  /-- `VOTE_ANS` (R348): The coordinator receives a member's vote answer. -/
  | voteAns (src : Fin 4096) (id : Fin 65536) (ready : Bool)
  /-- `VOTE_DEADLINE` (R348): At DEADLINE the vote commits or aborts. -/
  | voteDeadline
  /-- `LISTEN_T_ELAPSED` (R337): LISTEN_T passes without a beacon and an eligible node becomes coordinator. -/
  | listenTElapsed
  /-- `BBN_UNJOINED` (R337): A node has not joined 60 s after listening began. -/
  | bbnUnjoined
  /-- `BBN_COORD_LOST` (R339): No beacon for LOST_CYC cycles: the member starts listening again. -/
  | bbnCoordLost
  /-- `COORD_TAKEOVER` (R339): An eligible node's takeover wait ends and it takes the coordinator role. -/
  | coordTakeover
  /-- `NEK_REPLACE` (R344): Every 24 h the coordinator replaces the NEK and announces the switch. -/
  | nekReplace
  /-- `BBN_TX_FAULT` (R315): An over-current at BB_TX disables that path until the next start. -/
  | bbnTxFault (p : Fin 3)
  /-- `SAFETY_SAMPLE` (R360): Each half samples its inputs, evaluates every function and computes its LSE and inhibit commands. -/
  | safetySample (half : SafHalf) (high : Nat) (low : Nat) (masked : Nat)
  /-- `SAF_DISCREPANCY` (R370): A pair's discrepancy count exceeds L and the function enters FAULT. -/
  | safDiscrepancy (half : SafHalf) (f : Fin 24)
  /-- `EXCHANGE_FRAME` (R356): An exchange frame from the other half is compared with the frame sent. -/
  | exchangeFrame (dst : SafHalf) (frame : Option Nat) (late : Bool)
  /-- `SAF_HALVES` (R356): Two consecutive disagreeing exchanges raise a Major fault. -/
  | safHalves
  /-- `CURATOR_HOLD_EXPIRED` (R353): The Curator has not refreshed its gate command within 2 ms, so transistor one opens. -/
  | curatorHoldExpired
  /-- `LSE_TEST_REQUEST` (R363): A write of SAF.TEST_REQ requests a switch test of LSE[n]. -/
  | lseTestRequest (a : Agent) (mask : Fin 65536)
  /-- `LSE_TEST_PERIODIC` (R363): A switch test falls due every 86,400 operating seconds. -/
  | lseTestPeriodic (n : Fin 16)
  /-- `LSE_TEST_END` (R363): A switch test ends, and a failing half holds its transistor off. -/
  | lseTestEnd (n : Fin 16) (curatorOk : Bool) (keeperOk : Bool)
  /-- `TEST_PULSE` (R366): A test pulse on TPO[t] checks its inputs and the readback. -/
  | testPulse (t : Fin 8) (fails : Nat) (readbackOk : Bool)
  /-- `RESET_INPUT_EDGE` (R376): A falling edge of a reset input after 100 ms to 3 s high resets functions in AWAIT. -/
  | resetInputEdge (k : Fin 48) (highMs : Nat)
  /-- `SAF_RESET_STUCK` (R376): A reset input high longer than 3 s raises a Notice fault. -/
  | safResetStuck (k : Fin 48)
  /-- `SAF_TWOHAND_SYNC` (R378): The 500 ms synchronism timer expires without both hands. -/
  | safTwohandSync (f : Fin 24)
  /-- `CAT1_STOP_DELAY` (R377): STOP1_T after a category 1 stop, LSE[n] of DC outlets opens. -/
  | cat1StopDelay (f : Fin 24)
  /-- `SAFETY_ETH_FRAME` (R383): A safety frame on ETH[1] is received and judged for acceptance. -/
  | safetyEthFrame (payload : List Byte)
  /-- `SAF_CHAN_LOST` (R385): A channel carries no accepted copy for 8 SEQs and SINGLE is set. -/
  | safChanLost (r : Fin 16) (backbone : Bool)
  /-- `SINGLE_T_ELAPSED` (R385): SINGLE_T on one channel ends and the sender's remote inputs read demand. -/
  | singleTElapsed (r : Fin 16)
  /-- `PAUSE_TIMEOUT` (R385): 30 s after a PAUSE copy, missing backbone copies count again. -/
  | pauseTimeout (r : Fin 16)
  /-- `SAF_REMOTE_SILENT` (R386): No copy accepted for WD_T and the remote input reads demand. -/
  | safRemoteSilent (r : Fin 16)
  /-- `SAFE_SEAL_CHANGE` (R390): The SAFE_SEAL pair changes state after its filter. -/
  | safeSealChange (sealA : Bool) (sealB : Bool)
  /-- `SAF_CONFIRM_WRITE` (R391): A write of SAF.CONFIRM confirms the safety parameter block or is ignored. -/
  | safConfirmWrite (a : Agent) (crc : Nat)
  /-- `LSW_ENABLE_REQUEST` (R398): REQ = 1 on LSW.CH[c].CTL requests an enable under R49 to R56. -/
  | lswEnableRequest (a : Agent) (c : Fin 40)
  /-- `LSW_DISABLE_REQUEST` (R398): REQ = 2 on LSW.CH[c].CTL requests a disable. -/
  | lswDisableRequest (a : Agent) (c : Fin 40)
  /-- `LSW_CLR` (R406): CLR clears a channel latch and sets its request level to 0. -/
  | lswClr (a : Agent) (c : Fin 40)
  /-- `START_ON_ENABLE` (R401): Channels with START_ON are enabled 2 ms apart after START_TEST. -/
  | startOnEnable (c : Fin 40)
  /-- `LSW_NO_DISCHARGE` (R398): The output is not below 0.5 V within 20 ms and the shut-down counts as complete. -/
  | lswNoDischarge (c : Fin 40)
  /-- `COIL_PULL_END` (R402): PULL_T ends and a COIL channel drops to its hold duty. -/
  | coilPullEnd (c : Fin 40) (vlsMv : Nat)
  /-- `INRUSH_END` (R405): The inrush window ends and the channel limits at LIMIT. -/
  | inrushEnd (c : Fin 40)
  /-- `FOLDBACK_ENTRY` (R405): Current above LIMIT for 40 µs puts the channel in fold-back. -/
  | foldbackEntry (c : Fin 40)
  /-- `FOLDBACK_TIMEOUT` (R405): 100 ms in fold-back switches the channel off as a thermal shutdown. -/
  | foldbackTimeout (c : Fin 40)
  /-- `THERMAL_SHUTDOWN` (R406): A junction at 170 °C switches the channel off, or latches it at the ninth shutdown. -/
  | thermalShutdown (c : Fin 40) (tj : Int)
  /-- `THERMAL_COOLED` (R406): A junction below 150 °C ends the heat condition and the channel restarts. -/
  | thermalCooled (c : Fin 40) (tj : Int)
  /-- `RESTARTS_RESET` (R406): 60 s in ON without a thermal shutdown returns RESTARTS to 0. -/
  | restartsReset (c : Fin 40)
  /-- `LSW_GROUP_UV` (R407): VLS[g] below 7.5 V for more than 50 µs forces the group off. -/
  | lswGroupUv (g : Fin 5) (mv : Nat)
  /-- `GROUP_UV_END` (R407): VLS[g] above 8.0 V for 10 ms ends the group condition and restarts begin. -/
  | groupUvEnd (g : Fin 5) (mv : Nat)
  /-- `GROUP_RESTART` (R407): Each further channel of a restored group restarts 2 ms after the one before. -/
  | groupRestart (g : Fin 5)
  /-- `LSW_OPEN_LOAD` (R408): An output above 2.0 V for 20 ms in OFF is judged open. -/
  | lswOpenLoad (c : Fin 40)
  /-- `LSW_CLAMP` (R409): A switch-off below −3 V latches the channel. -/
  | lswClamp (c : Fin 40)
  /-- `LSW_BUDGET` (R410): LSW.POWER above 4 W for 10 s raises a Minor fault. -/
  | lswBudget (mw : Nat)
  /-- `HEATER_SENSOR_READ` (R412): Every 10 s the heater sensor is read and the heater rule runs. -/
  | heaterSensorRead (h : Fin 8) (reading : Option (Int × Nat))
  /-- `DPY_ENABLE_REQUEST` (R420): REQ = 1 on DPY.CTL requests the user display on. -/
  | dpyEnableRequest (a : Agent)
  /-- `DPY_DISABLE_REQUEST` (R420): REQ = 2 on DPY.CTL requests the user display off. -/
  | dpyDisableRequest (a : Agent)
  /-- `DPY_CLR` (R420): CLR ends forcing condition 5 of the display. -/
  | dpyClr (a : Agent)
  /-- `CRACK_MEASURE` (R422): The crack loop is measured and three out-of-range results are a crack. -/
  | crackMeasure (ohms : Nat)
  /-- `DPY_RAIL` (R423): A rail outside ±10 % for 1 ms or a converter over-current is a rail fault. -/
  | dpyRail (rail : Fin 4)
  /-- `ELVSS_WRITE` (R423): A write of DPY.RAIL.ELVSS steps the rail 0.1 V per frame from the next frame. -/
  | elvssWrite (a : Agent) (v : Fin 64)
  /-- `DPY_UNDERRUN` (R422): A line not fetched in time is repeated and counted. -/
  | dpyUnderrun
  /-- `BLINK_ENABLE` (R424): Setting BLINK[b].CTL.EN starts a blink unit in its shown phase. -/
  | blinkEnable (a : Agent) (b : Fin 8) (layer : Fin 4) (onF offF : Fin 256)
  /-- `ALS_READ` (R425): Every 250 ms the light sensor is read and the brightness target updated. -/
  | alsRead (reading : Option Nat)
  /-- `BDY_REG_GO` (R430): BDY.REG[r].CTL.GO requests an update of a SOURCE 5 region. -/
  | bdyRegGo (a : Agent) (r : Fin 8)
  /-- `LEGAL_UPDATE_START` (R431): A region update starts at a positive frame after its content is committed. -/
  | legalUpdateStart (r : Fin 8) (die : Int)
  /-- `BDY_FRAME` (R426): A 20 ms legal display frame drives its segments after writing the ledger. -/
  | bdyFrame (die : Int)
  /-- `LEGAL_UPDATE_END` (R431): A region update completes and any pending request may start. -/
  | legalUpdateEnd (r : Fin 8)
  /-- `BDY_RAIL` (R434): A ±15 V rail out of tolerance stops driving and defers recovery. -/
  | bdyRail
  /-- `NFC_PING` (R439): A detection ping measures the antenna and wakes the reader or tracks the baseline. -/
  | nfcPing (amp ph : Int)
  /-- `NFC_POLL` (R441): The reader runs its enumeration rounds and lists cards. -/
  | nfcPoll (rounds : List PollRound)
  /-- `NFC_ANTENNA` (R446): An antenna fault turns the carrier off until the next start. -/
  | nfcAntenna
  /-- `NFC_DONE` (R445): A write of NFC.CTL.DONE returns the reader to DETECT. -/
  | nfcDone (a : Agent)
  /-- `NFC_ACTIVE_TIMEOUT` (R445): 30 s without a frame return ACTIVE to DETECT. -/
  | nfcActiveTimeout
  /-- `CONTACTLESS_COMMAND` (R438): A contactless command item is exchanged with an activated card. -/
  | contactlessCommand (response : List Nat) (ends : Bool)
  /-- `TAG_FIELD_ON` (R449): A field appears and the tag enters IDLE. -/
  | tagFieldOn
  /-- `TAG_FIELD_LOST` (R449): No field for 5 ms turns the tag off. -/
  | tagFieldLost
  /-- `REQA` (R449): REQA or WUPA moves the tag to READY with ATQA. -/
  | reqa (wupa : Bool)
  /-- `SELECT` (R449): SELECT at both cascade levels with the tag's UID opens it. -/
  | tagSelect (uid : List Byte)
  /-- `FOLIO_READ` (R450): FOLIO_READ returns a chunk of a page, mapping page 3 on first read. -/
  | folioRead (page chunk : Fin 256)
  /-- `FOLIO_WRITE` (R450): FOLIO_WRITE writes a chunk of a permitted page. -/
  | folioWrite (page chunk : Fin 256) (data : List Byte)
  /-- `PASS` (R449): PASS with the password raises the tag level to 1. -/
  | tagPass (pwd : Word)
  /-- `CHALLENGE` (R450): CHALLENGE returns NT and MT for the selected key. -/
  | tagChallenge (key : Fin 256) (nr : List Byte)
  /-- `PROVE` (R449): PROVE with a correct MR raises the tag level to 2 or 3. -/
  | tagProve (mr : List Byte)
  /-- `HLTA` (R449): HLTA halts the tag and releases the mapping. -/
  | hlta
  /-- `TAG_FRAME_ERROR` (R449): A frame error or unknown command returns the tag to IDLE. -/
  | tagFrameError
  /-- `TAG_LOCKOUT_END` (R451): The 60 s authentication lockout ends. -/
  | tagLockoutEnd
  /-- `TAG_MAPPING_END` (R455): A page 3 mapping ends after 10 s. -/
  | tagMappingEnd
  /-- `TAG_COMMAND_TIMEOUT` (R456): A field command not complete within 5 ms is abandoned. -/
  | tagCommandTimeout
  /-- `TAG_SNAPSHOT` (R454): Every SNAP_PERIOD a snapshot and digest are written to tag memory. -/
  | tagSnapshot
  /-- `SNAP` (R454): TAG.CTL.SNAP writes a snapshot with new runtime bytes. -/
  | tagSnap (a : Agent)
  /-- `LOAD` (R457): TAG.CTL.LOAD copies a page into TAG.BUF. -/
  | tagLoad (a : Agent)
  /-- `STORE` (R457): TAG.CTL.STORE writes TAG.BUF to a page. -/
  | tagStore (a : Agent)
  /-- `TAG_WIRED_BUSY` (R456): A wired transfer stalled 5 ms on an owned page is not done. -/
  | tagWiredBusy
  /-- `LC_REQUEST` (R462): A write of KEY.LC_REQ makes a life-cycle transition pending or refuses it. -/
  | lcRequest (a : Agent) (target : Fin 16) (facts : StartFacts)
  /-- `LC_CANCEL` (R462): KEY.LC_REQ with CANCEL clears the pending transition. -/
  | lcCancel (a : Agent)
  /-- `GENERATE` (R470): Key command GENERATE draws a new key into a slot. -/
  | keyGenerate (a : Agent) (slot : Fin 64)
  /-- `DERIVE` (R471): Key command DERIVE derives a key from a KDF parent. -/
  | keyDerive (a : Agent) (slot aux : Fin 64)
  /-- `IMPORT_PUBLIC` (R470): Key command IMPORT_PUBLIC takes a public key from KEY.ARG. -/
  | keyImportPublic (a : Agent) (slot : Fin 64)
  /-- `IMPORT_WRAPPED` (R472): Key command IMPORT_WRAPPED unwraps a key under ECDH and checks its KCV. -/
  | keyImportWrapped (a : Agent) (slot aux : Fin 64)
  /-- `KEY_CHANGE` (R473): Key command KEY_CHANGE replaces a key vouched for by the key in force. -/
  | keyChange (a : Agent) (slot : Fin 64)
  /-- `ERASE` (R470): Key command ERASE empties a slot and wipes its persistent copy. -/
  | keyErase (a : Agent) (slot : Fin 64)
  /-- `READ_PUBLIC` (R470): Key command READ_PUBLIC returns a public key to KEY.ARG. -/
  | keyReadPublic (slot : Fin 64)
  /-- `KEY_ENTROPY` (R478): An entropy health test fails and the DRBG refuses requests. -/
  | keyEntropy
  /-- `VERIFY` (R481): UPD command VERIFY checks a staged colophon and starts staging or refuses it. -/
  | updVerify (a : Agent) (colophon : List Byte)
  /-- `STAGING_COMPLETE` (R482): Staged parts are read back and hashed, and the update engine is READY or refuses. -/
  | stagingComplete (hashesOk : Bool)
  /-- `ARM` (R482): UPD command ARM writes the arming record and registers the activation bind set. -/
  | updArm (a : Agent)
  /-- `ABANDON` (R482): UPD command ABANDON frees the bind set and empties the idle bank. -/
  | updAbandon (a : Agent)
  /-- `CONFIRM` (R485): UPD command CONFIRM confirms the bank on trial and raises MIN_SVN. -/
  | updConfirm (a : Agent)
  /-- `UPD_ACTIVATION` (R487): At the binding instant the activation rechecks, shuts down, flushes, flips the bank and reloads. -/
  | updActivation (facts : StartFacts) (dft : List MeterDft) (harm : HarmWindow) (now : Fin 32768)
  /-- `UPD_TRIAL_CONFIRM` (R485): 600 operating seconds without a Major fault confirm the bank on trial. -/
  | updTrialConfirm
  /-- `FAULT_RAISE` (R491): A raised fault opens or merges into an open-table entry and starts its reaction. -/
  | faultRaise (code : Fin 65536) (detail : Nat)
  /-- `NOTICE_CLOSE` (R493): A Notice entry closes 1 s after its primary fault. -/
  | noticeClose (entry : Fin 32)
  /-- `FLT_ACK` (R493): Writing an entry number to FLT.ACK closes a Minor entry. -/
  | fltAck (a : Agent) (entry : Fin 32)
  /-- `ERR_HOLD_WRITE` (R496): A write of FLT.CTL.ERR_HOLD holds ERR_N low for an open Major entry. -/
  | errHoldWrite (a : Agent) (v : Bool)
  /-- `ERR_N_RELEASE` (R496): The 10 ms minimum low time of ERR_N ends. -/
  | errNRelease
  /-- `FLT_INJECT` (R498): FLT.INJECT raises a fault code as if its source had raised it. -/
  | fltInject (a : Agent) (code : Fin 65536) (go : Bool)
  /-- `FLT_INJ_MEM` (R498): FLT.INJ_MEM arms a bit inversion of the next write to a word. -/
  | fltInjMem (a : Agent) (arm : Bool) (mem : Fin 8) (bits : Fin 4) (word : Nat)
  /-- `ECC_ERROR` (R490): An ECC error on a read is corrected or reported by its memory class. -/
  | eccError (mem : MemClass) (correctable : Bool) (loc : Nat)
  /-- `RUNTIME_RECORD` (R510): The runtime posts a record item to the recorder-input queue. -/
  | runtimeRecord (ty : Fin 256) (payload : List Byte)
  /-- `DRAIN_TIMER` (R504): 2 s after the last drain, a drain of the recorder queue starts. -/
  | drainTimer
  /-- `EVR_FLUSH` (R504): EVR.CTL.FLUSH starts a drain. -/
  | evrFlush (a : Agent)
  /-- `DRAIN_COMPLETE` (R504): A drain has written its records and CIRC_HEAD. -/
  | drainComplete
  /-- `SLICE_START` (R521): Every 10 ms the next periodic slice requests its P5 grant. -/
  | sliceStart
  /-- `SLICE_RUN` (R522): On its grant the slice locks, saves, tests and restores 1 KiB. -/
  | sliceRun (corrected : Bool) (bad : Option Nat) (fail : Option BistFail)
  /-- `PMC_WRAP` (R526): A counter wraps, sets OVF and posts a sample when sampling. -/
  | pmcWrap (k : Fin 48) (tick loc : Nat)
  /-- `PMC_CLR` (R525): Writing PMC[k].CFG.CLR sets a counter to 0. -/
  | pmcClr (a : Agent) (k : Fin 48)
  /-- `PMC_COUNT_READ` (R527): A read of CNT_LO latches CNT_HI and PMC.TICK. -/
  | pmcCountRead (a : Agent) (k : Fin 48) (count tick : Nat)
  /-- `READ` (R531): Host transaction READ returns words with a CRC. -/
  | hpRead (addr : Nat) (count : Fin 256)
  /-- `WRITE` (R531): Host transaction WRITE checks its CRC and applies words in order. -/
  | hpWrite (addr : Nat) (words : List Nat) (crc : Nat)
  /-- `HP_STATUS_READ` (R531): Host transaction STATUS returns HP.STATUS with a CRC. -/
  | hpStatusRead
  /-- `HP_TIMEOUT` (R532): After 2 ms without an answer the host transaction is abandoned. -/
  | hpTimeout
  /-- `AUTH_CHAL` (R534): HP.AUTH.CHAL draws a new challenge. -/
  | authChal
  /-- `AUTH_GO` (R534): HP.AUTH.GO checks the response and grants or refuses the level. -/
  | authGo (lvl : Fin 4)
  /-- `AUTH_DROP` (R536): HP.AUTH.DROP returns the session to Observer. -/
  | authDrop
  /-- `HP_LOCKOUT_END` (R536): The 60 s authentication lockout ends. -/
  | hpLockoutEnd
  /-- `HP_SESSION_IDLE` (R536): IDLE_T without a transaction returns the session to Observer. -/
  | hpSessionIdle
  /-- `DESC_HANDOVER` (R539): Writing OWN = 1 hands a descriptor to the A16. -/
  | descHandover (d : Fin 32) (kind tag : Fin 256)
  /-- `DESC_TRANSFER_START` (R539): The A16 takes the next handed-over descriptor and starts its transfer. -/
  | descTransferStart
  /-- `DESC_TRANSFER_DONE` (R539): A transfer ends and the descriptor is handed back with RESULT. -/
  | descTransferDone (r : OspiResult)
  /-- `PEEK` (R546): Queue operation PEEK copies the head item. -/
  | qPeek (a : Agent)
  /-- `POP` (R546): Queue operation POP copies and removes the head item. -/
  | qPop (a : Agent)
  /-- `PUSH` (R546): Queue operation PUSH enqueues Q.ITEM as one item. -/
  | qPush (a : Agent)
  /-- `DISCARD` (R546): Queue operation DISCARD removes the head item. -/
  | qDiscard (a : Agent)
  /-- `Q_FLUSH` (R544): Q[n].CTL.FLUSH empties a queue in one fabric cycle. -/
  | qFlush (a : Agent) (n : Fin 32)
  /-- `WM_STK_CLEAR` (R545): W1C of WM_STK re-arms the watermark capture. -/
  | wmStkClear (a : Agent) (n : Fin 32)
  /-- `ANNEX_SPILL` (R541): An item in the tail register is written into the annex at P5. -/
  | annexSpill (n : Fin 32)
  /-- `ANNEX_REFILL` (R541): The oldest annex item refills stage 7 at P5. -/
  | annexRefill (n : Fin 32) (bad : Fin 65536)
  /-- `OPEN` (R547): BND command OPEN allocates the lowest free bind set to the agent. -/
  | bndOpen (a : Agent)
  /-- `CHECK` (R549): BND command CHECK evaluates the open set against range and check rules. -/
  | bndCheck (a : Agent)
  /-- `BIND` (R550): BND command BIND checks the set and closes it as pending with its binding instant. -/
  | bndBind (a : Agent) (kind : Fin 16) (arg : Fin 16) (arg2 : Fin 16)
  /-- `BND_CANCEL` (R552): BND command CANCEL frees the owner's set. -/
  | bndCancel (a : Agent) (k : Fin 4)
  /-- `BND_PEEK` (R548): A write of BND.PEEK_ADDR shows the staged or in-force value. -/
  | bndPeek (a : Agent) (addr : Nat)
  /-- `BIND_INSTANT` (R551): At its binding instant a pending set is rechecked and applied in one cycle or refused. -/
  | bindInstant (k : Fin 4)
  /-- `PWR_TJ_HIGH` (R563): A junction above 125 °C for 1 s raises a Minor fault. -/
  | pwrTjHigh (die : Fin 2) (temp : Int)
  /-- `PWR_TJ_CRIT` (R563): A junction above 140 °C for 10 ms raises a Major fault. -/
  | pwrTjCrit (die : Fin 2) (temp : Int)
  /-- `VBAT_REMOVED` (R186): VBAT is lost while the main supplies are absent, so P/AON stops and loses its data and the device becomes unpowered. -/
  | vbatRemoved
  /-- `RTC_OSC_RESTORED` (R187): The RTC oscillator runs again, RTC_OK returns to 1, FREE clears and quanta follow RTC second edges once more. -/
  | rtcOscRestored
  /-- `SUPPLY_MONITOR_CHANGE` (R560): A filtered supply monitor (VCPP_OK, VCPN_OK, VDISP_OK or VBAT_OK) changes state, adding or removing a degradation cause or display forcing condition 2. -/
  | supplyMonitorChange (monitor : Fin 4) (ok : Bool)
  /-- `METROLOGY_SAMPLE` (R96): At each 125 µs sampling instant every enabled channel takes its MB or AIN sample and processes it through offset, integrator, filter, gain and delay. -/
  | metrologySample (mb : List (Nat × Int)) (ain : List (Nat × Int))
  /-- `DPY_FRAME_START` (R424): A user display frame starts, advancing blink phases, stepping ELVSS, applying layer enables and sending the brightness level in vertical blanking. -/
  | dpyFrameStart
  /-- `ETH0_FRAME_RECEIVED` (R540): A frame arrives on ETH[0] and is pushed as a buffer descriptor to Q[17], or dropped when the queue is full. -/
  | eth0FrameReceived
  /-- `BUS_OFF_RECOVERED` (R263): A CAN FD bus that went bus-off completes its ISO 11898-1 recovery and takes part in traffic again. -/
  | busOffRecovered (b : Fin 2)
  /-- `CRYPTO_QUEUE_REQUEST` (R468): The crypto engines take a request item from Q[13], check the slot attribute, run the operation and post the result to Q[14]. -/
  | cryptoQueueRequest (op : CryptoOp) (slot : Fin 64)
  /-- `BDY_RAILS_GOOD` (R434): Both ±15 V legal display rails are good again after a rail fault, and the ledger recovery of R434 runs. -/
  | bdyRailsGood
  deriving DecidableEq, Repr

end Sys2Proof
end

