-- ==== Sys2Proof/Decode.lean ====
section
/-!
DEFINITION. The opcode table of this block gives no row any bits: its rows are commands and events, not encoded words. No
word therefore spells a command.
-/
namespace Sys2Proof

/-- The command that a word of `nbits` bits spells by the table's bits: none, for no row has any (log entry 48). -/
def decodeTableWord (_nbits _w : Nat) : Option Instr := none

end Sys2Proof
end

