-- ==== Sys2Proof/Config.lean ====
section
/-!
DEFINITION. What the spec leaves open: constants without a body, so that nothing can be proved about their values.
`Config.freeValue` gives the values the spec calls undefined or does not state, one fresh value for each use; the
other constants stand for computations whose result the spec fixes only by a property or by a published standard.
-/
namespace Sys2Proof.Config

/-- A value the spec leaves open; the argument is the State's counter of free values (log entry 1). -/
opaque freeValue : Nat → Nat

/-- The random bits the DRBG delivers (R478); the argument is the State's counter of free values (log entry 2). -/
opaque random : Nat → Nat

/-- HMAC-SHA-256 of a list of bytes under a key of bytes, as a 256-bit number, first byte highest (FIPS 198-1, not
restated by the spec, log entry 4). -/
opaque hmacSha256 : List Byte → List Byte → Nat

/-- SHA-256 of a list of bytes, first byte highest (FIPS 180-4, log entry 4). -/
opaque sha256 : List Byte → Nat

/-- SHA-384 of a list of bytes, first byte highest (FIPS 180-4, log entry 4). -/
opaque sha384 : List Byte → Nat

/-- Whether an ECDSA signature (r, s) over the bytes verifies under the public key (FIPS 186-5, log entry 4). The first
argument is the curve: 256 or 384. -/
opaque ecdsaVerify : Nat → Nat → List Byte → Nat → Nat → Bool

/-- The x-coordinate that ECDH gives from a private scalar and a public key x ∥ y (SP 800-56A, log entry 4); the first
argument is the curve. -/
opaque ecdh : Nat → List Byte → List Byte → List Byte

/-- The public key x ∥ y of a private scalar on a curve (log entry 4). -/
opaque ecPublic : Nat → List Byte → List Byte

/-- AES-256-GCM decryption under a key, nonce, associated data, ciphertext and tag; `none` when the tag is wrong
(SP 800-38D, log entry 4). -/
opaque gcmOpen : List Byte → List Byte → List Byte → List Byte → List Byte → Option (List Byte)

/-- AES-CCM (SP 800-38C, log entry 4): the ciphertext with its tag of the given length, from a key, nonce, associated
data and plaintext. -/
opaque ccmSeal : Nat → List Byte → List Byte → List Byte → List Byte → List Byte

/-- AES-CCM decryption with a tag of the given length, from a key, nonce, associated data and ciphertext with tag;
`none` when the tag is wrong (SP 800-38C, log entry 4). -/
opaque ccmOpen : Nat → List Byte → List Byte → List Byte → List Byte → Option (List Byte)

/-- The nonce under which the NEK is wrapped in ADMIT_D and NEK_UPDATE (R342, R344): the spec states none (log
entry 31). -/
opaque wrapNonce : List Byte

/-- The cost of a link whose effective rate is 0: R335 divides by the rate (log entry 32). -/
opaque deadCost : Nat

/-- AES-CMAC of a list of bytes under a key of bytes, first byte highest (SP 800-38B, log entry 4). -/
opaque aesCmac : List Byte → List Byte → Nat

/-- The 256-bit root of a life-cycle state, blown into fuses at the factory (R461, log entry 25). -/
opaque root : Nat → Nat

/-- The vendor anchor in its fuses: the public key x ∥ y and its KEY_ID (R467, log entry 25). -/
opaque vendorAnchor : List Byte

/-- The KEY_ID of the vendor anchor (R467, log entry 25). -/
opaque vendorKeyId : Nat

/-- The 64-bit unit identifier in its fuses (log entry 25). -/
opaque unitId : Nat

/-- The vendor's IC manufacturer code of ISO/IEC 7816-6, byte 0 of the tag's UID (R447, log entry 40). -/
opaque icCode : Byte

/-- The dew point of R413 in 0.01 °C, from a temperature in 0.01 °C and a humidity in 0.01 %: a real-valued formula
whose rounding to the register's unit the spec does not state (log entry 6). -/
opaque dewPoint : Int → Nat → Int

/-- The whole number a register shows for an exact figure, where the spec does not state the rounding (log entry 7). -/
opaque rounded : Rat → Int

/-- The figure the engine takes for the square root of an exact figure; its precision is not stated (log entry 7). -/
opaque sqrt : Rat → Rat

/-- The NID that HomePlug AV derives from an NMK (R297; its derivation is not restated by the spec, log entry 4). -/
opaque nidOf : Nat → Nat

/-- The output of the first-order high-pass filter of R96 from its last input, its last output and its input: the
filter's arithmetic is not stated (log entry 8). -/
opaque highPass : Int → Int → Int → Int

/-- The output of the fractional-delay interpolator of R97 from the delay in 10 ns and the last values, latest first:
its coefficients are not stated (log entry 8). -/
opaque delayed : Int → List Int → Int

end Sys2Proof.Config
end

