-- ==== Sys2Proof/Machine/Store.lean ====
section
/-!
DEFINITION. Canonical association lists: how sparse collections (register fields, bytes of a buffer, hidden
per-channel figures) are held as plain data. Keys rise strictly, and no entry equals what an unlisted key reads as,
so that equal contents are equal lists.
-/
namespace Sys2Proof.Machine

/-- A sparse collection keyed by a natural number. -/
abbrev SMap (α : Type) := List (Nat × α)

/-- What key `k` reads as; an unlisted key reads as `d k`. -/
def mapGet {α : Type} (d : Nat → α) : SMap α → Nat → α
  | [], k => d k
  | (k', v) :: r, k => if k = k' then v else mapGet d r k

/-- The list without any entry of key `k`. -/
def mapDel {α : Type} : SMap α → Nat → SMap α
  | [], _ => []
  | (k', v) :: r, k => if k = k' then mapDel r k else (k', v) :: mapDel r k

/-- The list with the one entry `(k, v)` placed before the first larger key, replacing an equal one. -/
def mapIns {α : Type} : SMap α → Nat → α → SMap α
  | [], k, v => [(k, v)]
  | (k', v') :: r, k, v =>
    if k < k' then (k, v) :: (k', v') :: r
    else if k = k' then (k, v) :: r
    else (k', v') :: mapIns r k v

/-- Writing `v` at key `k`; writing what an unlisted key reads as removes the entry. -/
def mapSet {α : Type} [DecidableEq α] (d : Nat → α) (m : SMap α) (k : Nat) (v : α) : SMap α :=
  if v = d k then mapDel m k else mapIns m k v

/-- Keys rise strictly above `lo`, and no entry equals what an unlisted key reads as. -/
def mapWfFrom {α : Type} [DecidableEq α] (d : Nat → α) : Nat → SMap α → Bool
  | _, [] => true
  | lo, (k, v) :: r => decide (lo ≤ k) && decide (v ≠ d k) && mapWfFrom d (k + 1) r

/-- The canonical form of a sparse collection. -/
def mapWf {α : Type} [DecidableEq α] (d : Nat → α) (m : SMap α) : Bool := mapWfFrom d 0 m

/-- The bytes of an addressed buffer (reading room, tag pages, staging area): a list of `Host.Cell`. -/
abbrev Bytes := SMap Byte

/-- A byte that nothing has written reads as 0 (DESIGN CHOICE, log entry 3: the spec gives no content). -/
def byteDefault : Nat → Byte := fun _ => 0

/-- One byte of a buffer. -/
def readByte (m : Bytes) (a : Nat) : Byte := mapGet byteDefault m a

/-- One byte of a buffer replaced. -/
def writeByte (m : Bytes) (a : Nat) (b : Byte) : Bytes := mapSet byteDefault m a b

/-- The `n` bytes from address `a` on. -/
def readBytes (m : Bytes) (a : Nat) : Nat → List Byte
  | 0 => []
  | n + 1 => readByte m a :: readBytes m (a + 1) n

/-- Bytes written one after the other from address `a` on. -/
def writeBytes (m : Bytes) (a : Nat) : List Byte → Bytes
  | [] => m
  | b :: bs => writeBytes (writeByte m a b) (a + 1) bs

/-- The little-endian value of a list of bytes (R13). -/
def leValue : List Byte → Nat
  | [] => 0
  | b :: bs => b.toNat + 256 * leValue bs

/-- The `n` little-endian bytes of a value. -/
def leBytes : Nat → Nat → List Byte
  | 0, _ => []
  | n + 1, v => BitVec.ofNat 8 v :: leBytes n (v / 256)

/-- The big-endian value of a list of bytes. -/
def beValue (l : List Byte) : Nat := l.foldl (fun a b => 256 * a + b.toNat) 0

/-- The `n` big-endian bytes of a value. -/
def beBytes (n v : Nat) : List Byte := (leBytes n v).reverse

end Sys2Proof.Machine
end

