-- ==== Sys2Proof/Machine/Regs.lean ====
section
/-!
DEFINITION. The register map: every register block, register and field that the register tables of the spec define
(address, place of the bits, access code of R9 and reset value), one entry each. The fields are the home of every
figure a register shows; `Sys2Proof.Machine.State.regs` holds them under the key `addr * 32 + lo`.
-/
-- The spec's own names repeat a register's name as a field's name (MODE.STATUS.MODE).
set_option linter.dupNamespace false

namespace Sys2Proof.Machine

/-- Access codes of R9. -/
inductive Acc where
  | ro | rw | wo | w1c | w1s | rws | rwl | rwf
  deriving DecidableEq, Repr

/-- A register field: its register's address, its lowest bit and its width. -/
structure Fld where
  addr : Nat
  lo : Nat
  w : Nat
  deriving DecidableEq, Repr

/-- The key under which the field's value is held. -/
abbrev Fld.key (f : Fld) : Nat := f.addr * 32 + f.lo
/-- One field of a register description. -/
structure FldDesc where
  name : String
  hi : Nat
  lo : Nat
  acc : Acc
  reset : Nat
  deriving DecidableEq, Repr

/-- A register, or an array of registers: `n1` copies `s1` bytes apart, each of `n2` copies `s2` bytes apart. -/
structure RegDesc where
  name : String
  base : Nat
  n1 : Nat
  s1 : Nat
  n2 : Nat
  s2 : Nat
  fields : List FldDesc
  deriving DecidableEq, Repr

namespace Reg

/-- SYS.HW_TYPE.TYPE, access RO (spec/00_scope.md). -/
abbrev SYS.HW_TYPE.TYPE : Fld := ⟨0x0, 0, 32⟩
/-- SYS.UNIT_ID_LO.ID, access RO (spec/16_keys_and_update.md). -/
abbrev SYS.UNIT_ID_LO.ID : Fld := ⟨0x4, 0, 32⟩
/-- SYS.UNIT_ID_HI.ID, access RO (spec/16_keys_and_update.md). -/
abbrev SYS.UNIT_ID_HI.ID : Fld := ⟨0x8, 0, 32⟩
/-- SYS.CAP_CARREL.CARRELS, access RO (spec/18_selftest_and_counters.md). -/
abbrev SYS.CAP_CARREL.CARRELS : Fld := ⟨0x10, 0, 9⟩
/-- SYS.CAP_APP_SRAM.TILES, access RO (spec/18_selftest_and_counters.md). -/
abbrev SYS.CAP_APP_SRAM.TILES : Fld := ⟨0x14, 0, 8⟩
/-- SYS.CAP_ANNEX.SEG, access RO (spec/18_selftest_and_counters.md). -/
abbrev SYS.CAP_ANNEX.SEG : Fld := ⟨0x18, 0, 32⟩
/-- SYS.CAP_RROOM.PAGES, access RO (spec/18_selftest_and_counters.md). -/
abbrev SYS.CAP_RROOM.PAGES : Fld := ⟨0x1C, 0, 9⟩
/-- SYS.CAP_EVR.RESERVE, access RO (spec/18_selftest_and_counters.md). -/
abbrev SYS.CAP_EVR.RESERVE : Fld := ⟨0x20, 16, 9⟩
/-- SYS.CAP_EVR.BLOCKS, access RO (spec/18_selftest_and_counters.md). -/
abbrev SYS.CAP_EVR.BLOCKS : Fld := ⟨0x20, 0, 11⟩
/-- SYS.CAP_APP_MRAM.BLOCKS, access RO (spec/18_selftest_and_counters.md). -/
abbrev SYS.CAP_APP_MRAM.BLOCKS : Fld := ⟨0x24, 0, 11⟩
/-- SYS.CAP_RETIRED.ENTRIES, access RO (spec/18_selftest_and_counters.md). -/
abbrev SYS.CAP_RETIRED.ENTRIES : Fld := ⟨0x28, 0, 9⟩
/-- SYS.FAB_STATUS.STARVE, access RO (spec/01_architecture.md). -/
abbrev SYS.FAB_STATUS.STARVE : Fld := ⟨0x40, 16, 8⟩
/-- SYS.FAB_STATUS.CAP3, access W1C (spec/01_architecture.md). -/
abbrev SYS.FAB_STATUS.CAP3 : Fld := ⟨0x40, 3, 1⟩
/-- SYS.FAB_STATUS.CAP2, access W1C (spec/01_architecture.md). -/
abbrev SYS.FAB_STATUS.CAP2 : Fld := ⟨0x40, 2, 1⟩
/-- SYS.FAB_STATUS.CAP1, access W1C (spec/01_architecture.md). -/
abbrev SYS.FAB_STATUS.CAP1 : Fld := ⟨0x40, 1, 1⟩
/-- SYS.FAB_STATUS.CAP0, access W1C (spec/01_architecture.md). -/
abbrev SYS.FAB_STATUS.CAP0 : Fld := ⟨0x40, 0, 1⟩
/-- CLK.STATUS.DISC_OK, access RO (spec/01_architecture.md). -/
abbrev CLK.STATUS.DISC_OK : Fld := ⟨0x1000, 3, 1⟩
/-- CLK.STATUS.RTC_OK, access RO (spec/01_architecture.md). -/
abbrev CLK.STATUS.RTC_OK : Fld := ⟨0x1000, 2, 1⟩
/-- CLK.STATUS.KRC_OK, access RO (spec/01_architecture.md). -/
abbrev CLK.STATUS.KRC_OK : Fld := ⟨0x1000, 1, 1⟩
/-- CLK.STATUS.PLL_LOCK, access RO (spec/01_architecture.md). -/
abbrev CLK.STATUS.PLL_LOCK : Fld := ⟨0x1000, 0, 1⟩
/-- CLK.DISC.DEV, access RO (spec/01_architecture.md). -/
abbrev CLK.DISC.DEV : Fld := ⟨0x1004, 0, 32⟩
/-- CLK.GATE.NFC, access RWS (spec/01_architecture.md). -/
abbrev CLK.GATE.NFC : Fld := ⟨0x1008, 3, 1⟩
/-- CLK.GATE.DSI, access RWS (spec/01_architecture.md). -/
abbrev CLK.GATE.DSI : Fld := ⟨0x1008, 2, 1⟩
/-- CLK.GATE.CAN, access RWS (spec/01_architecture.md). -/
abbrev CLK.GATE.CAN : Fld := ⟨0x1008, 1, 1⟩
/-- CLK.GATE.ETH, access RWS (spec/01_architecture.md). -/
abbrev CLK.GATE.ETH : Fld := ⟨0x1008, 0, 1⟩
/-- PWR.STATUS.VLS_OK, access RO (spec/02_modes_startup_power.md). -/
abbrev PWR.STATUS.VLS_OK : Fld := ⟨0x2000, 9, 5⟩
/-- PWR.STATUS.VDISP_OK, access RO (spec/02_modes_startup_power.md). -/
abbrev PWR.STATUS.VDISP_OK : Fld := ⟨0x2000, 8, 1⟩
/-- PWR.STATUS.VCPN_OK, access RO (spec/02_modes_startup_power.md). -/
abbrev PWR.STATUS.VCPN_OK : Fld := ⟨0x2000, 7, 1⟩
/-- PWR.STATUS.VCPP_OK, access RO (spec/02_modes_startup_power.md). -/
abbrev PWR.STATUS.VCPP_OK : Fld := ⟨0x2000, 6, 1⟩
/-- PWR.STATUS.V33_OK, access RO (spec/02_modes_startup_power.md). -/
abbrev PWR.STATUS.V33_OK : Fld := ⟨0x2000, 5, 1⟩
/-- PWR.STATUS.V18_OK, access RO (spec/02_modes_startup_power.md). -/
abbrev PWR.STATUS.V18_OK : Fld := ⟨0x2000, 4, 1⟩
/-- PWR.STATUS.V08_OK, access RO (spec/02_modes_startup_power.md). -/
abbrev PWR.STATUS.V08_OK : Fld := ⟨0x2000, 3, 1⟩
/-- PWR.STATUS.VAUX_OK, access RO (spec/02_modes_startup_power.md). -/
abbrev PWR.STATUS.VAUX_OK : Fld := ⟨0x2000, 2, 1⟩
/-- PWR.STATUS.PF_PIN, access RO (spec/02_modes_startup_power.md). -/
abbrev PWR.STATUS.PF_PIN : Fld := ⟨0x2000, 1, 1⟩
/-- PWR.STATUS.VBAT_OK, access RO (spec/02_modes_startup_power.md). -/
abbrev PWR.STATUS.VBAT_OK : Fld := ⟨0x2000, 0, 1⟩
/-- PWR.PF_STAT.COUNT, access RO (spec/02_modes_startup_power.md). -/
abbrev PWR.PF_STAT.COUNT : Fld := ⟨0x2004, 16, 16⟩
/-- PWR.PF_STAT.LAST_US, access RO (spec/02_modes_startup_power.md). -/
abbrev PWR.PF_STAT.LAST_US : Fld := ⟨0x2004, 0, 16⟩
/-- PWR.CYCLES.COUNT, access RO (spec/02_modes_startup_power.md). -/
abbrev PWR.CYCLES.COUNT : Fld := ⟨0x2008, 0, 32⟩
/-- PWR.OPSEC.SECONDS, access RO (spec/02_modes_startup_power.md). -/
abbrev PWR.OPSEC.SECONDS : Fld := ⟨0x200C, 0, 32⟩
/-- PWR.CAUSE.RELOAD, access RO (spec/02_modes_startup_power.md). -/
abbrev PWR.CAUSE.RELOAD : Fld := ⟨0x2010, 5, 1⟩
/-- PWR.CAUSE.WAKE, access RO (spec/02_modes_startup_power.md). -/
abbrev PWR.CAUSE.WAKE : Fld := ⟨0x2010, 4, 1⟩
/-- PWR.CAUSE.UNWARNED, access RO (spec/02_modes_startup_power.md). -/
abbrev PWR.CAUSE.UNWARNED : Fld := ⟨0x2010, 3, 1⟩
/-- PWR.CAUSE.WARNED, access RO (spec/02_modes_startup_power.md). -/
abbrev PWR.CAUSE.WARNED : Fld := ⟨0x2010, 2, 1⟩
/-- PWR.CAUSE.RESET_PIN, access RO (spec/02_modes_startup_power.md). -/
abbrev PWR.CAUSE.RESET_PIN : Fld := ⟨0x2010, 1, 1⟩
/-- PWR.CAUSE.POR, access RO (spec/02_modes_startup_power.md). -/
abbrev PWR.CAUSE.POR : Fld := ⟨0x2010, 0, 1⟩
/-- MODE.STATUS.PREV, access RO (spec/02_modes_startup_power.md). -/
abbrev MODE.STATUS.PREV : Fld := ⟨0x3000, 24, 4⟩
/-- MODE.STATUS.LC, access RO (spec/02_modes_startup_power.md). -/
abbrev MODE.STATUS.LC : Fld := ⟨0x3000, 20, 4⟩
/-- MODE.STATUS.QUICK, access RO (spec/02_modes_startup_power.md). -/
abbrev MODE.STATUS.QUICK : Fld := ⟨0x3000, 8, 1⟩
/-- MODE.STATUS.PARKED, access RO (spec/02_modes_startup_power.md). -/
abbrev MODE.STATUS.PARKED : Fld := ⟨0x3000, 7, 1⟩
/-- MODE.STATUS.SHUT, access RO (spec/02_modes_startup_power.md). -/
abbrev MODE.STATUS.SHUT : Fld := ⟨0x3000, 6, 1⟩
/-- MODE.STATUS.APP_DOWN, access RO (spec/02_modes_startup_power.md). -/
abbrev MODE.STATUS.APP_DOWN : Fld := ⟨0x3000, 5, 1⟩
/-- MODE.STATUS.PF, access RO (spec/02_modes_startup_power.md). -/
abbrev MODE.STATUS.PF : Fld := ⟨0x3000, 4, 1⟩
/-- MODE.STATUS.MODE, access RO (spec/02_modes_startup_power.md). -/
abbrev MODE.STATUS.MODE : Fld := ⟨0x3000, 0, 4⟩
/-- MODE.REQ.CODE, access WO (spec/02_modes_startup_power.md). -/
abbrev MODE.REQ.CODE : Fld := ⟨0x3004, 0, 4⟩
/-- MODE.REQ_STAT.LAST_CODE, access RO (spec/02_modes_startup_power.md). -/
abbrev MODE.REQ_STAT.LAST_CODE : Fld := ⟨0x3008, 8, 4⟩
/-- MODE.REQ_STAT.RESULT, access RO (spec/02_modes_startup_power.md). -/
abbrev MODE.REQ_STAT.RESULT : Fld := ⟨0x3008, 0, 8⟩
/-- MODE.START.START_MS, access RO (spec/02_modes_startup_power.md). -/
abbrev MODE.START.START_MS : Fld := ⟨0x300C, 16, 16⟩
/-- MODE.START.COPY_B_BAD, access RO (spec/02_modes_startup_power.md). -/
abbrev MODE.START.COPY_B_BAD : Fld := ⟨0x300C, 15, 1⟩
/-- MODE.START.COPY_A_BAD, access RO (spec/02_modes_startup_power.md). -/
abbrev MODE.START.COPY_A_BAD : Fld := ⟨0x300C, 14, 1⟩
/-- MODE.START.COPY, access RO (spec/02_modes_startup_power.md). -/
abbrev MODE.START.COPY : Fld := ⟨0x300C, 13, 1⟩
/-- MODE.IMG_SEQ.SEQ, access RO (spec/02_modes_startup_power.md). -/
abbrev MODE.IMG_SEQ.SEQ : Fld := ⟨0x3010, 0, 32⟩
/-- MODE.SHELF.OUT_DIS, access RO (spec/02_modes_startup_power.md). -/
abbrev MODE.SHELF.OUT_DIS : Fld := ⟨0x3014, 16, 16⟩
/-- MODE.SHELF.MISMATCH, access RO (spec/02_modes_startup_power.md). -/
abbrev MODE.SHELF.MISMATCH : Fld := ⟨0x3014, 0, 8⟩
/-- MODE.WARM.APP_RESETS, access RO (spec/02_modes_startup_power.md). -/
abbrev MODE.WARM.APP_RESETS : Fld := ⟨0x3018, 24, 8⟩
/-- MODE.WARM.WARM_MAX, access RO (spec/02_modes_startup_power.md). -/
abbrev MODE.WARM.WARM_MAX : Fld := ⟨0x3018, 16, 8⟩
/-- MODE.WARM.REMAIN_MS, access RO (spec/02_modes_startup_power.md). -/
abbrev MODE.WARM.REMAIN_MS : Fld := ⟨0x3018, 0, 16⟩
/-- MODE.CREDIT.VALID, access RO (spec/02_modes_startup_power.md). -/
abbrev MODE.CREDIT.VALID : Fld := ⟨0x301C, 31, 1⟩
/-- MODE.CREDIT.REMAIN_S, access RO (spec/02_modes_startup_power.md). -/
abbrev MODE.CREDIT.REMAIN_S : Fld := ⟨0x301C, 0, 18⟩
/-- BND.STATUS.NOSET, access RO (spec/19_host_queues_bindery.md). -/
abbrev BND.STATUS.NOSET : Fld := ⟨0x4000, 16, 16⟩
/-- BND.STATUS.PENDING, access RO (spec/19_host_queues_bindery.md). -/
abbrev BND.STATUS.PENDING : Fld := ⟨0x4000, 4, 4⟩
/-- BND.STATUS.FREE, access RO (spec/19_host_queues_bindery.md). -/
abbrev BND.STATUS.FREE : Fld := ⟨0x4000, 0, 4⟩
/-- BND.CMD.ARG, access WO (spec/19_host_queues_bindery.md). -/
abbrev BND.CMD.ARG : Fld := ⟨0x4004, 28, 4⟩
/-- BND.CMD.ARG2, access WO (spec/19_host_queues_bindery.md). -/
abbrev BND.CMD.ARG2 : Fld := ⟨0x4004, 24, 4⟩
/-- BND.CMD.SET, access WO (spec/19_host_queues_bindery.md). -/
abbrev BND.CMD.SET : Fld := ⟨0x4004, 16, 2⟩
/-- BND.CMD.KIND, access WO (spec/19_host_queues_bindery.md). -/
abbrev BND.CMD.KIND : Fld := ⟨0x4004, 8, 4⟩
/-- BND.CMD.CMD, access WO (spec/19_host_queues_bindery.md). -/
abbrev BND.CMD.CMD : Fld := ⟨0x4004, 0, 8⟩
/-- BND.RESULT.SET, access RO (spec/19_host_queues_bindery.md). -/
abbrev BND.RESULT.SET : Fld := ⟨0x4008, 16, 2⟩
/-- BND.RESULT.CMD, access RO (spec/19_host_queues_bindery.md). -/
abbrev BND.RESULT.CMD : Fld := ⟨0x4008, 8, 8⟩
/-- BND.RESULT.CODE, access RO (spec/19_host_queues_bindery.md). -/
abbrev BND.RESULT.CODE : Fld := ⟨0x4008, 0, 8⟩
/-- BND.FAIL_ADDR.VALUE, access RO (spec/19_host_queues_bindery.md). -/
abbrev BND.FAIL_ADDR.VALUE : Fld := ⟨0x400C, 0, 32⟩
/-- BND.PEEK_ADDR.STAGED, access RO (spec/19_host_queues_bindery.md). -/
abbrev BND.PEEK_ADDR.STAGED : Fld := ⟨0x4010, 18, 1⟩
/-- BND.PEEK_ADDR.ADDR, access RW (spec/19_host_queues_bindery.md). -/
abbrev BND.PEEK_ADDR.ADDR : Fld := ⟨0x4010, 2, 16⟩
/-- BND.PEEK_VAL.VALUE, access RO (spec/19_host_queues_bindery.md). -/
abbrev BND.PEEK_VAL.VALUE : Fld := ⟨0x4014, 0, 32⟩
/-- BND.TIME_LO.VALUE, access RW (spec/19_host_queues_bindery.md). -/
abbrev BND.TIME_LO.VALUE : Fld := ⟨0x4018, 0, 32⟩
/-- BND.TIME_HI.VALUE, access RW (spec/19_host_queues_bindery.md). -/
abbrev BND.TIME_HI.VALUE : Fld := ⟨0x401C, 0, 32⟩
/-- BND.SET[s].STATE.STATE, access RO (spec/19_host_queues_bindery.md). -/
abbrev BND.SET.STATE.STATE (i : Nat) : Fld := ⟨0x4040 + 0x10 * i, 28, 4⟩
/-- BND.SET[s].STATE.KIND, access RO (spec/19_host_queues_bindery.md). -/
abbrev BND.SET.STATE.KIND (i : Nat) : Fld := ⟨0x4040 + 0x10 * i, 24, 4⟩
/-- BND.SET[s].STATE.OWNER, access RO (spec/19_host_queues_bindery.md). -/
abbrev BND.SET.STATE.OWNER (i : Nat) : Fld := ⟨0x4040 + 0x10 * i, 20, 4⟩
/-- BND.SET[s].STATE.COUNT, access RO (spec/19_host_queues_bindery.md). -/
abbrev BND.SET.STATE.COUNT (i : Nat) : Fld := ⟨0x4040 + 0x10 * i, 0, 9⟩
/-- BND.SET[s].ARG.VALUE, access RO (spec/19_host_queues_bindery.md). -/
abbrev BND.SET.ARG.VALUE (i : Nat) : Fld := ⟨0x4044 + 0x10 * i, 0, 32⟩
/-- BND.SET[s].TIME_LO.VALUE, access RO (spec/19_host_queues_bindery.md). -/
abbrev BND.SET.TIME_LO.VALUE (i : Nat) : Fld := ⟨0x4048 + 0x10 * i, 0, 32⟩
/-- BND.SET[s].TIME_HI.VALUE, access RO (spec/19_host_queues_bindery.md). -/
abbrev BND.SET.TIME_HI.VALUE (i : Nat) : Fld := ⟨0x404C + 0x10 * i, 0, 32⟩
/-- HP.STATUS.ACC_ERRS, access RO (spec/19_host_queues_bindery.md). -/
abbrev HP.STATUS.ACC_ERRS : Fld := ⟨0x5000, 24, 8⟩
/-- HP.STATUS.DENIED, access RO (spec/19_host_queues_bindery.md). -/
abbrev HP.STATUS.DENIED : Fld := ⟨0x5000, 16, 8⟩
/-- HP.STATUS.FAILS, access RO (spec/19_host_queues_bindery.md). -/
abbrev HP.STATUS.FAILS : Fld := ⟨0x5000, 8, 4⟩
/-- HP.STATUS.LOCKED, access RO (spec/19_host_queues_bindery.md). -/
abbrev HP.STATUS.LOCKED : Fld := ⟨0x5000, 7, 1⟩
/-- HP.STATUS.CRC_STK, access W1C (spec/19_host_queues_bindery.md). -/
abbrev HP.STATUS.CRC_STK : Fld := ⟨0x5000, 6, 1⟩
/-- HP.STATUS.ACC_STK, access W1C (spec/19_host_queues_bindery.md). -/
abbrev HP.STATUS.ACC_STK : Fld := ⟨0x5000, 5, 1⟩
/-- HP.STATUS.LEVEL, access RO (spec/19_host_queues_bindery.md). -/
abbrev HP.STATUS.LEVEL : Fld := ⟨0x5000, 0, 2⟩
/-- HP.AUTH.GO, access WO (spec/19_host_queues_bindery.md). -/
abbrev HP.AUTH.GO : Fld := ⟨0x5004, 31, 1⟩
/-- HP.AUTH.CHAL, access WO (spec/19_host_queues_bindery.md). -/
abbrev HP.AUTH.CHAL : Fld := ⟨0x5004, 30, 1⟩
/-- HP.AUTH.DROP, access WO (spec/19_host_queues_bindery.md). -/
abbrev HP.AUTH.DROP : Fld := ⟨0x5004, 29, 1⟩
/-- HP.AUTH.LEVEL, access WO (spec/19_host_queues_bindery.md). -/
abbrev HP.AUTH.LEVEL : Fld := ⟨0x5004, 0, 2⟩
/-- HP.IRQ_STATUS.SRC, access W1C (spec/19_host_queues_bindery.md). -/
abbrev HP.IRQ_STATUS.SRC : Fld := ⟨0x5008, 3, 4⟩
/-- HP.IRQ_STATUS.LIVE, access RO (spec/19_host_queues_bindery.md). -/
abbrev HP.IRQ_STATUS.LIVE : Fld := ⟨0x5008, 0, 3⟩
/-- HP.IRQ_EN.EN, access RW (spec/19_host_queues_bindery.md). -/
abbrev HP.IRQ_EN.EN : Fld := ⟨0x500C, 0, 7⟩
/-- HP.CHAL[k].BYTES, access RO (spec/19_host_queues_bindery.md). -/
abbrev HP.CHAL.BYTES (i : Nat) : Fld := ⟨0x5010 + 0x4 * i, 0, 32⟩
/-- HP.RESP[k].BYTES, access WO (spec/19_host_queues_bindery.md). -/
abbrev HP.RESP.BYTES (i : Nat) : Fld := ⟨0x5020 + 0x4 * i, 0, 32⟩
/-- HP.DESC[d] word 0.OWN, access RW (spec/19_host_queues_bindery.md). -/
abbrev HP.DESC0.OWN (i : Nat) : Fld := ⟨0x5400 + 0x10 * i, 31, 1⟩
/-- HP.DESC[d] word 0.KIND, access RW (spec/19_host_queues_bindery.md). -/
abbrev HP.DESC0.KIND (i : Nat) : Fld := ⟨0x5400 + 0x10 * i, 16, 8⟩
/-- HP.DESC[d] word 0.RESULT, access RO (spec/19_host_queues_bindery.md). -/
abbrev HP.DESC0.RESULT (i : Nat) : Fld := ⟨0x5400 + 0x10 * i, 8, 8⟩
/-- HP.DESC[d] word 0.TAG, access RW (spec/19_host_queues_bindery.md). -/
abbrev HP.DESC0.TAG (i : Nat) : Fld := ⟨0x5400 + 0x10 * i, 0, 8⟩
/-- HP.DESC[d] word 1.PAGES, access RW (spec/19_host_queues_bindery.md). -/
abbrev HP.DESC1.PAGES (i : Nat) : Fld := ⟨0x5404 + 0x10 * i, 8, 8⟩
/-- HP.DESC[d] word 1.FIRST, access RW (spec/19_host_queues_bindery.md). -/
abbrev HP.DESC1.FIRST (i : Nat) : Fld := ⟨0x5404 + 0x10 * i, 0, 8⟩
/-- HP.DESC[d] word 2.ARG, access RW (spec/19_host_queues_bindery.md). -/
abbrev HP.DESC2.ARG (i : Nat) : Fld := ⟨0x5408 + 0x10 * i, 0, 32⟩
/-- HP.DESC[d] word 3.LENGTH, access RW (spec/19_host_queues_bindery.md). -/
abbrev HP.DESC3.LENGTH (i : Nat) : Fld := ⟨0x540C + 0x10 * i, 0, 32⟩
/-- Q[n].CTL.HOST, access RWS (spec/19_host_queues_bindery.md). -/
abbrev Q.CTL.HOST (i : Nat) : Fld := ⟨0x6000 + 0x20 * i, 1, 1⟩
/-- Q[n].CTL.FLUSH, access W1S (spec/19_host_queues_bindery.md). -/
abbrev Q.CTL.FLUSH (i : Nat) : Fld := ⟨0x6000 + 0x20 * i, 0, 1⟩
/-- Q[n].STATUS.LIVE, access RO (spec/19_host_queues_bindery.md). -/
abbrev Q.STATUS.LIVE (i : Nat) : Fld := ⟨0x6004 + 0x20 * i, 31, 1⟩
/-- Q[n].STATUS.WM_STK, access W1C (spec/19_host_queues_bindery.md). -/
abbrev Q.STATUS.WM_STK (i : Nat) : Fld := ⟨0x6004 + 0x20 * i, 30, 1⟩
/-- Q[n].STATUS.DROP_STK, access W1C (spec/19_host_queues_bindery.md). -/
abbrev Q.STATUS.DROP_STK (i : Nat) : Fld := ⟨0x6004 + 0x20 * i, 29, 1⟩
/-- Q[n].STATUS.POISON_STK, access W1C (spec/19_host_queues_bindery.md). -/
abbrev Q.STATUS.POISON_STK (i : Nat) : Fld := ⟨0x6004 + 0x20 * i, 28, 1⟩
/-- Q[n].STATUS.SPILLED, access RO (spec/19_host_queues_bindery.md). -/
abbrev Q.STATUS.SPILLED (i : Nat) : Fld := ⟨0x6004 + 0x20 * i, 27, 1⟩
/-- Q[n].STATUS.W, access RO (spec/19_host_queues_bindery.md). -/
abbrev Q.STATUS.W (i : Nat) : Fld := ⟨0x6004 + 0x20 * i, 16, 5⟩
/-- Q[n].STATUS.LEVEL, access RO (spec/19_host_queues_bindery.md). -/
abbrev Q.STATUS.LEVEL (i : Nat) : Fld := ⟨0x6004 + 0x20 * i, 0, 12⟩
/-- Q[n].WM.WM, access RWS (spec/19_host_queues_bindery.md). -/
abbrev Q.WM.WM (i : Nat) : Fld := ⟨0x6008 + 0x20 * i, 0, 12⟩
/-- Q[n].WM_CAP.MS, access RO (spec/19_host_queues_bindery.md). -/
abbrev Q.WM_CAP.MS (i : Nat) : Fld := ⟨0x600C + 0x20 * i, 16, 10⟩
/-- Q[n].WM_CAP.LEVEL, access RO (spec/19_host_queues_bindery.md). -/
abbrev Q.WM_CAP.LEVEL (i : Nat) : Fld := ⟨0x600C + 0x20 * i, 0, 12⟩
/-- Q[n].WM_TIME.OPSEC, access RO (spec/19_host_queues_bindery.md). -/
abbrev Q.WM_TIME.OPSEC (i : Nat) : Fld := ⟨0x6010 + 0x20 * i, 0, 32⟩
/-- Q[n].COUNTS.DROPS, access RO (spec/19_host_queues_bindery.md). -/
abbrev Q.COUNTS.DROPS (i : Nat) : Fld := ⟨0x6014 + 0x20 * i, 16, 16⟩
/-- Q[n].COUNTS.FLUSHES, access RO (spec/19_host_queues_bindery.md). -/
abbrev Q.COUNTS.FLUSHES (i : Nat) : Fld := ⟨0x6014 + 0x20 * i, 8, 8⟩
/-- Q[n].COUNTS.POISONED, access RO (spec/19_host_queues_bindery.md). -/
abbrev Q.COUNTS.POISONED (i : Nat) : Fld := ⟨0x6014 + 0x20 * i, 0, 8⟩
/-- Q.SEL.QUEUE, access RW (spec/19_host_queues_bindery.md). -/
abbrev Q.SEL.QUEUE : Fld := ⟨0x6400, 0, 5⟩
/-- Q.OP.OP, access WO (spec/19_host_queues_bindery.md). -/
abbrev Q.OP.OP : Fld := ⟨0x6404, 0, 3⟩
/-- Q.RESULT.CODE, access RO (spec/19_host_queues_bindery.md). -/
abbrev Q.RESULT.CODE : Fld := ⟨0x6408, 0, 8⟩
/-- Q.POISON.TAG, access RO (spec/19_host_queues_bindery.md). -/
abbrev Q.POISON.TAG : Fld := ⟨0x640C, 0, 16⟩
/-- Q.ITEM[k].HALF, access RW (spec/19_host_queues_bindery.md). -/
abbrev Q.ITEM.HALF (i : Nat) : Fld := ⟨0x6440 + 0x4 * i, 0, 32⟩
/-- ANX.ACTIVE.SEG, access RO (spec/19_host_queues_bindery.md). -/
abbrev ANX.ACTIVE.SEG : Fld := ⟨0x7000, 0, 32⟩
/-- ANX.PARITY.COUNT, access RO (spec/19_host_queues_bindery.md). -/
abbrev ANX.PARITY.COUNT : Fld := ⟨0x7004, 0, 16⟩
/-- FLT.STATUS.TOP, access RO (spec/17_faults_and_recorder.md). -/
abbrev FLT.STATUS.TOP : Fld := ⟨0x8000, 30, 2⟩
/-- FLT.STATUS.ANY, access RO (spec/17_faults_and_recorder.md). -/
abbrev FLT.STATUS.ANY : Fld := ⟨0x8000, 29, 1⟩
/-- FLT.STATUS.OPEN, access RO (spec/17_faults_and_recorder.md). -/
abbrev FLT.STATUS.OPEN : Fld := ⟨0x8000, 16, 6⟩
/-- FLT.STATUS.ERR_LOW, access RO (spec/17_faults_and_recorder.md). -/
abbrev FLT.STATUS.ERR_LOW : Fld := ⟨0x8000, 15, 1⟩
/-- FLT.STATUS.LATCH, access RO (spec/17_faults_and_recorder.md). -/
abbrev FLT.STATUS.LATCH : Fld := ⟨0x8000, 14, 1⟩
/-- FLT.STATUS.FULL_STK, access W1C (spec/17_faults_and_recorder.md). -/
abbrev FLT.STATUS.FULL_STK : Fld := ⟨0x8000, 13, 1⟩
/-- FLT.STATUS.IRQ, access W1C (spec/17_faults_and_recorder.md). -/
abbrev FLT.STATUS.IRQ : Fld := ⟨0x8000, 12, 1⟩
/-- FLT.CTL.ERR_HOLD, access RW (spec/17_faults_and_recorder.md). -/
abbrev FLT.CTL.ERR_HOLD : Fld := ⟨0x8004, 0, 1⟩
/-- FLT.ACK.ENTRY, access WO (spec/17_faults_and_recorder.md). -/
abbrev FLT.ACK.ENTRY : Fld := ⟨0x8008, 0, 5⟩
/-- FLT.COUNTS.MINOR, access RO (spec/17_faults_and_recorder.md). -/
abbrev FLT.COUNTS.MINOR : Fld := ⟨0x800C, 16, 16⟩
/-- FLT.COUNTS.MAJOR, access RO (spec/17_faults_and_recorder.md). -/
abbrev FLT.COUNTS.MAJOR : Fld := ⟨0x800C, 8, 8⟩
/-- FLT.COUNTS.MERGES, access RO (spec/17_faults_and_recorder.md). -/
abbrev FLT.COUNTS.MERGES : Fld := ⟨0x800C, 0, 8⟩
/-- FLT.LAST.CODE, access RO (spec/17_faults_and_recorder.md). -/
abbrev FLT.LAST.CODE : Fld := ⟨0x8010, 0, 16⟩
/-- FLT.SEL.ENTRY, access RW (spec/17_faults_and_recorder.md). -/
abbrev FLT.SEL.ENTRY : Fld := ⟨0x8014, 0, 5⟩
/-- FLT.ENTRY.VALID, access RO (spec/17_faults_and_recorder.md). -/
abbrev FLT.ENTRY.VALID : Fld := ⟨0x8018, 31, 1⟩
/-- FLT.ENTRY.CAUSE, access RO (spec/17_faults_and_recorder.md). -/
abbrev FLT.ENTRY.CAUSE : Fld := ⟨0x8018, 30, 1⟩
/-- FLT.ENTRY.INJECTED, access RO (spec/17_faults_and_recorder.md). -/
abbrev FLT.ENTRY.INJECTED : Fld := ⟨0x8018, 29, 1⟩
/-- FLT.ENTRY.CLASS, access RO (spec/17_faults_and_recorder.md). -/
abbrev FLT.ENTRY.CLASS : Fld := ⟨0x8018, 24, 2⟩
/-- FLT.ENTRY.MERGED, access RO (spec/17_faults_and_recorder.md). -/
abbrev FLT.ENTRY.MERGED : Fld := ⟨0x8018, 16, 8⟩
/-- FLT.ENTRY.CODE, access RO (spec/17_faults_and_recorder.md). -/
abbrev FLT.ENTRY.CODE : Fld := ⟨0x8018, 0, 16⟩
/-- FLT.ENTRY_RNO.RNO, access RO (spec/17_faults_and_recorder.md). -/
abbrev FLT.ENTRY_RNO.RNO : Fld := ⟨0x801C, 0, 32⟩
/-- FLT.INJECT.GO, access WO (spec/17_faults_and_recorder.md). -/
abbrev FLT.INJECT.GO : Fld := ⟨0x8020, 31, 1⟩
/-- FLT.INJECT.CODE, access WO (spec/17_faults_and_recorder.md). -/
abbrev FLT.INJECT.CODE : Fld := ⟨0x8020, 0, 16⟩
/-- FLT.INJ_MEM.ARM, access RW (spec/17_faults_and_recorder.md). -/
abbrev FLT.INJ_MEM.ARM : Fld := ⟨0x8024, 31, 1⟩
/-- FLT.INJ_MEM.MEM, access RW (spec/17_faults_and_recorder.md). -/
abbrev FLT.INJ_MEM.MEM : Fld := ⟨0x8024, 28, 3⟩
/-- FLT.INJ_MEM.BITS, access RW (spec/17_faults_and_recorder.md). -/
abbrev FLT.INJ_MEM.BITS : Fld := ⟨0x8024, 26, 2⟩
/-- FLT.INJ_MEM.WORD, access RW (spec/17_faults_and_recorder.md). -/
abbrev FLT.INJ_MEM.WORD : Fld := ⟨0x8024, 0, 26⟩
/-- EVR.STATUS.QUEUED, access RO (spec/17_faults_and_recorder.md). -/
abbrev EVR.STATUS.QUEUED : Fld := ⟨0x9000, 12, 10⟩
/-- EVR.STATUS.LOST_STK, access W1C (spec/17_faults_and_recorder.md). -/
abbrev EVR.STATUS.LOST_STK : Fld := ⟨0x9000, 3, 1⟩
/-- EVR.STATUS.DRAINING, access RO (spec/17_faults_and_recorder.md). -/
abbrev EVR.STATUS.DRAINING : Fld := ⟨0x9000, 2, 1⟩
/-- EVR.STATUS.ACC_FULL, access RO (spec/17_faults_and_recorder.md). -/
abbrev EVR.STATUS.ACC_FULL : Fld := ⟨0x9000, 1, 1⟩
/-- EVR.STATUS.RUN, access RO (spec/17_faults_and_recorder.md). -/
abbrev EVR.STATUS.RUN : Fld := ⟨0x9000, 0, 1⟩
/-- EVR.NEXT_RNO.RNO, access RO (spec/17_faults_and_recorder.md). -/
abbrev EVR.NEXT_RNO.RNO : Fld := ⟨0x9004, 0, 32⟩
/-- EVR.CIRC_HEAD.SLOT, access RO (spec/17_faults_and_recorder.md). -/
abbrev EVR.CIRC_HEAD.SLOT : Fld := ⟨0x9008, 0, 16⟩
/-- EVR.CIRC_CAP.SLOTS, access RO (spec/17_faults_and_recorder.md). -/
abbrev EVR.CIRC_CAP.SLOTS : Fld := ⟨0x900C, 0, 17⟩
/-- EVR.CTL.FLUSH, access W1S (spec/17_faults_and_recorder.md). -/
abbrev EVR.CTL.FLUSH : Fld := ⟨0x9010, 0, 1⟩
/-- EVR.LOST.COUNT, access RO (spec/17_faults_and_recorder.md). -/
abbrev EVR.LOST.COUNT : Fld := ⟨0x9014, 0, 16⟩
/-- EVR.LEGAL_NEXT.SLOT, access RO (spec/17_faults_and_recorder.md). -/
abbrev EVR.LEGAL_NEXT.SLOT : Fld := ⟨0x9018, 0, 14⟩
/-- BIST.STATUS.RUN, access RO (spec/18_selftest_and_counters.md). -/
abbrev BIST.STATUS.RUN : Fld := ⟨0xA000, 24, 8⟩
/-- BIST.STATUS.FAIL, access RO (spec/18_selftest_and_counters.md). -/
abbrev BIST.STATUS.FAIL : Fld := ⟨0xA000, 16, 8⟩
/-- BIST.STATUS.TESTED, access RO (spec/18_selftest_and_counters.md). -/
abbrev BIST.STATUS.TESTED : Fld := ⟨0xA000, 8, 8⟩
/-- BIST.STATUS.SLICES, access RO (spec/18_selftest_and_counters.md). -/
abbrev BIST.STATUS.SLICES : Fld := ⟨0xA000, 1, 1⟩
/-- BIST.STATUS.SHUT_PASS, access RO (spec/18_selftest_and_counters.md). -/
abbrev BIST.STATUS.SHUT_PASS : Fld := ⟨0xA000, 0, 1⟩
/-- BIST.SLICE.PASSES, access RO (spec/18_selftest_and_counters.md). -/
abbrev BIST.SLICE.PASSES : Fld := ⟨0xA004, 16, 16⟩
/-- BIST.SLICE.POS, access RO (spec/18_selftest_and_counters.md). -/
abbrev BIST.SLICE.POS : Fld := ⟨0xA004, 0, 11⟩
/-- BIST.REPAIR.SOFT, access RO (spec/18_selftest_and_counters.md). -/
abbrev BIST.REPAIR.SOFT : Fld := ⟨0xA008, 16, 16⟩
/-- BIST.REPAIR.EXHAUSTED, access RO (spec/18_selftest_and_counters.md). -/
abbrev BIST.REPAIR.EXHAUSTED : Fld := ⟨0xA008, 8, 8⟩
/-- BIST.RET_SEL.INDEX, access RW (spec/18_selftest_and_counters.md). -/
abbrev BIST.RET_SEL.INDEX : Fld := ⟨0xA00C, 0, 8⟩
/-- BIST.RET_ENTRY.VALID, access RO (spec/18_selftest_and_counters.md). -/
abbrev BIST.RET_ENTRY.VALID : Fld := ⟨0xA010, 31, 1⟩
/-- BIST.RET_ENTRY.KIND, access RO (spec/18_selftest_and_counters.md). -/
abbrev BIST.RET_ENTRY.KIND : Fld := ⟨0xA010, 28, 3⟩
/-- BIST.RET_ENTRY.GOOD, access RO (spec/18_selftest_and_counters.md). -/
abbrev BIST.RET_ENTRY.GOOD : Fld := ⟨0xA010, 26, 2⟩
/-- BIST.RET_ENTRY.UNIT, access RO (spec/18_selftest_and_counters.md). -/
abbrev BIST.RET_ENTRY.UNIT : Fld := ⟨0xA010, 0, 11⟩
/-- PMC.CTL.EN, access RW (spec/18_selftest_and_counters.md). -/
abbrev PMC.CTL.EN : Fld := ⟨0xB000, 31, 1⟩
/-- PMC.CTL.OPERATOR, access RWS (spec/18_selftest_and_counters.md). -/
abbrev PMC.CTL.OPERATOR : Fld := ⟨0xB000, 30, 1⟩
/-- PMC.TICK.TICK, access RO (spec/18_selftest_and_counters.md). -/
abbrev PMC.TICK.TICK : Fld := ⟨0xB004, 0, 32⟩
/-- PMC.OVF_LO.OVF, access W1C (spec/18_selftest_and_counters.md). -/
abbrev PMC.OVF_LO.OVF : Fld := ⟨0xB008, 0, 32⟩
/-- PMC.OVF_HI.OVF, access W1C (spec/18_selftest_and_counters.md). -/
abbrev PMC.OVF_HI.OVF : Fld := ⟨0xB00C, 0, 32⟩
/-- PMC.SAMPLES.POSTED, access RO (spec/18_selftest_and_counters.md). -/
abbrev PMC.SAMPLES.POSTED : Fld := ⟨0xB010, 16, 16⟩
/-- PMC.SAMPLES.DROPPED, access RO (spec/18_selftest_and_counters.md). -/
abbrev PMC.SAMPLES.DROPPED : Fld := ⟨0xB010, 0, 16⟩
/-- PMC[k].CFG.EN, access RW (spec/18_selftest_and_counters.md). -/
abbrev PMC.CFG.EN (i : Nat) : Fld := ⟨0xB100 + 0x10 * i, 31, 1⟩
/-- PMC[k].CFG.LEVEL, access RW (spec/18_selftest_and_counters.md). -/
abbrev PMC.CFG.LEVEL (i : Nat) : Fld := ⟨0xB100 + 0x10 * i, 30, 1⟩
/-- PMC[k].CFG.SAMPLE, access RW (spec/18_selftest_and_counters.md). -/
abbrev PMC.CFG.SAMPLE (i : Nat) : Fld := ⟨0xB100 + 0x10 * i, 29, 1⟩
/-- PMC[k].CFG.CLR, access W1S (spec/18_selftest_and_counters.md). -/
abbrev PMC.CFG.CLR (i : Nat) : Fld := ⟨0xB100 + 0x10 * i, 28, 1⟩
/-- PMC[k].CFG.CORE, access RW (spec/18_selftest_and_counters.md). -/
abbrev PMC.CFG.CORE (i : Nat) : Fld := ⟨0xB100 + 0x10 * i, 26, 2⟩
/-- PMC[k].CFG.EVT, access RW (spec/18_selftest_and_counters.md). -/
abbrev PMC.CFG.EVT (i : Nat) : Fld := ⟨0xB100 + 0x10 * i, 0, 8⟩
/-- PMC[k].CNT_LO.COUNT, access RO (spec/18_selftest_and_counters.md). -/
abbrev PMC.CNT_LO.COUNT (i : Nat) : Fld := ⟨0xB104 + 0x10 * i, 0, 32⟩
/-- PMC[k].CNT_HI.COUNT, access RO (spec/18_selftest_and_counters.md). -/
abbrev PMC.CNT_HI.COUNT (i : Nat) : Fld := ⟨0xB108 + 0x10 * i, 0, 16⟩
/-- PMC[k].PERIOD.PERIOD, access RW (spec/18_selftest_and_counters.md). -/
abbrev PMC.PERIOD.PERIOD (i : Nat) : Fld := ⟨0xB10C + 0x10 * i, 0, 32⟩
/-- KEY.STATUS.LC_PEND, access RO (spec/16_keys_and_update.md). -/
abbrev KEY.STATUS.LC_PEND : Fld := ⟨0xC000, 28, 4⟩
/-- KEY.STATUS.LC, access RO (spec/16_keys_and_update.md). -/
abbrev KEY.STATUS.LC : Fld := ⟨0xC000, 24, 4⟩
/-- KEY.STATUS.USED, access RO (spec/16_keys_and_update.md). -/
abbrev KEY.STATUS.USED : Fld := ⟨0xC000, 8, 8⟩
/-- KEY.STATUS.BUSY, access RO (spec/16_keys_and_update.md). -/
abbrev KEY.STATUS.BUSY : Fld := ⟨0xC000, 2, 1⟩
/-- KEY.STATUS.DRBG_OK, access RO (spec/16_keys_and_update.md). -/
abbrev KEY.STATUS.DRBG_OK : Fld := ⟨0xC000, 1, 1⟩
/-- KEY.STATUS.ENTROPY_OK, access RO (spec/16_keys_and_update.md). -/
abbrev KEY.STATUS.ENTROPY_OK : Fld := ⟨0xC000, 0, 1⟩
/-- KEY.LC_REQ.CANCEL, access WO (spec/16_keys_and_update.md). -/
abbrev KEY.LC_REQ.CANCEL : Fld := ⟨0xC004, 8, 1⟩
/-- KEY.LC_REQ.TARGET, access WO (spec/16_keys_and_update.md). -/
abbrev KEY.LC_REQ.TARGET : Fld := ⟨0xC004, 0, 4⟩
/-- KEY.CMD.SLOT, access WO (spec/16_keys_and_update.md). -/
abbrev KEY.CMD.SLOT : Fld := ⟨0xC008, 24, 6⟩
/-- KEY.CMD.AUX, access WO (spec/16_keys_and_update.md). -/
abbrev KEY.CMD.AUX : Fld := ⟨0xC008, 16, 6⟩
/-- KEY.CMD.CMD, access WO (spec/16_keys_and_update.md). -/
abbrev KEY.CMD.CMD : Fld := ⟨0xC008, 0, 8⟩
/-- KEY.RESULT.CMD, access RO (spec/16_keys_and_update.md). -/
abbrev KEY.RESULT.CMD : Fld := ⟨0xC00C, 8, 8⟩
/-- KEY.RESULT.CODE, access RO (spec/16_keys_and_update.md). -/
abbrev KEY.RESULT.CODE : Fld := ⟨0xC00C, 0, 8⟩
/-- KEY.ATTR_ARG.PERSIST, access RW (spec/16_keys_and_update.md). -/
abbrev KEY.ATTR_ARG.PERSIST : Fld := ⟨0xC010, 31, 1⟩
/-- KEY.ATTR_ARG.KIND, access RW (spec/16_keys_and_update.md). -/
abbrev KEY.ATTR_ARG.KIND : Fld := ⟨0xC010, 28, 3⟩
/-- KEY.ATTR_ARG.ATTR, access RW (spec/16_keys_and_update.md). -/
abbrev KEY.ATTR_ARG.ATTR : Fld := ⟨0xC010, 17, 11⟩
/-- KEY.ATTR_ARG.CTX_LEN, access RW (spec/16_keys_and_update.md). -/
abbrev KEY.ATTR_ARG.CTX_LEN : Fld := ⟨0xC010, 11, 6⟩
/-- KEY.ATTR_ARG.LBL_LEN, access RW (spec/16_keys_and_update.md). -/
abbrev KEY.ATTR_ARG.LBL_LEN : Fld := ⟨0xC010, 6, 5⟩
/-- KEY.ATTR_ID.KEY_ID, access RW (spec/16_keys_and_update.md). -/
abbrev KEY.ATTR_ID.KEY_ID : Fld := ⟨0xC014, 0, 32⟩
/-- KEY.SLOT_SEL.SLOT, access RW (spec/16_keys_and_update.md). -/
abbrev KEY.SLOT_SEL.SLOT : Fld := ⟨0xC018, 0, 6⟩
/-- KEY.SLOT_INFO.PERSIST, access RO (spec/16_keys_and_update.md). -/
abbrev KEY.SLOT_INFO.PERSIST : Fld := ⟨0xC01C, 31, 1⟩
/-- KEY.SLOT_INFO.KIND, access RO (spec/16_keys_and_update.md). -/
abbrev KEY.SLOT_INFO.KIND : Fld := ⟨0xC01C, 28, 3⟩
/-- KEY.SLOT_INFO.ATTR, access RO (spec/16_keys_and_update.md). -/
abbrev KEY.SLOT_INFO.ATTR : Fld := ⟨0xC01C, 17, 11⟩
/-- KEY.SLOT_INFO.COPY, access RO (spec/16_keys_and_update.md). -/
abbrev KEY.SLOT_INFO.COPY : Fld := ⟨0xC01C, 16, 1⟩
/-- KEY.SLOT_INFO.GEN, access RO (spec/16_keys_and_update.md). -/
abbrev KEY.SLOT_INFO.GEN : Fld := ⟨0xC01C, 0, 16⟩
/-- KEY.SLOT_KCV.KCV, access RO (spec/16_keys_and_update.md). -/
abbrev KEY.SLOT_KCV.KCV : Fld := ⟨0xC020, 0, 32⟩
/-- KEY.ARG[k].BYTES, access RW (spec/16_keys_and_update.md). -/
abbrev KEY.ARG.BYTES (i : Nat) : Fld := ⟨0xC040 + 0x4 * i, 0, 32⟩
/-- UPD.STATUS.POLICY, access RO (spec/16_keys_and_update.md). -/
abbrev UPD.STATUS.POLICY : Fld := ⟨0xD000, 10, 2⟩
/-- UPD.STATUS.TRIAL, access RO (spec/16_keys_and_update.md). -/
abbrev UPD.STATUS.TRIAL : Fld := ⟨0xD000, 9, 1⟩
/-- UPD.STATUS.BANK, access RO (spec/16_keys_and_update.md). -/
abbrev UPD.STATUS.BANK : Fld := ⟨0xD000, 8, 1⟩
/-- UPD.STATUS.STATE, access RO (spec/16_keys_and_update.md). -/
abbrev UPD.STATUS.STATE : Fld := ⟨0xD000, 0, 3⟩
/-- UPD.CMD.CMD, access WO (spec/16_keys_and_update.md). -/
abbrev UPD.CMD.CMD : Fld := ⟨0xD004, 0, 3⟩
/-- UPD.RESULT.CHECK, access RO (spec/16_keys_and_update.md). -/
abbrev UPD.RESULT.CHECK : Fld := ⟨0xD008, 0, 8⟩
/-- UPD.STAGE_ADDR.ADDR, access RW (spec/16_keys_and_update.md). -/
abbrev UPD.STAGE_ADDR.ADDR : Fld := ⟨0xD00C, 0, 32⟩
/-- UPD.SEQ.SEQ, access RO (spec/16_keys_and_update.md). -/
abbrev UPD.SEQ.SEQ : Fld := ⟨0xD010, 0, 32⟩
/-- UPD.SVN.MIN_SVN, access RO (spec/16_keys_and_update.md). -/
abbrev UPD.SVN.MIN_SVN : Fld := ⟨0xD014, 0, 32⟩
/-- UPD.ACT_LO.NS, access RO (spec/16_keys_and_update.md). -/
abbrev UPD.ACT_LO.NS : Fld := ⟨0xD018, 0, 32⟩
/-- UPD.ACT_HI.NS, access RO (spec/16_keys_and_update.md). -/
abbrev UPD.ACT_HI.NS : Fld := ⟨0xD01C, 0, 32⟩
/-- UPD.HASH[k].BYTES, access RO (spec/16_keys_and_update.md). -/
abbrev UPD.HASH.BYTES (i : Nat) : Fld := ⟨0xD020 + 0x4 * i, 0, 32⟩
/-- UPD.PROGRESS.PART, access RO (spec/16_keys_and_update.md). -/
abbrev UPD.PROGRESS.PART : Fld := ⟨0xD050, 24, 8⟩
/-- UPD.PROGRESS.KIB, access RO (spec/16_keys_and_update.md). -/
abbrev UPD.PROGRESS.KIB : Fld := ⟨0xD050, 0, 24⟩
/-- RTC.STATUS.SLEWING, access RO (spec/06_billing_and_tariffs.md). -/
abbrev RTC.STATUS.SLEWING : Fld := ⟨0xE000, 7, 1⟩
/-- RTC.STATUS.FREE, access RO (spec/06_billing_and_tariffs.md). -/
abbrev RTC.STATUS.FREE : Fld := ⟨0xE000, 6, 1⟩
/-- RTC.STATUS.STEP_STK, access W1C (spec/06_billing_and_tariffs.md). -/
abbrev RTC.STATUS.STEP_STK : Fld := ⟨0xE000, 5, 1⟩
/-- RTC.STATUS.LAST_SRC, access RO (spec/06_billing_and_tariffs.md). -/
abbrev RTC.STATUS.LAST_SRC : Fld := ⟨0xE000, 2, 2⟩
/-- RTC.STATUS.SYNCED, access RO (spec/06_billing_and_tariffs.md). -/
abbrev RTC.STATUS.SYNCED : Fld := ⟨0xE000, 1, 1⟩
/-- RTC.STATUS.VALID, access RO (spec/06_billing_and_tariffs.md). -/
abbrev RTC.STATUS.VALID : Fld := ⟨0xE000, 0, 1⟩
/-- RTC.TICK.SECONDS, access RO (spec/06_billing_and_tariffs.md). -/
abbrev RTC.TICK.SECONDS : Fld := ⟨0xE004, 0, 32⟩
/-- RTC.NOW_SEC.SEC, access RO (spec/06_billing_and_tariffs.md). -/
abbrev RTC.NOW_SEC.SEC : Fld := ⟨0xE008, 0, 32⟩
/-- RTC.NOW_FRAC.FRAC, access RO (spec/06_billing_and_tariffs.md). -/
abbrev RTC.NOW_FRAC.FRAC : Fld := ⟨0xE00C, 0, 15⟩
/-- RTC.LEAP.TAI_UTC, access RW (spec/06_billing_and_tariffs.md). -/
abbrev RTC.LEAP.TAI_UTC : Fld := ⟨0xE010, 0, 8⟩
/-- RTC.CFG.LIMIT, access RWS (spec/06_billing_and_tariffs.md). -/
abbrev RTC.CFG.LIMIT : Fld := ⟨0xE014, 24, 6⟩
/-- RTC.CFG.SRC_EN, access RWS (spec/06_billing_and_tariffs.md). -/
abbrev RTC.CFG.SRC_EN : Fld := ⟨0xE014, 16, 3⟩
/-- RTC.SET_SEC.SEC, access RW (spec/06_billing_and_tariffs.md). -/
abbrev RTC.SET_SEC.SEC : Fld := ⟨0xE018, 0, 32⟩
/-- RTC.SET_CTL.GO, access WO (spec/06_billing_and_tariffs.md). -/
abbrev RTC.SET_CTL.GO : Fld := ⟨0xE01C, 31, 1⟩
/-- RTC.SET_CTL.FRAC, access RW (spec/06_billing_and_tariffs.md). -/
abbrev RTC.SET_CTL.FRAC : Fld := ⟨0xE01C, 0, 15⟩
/-- RTC.ADJ.SRC, access RO (spec/06_billing_and_tariffs.md). -/
abbrev RTC.ADJ.SRC : Fld := ⟨0xE020, 30, 2⟩
/-- RTC.ADJ.KIND, access RO (spec/06_billing_and_tariffs.md). -/
abbrev RTC.ADJ.KIND : Fld := ⟨0xE020, 28, 2⟩
/-- RTC.ADJ.DELTA_MS, access RO (spec/06_billing_and_tariffs.md). -/
abbrev RTC.ADJ.DELTA_MS : Fld := ⟨0xE020, 0, 28⟩
/-- RTC.SLEW.QUANTA, access RO (spec/06_billing_and_tariffs.md). -/
abbrev RTC.SLEW.QUANTA : Fld := ⟨0xE024, 24, 8⟩
/-- RTC.SLEW.REMAIN_MS, access RO (spec/06_billing_and_tariffs.md). -/
abbrev RTC.SLEW.REMAIN_MS : Fld := ⟨0xE024, 0, 24⟩
/-- RTC.HWM_SEC.SEC, access RO (spec/06_billing_and_tariffs.md). -/
abbrev RTC.HWM_SEC.SEC : Fld := ⟨0xE028, 0, 32⟩
/-- RTC.COUNTS.STEPS, access RO (spec/06_billing_and_tariffs.md). -/
abbrev RTC.COUNTS.STEPS : Fld := ⟨0xE02C, 24, 8⟩
/-- RTC.COUNTS.REFUSED, access RO (spec/06_billing_and_tariffs.md). -/
abbrev RTC.COUNTS.REFUSED : Fld := ⟨0xE02C, 16, 8⟩
/-- RTC.COUNTS.SLEWS, access RO (spec/06_billing_and_tariffs.md). -/
abbrev RTC.COUNTS.SLEWS : Fld := ⟨0xE02C, 0, 16⟩
/-- MET.STATUS.VERIFY, access RO (spec/03_metrology_inputs.md). -/
abbrev MET.STATUS.VERIFY : Fld := ⟨0x10000, 3, 1⟩
/-- MET.STATUS.UNCAL, access RO (spec/03_metrology_inputs.md). -/
abbrev MET.STATUS.UNCAL : Fld := ⟨0x10000, 2, 1⟩
/-- MET.STATUS.MAP_DIFF, access RO (spec/03_metrology_inputs.md). -/
abbrev MET.STATUS.MAP_DIFF : Fld := ⟨0x10000, 1, 1⟩
/-- MET.STATUS.RUN, access RO (spec/03_metrology_inputs.md). -/
abbrev MET.STATUS.RUN : Fld := ⟨0x10000, 0, 1⟩
/-- MET.SEAL.OPENS, access RO (spec/03_metrology_inputs.md). -/
abbrev MET.SEAL.OPENS : Fld := ⟨0x10004, 16, 16⟩
/-- MET.SEAL.INVALID, access RO (spec/03_metrology_inputs.md). -/
abbrev MET.SEAL.INVALID : Fld := ⟨0x10004, 1, 1⟩
/-- MET.SEAL.OPEN, access RO (spec/03_metrology_inputs.md). -/
abbrev MET.SEAL.OPEN : Fld := ⟨0x10004, 0, 1⟩
/-- MET.MB_CAPT.CAPT, access RWL (spec/03_metrology_inputs.md). -/
abbrev MET.MB_CAPT.CAPT : Fld := ⟨0x10008, 0, 4⟩
/-- MET.SRC.REF, access RO (spec/03_metrology_inputs.md). -/
abbrev MET.SRC.REF : Fld := ⟨0x1000C, 0, 17⟩
/-- MET.TEST.START, access WO (spec/03_metrology_inputs.md). -/
abbrev MET.TEST.START : Fld := ⟨0x10010, 0, 1⟩
/-- MET.TEST_STAT.RUNNING, access RO (spec/03_metrology_inputs.md). -/
abbrev MET.TEST_STAT.RUNNING : Fld := ⟨0x10014, 31, 1⟩
/-- MET.TEST_STAT.NO_VERDICT, access RO (spec/03_metrology_inputs.md). -/
abbrev MET.TEST_STAT.NO_VERDICT : Fld := ⟨0x10014, 30, 1⟩
/-- MET.TEST_STAT.FAIL, access RO (spec/03_metrology_inputs.md). -/
abbrev MET.TEST_STAT.FAIL : Fld := ⟨0x10014, 0, 17⟩
/-- MET.XLIM.XREL, access RWL (spec/03_metrology_inputs.md). -/
abbrev MET.XLIM.XREL : Fld := ⟨0x10018, 24, 8⟩
/-- MET.XLIM.XABS, access RWL (spec/03_metrology_inputs.md). -/
abbrev MET.XLIM.XABS : Fld := ⟨0x10018, 16, 8⟩
/-- MET.XLIM.FIELD_LIM, access RWL (spec/03_metrology_inputs.md). -/
abbrev MET.XLIM.FIELD_LIM : Fld := ⟨0x10018, 0, 12⟩
/-- MET.MAP[m].CFG.RATED_I, access RWL (spec/03_metrology_inputs.md). -/
abbrev MET.MAP.CFG.RATED_I (i : Nat) : Fld := ⟨0x10100 + 0x10 * i, 16, 16⟩
/-- MET.MAP[m].CFG.NOM_V, access RWL (spec/03_metrology_inputs.md). -/
abbrev MET.MAP.CFG.NOM_V (i : Nat) : Fld := ⟨0x10100 + 0x10 * i, 2, 12⟩
/-- MET.MAP[m].CFG.TYPE, access RWL (spec/03_metrology_inputs.md). -/
abbrev MET.MAP.CFG.TYPE (i : Nat) : Fld := ⟨0x10100 + 0x10 * i, 0, 2⟩
/-- MET.MAP[m].V.VALID3, access RWL (spec/03_metrology_inputs.md). -/
abbrev MET.MAP.V.VALID3 (i : Nat) : Fld := ⟨0x10104 + 0x10 * i, 31, 1⟩
/-- MET.MAP[m].V.CH3, access RWL (spec/03_metrology_inputs.md). -/
abbrev MET.MAP.V.CH3 (i : Nat) : Fld := ⟨0x10104 + 0x10 * i, 24, 7⟩
/-- MET.MAP[m].V.VALID2, access RWL (spec/03_metrology_inputs.md). -/
abbrev MET.MAP.V.VALID2 (i : Nat) : Fld := ⟨0x10104 + 0x10 * i, 23, 1⟩
/-- MET.MAP[m].V.CH2, access RWL (spec/03_metrology_inputs.md). -/
abbrev MET.MAP.V.CH2 (i : Nat) : Fld := ⟨0x10104 + 0x10 * i, 16, 7⟩
/-- MET.MAP[m].V.VALID1, access RWL (spec/03_metrology_inputs.md). -/
abbrev MET.MAP.V.VALID1 (i : Nat) : Fld := ⟨0x10104 + 0x10 * i, 15, 1⟩
/-- MET.MAP[m].V.CH1, access RWL (spec/03_metrology_inputs.md). -/
abbrev MET.MAP.V.CH1 (i : Nat) : Fld := ⟨0x10104 + 0x10 * i, 8, 7⟩
/-- MET.MAP[m].V.VALID0, access RWL (spec/03_metrology_inputs.md). -/
abbrev MET.MAP.V.VALID0 (i : Nat) : Fld := ⟨0x10104 + 0x10 * i, 7, 1⟩
/-- MET.MAP[m].V.CH0, access RWL (spec/03_metrology_inputs.md). -/
abbrev MET.MAP.V.CH0 (i : Nat) : Fld := ⟨0x10104 + 0x10 * i, 0, 7⟩
/-- MET.MAP[m].I.VALID3, access RWL (spec/03_metrology_inputs.md). -/
abbrev MET.MAP.I.VALID3 (i : Nat) : Fld := ⟨0x10108 + 0x10 * i, 31, 1⟩
/-- MET.MAP[m].I.CH3, access RWL (spec/03_metrology_inputs.md). -/
abbrev MET.MAP.I.CH3 (i : Nat) : Fld := ⟨0x10108 + 0x10 * i, 24, 7⟩
/-- MET.MAP[m].I.VALID2, access RWL (spec/03_metrology_inputs.md). -/
abbrev MET.MAP.I.VALID2 (i : Nat) : Fld := ⟨0x10108 + 0x10 * i, 23, 1⟩
/-- MET.MAP[m].I.CH2, access RWL (spec/03_metrology_inputs.md). -/
abbrev MET.MAP.I.CH2 (i : Nat) : Fld := ⟨0x10108 + 0x10 * i, 16, 7⟩
/-- MET.MAP[m].I.VALID1, access RWL (spec/03_metrology_inputs.md). -/
abbrev MET.MAP.I.VALID1 (i : Nat) : Fld := ⟨0x10108 + 0x10 * i, 15, 1⟩
/-- MET.MAP[m].I.CH1, access RWL (spec/03_metrology_inputs.md). -/
abbrev MET.MAP.I.CH1 (i : Nat) : Fld := ⟨0x10108 + 0x10 * i, 8, 7⟩
/-- MET.MAP[m].I.VALID0, access RWL (spec/03_metrology_inputs.md). -/
abbrev MET.MAP.I.VALID0 (i : Nat) : Fld := ⟨0x10108 + 0x10 * i, 7, 1⟩
/-- MET.MAP[m].I.CH0, access RWL (spec/03_metrology_inputs.md). -/
abbrev MET.MAP.I.CH0 (i : Nat) : Fld := ⟨0x10108 + 0x10 * i, 0, 7⟩
/-- MET.MAP[m].R.VALID3, access RWL (spec/03_metrology_inputs.md). -/
abbrev MET.MAP.R.VALID3 (i : Nat) : Fld := ⟨0x1010C + 0x10 * i, 31, 1⟩
/-- MET.MAP[m].R.CH3, access RWL (spec/03_metrology_inputs.md). -/
abbrev MET.MAP.R.CH3 (i : Nat) : Fld := ⟨0x1010C + 0x10 * i, 24, 7⟩
/-- MET.MAP[m].R.VALID2, access RWL (spec/03_metrology_inputs.md). -/
abbrev MET.MAP.R.VALID2 (i : Nat) : Fld := ⟨0x1010C + 0x10 * i, 23, 1⟩
/-- MET.MAP[m].R.CH2, access RWL (spec/03_metrology_inputs.md). -/
abbrev MET.MAP.R.CH2 (i : Nat) : Fld := ⟨0x1010C + 0x10 * i, 16, 7⟩
/-- MET.MAP[m].R.VALID1, access RWL (spec/03_metrology_inputs.md). -/
abbrev MET.MAP.R.VALID1 (i : Nat) : Fld := ⟨0x1010C + 0x10 * i, 15, 1⟩
/-- MET.MAP[m].R.CH1, access RWL (spec/03_metrology_inputs.md). -/
abbrev MET.MAP.R.CH1 (i : Nat) : Fld := ⟨0x1010C + 0x10 * i, 8, 7⟩
/-- MET.MAP[m].R.VALID0, access RWL (spec/03_metrology_inputs.md). -/
abbrev MET.MAP.R.VALID0 (i : Nat) : Fld := ⟨0x1010C + 0x10 * i, 7, 1⟩
/-- MET.MAP[m].R.CH0, access RWL (spec/03_metrology_inputs.md). -/
abbrev MET.MAP.R.CH0 (i : Nat) : Fld := ⟨0x1010C + 0x10 * i, 0, 7⟩
/-- MET.FNOM.HZ, access RO (spec/04_energy_quantities.md). -/
abbrev MET.FNOM.HZ : Fld := ⟨0x10400, 0, 8⟩
/-- MET.PQ_EN.EN, access RWS (spec/04_energy_quantities.md). -/
abbrev MET.PQ_EN.EN : Fld := ⟨0x10404, 0, 17⟩
/-- MET.PQ_V.DIP, access RWS (spec/04_energy_quantities.md). -/
abbrev MET.PQ_V.DIP : Fld := ⟨0x10408, 24, 8⟩
/-- MET.PQ_V.SWELL, access RWS (spec/04_energy_quantities.md). -/
abbrev MET.PQ_V.SWELL : Fld := ⟨0x10408, 16, 8⟩
/-- MET.PQ_V.INTR, access RWS (spec/04_energy_quantities.md). -/
abbrev MET.PQ_V.INTR : Fld := ⟨0x10408, 8, 8⟩
/-- MET.PQ_V.HYS, access RWS (spec/04_energy_quantities.md). -/
abbrev MET.PQ_V.HYS : Fld := ⟨0x10408, 0, 8⟩
/-- MET.PQ_L.FDEV, access RWS (spec/04_energy_quantities.md). -/
abbrev MET.PQ_L.FDEV : Fld := ⟨0x1040C, 24, 8⟩
/-- MET.PQ_L.UNB, access RWS (spec/04_energy_quantities.md). -/
abbrev MET.PQ_L.UNB : Fld := ⟨0x1040C, 16, 8⟩
/-- MET.PQ_L.THD, access RWS (spec/04_energy_quantities.md). -/
abbrev MET.PQ_L.THD : Fld := ⟨0x1040C, 8, 8⟩
/-- MET.PQ_STAT.INTR, access RO (spec/04_energy_quantities.md). -/
abbrev MET.PQ_STAT.INTR : Fld := ⟨0x10410, 24, 8⟩
/-- MET.PQ_STAT.SWELL, access RO (spec/04_energy_quantities.md). -/
abbrev MET.PQ_STAT.SWELL : Fld := ⟨0x10410, 16, 8⟩
/-- MET.PQ_STAT.DIP, access RO (spec/04_energy_quantities.md). -/
abbrev MET.PQ_STAT.DIP : Fld := ⟨0x10410, 8, 8⟩
/-- MET.PQ_STAT.SLOW, access RO (spec/04_energy_quantities.md). -/
abbrev MET.PQ_STAT.SLOW : Fld := ⟨0x10410, 0, 8⟩
/-- MET.HSEL.VALID, access RO (spec/04_energy_quantities.md). -/
abbrev MET.HSEL.VALID : Fld := ⟨0x10414, 31, 1⟩
/-- MET.HSEL.CUR, access RW (spec/04_energy_quantities.md). -/
abbrev MET.HSEL.CUR : Fld := ⟨0x10414, 9, 1⟩
/-- MET.HSEL.PHASE, access RW (spec/04_energy_quantities.md). -/
abbrev MET.HSEL.PHASE : Fld := ⟨0x10414, 7, 2⟩
/-- MET.HSEL.METER, access RW (spec/04_energy_quantities.md). -/
abbrev MET.HSEL.METER : Fld := ⟨0x10414, 0, 5⟩
/-- MET.MQ[m].STATUS.NOSRC, access RO (spec/04_energy_quantities.md). -/
abbrev MET.MQ.STATUS.NOSRC (i : Nat) : Fld := ⟨0x10480 + 0x80 * i, 24, 1⟩
/-- MET.MQ[m].STATUS.REF, access RO (spec/04_energy_quantities.md). -/
abbrev MET.MQ.STATUS.REF (i : Nat) : Fld := ⟨0x10480 + 0x80 * i, 23, 1⟩
/-- MET.MQ[m].STATUS.PQ, access RO (spec/04_energy_quantities.md). -/
abbrev MET.MQ.STATUS.PQ (i : Nat) : Fld := ⟨0x10480 + 0x80 * i, 22, 1⟩
/-- MET.MQ[m].STATUS.SEQ_STK, access W1C (spec/04_energy_quantities.md). -/
abbrev MET.MQ.STATUS.SEQ_STK (i : Nat) : Fld := ⟨0x10480 + 0x80 * i, 21, 1⟩
/-- MET.MQ[m].STATUS.NEUT_STK, access W1C (spec/04_energy_quantities.md). -/
abbrev MET.MQ.STATUS.NEUT_STK (i : Nat) : Fld := ⟨0x10480 + 0x80 * i, 20, 1⟩
/-- MET.MQ[m].STATUS.NEUTRAL, access RO (spec/04_energy_quantities.md). -/
abbrev MET.MQ.STATUS.NEUTRAL (i : Nat) : Fld := ⟨0x10480 + 0x80 * i, 19, 1⟩
/-- MET.MQ[m].STATUS.SEQ, access RO (spec/04_energy_quantities.md). -/
abbrev MET.MQ.STATUS.SEQ (i : Nat) : Fld := ⟨0x10480 + 0x80 * i, 17, 2⟩
/-- MET.MQ[m].STATUS.QUAD_F, access RO (spec/04_energy_quantities.md). -/
abbrev MET.MQ.STATUS.QUAD_F (i : Nat) : Fld := ⟨0x10480 + 0x80 * i, 14, 3⟩
/-- MET.MQ[m].STATUS.QUAD_T, access RO (spec/04_energy_quantities.md). -/
abbrev MET.MQ.STATUS.QUAD_T (i : Nat) : Fld := ⟨0x10480 + 0x80 * i, 11, 3⟩
/-- MET.MQ[m].STATUS.DIR_F, access RO (spec/04_energy_quantities.md). -/
abbrev MET.MQ.STATUS.DIR_F (i : Nat) : Fld := ⟨0x10480 + 0x80 * i, 9, 2⟩
/-- MET.MQ[m].STATUS.DIR_T, access RO (spec/04_energy_quantities.md). -/
abbrev MET.MQ.STATUS.DIR_T (i : Nat) : Fld := ⟨0x10480 + 0x80 * i, 7, 2⟩
/-- MET.MQ[m].STATUS.PEXP, access RO (spec/04_energy_quantities.md). -/
abbrev MET.MQ.STATUS.PEXP (i : Nat) : Fld := ⟨0x10480 + 0x80 * i, 4, 3⟩
/-- MET.MQ[m].STATUS.NOLOAD, access RO (spec/04_energy_quantities.md). -/
abbrev MET.MQ.STATUS.NOLOAD (i : Nat) : Fld := ⟨0x10480 + 0x80 * i, 0, 3⟩
/-- MET.MQ[m].FREQ.LOCKED, access RO (spec/04_energy_quantities.md). -/
abbrev MET.MQ.FREQ.LOCKED (i : Nat) : Fld := ⟨0x10484 + 0x80 * i, 31, 1⟩
/-- MET.MQ[m].FREQ.HOLD, access RO (spec/04_energy_quantities.md). -/
abbrev MET.MQ.FREQ.HOLD (i : Nat) : Fld := ⟨0x10484 + 0x80 * i, 30, 1⟩
/-- MET.MQ[m].FREQ.MHZ, access RO (spec/04_energy_quantities.md). -/
abbrev MET.MQ.FREQ.MHZ (i : Nat) : Fld := ⟨0x10484 + 0x80 * i, 0, 17⟩
/-- MET.MQ[m].V[p].VALUE, access RO (spec/04_energy_quantities.md). -/
abbrev MET.MQ.V.VALUE (i j : Nat) : Fld := ⟨0x10488 + 0x80 * i + 0x4 * j, 0, 32⟩
/-- MET.MQ[m].I[p].VALUE, access RO (spec/04_energy_quantities.md). -/
abbrev MET.MQ.I.VALUE (i j : Nat) : Fld := ⟨0x10494 + 0x80 * i + 0x4 * j, 0, 32⟩
/-- MET.MQ[m].IN_MEAS.VALUE, access RO (spec/04_energy_quantities.md). -/
abbrev MET.MQ.IN_MEAS.VALUE (i : Nat) : Fld := ⟨0x104A0 + 0x80 * i, 0, 32⟩
/-- MET.MQ[m].IN_CALC.VALUE, access RO (spec/04_energy_quantities.md). -/
abbrev MET.MQ.IN_CALC.VALUE (i : Nat) : Fld := ⟨0x104A4 + 0x80 * i, 0, 32⟩
/-- MET.MQ[m].P[p].VALUE, access RO (spec/04_energy_quantities.md). -/
abbrev MET.MQ.P.VALUE (i j : Nat) : Fld := ⟨0x104A8 + 0x80 * i + 0x4 * j, 0, 32⟩
/-- MET.MQ[m].P1[p].VALUE, access RO (spec/04_energy_quantities.md). -/
abbrev MET.MQ.P1.VALUE (i j : Nat) : Fld := ⟨0x104B4 + 0x80 * i + 0x4 * j, 0, 32⟩
/-- MET.MQ[m].Q1[p].VALUE, access RO (spec/04_energy_quantities.md). -/
abbrev MET.MQ.Q1.VALUE (i j : Nat) : Fld := ⟨0x104C0 + 0x80 * i + 0x4 * j, 0, 32⟩
/-- MET.MQ[m].PSUM.VALUE, access RO (spec/04_energy_quantities.md). -/
abbrev MET.MQ.PSUM.VALUE (i : Nat) : Fld := ⟨0x104CC + 0x80 * i, 0, 32⟩
/-- MET.MQ[m].P1SUM.VALUE, access RO (spec/04_energy_quantities.md). -/
abbrev MET.MQ.P1SUM.VALUE (i : Nat) : Fld := ⟨0x104D0 + 0x80 * i, 0, 32⟩
/-- MET.MQ[m].QSUM.VALUE, access RO (spec/04_energy_quantities.md). -/
abbrev MET.MQ.QSUM.VALUE (i : Nat) : Fld := ⟨0x104D4 + 0x80 * i, 0, 32⟩
/-- MET.MQ[m].Q1SUM.VALUE, access RO (spec/04_energy_quantities.md). -/
abbrev MET.MQ.Q1SUM.VALUE (i : Nat) : Fld := ⟨0x104D8 + 0x80 * i, 0, 32⟩
/-- MET.MQ[m].SSUM.VALUE, access RO (spec/04_energy_quantities.md). -/
abbrev MET.MQ.SSUM.VALUE (i : Nat) : Fld := ⟨0x104DC + 0x80 * i, 0, 32⟩
/-- MET.MQ[m].S1SUM.VALUE, access RO (spec/04_energy_quantities.md). -/
abbrev MET.MQ.S1SUM.VALUE (i : Nat) : Fld := ⟨0x104E0 + 0x80 * i, 0, 32⟩
/-- MET.MQ[m].ANG[p].VANG, access RO (spec/04_energy_quantities.md). -/
abbrev MET.MQ.ANG.VANG (i j : Nat) : Fld := ⟨0x104E4 + 0x80 * i + 0x4 * j, 16, 16⟩
/-- MET.MQ[m].ANG[p].PHI, access RO (spec/04_energy_quantities.md). -/
abbrev MET.MQ.ANG.PHI (i j : Nat) : Fld := ⟨0x104E4 + 0x80 * i + 0x4 * j, 0, 16⟩
/-- MET.MQ[m].THD_V.PH2, access RO (spec/04_energy_quantities.md). -/
abbrev MET.MQ.THD_V.PH2 (i : Nat) : Fld := ⟨0x104F0 + 0x80 * i, 20, 10⟩
/-- MET.MQ[m].THD_V.PH1, access RO (spec/04_energy_quantities.md). -/
abbrev MET.MQ.THD_V.PH1 (i : Nat) : Fld := ⟨0x104F0 + 0x80 * i, 10, 10⟩
/-- MET.MQ[m].THD_V.PH0, access RO (spec/04_energy_quantities.md). -/
abbrev MET.MQ.THD_V.PH0 (i : Nat) : Fld := ⟨0x104F0 + 0x80 * i, 0, 10⟩
/-- MET.MQ[m].THD_I.PH2, access RO (spec/04_energy_quantities.md). -/
abbrev MET.MQ.THD_I.PH2 (i : Nat) : Fld := ⟨0x104F4 + 0x80 * i, 20, 10⟩
/-- MET.MQ[m].THD_I.PH1, access RO (spec/04_energy_quantities.md). -/
abbrev MET.MQ.THD_I.PH1 (i : Nat) : Fld := ⟨0x104F4 + 0x80 * i, 10, 10⟩
/-- MET.MQ[m].THD_I.PH0, access RO (spec/04_energy_quantities.md). -/
abbrev MET.MQ.THD_I.PH0 (i : Nat) : Fld := ⟨0x104F4 + 0x80 * i, 0, 10⟩
/-- MET.MQ[m].V0.VALUE, access RO (spec/04_energy_quantities.md). -/
abbrev MET.MQ.V0.VALUE (i : Nat) : Fld := ⟨0x104F8 + 0x80 * i, 0, 32⟩
/-- MET.MQ[m].STAMP.SEC, access RO (spec/04_energy_quantities.md). -/
abbrev MET.MQ.STAMP.SEC (i : Nat) : Fld := ⟨0x104FC + 0x80 * i, 4, 28⟩
/-- MET.MQ[m].STAMP.K, access RO (spec/04_energy_quantities.md). -/
abbrev MET.MQ.STAMP.K (i : Nat) : Fld := ⟨0x104FC + 0x80 * i, 0, 4⟩
/-- MET.HARM[0].RMS1, access RO (spec/04_energy_quantities.md). -/
abbrev MET.HARM0.RMS1 : Fld := ⟨0x10D00, 0, 32⟩
/-- MET.HARM[h], h=1–50.ANGLE, access RO (spec/04_energy_quantities.md). -/
abbrev MET.HARM.ANGLE (i : Nat) : Fld := ⟨0x10D04 + 0x4 * i, 16, 16⟩
/-- MET.HARM[h], h=1–50.MAG, access RO (spec/04_energy_quantities.md). -/
abbrev MET.HARM.MAG (i : Nat) : Fld := ⟨0x10D04 + 0x4 * i, 0, 16⟩
/-- MCH[n].CFG.ENABLE, access RWL (spec/03_metrology_inputs.md). -/
abbrev MCH.CFG.ENABLE (i : Nat) : Fld := ⟨0x11000 + 0x40 * i, 31, 1⟩
/-- MCH[n].CFG.SRC, access RWL (spec/03_metrology_inputs.md). -/
abbrev MCH.CFG.SRC (i : Nat) : Fld := ⟨0x11000 + 0x40 * i, 28, 3⟩
/-- MCH[n].CFG.SRC_IDX, access RWL (spec/03_metrology_inputs.md). -/
abbrev MCH.CFG.SRC_IDX (i : Nat) : Fld := ⟨0x11000 + 0x40 * i, 16, 8⟩
/-- MCH[n].CFG.COND, access RWL (spec/03_metrology_inputs.md). -/
abbrev MCH.CFG.COND (i : Nat) : Fld := ⟨0x11000 + 0x40 * i, 14, 2⟩
/-- MCH[n].CFG.QTY, access RWL (spec/03_metrology_inputs.md). -/
abbrev MCH.CFG.QTY (i : Nat) : Fld := ⟨0x11000 + 0x40 * i, 12, 2⟩
/-- MCH[n].CFG.SENSOR, access RWL (spec/03_metrology_inputs.md). -/
abbrev MCH.CFG.SENSOR (i : Nat) : Fld := ⟨0x11000 + 0x40 * i, 10, 2⟩
/-- MCH[n].CFG.HPF, access RWL (spec/03_metrology_inputs.md). -/
abbrev MCH.CFG.HPF (i : Nat) : Fld := ⟨0x11000 + 0x40 * i, 9, 1⟩
/-- MCH[n].FULLSCALE.FS, access RWL (spec/03_metrology_inputs.md). -/
abbrev MCH.FULLSCALE.FS (i : Nat) : Fld := ⟨0x11004 + 0x40 * i, 0, 32⟩
/-- MCH[n].GAIN.GAIN, access RWL (spec/03_metrology_inputs.md). -/
abbrev MCH.GAIN.GAIN (i : Nat) : Fld := ⟨0x11008 + 0x40 * i, 0, 32⟩
/-- MCH[n].OFFSET.OFFSET, access RWL (spec/03_metrology_inputs.md). -/
abbrev MCH.OFFSET.OFFSET (i : Nat) : Fld := ⟨0x1100C + 0x40 * i, 0, 24⟩
/-- MCH[n].PHASE.TRIM, access RWL (spec/03_metrology_inputs.md). -/
abbrev MCH.PHASE.TRIM (i : Nat) : Fld := ⟨0x11010 + 0x40 * i, 0, 16⟩
/-- MCH[n].STATUS.STALE, access RO (spec/03_metrology_inputs.md). -/
abbrev MCH.STATUS.STALE (i : Nat) : Fld := ⟨0x11014 + 0x40 * i, 4, 1⟩
/-- MCH[n].STATUS.OVR, access W1C (spec/03_metrology_inputs.md). -/
abbrev MCH.STATUS.OVR (i : Nat) : Fld := ⟨0x11014 + 0x40 * i, 3, 1⟩
/-- MCH[n].STATUS.LOST, access RO (spec/03_metrology_inputs.md). -/
abbrev MCH.STATUS.LOST (i : Nat) : Fld := ⟨0x11014 + 0x40 * i, 2, 1⟩
/-- MCH[n].STATUS.ACTIVE, access RO (spec/03_metrology_inputs.md). -/
abbrev MCH.STATUS.ACTIVE (i : Nat) : Fld := ⟨0x11014 + 0x40 * i, 1, 1⟩
/-- MCH[n].STATUS.PENDING, access RO (spec/03_metrology_inputs.md). -/
abbrev MCH.STATUS.PENDING (i : Nat) : Fld := ⟨0x11014 + 0x40 * i, 0, 1⟩
/-- MCH[n].LEVEL.RMS, access RO (spec/03_metrology_inputs.md). -/
abbrev MCH.LEVEL.RMS (i : Nat) : Fld := ⟨0x11018 + 0x40 * i, 0, 32⟩
/-- MCH[n].PEAK.PEAK, access RO (spec/03_metrology_inputs.md). -/
abbrev MCH.PEAK.PEAK (i : Nat) : Fld := ⟨0x1101C + 0x40 * i, 0, 32⟩
/-- MCH[n].ERRCNT.HOLDS, access RO (spec/03_metrology_inputs.md). -/
abbrev MCH.ERRCNT.HOLDS (i : Nat) : Fld := ⟨0x11020 + 0x40 * i, 16, 16⟩
/-- MCH[n].ERRCNT.OVRS, access RO (spec/03_metrology_inputs.md). -/
abbrev MCH.ERRCNT.OVRS (i : Nat) : Fld := ⟨0x11020 + 0x40 * i, 0, 16⟩
/-- SLK[n].STATUS.BOUND_OK, access RO (spec/03_metrology_inputs.md). -/
abbrev SLK.STATUS.BOUND_OK (i : Nat) : Fld := ⟨0x13000 + 0x40 * i, 6, 1⟩
/-- SLK[n].STATUS.FIELD, access RO (spec/03_metrology_inputs.md). -/
abbrev SLK.STATUS.FIELD (i : Nat) : Fld := ⟨0x13000 + 0x40 * i, 5, 1⟩
/-- SLK[n].STATUS.FIELD_STK, access W1C (spec/03_metrology_inputs.md). -/
abbrev SLK.STATUS.FIELD_STK (i : Nat) : Fld := ⟨0x13000 + 0x40 * i, 4, 1⟩
/-- SLK[n].STATUS.ELEM_STK, access W1C (spec/03_metrology_inputs.md). -/
abbrev SLK.STATUS.ELEM_STK (i : Nat) : Fld := ⟨0x13000 + 0x40 * i, 3, 1⟩
/-- SLK[n].STATUS.LOST, access RO (spec/03_metrology_inputs.md). -/
abbrev SLK.STATUS.LOST (i : Nat) : Fld := ⟨0x13000 + 0x40 * i, 2, 1⟩
/-- SLK[n].STATUS.LINK_UP, access RO (spec/03_metrology_inputs.md). -/
abbrev SLK.STATUS.LINK_UP (i : Nat) : Fld := ⟨0x13000 + 0x40 * i, 1, 1⟩
/-- SLK[n].ELEM_FAIL.ELEM, access RO (spec/03_metrology_inputs.md). -/
abbrev SLK.ELEM_FAIL.ELEM (i : Nat) : Fld := ⟨0x13004 + 0x40 * i, 0, 32⟩
/-- SLK[n].FIELD.UT, access RO (spec/03_metrology_inputs.md). -/
abbrev SLK.FIELD.UT (i : Nat) : Fld := ⟨0x13008 + 0x40 * i, 0, 16⟩
/-- SLK[n].TEMP.TEMP, access RO (spec/03_metrology_inputs.md). -/
abbrev SLK.TEMP.TEMP (i : Nat) : Fld := ⟨0x1300C + 0x40 * i, 0, 16⟩
/-- SLK[n].CRC_ERR.COUNT, access RO (spec/03_metrology_inputs.md). -/
abbrev SLK.CRC_ERR.COUNT (i : Nat) : Fld := ⟨0x13010 + 0x40 * i, 0, 32⟩
/-- SLK[n].BIND_SER_LO.VALUE, access RO (spec/03_metrology_inputs.md). -/
abbrev SLK.BIND_SER_LO.VALUE (i : Nat) : Fld := ⟨0x13014 + 0x40 * i, 0, 32⟩
/-- SLK[n].BIND_SER_HI.VALUE, access RO (spec/03_metrology_inputs.md). -/
abbrev SLK.BIND_SER_HI.VALUE (i : Nat) : Fld := ⟨0x13018 + 0x40 * i, 0, 32⟩
/-- SLK[n].BIND_CRC.VALUE, access RO (spec/03_metrology_inputs.md). -/
abbrev SLK.BIND_CRC.VALUE (i : Nat) : Fld := ⟨0x1301C + 0x40 * i, 0, 32⟩
/-- TMP.STATUS.LOOP_STK, access W1C (spec/05_outage_and_tamper.md). -/
abbrev TMP.STATUS.LOOP_STK : Fld := ⟨0x14000, 16, 1⟩
/-- TMP.STATUS.SENSOR_STK, access W1C (spec/05_outage_and_tamper.md). -/
abbrev TMP.STATUS.SENSOR_STK : Fld := ⟨0x14000, 15, 1⟩
/-- TMP.STATUS.SEAL_STK, access W1C (spec/05_outage_and_tamper.md). -/
abbrev TMP.STATUS.SEAL_STK : Fld := ⟨0x14000, 14, 1⟩
/-- TMP.STATUS.BYPASS_STK, access W1C (spec/05_outage_and_tamper.md). -/
abbrev TMP.STATUS.BYPASS_STK : Fld := ⟨0x14000, 13, 1⟩
/-- TMP.STATUS.MAGNET_STK, access W1C (spec/05_outage_and_tamper.md). -/
abbrev TMP.STATUS.MAGNET_STK : Fld := ⟨0x14000, 12, 1⟩
/-- TMP.STATUS.OPEN_STK, access W1C (spec/05_outage_and_tamper.md). -/
abbrev TMP.STATUS.OPEN_STK : Fld := ⟨0x14000, 8, 4⟩
/-- TMP.STATUS.VBAT_LOST, access RO (spec/05_outage_and_tamper.md). -/
abbrev TMP.STATUS.VBAT_LOST : Fld := ⟨0x14000, 5, 1⟩
/-- TMP.STATUS.MAGNET, access RO (spec/05_outage_and_tamper.md). -/
abbrev TMP.STATUS.MAGNET : Fld := ⟨0x14000, 4, 1⟩
/-- TMP.STATUS.OPEN, access RO (spec/05_outage_and_tamper.md). -/
abbrev TMP.STATUS.OPEN : Fld := ⟨0x14000, 0, 4⟩
/-- TMP.CFG.ACT_BYPASS, access RW (spec/05_outage_and_tamper.md). -/
abbrev TMP.CFG.ACT_BYPASS : Fld := ⟨0x14004, 30, 2⟩
/-- TMP.CFG.ACT_SEAL, access RW (spec/05_outage_and_tamper.md). -/
abbrev TMP.CFG.ACT_SEAL : Fld := ⟨0x14004, 28, 2⟩
/-- TMP.CFG.ACT_MAGNET, access RW (spec/05_outage_and_tamper.md). -/
abbrev TMP.CFG.ACT_MAGNET : Fld := ⟨0x14004, 26, 2⟩
/-- TMP.CFG.ACT_COVER, access RW (spec/05_outage_and_tamper.md). -/
abbrev TMP.CFG.ACT_COVER : Fld := ⟨0x14004, 24, 2⟩
/-- TMP.CFG.BATT_PERIOD, access RW (spec/05_outage_and_tamper.md). -/
abbrev TMP.CFG.BATT_PERIOD : Fld := ⟨0x14004, 16, 8⟩
/-- TMP.CFG.DYN, access RW (spec/05_outage_and_tamper.md). -/
abbrev TMP.CFG.DYN : Fld := ⟨0x14004, 12, 4⟩
/-- TMP.CFG.EN, access RW (spec/05_outage_and_tamper.md). -/
abbrev TMP.CFG.EN : Fld := ⟨0x14004, 8, 4⟩
/-- TMP.CFG.BYP_I, access RW (spec/05_outage_and_tamper.md). -/
abbrev TMP.CFG.BYP_I : Fld := ⟨0x14004, 0, 8⟩
/-- TMP.LATCH.LOST, access RO (spec/05_outage_and_tamper.md). -/
abbrev TMP.LATCH.LOST : Fld := ⟨0x14008, 16, 16⟩
/-- TMP.LATCH.COUNT, access RO (spec/05_outage_and_tamper.md). -/
abbrev TMP.LATCH.COUNT : Fld := ⟨0x14008, 0, 5⟩
/-- TMP.BATT_EST_LO.VALUE, access RO (spec/05_outage_and_tamper.md). -/
abbrev TMP.BATT_EST_LO.VALUE : Fld := ⟨0x1400C, 0, 32⟩
/-- TMP.BATT_EST_HI.VALUE, access RO (spec/05_outage_and_tamper.md). -/
abbrev TMP.BATT_EST_HI.VALUE : Fld := ⟨0x14010, 0, 32⟩
/-- TMP.BATT_SPAN.SECONDS, access RO (spec/05_outage_and_tamper.md). -/
abbrev TMP.BATT_SPAN.SECONDS : Fld := ⟨0x14014, 0, 32⟩
/-- TMP.LOSS.DIR, access RO (spec/05_outage_and_tamper.md). -/
abbrev TMP.LOSS.DIR : Fld := ⟨0x14018, 30, 2⟩
/-- TMP.LOSS.BOUND, access RO (spec/05_outage_and_tamper.md). -/
abbrev TMP.LOSS.BOUND : Fld := ⟨0x14018, 0, 30⟩
/-- TMP.QSERIAL.LOW, access RO (spec/05_outage_and_tamper.md). -/
abbrev TMP.QSERIAL.LOW : Fld := ⟨0x1401C, 0, 32⟩
/-- BIL.STATUS.RATE_E, access RO (spec/06_billing_and_tariffs.md). -/
abbrev BIL.STATUS.RATE_E : Fld := ⟨0x15000, 8, 4⟩
/-- BIL.STATUS.RATE_I, access RO (spec/06_billing_and_tariffs.md). -/
abbrev BIL.STATUS.RATE_I : Fld := ⟨0x15000, 4, 4⟩
/-- BIL.STATUS.DEFAULT, access RO (spec/06_billing_and_tariffs.md). -/
abbrev BIL.STATUS.DEFAULT : Fld := ⟨0x15000, 3, 1⟩
/-- BIL.STATUS.SEL_ERR, access RO (spec/06_billing_and_tariffs.md). -/
abbrev BIL.STATUS.SEL_ERR : Fld := ⟨0x15000, 1, 1⟩
/-- BIL.STATUS.NO_CAL, access RO (spec/06_billing_and_tariffs.md). -/
abbrev BIL.STATUS.NO_CAL : Fld := ⟨0x15000, 0, 1⟩
/-- BIL.SEL.HIST, access RW (spec/06_billing_and_tariffs.md). -/
abbrev BIL.SEL.HIST : Fld := ⟨0x15004, 27, 5⟩
/-- BIL.SEL.METER, access RW (spec/06_billing_and_tariffs.md). -/
abbrev BIL.SEL.METER : Fld := ⟨0x15004, 22, 5⟩
/-- BIL.SEL.QTY, access RW (spec/06_billing_and_tariffs.md). -/
abbrev BIL.SEL.QTY : Fld := ⟨0x15004, 16, 6⟩
/-- BIL.SEL.RATE, access RW (spec/06_billing_and_tariffs.md). -/
abbrev BIL.SEL.RATE : Fld := ⟨0x15004, 0, 5⟩
/-- BIL.VAL_LO.VALUE, access RO (spec/06_billing_and_tariffs.md). -/
abbrev BIL.VAL_LO.VALUE : Fld := ⟨0x15008, 0, 32⟩
/-- BIL.VAL_HI.VALUE, access RO (spec/06_billing_and_tariffs.md). -/
abbrev BIL.VAL_HI.VALUE : Fld := ⟨0x1500C, 0, 32⟩
/-- BIL.VAL_STAMP.STAMP, access RO (spec/06_billing_and_tariffs.md). -/
abbrev BIL.VAL_STAMP.STAMP : Fld := ⟨0x15010, 0, 32⟩
/-- BIL.PERIOD.NUMBER, access RO (spec/06_billing_and_tariffs.md). -/
abbrev BIL.PERIOD.NUMBER : Fld := ⟨0x15014, 0, 32⟩
/-- BIL.PERIOD_START.SEC, access RO (spec/06_billing_and_tariffs.md). -/
abbrev BIL.PERIOD_START.SEC : Fld := ⟨0x15018, 0, 32⟩
/-- BIL.CLOSE.GO, access WO (spec/06_billing_and_tariffs.md). -/
abbrev BIL.CLOSE.GO : Fld := ⟨0x1501C, 0, 1⟩
/-- BIL.INTERVAL.ELAPSED_Q, access RO (spec/06_billing_and_tariffs.md). -/
abbrev BIL.INTERVAL.ELAPSED_Q : Fld := ⟨0x15020, 16, 16⟩
/-- BIL.INTERVAL.FLAGS, access RO (spec/06_billing_and_tariffs.md). -/
abbrev BIL.INTERVAL.FLAGS : Fld := ⟨0x15020, 8, 8⟩
/-- BIL.INTERVAL.LEN_MIN, access RO (spec/06_billing_and_tariffs.md). -/
abbrev BIL.INTERVAL.LEN_MIN : Fld := ⟨0x15020, 0, 8⟩
/-- BIL.INT_END.SEC, access RO (spec/06_billing_and_tariffs.md). -/
abbrev BIL.INT_END.SEC : Fld := ⟨0x15024, 0, 32⟩
/-- BIL.PROFILE.HEAD, access RO (spec/06_billing_and_tariffs.md). -/
abbrev BIL.PROFILE.HEAD : Fld := ⟨0x15028, 16, 16⟩
/-- BIL.PROFILE.COUNT, access RO (spec/06_billing_and_tariffs.md). -/
abbrev BIL.PROFILE.COUNT : Fld := ⟨0x15028, 0, 16⟩
/-- BIL.CATCHUP.MISSED, access RO (spec/06_billing_and_tariffs.md). -/
abbrev BIL.CATCHUP.MISSED : Fld := ⟨0x1502C, 16, 16⟩
/-- BIL.CATCHUP.SWITCHES, access RO (spec/06_billing_and_tariffs.md). -/
abbrev BIL.CATCHUP.SWITCHES : Fld := ⟨0x1502C, 8, 8⟩
/-- BIL.CATCHUP.CLOSES, access RO (spec/06_billing_and_tariffs.md). -/
abbrev BIL.CATCHUP.CLOSES : Fld := ⟨0x1502C, 4, 4⟩
/-- BIL.CATCHUP.ACTIVATED, access RO (spec/06_billing_and_tariffs.md). -/
abbrev BIL.CATCHUP.ACTIVATED : Fld := ⟨0x1502C, 3, 1⟩
/-- TAR.STATUS.ACTIVE_ID, access RO (spec/06_billing_and_tariffs.md). -/
abbrev TAR.STATUS.ACTIVE_ID : Fld := ⟨0x16000, 16, 16⟩
/-- TAR.STATUS.ARM_RESULT, access RO (spec/06_billing_and_tariffs.md). -/
abbrev TAR.STATUS.ARM_RESULT : Fld := ⟨0x16000, 8, 8⟩
/-- TAR.STATUS.ARMED, access RO (spec/06_billing_and_tariffs.md). -/
abbrev TAR.STATUS.ARMED : Fld := ⟨0x16000, 1, 1⟩
/-- TAR.STATUS.ACTIVE, access RO (spec/06_billing_and_tariffs.md). -/
abbrev TAR.STATUS.ACTIVE : Fld := ⟨0x16000, 0, 1⟩
/-- TAR.ACT_SEC.SEC, access RW (spec/06_billing_and_tariffs.md). -/
abbrev TAR.ACT_SEC.SEC : Fld := ⟨0x16004, 0, 32⟩
/-- TAR.ACT_CTL.DISARM, access WO (spec/06_billing_and_tariffs.md). -/
abbrev TAR.ACT_CTL.DISARM : Fld := ⟨0x16008, 1, 1⟩
/-- TAR.ACT_CTL.ARM, access WO (spec/06_billing_and_tariffs.md). -/
abbrev TAR.ACT_CTL.ARM : Fld := ⟨0x16008, 0, 1⟩
/-- TAR.ARMED_ID.CAL_ID, access RO (spec/06_billing_and_tariffs.md). -/
abbrev TAR.ARMED_ID.CAL_ID : Fld := ⟨0x1600C, 0, 16⟩
/-- TAR.ACTIVATED.SEC, access RO (spec/06_billing_and_tariffs.md). -/
abbrev TAR.ACTIVATED.SEC : Fld := ⟨0x16010, 0, 32⟩
/-- CRD.STATUS.LOW_STK, access W1C (spec/07_credit_and_vouchers.md). -/
abbrev CRD.STATUS.LOW_STK : Fld := ⟨0x18000, 10, 1⟩
/-- CRD.STATUS.STOP_STK, access W1C (spec/07_credit_and_vouchers.md). -/
abbrev CRD.STATUS.STOP_STK : Fld := ⟨0x18000, 9, 1⟩
/-- CRD.STATUS.FALLBACK, access RO (spec/07_credit_and_vouchers.md). -/
abbrev CRD.STATUS.FALLBACK : Fld := ⟨0x18000, 8, 1⟩
/-- CRD.STATUS.EMERG, access RO (spec/07_credit_and_vouchers.md). -/
abbrev CRD.STATUS.EMERG : Fld := ⟨0x18000, 6, 2⟩
/-- CRD.STATUS.FRIENDLY, access RO (spec/07_credit_and_vouchers.md). -/
abbrev CRD.STATUS.FRIENDLY : Fld := ⟨0x18000, 5, 1⟩
/-- CRD.STATUS.DEBT, access RO (spec/07_credit_and_vouchers.md). -/
abbrev CRD.STATUS.DEBT : Fld := ⟨0x18000, 4, 1⟩
/-- CRD.STATUS.LOW, access RO (spec/07_credit_and_vouchers.md). -/
abbrev CRD.STATUS.LOW : Fld := ⟨0x18000, 3, 1⟩
/-- CRD.STATUS.STOPPED, access RO (spec/07_credit_and_vouchers.md). -/
abbrev CRD.STATUS.STOPPED : Fld := ⟨0x18000, 2, 1⟩
/-- CRD.STATUS.RUN, access RO (spec/07_credit_and_vouchers.md). -/
abbrev CRD.STATUS.RUN : Fld := ⟨0x18000, 0, 1⟩
/-- CRD.SITE_LO.VALUE, access RO (spec/07_credit_and_vouchers.md). -/
abbrev CRD.SITE_LO.VALUE : Fld := ⟨0x18004, 0, 32⟩
/-- CRD.SITE_HI.VALUE, access RO (spec/07_credit_and_vouchers.md). -/
abbrev CRD.SITE_HI.VALUE : Fld := ⟨0x18008, 0, 32⟩
/-- CRD.OWED_LO.VALUE, access RO (spec/07_credit_and_vouchers.md). -/
abbrev CRD.OWED_LO.VALUE : Fld := ⟨0x1800C, 0, 32⟩
/-- CRD.OWED_HI.VALUE, access RO (spec/07_credit_and_vouchers.md). -/
abbrev CRD.OWED_HI.VALUE : Fld := ⟨0x18010, 0, 32⟩
/-- CRD.CTL.EMERG, access WO (spec/07_credit_and_vouchers.md). -/
abbrev CRD.CTL.EMERG : Fld := ⟨0x18014, 0, 1⟩
/-- CRD.LAST_CHG.CHG, access RO (spec/07_credit_and_vouchers.md). -/
abbrev CRD.LAST_CHG.CHG : Fld := ⟨0x18018, 0, 32⟩
/-- CRD.COUNTS.STOPS, access RO (spec/07_credit_and_vouchers.md). -/
abbrev CRD.COUNTS.STOPS : Fld := ⟨0x1801C, 16, 16⟩
/-- CRD.COUNTS.GRANTS, access RO (spec/07_credit_and_vouchers.md). -/
abbrev CRD.COUNTS.GRANTS : Fld := ⟨0x1801C, 8, 8⟩
/-- CRD.COUNTS.REFUSED, access RO (spec/07_credit_and_vouchers.md). -/
abbrev CRD.COUNTS.REFUSED : Fld := ⟨0x1801C, 0, 8⟩
/-- VCH.STATUS.LOCK_S, access RO (spec/07_credit_and_vouchers.md). -/
abbrev VCH.STATUS.LOCK_S : Fld := ⟨0x19000, 16, 16⟩
/-- VCH.STATUS.LOCKOUT, access RO (spec/07_credit_and_vouchers.md). -/
abbrev VCH.STATUS.LOCKOUT : Fld := ⟨0x19000, 12, 1⟩
/-- VCH.STATUS.FAILS, access RO (spec/07_credit_and_vouchers.md). -/
abbrev VCH.STATUS.FAILS : Fld := ⟨0x19000, 8, 4⟩
/-- VCH.STATUS.LEVEL, access RO (spec/07_credit_and_vouchers.md). -/
abbrev VCH.STATUS.LEVEL : Fld := ⟨0x19000, 0, 5⟩
/-- VCH.SUBMIT.GO, access WO (spec/07_credit_and_vouchers.md). -/
abbrev VCH.SUBMIT.GO : Fld := ⟨0x19004, 31, 1⟩
/-- VCH.SUBMIT.FORM, access WO (spec/07_credit_and_vouchers.md). -/
abbrev VCH.SUBMIT.FORM : Fld := ⟨0x19004, 30, 1⟩
/-- VCH.SUBMIT.CARREL, access WO (spec/07_credit_and_vouchers.md). -/
abbrev VCH.SUBMIT.CARREL : Fld := ⟨0x19004, 16, 8⟩
/-- VCH.SUBMIT.TAG, access WO (spec/07_credit_and_vouchers.md). -/
abbrev VCH.SUBMIT.TAG : Fld := ⟨0x19004, 0, 8⟩
/-- VCH.RESULT.TAG, access RO (spec/07_credit_and_vouchers.md). -/
abbrev VCH.RESULT.TAG : Fld := ⟨0x19008, 24, 8⟩
/-- VCH.RESULT.CODE, access RO (spec/07_credit_and_vouchers.md). -/
abbrev VCH.RESULT.CODE : Fld := ⟨0x19008, 16, 8⟩
/-- VCH.DIGITS[k].BCD, access RW (spec/07_credit_and_vouchers.md). -/
abbrev VCH.DIGITS.BCD (i : Nat) : Fld := ⟨0x1900C + 0x4 * i, 0, 32⟩
/-- VCH.ISSUER_SEL.INDEX, access RW (spec/07_credit_and_vouchers.md). -/
abbrev VCH.ISSUER_SEL.INDEX : Fld := ⟨0x19018, 0, 3⟩
/-- VCH.ISSUER_HWM.H, access RO (spec/07_credit_and_vouchers.md). -/
abbrev VCH.ISSUER_HWM.H : Fld := ⟨0x1901C, 0, 32⟩
/-- VCH.IN[k].BYTES, access RW (spec/07_credit_and_vouchers.md). -/
abbrev VCH.IN.BYTES (i : Nat) : Fld := ⟨0x19020 + 0x4 * i, 0, 32⟩
/-- VCH.COUNTS.APPLIED, access RO (spec/07_credit_and_vouchers.md). -/
abbrev VCH.COUNTS.APPLIED : Fld := ⟨0x19080, 16, 16⟩
/-- VCH.COUNTS.REFUSED, access RO (spec/07_credit_and_vouchers.md). -/
abbrev VCH.COUNTS.REFUSED : Fld := ⟨0x19080, 0, 16⟩
/-- OUT[n].STATUS.CARREL, access RO (spec/08_outlets.md). -/
abbrev OUT.STATUS.CARREL (i : Nat) : Fld := ⟨0x20000 + 0x1000 * i, 24, 8⟩
/-- OUT[n].STATUS.BOUND, access RO (spec/08_outlets.md). -/
abbrev OUT.STATUS.BOUND (i : Nat) : Fld := ⟨0x20000 + 0x1000 * i, 23, 1⟩
/-- OUT[n].STATUS.LOCKED, access RO (spec/08_outlets.md). -/
abbrev OUT.STATUS.LOCKED (i : Nat) : Fld := ⟨0x20000 + 0x1000 * i, 22, 1⟩
/-- OUT[n].STATUS.STOP, access RO (spec/08_outlets.md). -/
abbrev OUT.STATUS.STOP (i : Nat) : Fld := ⟨0x20000 + 0x1000 * i, 12, 5⟩
/-- OUT[n].STATUS.PILOT, access RO (spec/08_outlets.md). -/
abbrev OUT.STATUS.PILOT (i : Nat) : Fld := ⟨0x20000 + 0x1000 * i, 8, 4⟩
/-- OUT[n].STATUS.STATE, access RO (spec/08_outlets.md). -/
abbrev OUT.STATUS.STATE (i : Nat) : Fld := ⟨0x20000 + 0x1000 * i, 0, 4⟩
/-- OUT[n].CTL.CARREL, access WO (spec/08_outlets.md). -/
abbrev OUT.CTL.CARREL (i : Nat) : Fld := ⟨0x20004 + 0x1000 * i, 24, 8⟩
/-- OUT[n].CTL.CMD, access WO (spec/08_outlets.md). -/
abbrev OUT.CTL.CMD (i : Nat) : Fld := ⟨0x20004 + 0x1000 * i, 0, 8⟩
/-- OUT[n].RESULT.CARREL, access RO (spec/08_outlets.md). -/
abbrev OUT.RESULT.CARREL (i : Nat) : Fld := ⟨0x20008 + 0x1000 * i, 24, 8⟩
/-- OUT[n].RESULT.CMD, access RO (spec/08_outlets.md). -/
abbrev OUT.RESULT.CMD (i : Nat) : Fld := ⟨0x20008 + 0x1000 * i, 8, 8⟩
/-- OUT[n].RESULT.CODE, access RO (spec/08_outlets.md). -/
abbrev OUT.RESULT.CODE (i : Nat) : Fld := ⟨0x20008 + 0x1000 * i, 0, 8⟩
/-- OUT[n].PEND.CARREL, access RO (spec/08_outlets.md). -/
abbrev OUT.PEND.CARREL (i : Nat) : Fld := ⟨0x2000C + 0x1000 * i, 24, 8⟩
/-- OUT[n].PEND.PEND, access RO (spec/08_outlets.md). -/
abbrev OUT.PEND.PEND (i : Nat) : Fld := ⟨0x2000C + 0x1000 * i, 16, 1⟩
/-- OUT[n].PEND.DISC_CLR, access W1S (spec/08_outlets.md). -/
abbrev OUT.PEND.DISC_CLR (i : Nat) : Fld := ⟨0x2000C + 0x1000 * i, 8, 1⟩
/-- OUT[n].PEND.DISCARDS, access RO (spec/08_outlets.md). -/
abbrev OUT.PEND.DISCARDS (i : Nat) : Fld := ⟨0x2000C + 0x1000 * i, 0, 8⟩
/-- OUT[n].CFG.KIND, access RWS (spec/08_outlets.md). -/
abbrev OUT.CFG.KIND (i : Nat) : Fld := ⟨0x20040 + 0x1000 * i, 29, 3⟩
/-- OUT[n].CFG.FLAGS, access RWS (spec/08_outlets.md). -/
abbrev OUT.CFG.FLAGS (i : Nat) : Fld := ⟨0x20040 + 0x1000 * i, 25, 4⟩
/-- OUT[n].CFG.DROP_T, access RWS (spec/08_outlets.md). -/
abbrev OUT.CFG.DROP_T (i : Nat) : Fld := ⟨0x20040 + 0x1000 * i, 16, 8⟩
/-- OUT[n].CFG.CLOSE_T, access RWS (spec/08_outlets.md). -/
abbrev OUT.CFG.CLOSE_T (i : Nat) : Fld := ⟨0x20040 + 0x1000 * i, 8, 8⟩
/-- OUT[n].CFG.SP_PERIOD, access RWS (spec/08_outlets.md). -/
abbrev OUT.CFG.SP_PERIOD (i : Nat) : Fld := ⟨0x20040 + 0x1000 * i, 0, 8⟩
/-- OUT[n].HS_MAP.COIL0, access RWS (spec/08_outlets.md). -/
abbrev OUT.HS_MAP.COIL0 (i : Nat) : Fld := ⟨0x20044 + 0x1000 * i, 24, 8⟩
/-- OUT[n].HS_MAP.COIL1, access RWS (spec/08_outlets.md). -/
abbrev OUT.HS_MAP.COIL1 (i : Nat) : Fld := ⟨0x20044 + 0x1000 * i, 16, 8⟩
/-- OUT[n].HS_MAP.LOCK, access RWS (spec/08_outlets.md). -/
abbrev OUT.HS_MAP.LOCK (i : Nat) : Fld := ⟨0x20044 + 0x1000 * i, 8, 8⟩
/-- OUT[n].HS_MAP.TRIP, access RWS (spec/08_outlets.md). -/
abbrev OUT.HS_MAP.TRIP (i : Nat) : Fld := ⟨0x20044 + 0x1000 * i, 0, 8⟩
/-- OUT[n].HS_MAP2.COOL, access RWS (spec/08_outlets.md). -/
abbrev OUT.HS_MAP2.COOL (i : Nat) : Fld := ⟨0x20048 + 0x1000 * i, 24, 8⟩
/-- OUT[n].HS_MAP2.MOVE_DN, access RWS (spec/08_outlets.md). -/
abbrev OUT.HS_MAP2.MOVE_DN (i : Nat) : Fld := ⟨0x20048 + 0x1000 * i, 16, 8⟩
/-- OUT[n].HS_MAP2.MOVE_UP, access RWS (spec/08_outlets.md). -/
abbrev OUT.HS_MAP2.MOVE_UP (i : Nat) : Fld := ⟨0x20048 + 0x1000 * i, 8, 8⟩
/-- OUT[n].HS_MAP2.ACD_SAF, access RWS (spec/08_outlets.md). -/
abbrev OUT.HS_MAP2.ACD_SAF (i : Nat) : Fld := ⟨0x20048 + 0x1000 * i, 0, 8⟩
/-- OUT[n].LIMIT.I_MAX, access RW (spec/08_outlets.md). -/
abbrev OUT.LIMIT.I_MAX (i : Nat) : Fld := ⟨0x2004C + 0x1000 * i, 16, 16⟩
/-- OUT[n].LIMIT.I_CAP, access RO (spec/08_outlets.md). -/
abbrev OUT.LIMIT.I_CAP (i : Nat) : Fld := ⟨0x2004C + 0x1000 * i, 0, 16⟩
/-- OUT[n].CP_MEAS.HIGH, access RO (spec/08_outlets.md). -/
abbrev OUT.CP_MEAS.HIGH (i : Nat) : Fld := ⟨0x20100 + 0x1000 * i, 23, 9⟩
/-- OUT[n].CP_MEAS.LOW, access RO (spec/08_outlets.md). -/
abbrev OUT.CP_MEAS.LOW (i : Nat) : Fld := ⟨0x20100 + 0x1000 * i, 14, 9⟩
/-- OUT[n].CP_MEAS.MODE, access RO (spec/08_outlets.md). -/
abbrev OUT.CP_MEAS.MODE (i : Nat) : Fld := ⟨0x20100 + 0x1000 * i, 12, 2⟩
/-- OUT[n].CP_MEAS.DUTY, access RO (spec/08_outlets.md). -/
abbrev OUT.CP_MEAS.DUTY (i : Nat) : Fld := ⟨0x20100 + 0x1000 * i, 0, 10⟩
/-- OUT[n].CP_CTRL.MODE, access RW (spec/08_outlets.md). -/
abbrev OUT.CP_CTRL.MODE (i : Nat) : Fld := ⟨0x20104 + 0x1000 * i, 12, 2⟩
/-- OUT[n].CP_CTRL.DUTY, access RW (spec/08_outlets.md). -/
abbrev OUT.CP_CTRL.DUTY (i : Nat) : Fld := ⟨0x20104 + 0x1000 * i, 0, 10⟩
/-- OUT[n].PP.CAP, access RO (spec/08_outlets.md). -/
abbrev OUT.PP.CAP (i : Nat) : Fld := ⟨0x20108 + 0x1000 * i, 24, 8⟩
/-- OUT[n].PP.INVALID, access RO (spec/08_outlets.md). -/
abbrev OUT.PP.INVALID (i : Nat) : Fld := ⟨0x20108 + 0x1000 * i, 23, 1⟩
/-- OUT[n].PP.OHMS, access RO (spec/08_outlets.md). -/
abbrev OUT.PP.OHMS (i : Nat) : Fld := ⟨0x20108 + 0x1000 * i, 0, 16⟩
/-- OUT[n].SUPV.WELD, access RO (spec/08_outlets.md). -/
abbrev OUT.SUPV.WELD (i : Nat) : Fld := ⟨0x20200 + 0x1000 * i, 30, 2⟩
/-- OUT[n].SUPV.RCM_TRIP, access RO (spec/08_outlets.md). -/
abbrev OUT.SUPV.RCM_TRIP (i : Nat) : Fld := ⟨0x20200 + 0x1000 * i, 29, 1⟩
/-- OUT[n].SUPV.RCM_OK, access RO (spec/08_outlets.md). -/
abbrev OUT.SUPV.RCM_OK (i : Nat) : Fld := ⟨0x20200 + 0x1000 * i, 28, 1⟩
/-- OUT[n].SUPV.ISO_WARN, access RO (spec/08_outlets.md). -/
abbrev OUT.SUPV.ISO_WARN (i : Nat) : Fld := ⟨0x20200 + 0x1000 * i, 27, 1⟩
/-- OUT[n].SUPV.ISO_FAULT, access RO (spec/08_outlets.md). -/
abbrev OUT.SUPV.ISO_FAULT (i : Nat) : Fld := ⟨0x20200 + 0x1000 * i, 26, 1⟩
/-- OUT[n].SUPV.PRECLOSE, access RO (spec/08_outlets.md). -/
abbrev OUT.SUPV.PRECLOSE (i : Nat) : Fld := ⟨0x20200 + 0x1000 * i, 25, 1⟩
/-- OUT[n].SUPV.NEUTRAL, access RO (spec/08_outlets.md). -/
abbrev OUT.SUPV.NEUTRAL (i : Nat) : Fld := ⟨0x20200 + 0x1000 * i, 24, 1⟩
/-- OUT[n].SUPV.ACD, access RO (spec/08_outlets.md). -/
abbrev OUT.SUPV.ACD (i : Nat) : Fld := ⟨0x20200 + 0x1000 * i, 8, 2⟩
/-- OUT[n].SUPV.RCM_TRIPS, access RO (spec/08_outlets.md). -/
abbrev OUT.SUPV.RCM_TRIPS (i : Nat) : Fld := ⟨0x20200 + 0x1000 * i, 0, 8⟩
/-- OUT[n].ISO.OPV, access RO (spec/08_outlets.md). -/
abbrev OUT.ISO.OPV (i : Nat) : Fld := ⟨0x20204 + 0x1000 * i, 16, 16⟩
/-- OUT[n].ISO.RISO, access RO (spec/08_outlets.md). -/
abbrev OUT.ISO.RISO (i : Nat) : Fld := ⟨0x20204 + 0x1000 * i, 0, 16⟩
/-- OUT[n].MOD_CFG[k].VALID_H, access RWS (spec/08_outlets.md). -/
abbrev OUT.MOD_CFG.VALID_H (i j : Nat) : Fld := ⟨0x20300 + 0x1000 * i + 0x4 * j, 31, 1⟩
/-- OUT[n].MOD_CFG[k].BUS_H, access RWS (spec/08_outlets.md). -/
abbrev OUT.MOD_CFG.BUS_H (i j : Nat) : Fld := ⟨0x20300 + 0x1000 * i + 0x4 * j, 30, 1⟩
/-- OUT[n].MOD_CFG[k].NODE_H, access RWS (spec/08_outlets.md). -/
abbrev OUT.MOD_CFG.NODE_H (i j : Nat) : Fld := ⟨0x20300 + 0x1000 * i + 0x4 * j, 16, 7⟩
/-- OUT[n].MOD_CFG[k].VALID_L, access RWS (spec/08_outlets.md). -/
abbrev OUT.MOD_CFG.VALID_L (i j : Nat) : Fld := ⟨0x20300 + 0x1000 * i + 0x4 * j, 15, 1⟩
/-- OUT[n].MOD_CFG[k].BUS_L, access RWS (spec/08_outlets.md). -/
abbrev OUT.MOD_CFG.BUS_L (i j : Nat) : Fld := ⟨0x20300 + 0x1000 * i + 0x4 * j, 14, 1⟩
/-- OUT[n].MOD_CFG[k].NODE_L, access RWS (spec/08_outlets.md). -/
abbrev OUT.MOD_CFG.NODE_L (i j : Nat) : Fld := ⟨0x20300 + 0x1000 * i + 0x4 * j, 0, 7⟩
/-- OUT[n].SETPT[k].BYTES, access RW (spec/08_outlets.md). -/
abbrev OUT.SETPT.BYTES (i j : Nat) : Fld := ⟨0x20310 + 0x1000 * i + 0x4 * j, 0, 32⟩
/-- OUT[n].RAMP[k].BYTES, access RW (spec/08_outlets.md). -/
abbrev OUT.RAMP.BYTES (i j : Nat) : Fld := ⟨0x20320 + 0x1000 * i + 0x4 * j, 0, 32⟩
/-- OUT[n].MOD_STAT[k].LOST, access RO (spec/08_outlets.md). -/
abbrev OUT.MOD_STAT.LOST (i j : Nat) : Fld := ⟨0x20330 + 0x1000 * i + 0x4 * j, 31, 1⟩
/-- OUT[n].MOD_STAT[k].STATE, access RO (spec/08_outlets.md). -/
abbrev OUT.MOD_STAT.STATE (i j : Nat) : Fld := ⟨0x20330 + 0x1000 * i + 0x4 * j, 28, 3⟩
/-- OUT[n].MOD_STAT[k].I_OUT, access RO (spec/08_outlets.md). -/
abbrev OUT.MOD_STAT.I_OUT (i j : Nat) : Fld := ⟨0x20330 + 0x1000 * i + 0x4 * j, 0, 16⟩
/-- CRL.STATUS.FULL_STK, access W1C (spec/09_carrels.md). -/
abbrev CRL.STATUS.FULL_STK : Fld := ⟨0x30000, 31, 1⟩
/-- CRL.STATUS.FEW, access RO (spec/09_carrels.md). -/
abbrev CRL.STATUS.FEW : Fld := ⟨0x30000, 30, 1⟩
/-- CRL.STATUS.CLOSED, access RO (spec/09_carrels.md). -/
abbrev CRL.STATUS.CLOSED : Fld := ⟨0x30000, 16, 9⟩
/-- CRL.STATUS.FREE, access RO (spec/09_carrels.md). -/
abbrev CRL.STATUS.FREE : Fld := ⟨0x30000, 0, 9⟩
/-- CRL.CMD.CARREL, access WO (spec/09_carrels.md). -/
abbrev CRL.CMD.CARREL : Fld := ⟨0x30004, 24, 8⟩
/-- CRL.CMD.OUTLET, access WO (spec/09_carrels.md). -/
abbrev CRL.CMD.OUTLET : Fld := ⟨0x30004, 16, 4⟩
/-- CRL.CMD.CMD, access WO (spec/09_carrels.md). -/
abbrev CRL.CMD.CMD : Fld := ⟨0x30004, 0, 8⟩
/-- CRL.RESULT.CARREL, access RO (spec/09_carrels.md). -/
abbrev CRL.RESULT.CARREL : Fld := ⟨0x30008, 24, 8⟩
/-- CRL.RESULT.CMD, access RO (spec/09_carrels.md). -/
abbrev CRL.RESULT.CMD : Fld := ⟨0x30008, 8, 8⟩
/-- CRL.RESULT.CODE, access RO (spec/09_carrels.md). -/
abbrev CRL.RESULT.CODE : Fld := ⟨0x30008, 0, 8⟩
/-- CRL.CFG.RES_T, access RWS (spec/09_carrels.md). -/
abbrev CRL.CFG.RES_T : Fld := ⟨0x3000C, 24, 8⟩
/-- CRL.CFG.AUTH_T, access RWS (spec/09_carrels.md). -/
abbrev CRL.CFG.AUTH_T : Fld := ⟨0x3000C, 16, 8⟩
/-- CRL.CFG.SUSP_MAX, access RWS (spec/09_carrels.md). -/
abbrev CRL.CFG.SUSP_MAX : Fld := ⟨0x3000C, 8, 8⟩
/-- CRL.CFG.LOW_WM, access RWS (spec/09_carrels.md). -/
abbrev CRL.CFG.LOW_WM : Fld := ⟨0x3000C, 0, 8⟩
/-- CRL.ACK_SESSION.SESSION, access RW (spec/09_carrels.md). -/
abbrev CRL.ACK_SESSION.SESSION : Fld := ⟨0x30010, 0, 32⟩
/-- CRL.NEXT_SESSION.SESSION, access RO (spec/09_carrels.md). -/
abbrev CRL.NEXT_SESSION.SESSION : Fld := ⟨0x30014, 0, 32⟩
/-- CRL.COUNTS.CLOSES, access RO (spec/09_carrels.md). -/
abbrev CRL.COUNTS.CLOSES : Fld := ⟨0x30018, 16, 16⟩
/-- CRL.COUNTS.RETIRED, access RO (spec/09_carrels.md). -/
abbrev CRL.COUNTS.RETIRED : Fld := ⟨0x30018, 8, 8⟩
/-- CRL.COUNTS.REFUSED, access RO (spec/09_carrels.md). -/
abbrev CRL.COUNTS.REFUSED : Fld := ⟨0x30018, 0, 8⟩
/-- CRL.SLIP_SEL.CARREL, access RW (spec/09_carrels.md). -/
abbrev CRL.SLIP_SEL.CARREL : Fld := ⟨0x3001C, 0, 8⟩
/-- CRL.SLIP[k].BYTES, access RO (spec/09_carrels.md). -/
abbrev CRL.SLIP.BYTES (i : Nat) : Fld := ⟨0x30020 + 0x4 * i, 0, 32⟩
/-- CRL.ARG[k].BYTES, access RW (spec/09_carrels.md). -/
abbrev CRL.ARG.BYTES (i : Nat) : Fld := ⟨0x30080 + 0x4 * i, 0, 32⟩
/-- VPL.STATUS.MAX_WAIT, access RO (spec/10_vehicle_link.md). -/
abbrev VPL.STATUS.MAX_WAIT : Fld := ⟨0x31000, 24, 8⟩
/-- VPL.STATUS.OVERRUNS, access RO (spec/10_vehicle_link.md). -/
abbrev VPL.STATUS.OVERRUNS : Fld := ⟨0x31000, 16, 8⟩
/-- VPL.STATUS.ENG1_OK, access RO (spec/10_vehicle_link.md). -/
abbrev VPL.STATUS.ENG1_OK : Fld := ⟨0x31000, 1, 1⟩
/-- VPL.STATUS.ENG0_OK, access RO (spec/10_vehicle_link.md). -/
abbrev VPL.STATUS.ENG0_OK : Fld := ⟨0x31000, 0, 1⟩
/-- VPL.CFG.SLAC_INIT, access RWS (spec/10_vehicle_link.md). -/
abbrev VPL.CFG.SLAC_INIT : Fld := ⟨0x31004, 24, 8⟩
/-- VPL.CFG.MNBC, access RWS (spec/10_vehicle_link.md). -/
abbrev VPL.CFG.MNBC : Fld := ⟨0x31004, 16, 8⟩
/-- VPL.CFG.MATCH_T, access RWS (spec/10_vehicle_link.md). -/
abbrev VPL.CFG.MATCH_T : Fld := ⟨0x31004, 8, 8⟩
/-- VPL.CFG.JOIN_T, access RWS (spec/10_vehicle_link.md). -/
abbrev VPL.CFG.JOIN_T : Fld := ⟨0x31004, 0, 8⟩
/-- VPL.CFG2.LINK_T, access RWS (spec/10_vehicle_link.md). -/
abbrev VPL.CFG2.LINK_T : Fld := ⟨0x31008, 24, 8⟩
/-- VPL.CFG2.RETRY, access RWS (spec/10_vehicle_link.md). -/
abbrev VPL.CFG2.RETRY : Fld := ⟨0x31008, 16, 8⟩
/-- VPL.CFG2.PROTO2, access RWS (spec/10_vehicle_link.md). -/
abbrev VPL.CFG2.PROTO2 : Fld := ⟨0x31008, 8, 4⟩
/-- VPL.CFG2.PROTO1, access RWS (spec/10_vehicle_link.md). -/
abbrev VPL.CFG2.PROTO1 : Fld := ⟨0x31008, 4, 4⟩
/-- VPL.CFG2.PROTO0, access RWS (spec/10_vehicle_link.md). -/
abbrev VPL.CFG2.PROTO0 : Fld := ⟨0x31008, 0, 4⟩
/-- VPL.NOTCH[k].GROUP, access RWS (spec/10_vehicle_link.md). -/
abbrev VPL.NOTCH.GROUP (i : Nat) : Fld := ⟨0x31010 + 0x4 * i, 0, 32⟩
/-- VPL[n].CTL.TX_ATTEN, access RW (spec/10_vehicle_link.md). -/
abbrev VPL.CTL.TX_ATTEN (i : Nat) : Fld := ⟨0x31100 + 0x40 * i, 2, 6⟩
/-- VPL[n].CTL.EN, access RW (spec/10_vehicle_link.md). -/
abbrev VPL.CTL.EN (i : Nat) : Fld := ⟨0x31100 + 0x40 * i, 0, 1⟩
/-- VPL[n].STATUS.SOUNDS, access RO (spec/10_vehicle_link.md). -/
abbrev VPL.STATUS.SOUNDS (i : Nat) : Fld := ⟨0x31104 + 0x40 * i, 24, 8⟩
/-- VPL[n].STATUS.ATTEN, access RO (spec/10_vehicle_link.md). -/
abbrev VPL.STATUS.ATTEN (i : Nat) : Fld := ⟨0x31104 + 0x40 * i, 16, 8⟩
/-- VPL[n].STATUS.PROTO, access RO (spec/10_vehicle_link.md). -/
abbrev VPL.STATUS.PROTO (i : Nat) : Fld := ⟨0x31104 + 0x40 * i, 12, 4⟩
/-- VPL[n].STATUS.LAST_FAIL, access RO (spec/10_vehicle_link.md). -/
abbrev VPL.STATUS.LAST_FAIL (i : Nat) : Fld := ⟨0x31104 + 0x40 * i, 8, 4⟩
/-- VPL[n].STATUS.STATE, access RO (spec/10_vehicle_link.md). -/
abbrev VPL.STATUS.STATE (i : Nat) : Fld := ⟨0x31104 + 0x40 * i, 0, 4⟩
/-- VPL[n].PEND.PEND, access RO (spec/10_vehicle_link.md). -/
abbrev VPL.PEND.PEND (i : Nat) : Fld := ⟨0x31108 + 0x40 * i, 16, 1⟩
/-- VPL[n].PEND.DISC_CLR, access W1S (spec/10_vehicle_link.md). -/
abbrev VPL.PEND.DISC_CLR (i : Nat) : Fld := ⟨0x31108 + 0x40 * i, 8, 1⟩
/-- VPL[n].PEND.DISCARDS, access RO (spec/10_vehicle_link.md). -/
abbrev VPL.PEND.DISCARDS (i : Nat) : Fld := ⟨0x31108 + 0x40 * i, 0, 8⟩
/-- VPL[n].EV_MAC_LO.BYTES, access RO (spec/10_vehicle_link.md). -/
abbrev VPL.EV_MAC_LO.BYTES (i : Nat) : Fld := ⟨0x3110C + 0x40 * i, 0, 32⟩
/-- VPL[n].EV_MAC_HI.BYTES, access RO (spec/10_vehicle_link.md). -/
abbrev VPL.EV_MAC_HI.BYTES (i : Nat) : Fld := ⟨0x31110 + 0x40 * i, 0, 16⟩
/-- VPL[n].MAC_LO.BYTES, access RO (spec/10_vehicle_link.md). -/
abbrev VPL.MAC_LO.BYTES (i : Nat) : Fld := ⟨0x31114 + 0x40 * i, 0, 32⟩
/-- VPL[n].MAC_HI.BYTES, access RO (spec/10_vehicle_link.md). -/
abbrev VPL.MAC_HI.BYTES (i : Nat) : Fld := ⟨0x31118 + 0x40 * i, 0, 16⟩
/-- VPL[n].RX_FRAMES.COUNT, access RO (spec/10_vehicle_link.md). -/
abbrev VPL.RX_FRAMES.COUNT (i : Nat) : Fld := ⟨0x3111C + 0x40 * i, 0, 32⟩
/-- VPL[n].PB_STAT.FAILED, access RO (spec/10_vehicle_link.md). -/
abbrev VPL.PB_STAT.FAILED (i : Nat) : Fld := ⟨0x31120 + 0x40 * i, 16, 16⟩
/-- VPL[n].PB_STAT.RETX, access RO (spec/10_vehicle_link.md). -/
abbrev VPL.PB_STAT.RETX (i : Nat) : Fld := ⟨0x31120 + 0x40 * i, 0, 16⟩
/-- VPL[n].DROPS.COUNT, access RO (spec/10_vehicle_link.md). -/
abbrev VPL.DROPS.COUNT (i : Nat) : Fld := ⟨0x31124 + 0x40 * i, 0, 16⟩
/-- BBN.STATUS.SLOW, access RO (spec/11_rosash_backbone.md). -/
abbrev BBN.STATUS.SLOW : Fld := ⟨0x32000, 11, 1⟩
/-- BBN.STATUS.TIME_INVALID, access RO (spec/11_rosash_backbone.md). -/
abbrev BBN.STATUS.TIME_INVALID : Fld := ⟨0x32000, 10, 1⟩
/-- BBN.STATUS.SYNC, access RO (spec/11_rosash_backbone.md). -/
abbrev BBN.STATUS.SYNC : Fld := ⟨0x32000, 9, 1⟩
/-- BBN.STATUS.DUEL_STK, access W1C (spec/11_rosash_backbone.md). -/
abbrev BBN.STATUS.DUEL_STK : Fld := ⟨0x32000, 8, 1⟩
/-- BBN.STATUS.LOST_STK, access W1C (spec/11_rosash_backbone.md). -/
abbrev BBN.STATUS.LOST_STK : Fld := ⟨0x32000, 7, 1⟩
/-- BBN.STATUS.PATH_FAULT, access RO (spec/11_rosash_backbone.md). -/
abbrev BBN.STATUS.PATH_FAULT : Fld := ⟨0x32000, 4, 3⟩
/-- BBN.STATUS.ROLE, access RO (spec/11_rosash_backbone.md). -/
abbrev BBN.STATUS.ROLE : Fld := ⟨0x32000, 0, 4⟩
/-- BBN.NODE.NODE, access RO (spec/11_rosash_backbone.md). -/
abbrev BBN.NODE.NODE : Fld := ⟨0x32004, 16, 12⟩
/-- BBN.NODE.DOMAIN, access RO (spec/11_rosash_backbone.md). -/
abbrev BBN.NODE.DOMAIN : Fld := ⟨0x32004, 8, 8⟩
/-- BBN.NODE.DEPTH, access RO (spec/11_rosash_backbone.md). -/
abbrev BBN.NODE.DEPTH : Fld := ⟨0x32004, 0, 8⟩
/-- BBN.COORD.PRI, access RO (spec/11_rosash_backbone.md). -/
abbrev BBN.COORD.PRI : Fld := ⟨0x32008, 24, 8⟩
/-- BBN.COORD.MEMBERS, access RO (spec/11_rosash_backbone.md). -/
abbrev BBN.COORD.MEMBERS : Fld := ⟨0x32008, 0, 12⟩
/-- BBN.LONG_LO.VALUE, access RO (spec/11_rosash_backbone.md). -/
abbrev BBN.LONG_LO.VALUE : Fld := ⟨0x3200C, 0, 32⟩
/-- BBN.LONG_HI.VALUE, access RO (spec/11_rosash_backbone.md). -/
abbrev BBN.LONG_HI.VALUE : Fld := ⟨0x32010, 0, 16⟩
/-- BBN.CFG.CYCLE, access RWS (spec/11_rosash_backbone.md). -/
abbrev BBN.CFG.CYCLE : Fld := ⟨0x32014, 24, 8⟩
/-- BBN.CFG.LOST_CYC, access RWS (spec/11_rosash_backbone.md). -/
abbrev BBN.CFG.LOST_CYC : Fld := ⟨0x32014, 16, 8⟩
/-- BBN.CFG.TM_MARGIN, access RWS (spec/11_rosash_backbone.md). -/
abbrev BBN.CFG.TM_MARGIN : Fld := ⟨0x32014, 8, 8⟩
/-- BBN.CFG.RETX_MAX, access RWS (spec/11_rosash_backbone.md). -/
abbrev BBN.CFG.RETX_MAX : Fld := ⟨0x32014, 4, 4⟩
/-- BBN.TX.ATT2, access RWS (spec/11_rosash_backbone.md). -/
abbrev BBN.TX.ATT2 : Fld := ⟨0x32018, 24, 6⟩
/-- BBN.TX.ATT1, access RWS (spec/11_rosash_backbone.md). -/
abbrev BBN.TX.ATT1 : Fld := ⟨0x32018, 16, 6⟩
/-- BBN.TX.ATT0, access RWS (spec/11_rosash_backbone.md). -/
abbrev BBN.TX.ATT0 : Fld := ⟨0x32018, 8, 6⟩
/-- BBN.TX.COUPLE, access RWS (spec/11_rosash_backbone.md). -/
abbrev BBN.TX.COUPLE : Fld := ⟨0x32018, 4, 2⟩
/-- BBN.TX.PATHS, access RWS (spec/11_rosash_backbone.md). -/
abbrev BBN.TX.PATHS : Fld := ⟨0x32018, 0, 3⟩
/-- BBN.NTIME_LO.NS, access RO (spec/11_rosash_backbone.md). -/
abbrev BBN.NTIME_LO.NS : Fld := ⟨0x3201C, 0, 32⟩
/-- BBN.NTIME_HI.NS, access RO (spec/11_rosash_backbone.md). -/
abbrev BBN.NTIME_HI.NS : Fld := ⟨0x32020, 0, 32⟩
/-- BBN.FRAMES.RETX, access RO (spec/11_rosash_backbone.md). -/
abbrev BBN.FRAMES.RETX : Fld := ⟨0x32024, 16, 16⟩
/-- BBN.FRAMES.MIC_FAIL, access RO (spec/11_rosash_backbone.md). -/
abbrev BBN.FRAMES.MIC_FAIL : Fld := ⟨0x32024, 8, 8⟩
/-- BBN.FRAMES.SAFE_MISS, access RO (spec/11_rosash_backbone.md). -/
abbrev BBN.FRAMES.SAFE_MISS : Fld := ⟨0x32024, 0, 8⟩
/-- BBN.ELECT.WON, access RO (spec/11_rosash_backbone.md). -/
abbrev BBN.ELECT.WON : Fld := ⟨0x32028, 24, 8⟩
/-- BBN.ELECT.LOST, access RO (spec/11_rosash_backbone.md). -/
abbrev BBN.ELECT.LOST : Fld := ⟨0x32028, 16, 8⟩
/-- BBN.ELECT.LOSSES, access RO (spec/11_rosash_backbone.md). -/
abbrev BBN.ELECT.LOSSES : Fld := ⟨0x32028, 8, 8⟩
/-- BBN.VOTE.STATE, access RO (spec/11_rosash_backbone.md). -/
abbrev BBN.VOTE.STATE : Fld := ⟨0x3202C, 28, 4⟩
/-- BBN.VOTE.VOTE_ID, access RO (spec/11_rosash_backbone.md). -/
abbrev BBN.VOTE.VOTE_ID : Fld := ⟨0x3202C, 0, 16⟩
/-- BBN.NOTCH[k].GROUP, access RWS (spec/11_rosash_backbone.md). -/
abbrev BBN.NOTCH.GROUP (i : Nat) : Fld := ⟨0x32030 + 0x4 * i, 0, 32⟩
/-- BBN.NBR_SEL.NODE, access RW (spec/11_rosash_backbone.md). -/
abbrev BBN.NBR_SEL.NODE : Fld := ⟨0x32040, 0, 12⟩
/-- BBN.NBR_INFO.VALID, access RO (spec/11_rosash_backbone.md). -/
abbrev BBN.NBR_INFO.VALID : Fld := ⟨0x32044, 31, 1⟩
/-- BBN.NBR_INFO.MAPS, access RO (spec/11_rosash_backbone.md). -/
abbrev BBN.NBR_INFO.MAPS : Fld := ⟨0x32044, 28, 3⟩
/-- BBN.NBR_INFO.COST, access RO (spec/11_rosash_backbone.md). -/
abbrev BBN.NBR_INFO.COST : Fld := ⟨0x32044, 16, 12⟩
/-- BBN.NBR_INFO.FER, access RO (spec/11_rosash_backbone.md). -/
abbrev BBN.NBR_INFO.FER : Fld := ⟨0x32044, 8, 8⟩
/-- BBN.NBR_INFO.RATE, access RO (spec/11_rosash_backbone.md). -/
abbrev BBN.NBR_INFO.RATE : Fld := ⟨0x32044, 0, 8⟩
/-- BBN.NBR_LINK.FRAMES, access RO (spec/11_rosash_backbone.md). -/
abbrev BBN.NBR_LINK.FRAMES : Fld := ⟨0x32048, 16, 16⟩
/-- BBN.NBR_LINK.AGE, access RO (spec/11_rosash_backbone.md). -/
abbrev BBN.NBR_LINK.AGE : Fld := ⟨0x32048, 0, 16⟩
/-- BBN.COORD_LO.VALUE, access RO (spec/11_rosash_backbone.md). -/
abbrev BBN.COORD_LO.VALUE : Fld := ⟨0x3204C, 0, 32⟩
/-- BBN.COORD_HI.VALUE, access RO (spec/11_rosash_backbone.md). -/
abbrev BBN.COORD_HI.VALUE : Fld := ⟨0x32050, 0, 16⟩
/-- SAF.STATUS.KMODE, access RO (spec/12_safety.md). -/
abbrev SAF.STATUS.KMODE : Fld := ⟨0x34000, 28, 4⟩
/-- SAF.STATUS.TPO_FAULT, access RO (spec/12_safety.md). -/
abbrev SAF.STATUS.TPO_FAULT : Fld := ⟨0x34000, 20, 8⟩
/-- SAF.STATUS.LATCHED, access RO (spec/12_safety.md). -/
abbrev SAF.STATUS.LATCHED : Fld := ⟨0x34000, 9, 1⟩
/-- SAF.STATUS.FORCE, access RO (spec/12_safety.md). -/
abbrev SAF.STATUS.FORCE : Fld := ⟨0x34000, 8, 1⟩
/-- SAF.STATUS.PMI_B, access RO (spec/12_safety.md). -/
abbrev SAF.STATUS.PMI_B : Fld := ⟨0x34000, 7, 1⟩
/-- SAF.STATUS.PMI_A, access RO (spec/12_safety.md). -/
abbrev SAF.STATUS.PMI_A : Fld := ⟨0x34000, 6, 1⟩
/-- SAF.STATUS.CONFIRMED, access RO (spec/12_safety.md). -/
abbrev SAF.STATUS.CONFIRMED : Fld := ⟨0x34000, 5, 1⟩
/-- SAF.STATUS.SPB_OK, access RO (spec/12_safety.md). -/
abbrev SAF.STATUS.SPB_OK : Fld := ⟨0x34000, 4, 1⟩
/-- SAF.STATUS.SEL_OK, access RO (spec/12_safety.md). -/
abbrev SAF.STATUS.SEL_OK : Fld := ⟨0x34000, 3, 1⟩
/-- SAF.STATUS.SEAL_INVALID, access RO (spec/12_safety.md). -/
abbrev SAF.STATUS.SEAL_INVALID : Fld := ⟨0x34000, 2, 1⟩
/-- SAF.STATUS.SEAL_OPEN, access RO (spec/12_safety.md). -/
abbrev SAF.STATUS.SEAL_OPEN : Fld := ⟨0x34000, 1, 1⟩
/-- SAF.STATUS.RUN, access RO (spec/12_safety.md). -/
abbrev SAF.STATUS.RUN : Fld := ⟨0x34000, 0, 1⟩
/-- SAF.RUN.RUN, access RO (spec/12_safety.md). -/
abbrev SAF.RUN.RUN : Fld := ⟨0x34004, 0, 24⟩
/-- SAF.RUN_K.RUN, access RO (spec/12_safety.md). -/
abbrev SAF.RUN_K.RUN : Fld := ⟨0x34008, 0, 24⟩
/-- SAF.OUTPUTS.LSE_K, access RO (spec/12_safety.md). -/
abbrev SAF.OUTPUTS.LSE_K : Fld := ⟨0x3400C, 16, 16⟩
/-- SAF.OUTPUTS.LSE_C, access RO (spec/12_safety.md). -/
abbrev SAF.OUTPUTS.LSE_C : Fld := ⟨0x3400C, 0, 16⟩
/-- SAF.SEL.EXPECTED, access RO (spec/12_safety.md). -/
abbrev SAF.SEL.EXPECTED : Fld := ⟨0x34010, 8, 8⟩
/-- SAF.SEL.SWITCHES, access RO (spec/12_safety.md). -/
abbrev SAF.SEL.SWITCHES : Fld := ⟨0x34010, 0, 8⟩
/-- SAF.SPB_ID.VALUE, access RO (spec/12_safety.md). -/
abbrev SAF.SPB_ID.VALUE : Fld := ⟨0x34014, 0, 32⟩
/-- SAF.SPB_CRC.VALUE, access RO (spec/12_safety.md). -/
abbrev SAF.SPB_CRC.VALUE : Fld := ⟨0x34018, 0, 32⟩
/-- SAF.CONFIRM.CRC, access RWF (spec/12_safety.md). -/
abbrev SAF.CONFIRM.CRC : Fld := ⟨0x3401C, 0, 32⟩
/-- SAF.SI_LO.LEVEL, access RO (spec/12_safety.md). -/
abbrev SAF.SI_LO.LEVEL : Fld := ⟨0x34020, 0, 32⟩
/-- SAF.SI_HI.LEVEL, access RO (spec/12_safety.md). -/
abbrev SAF.SI_HI.LEVEL : Fld := ⟨0x34024, 0, 32⟩
/-- SAF.PULSE_LO.STK, access W1C (spec/12_safety.md). -/
abbrev SAF.PULSE_LO.STK : Fld := ⟨0x34028, 0, 32⟩
/-- SAF.PULSE_HI.STK, access W1C (spec/12_safety.md). -/
abbrev SAF.PULSE_HI.STK : Fld := ⟨0x3402C, 0, 32⟩
/-- SAF.LSE_TEST.PASS, access RO (spec/12_safety.md). -/
abbrev SAF.LSE_TEST.PASS : Fld := ⟨0x34030, 16, 16⟩
/-- SAF.LSE_TEST.FAIL, access RO (spec/12_safety.md). -/
abbrev SAF.LSE_TEST.FAIL : Fld := ⟨0x34030, 0, 16⟩
/-- SAF.TEST_REQ.REQ, access W1S (spec/12_safety.md). -/
abbrev SAF.TEST_REQ.REQ : Fld := ⟨0x34034, 0, 16⟩
/-- SAF.LINK.SINGLE_MIN, access RO (spec/12_safety.md). -/
abbrev SAF.LINK.SINGLE_MIN : Fld := ⟨0x34038, 24, 8⟩
/-- SAF.LINK.MISMATCH, access RO (spec/12_safety.md). -/
abbrev SAF.LINK.MISMATCH : Fld := ⟨0x34038, 8, 16⟩
/-- SAF.LINK.SINGLE, access RO (spec/12_safety.md). -/
abbrev SAF.LINK.SINGLE : Fld := ⟨0x34038, 4, 1⟩
/-- SAF.LINK.ETH_LOST, access RO (spec/12_safety.md). -/
abbrev SAF.LINK.ETH_LOST : Fld := ⟨0x34038, 3, 1⟩
/-- SAF.LINK.BBN_LOST, access RO (spec/12_safety.md). -/
abbrev SAF.LINK.BBN_LOST : Fld := ⟨0x34038, 2, 1⟩
/-- SAF.LINK.ETH_UP, access RO (spec/12_safety.md). -/
abbrev SAF.LINK.ETH_UP : Fld := ⟨0x34038, 1, 1⟩
/-- SAF.LINK.MEMBER, access RO (spec/12_safety.md). -/
abbrev SAF.LINK.MEMBER : Fld := ⟨0x34038, 0, 1⟩
/-- SAF.REMOTE.RUN, access RO (spec/12_safety.md). -/
abbrev SAF.REMOTE.RUN : Fld := ⟨0x3403C, 0, 16⟩
/-- SAF.HALVES.COUNT, access RO (spec/12_safety.md). -/
abbrev SAF.HALVES.COUNT : Fld := ⟨0x34040, 24, 8⟩
/-- SAF.HALVES.SINCE_H, access RO (spec/12_safety.md). -/
abbrev SAF.HALVES.SINCE_H : Fld := ⟨0x34040, 0, 24⟩
/-- SAF.FN[f].TYPE, access RO (spec/12_safety.md). -/
abbrev SAF.FN.TYPE (i : Nat) : Fld := ⟨0x34100 + 0x4 * i, 28, 4⟩
/-- SAF.FN[f].STATE, access RO (spec/12_safety.md). -/
abbrev SAF.FN.STATE (i : Nat) : Fld := ⟨0x34100 + 0x4 * i, 26, 2⟩
/-- SAF.FN[f].BOTH, access RO (spec/12_safety.md). -/
abbrev SAF.FN.BOTH (i : Nat) : Fld := ⟨0x34100 + 0x4 * i, 25, 1⟩
/-- SAF.FN[f].RUN_K, access RO (spec/12_safety.md). -/
abbrev SAF.FN.RUN_K (i : Nat) : Fld := ⟨0x34100 + 0x4 * i, 24, 1⟩
/-- SAF.FN[f].DISC_STK, access W1C (spec/12_safety.md). -/
abbrev SAF.FN.DISC_STK (i : Nat) : Fld := ⟨0x34100 + 0x4 * i, 23, 1⟩
/-- SAF.FN[f].PULSE, access RO (spec/12_safety.md). -/
abbrev SAF.FN.PULSE (i : Nat) : Fld := ⟨0x34100 + 0x4 * i, 22, 1⟩
/-- SAF.FN[f].LOWERED, access RO (spec/12_safety.md). -/
abbrev SAF.FN.LOWERED (i : Nat) : Fld := ⟨0x34100 + 0x4 * i, 21, 1⟩
/-- SAF.FN[f].RAISED, access RO (spec/12_safety.md). -/
abbrev SAF.FN.RAISED (i : Nat) : Fld := ⟨0x34100 + 0x4 * i, 20, 1⟩
/-- SAF.FN[f].DCOUNT, access RO (spec/12_safety.md). -/
abbrev SAF.FN.DCOUNT (i : Nat) : Fld := ⟨0x34100 + 0x4 * i, 0, 12⟩
/-- LSW.STATUS.BUDGET, access RO (spec/13_load_switches.md). -/
abbrev LSW.STATUS.BUDGET : Fld := ⟨0x35000, 18, 1⟩
/-- LSW.STATUS.BUDGET_STK, access W1C (spec/13_load_switches.md). -/
abbrev LSW.STATUS.BUDGET_STK : Fld := ⟨0x35000, 17, 1⟩
/-- LSW.STATUS.ENV_FB, access RO (spec/13_load_switches.md). -/
abbrev LSW.STATUS.ENV_FB : Fld := ⟨0x35000, 16, 1⟩
/-- LSW.STATUS.UV_STK, access W1C (spec/13_load_switches.md). -/
abbrev LSW.STATUS.UV_STK : Fld := ⟨0x35000, 8, 5⟩
/-- LSW.STATUS.UV, access RO (spec/13_load_switches.md). -/
abbrev LSW.STATUS.UV : Fld := ⟨0x35000, 0, 5⟩
/-- LSW.POWER.P_MW, access RO (spec/13_load_switches.md). -/
abbrev LSW.POWER.P_MW : Fld := ⟨0x35004, 0, 16⟩
/-- LSW.LATCHED_LO.LATCHED, access RO (spec/13_load_switches.md). -/
abbrev LSW.LATCHED_LO.LATCHED : Fld := ⟨0x35008, 0, 32⟩
/-- LSW.LATCHED_HI.LATCHED, access RO (spec/13_load_switches.md). -/
abbrev LSW.LATCHED_HI.LATCHED : Fld := ⟨0x3500C, 0, 32⟩
/-- LSW.VLS[g].MV, access RO (spec/13_load_switches.md). -/
abbrev LSW.VLS.MV (i : Nat) : Fld := ⟨0x35010 + 0x4 * i, 16, 16⟩
/-- LSW.VLS[g].V_NOM, access RWS (spec/13_load_switches.md). -/
abbrev LSW.VLS.V_NOM (i : Nat) : Fld := ⟨0x35010 + 0x4 * i, 8, 8⟩
/-- LSW.VLS[g].UV_OFFS, access RO (spec/13_load_switches.md). -/
abbrev LSW.VLS.UV_OFFS (i : Nat) : Fld := ⟨0x35010 + 0x4 * i, 0, 8⟩
/-- LSW.CH[c].CTL.CLR, access WO (spec/13_load_switches.md). -/
abbrev LSW.CH.CTL.CLR (i : Nat) : Fld := ⟨0x35100 + 0x20 * i, 2, 1⟩
/-- LSW.CH[c].CTL.REQ, access WO (spec/13_load_switches.md). -/
abbrev LSW.CH.CTL.REQ (i : Nat) : Fld := ⟨0x35100 + 0x20 * i, 0, 2⟩
/-- LSW.CH[c].DUTY.DUTY, access RW (spec/13_load_switches.md). -/
abbrev LSW.CH.DUTY.DUTY (i : Nat) : Fld := ⟨0x35104 + 0x20 * i, 0, 10⟩
/-- LSW.CH[c].CFG.MODE, access RWS (spec/13_load_switches.md). -/
abbrev LSW.CH.CFG.MODE (i : Nat) : Fld := ⟨0x35108 + 0x20 * i, 29, 3⟩
/-- LSW.CH[c].CFG.FREQ, access RWS (spec/13_load_switches.md). -/
abbrev LSW.CH.CFG.FREQ (i : Nat) : Fld := ⟨0x35108 + 0x20 * i, 26, 3⟩
/-- LSW.CH[c].CFG.SAFE_KEEP, access RWS (spec/13_load_switches.md). -/
abbrev LSW.CH.CFG.SAFE_KEEP (i : Nat) : Fld := ⟨0x35108 + 0x20 * i, 25, 1⟩
/-- LSW.CH[c].CFG.OL_EN, access RWS (spec/13_load_switches.md). -/
abbrev LSW.CH.CFG.OL_EN (i : Nat) : Fld := ⟨0x35108 + 0x20 * i, 24, 1⟩
/-- LSW.CH[c].CFG.OWNER, access RO (spec/13_load_switches.md). -/
abbrev LSW.CH.CFG.OWNER (i : Nat) : Fld := ⟨0x35108 + 0x20 * i, 23, 1⟩
/-- LSW.CH[c].CFG.LIMIT, access RWS (spec/13_load_switches.md). -/
abbrev LSW.CH.CFG.LIMIT (i : Nat) : Fld := ⟨0x35108 + 0x20 * i, 18, 5⟩
/-- LSW.CH[c].CFG.INRUSH_T, access RWS (spec/13_load_switches.md). -/
abbrev LSW.CH.CFG.INRUSH_T (i : Nat) : Fld := ⟨0x35108 + 0x20 * i, 11, 7⟩
/-- LSW.CH[c].CFG.SLEW, access RWS (spec/13_load_switches.md). -/
abbrev LSW.CH.CFG.SLEW (i : Nat) : Fld := ⟨0x35108 + 0x20 * i, 6, 5⟩
/-- LSW.CH[c].COIL.PULL_T, access RWS (spec/13_load_switches.md). -/
abbrev LSW.CH.COIL.PULL_T (i : Nat) : Fld := ⟨0x3510C + 0x20 * i, 24, 8⟩
/-- LSW.CH[c].COIL.HOLD, access RWS (spec/13_load_switches.md). -/
abbrev LSW.CH.COIL.HOLD (i : Nat) : Fld := ⟨0x3510C + 0x20 * i, 0, 10⟩
/-- LSW.CH[c].STATUS.STATE, access RO (spec/13_load_switches.md). -/
abbrev LSW.CH.STATUS.STATE (i : Nat) : Fld := ⟨0x35110 + 0x20 * i, 29, 3⟩
/-- LSW.CH[c].STATUS.REQ_ON, access RO (spec/13_load_switches.md). -/
abbrev LSW.CH.STATUS.REQ_ON (i : Nat) : Fld := ⟨0x35110 + 0x20 * i, 28, 1⟩
/-- LSW.CH[c].STATUS.FORCED, access RO (spec/13_load_switches.md). -/
abbrev LSW.CH.STATUS.FORCED (i : Nat) : Fld := ⟨0x35110 + 0x20 * i, 27, 1⟩
/-- LSW.CH[c].STATUS.LATCHED, access RO (spec/13_load_switches.md). -/
abbrev LSW.CH.STATUS.LATCHED (i : Nat) : Fld := ⟨0x35110 + 0x20 * i, 26, 1⟩
/-- LSW.CH[c].STATUS.THERMAL, access RO (spec/13_load_switches.md). -/
abbrev LSW.CH.STATUS.THERMAL (i : Nat) : Fld := ⟨0x35110 + 0x20 * i, 25, 1⟩
/-- LSW.CH[c].STATUS.FOLDBACK, access RO (spec/13_load_switches.md). -/
abbrev LSW.CH.STATUS.FOLDBACK (i : Nat) : Fld := ⟨0x35110 + 0x20 * i, 24, 1⟩
/-- LSW.CH[c].STATUS.INRUSH, access RO (spec/13_load_switches.md). -/
abbrev LSW.CH.STATUS.INRUSH (i : Nat) : Fld := ⟨0x35110 + 0x20 * i, 23, 1⟩
/-- LSW.CH[c].STATUS.OPEN_LOAD, access RO (spec/13_load_switches.md). -/
abbrev LSW.CH.STATUS.OPEN_LOAD (i : Nat) : Fld := ⟨0x35110 + 0x20 * i, 22, 1⟩
/-- LSW.CH[c].STATUS.PULL, access RO (spec/13_load_switches.md). -/
abbrev LSW.CH.STATUS.PULL (i : Nat) : Fld := ⟨0x35110 + 0x20 * i, 21, 1⟩
/-- LSW.CH[c].STATUS.RESTARTS, access RO (spec/13_load_switches.md). -/
abbrev LSW.CH.STATUS.RESTARTS (i : Nat) : Fld := ⟨0x35110 + 0x20 * i, 17, 4⟩
/-- LSW.CH[c].STATUS.APPLIED, access RO (spec/13_load_switches.md). -/
abbrev LSW.CH.STATUS.APPLIED (i : Nat) : Fld := ⟨0x35110 + 0x20 * i, 0, 10⟩
/-- LSW.CH[c].PEND.PEND, access RO (spec/13_load_switches.md). -/
abbrev LSW.CH.PEND.PEND (i : Nat) : Fld := ⟨0x35114 + 0x20 * i, 16, 1⟩
/-- LSW.CH[c].PEND.DISC_CLR, access W1S (spec/13_load_switches.md). -/
abbrev LSW.CH.PEND.DISC_CLR (i : Nat) : Fld := ⟨0x35114 + 0x20 * i, 8, 1⟩
/-- LSW.CH[c].PEND.DISCARDS, access RO (spec/13_load_switches.md). -/
abbrev LSW.CH.PEND.DISCARDS (i : Nat) : Fld := ⟨0x35114 + 0x20 * i, 0, 8⟩
/-- LSW.CH[c].MEAS.I_MA, access RO (spec/13_load_switches.md). -/
abbrev LSW.CH.MEAS.I_MA (i : Nat) : Fld := ⟨0x35118 + 0x20 * i, 16, 16⟩
/-- LSW.CH[c].MEAS.TJ, access RO (spec/13_load_switches.md). -/
abbrev LSW.CH.MEAS.TJ (i : Nat) : Fld := ⟨0x35118 + 0x20 * i, 0, 16⟩
/-- LSW.CH[c].HIST.THERMALS, access RO (spec/13_load_switches.md). -/
abbrev LSW.CH.HIST.THERMALS (i : Nat) : Fld := ⟨0x3511C + 0x20 * i, 24, 8⟩
/-- LSW.CH[c].HIST.FOLDBACKS, access RO (spec/13_load_switches.md). -/
abbrev LSW.CH.HIST.FOLDBACKS (i : Nat) : Fld := ⟨0x3511C + 0x20 * i, 16, 8⟩
/-- LSW.CH[c].HIST.RESULT, access RO (spec/13_load_switches.md). -/
abbrev LSW.CH.HIST.RESULT (i : Nat) : Fld := ⟨0x3511C + 0x20 * i, 0, 8⟩
/-- LSW.HEAT[h].CFG.CHANNEL, access RWS (spec/13_load_switches.md). -/
abbrev LSW.HEAT.CFG.CHANNEL (i : Nat) : Fld := ⟨0x35600 + 0x10 * i, 24, 8⟩
/-- LSW.HEAT[h].CFG.SENSOR, access RWS (spec/13_load_switches.md). -/
abbrev LSW.HEAT.CFG.SENSOR (i : Nat) : Fld := ⟨0x35600 + 0x10 * i, 16, 8⟩
/-- LSW.HEAT[h].CFG.ON_SPREAD, access RWS (spec/13_load_switches.md). -/
abbrev LSW.HEAT.CFG.ON_SPREAD (i : Nat) : Fld := ⟨0x35600 + 0x10 * i, 8, 8⟩
/-- LSW.HEAT[h].CFG.OFF_SPREAD, access RWS (spec/13_load_switches.md). -/
abbrev LSW.HEAT.CFG.OFF_SPREAD (i : Nat) : Fld := ⟨0x35600 + 0x10 * i, 0, 8⟩
/-- LSW.HEAT[h].DUTY.FB_DUTY, access RWS (spec/13_load_switches.md). -/
abbrev LSW.HEAT.DUTY.FB_DUTY (i : Nat) : Fld := ⟨0x35604 + 0x10 * i, 16, 10⟩
/-- LSW.HEAT[h].DUTY.HEAT_DUTY, access RWS (spec/13_load_switches.md). -/
abbrev LSW.HEAT.DUTY.HEAT_DUTY (i : Nat) : Fld := ⟨0x35604 + 0x10 * i, 0, 10⟩
/-- LSW.HEAT[h].READING.TEMP, access RO (spec/13_load_switches.md). -/
abbrev LSW.HEAT.READING.TEMP (i : Nat) : Fld := ⟨0x35608 + 0x10 * i, 16, 16⟩
/-- LSW.HEAT[h].READING.RH, access RO (spec/13_load_switches.md). -/
abbrev LSW.HEAT.READING.RH (i : Nat) : Fld := ⟨0x35608 + 0x10 * i, 0, 16⟩
/-- LSW.HEAT[h].STATE.DEW, access RO (spec/13_load_switches.md). -/
abbrev LSW.HEAT.STATE.DEW (i : Nat) : Fld := ⟨0x3560C + 0x10 * i, 16, 16⟩
/-- LSW.HEAT[h].STATE.FALLBACK, access RO (spec/13_load_switches.md). -/
abbrev LSW.HEAT.STATE.FALLBACK (i : Nat) : Fld := ⟨0x3560C + 0x10 * i, 1, 1⟩
/-- LSW.HEAT[h].STATE.WANT, access RO (spec/13_load_switches.md). -/
abbrev LSW.HEAT.STATE.WANT (i : Nat) : Fld := ⟨0x3560C + 0x10 * i, 0, 1⟩
/-- DPY.STATUS.STATE, access RO (spec/14_displays.md). -/
abbrev DPY.STATUS.STATE : Fld := ⟨0x36000, 29, 3⟩
/-- DPY.STATUS.REQ_ON, access RO (spec/14_displays.md). -/
abbrev DPY.STATUS.REQ_ON : Fld := ⟨0x36000, 28, 1⟩
/-- DPY.STATUS.CAUSE, access RO (spec/14_displays.md). -/
abbrev DPY.STATUS.CAUSE : Fld := ⟨0x36000, 24, 4⟩
/-- DPY.STATUS.RAILS, access RO (spec/14_displays.md). -/
abbrev DPY.STATUS.RAILS : Fld := ⟨0x36000, 4, 4⟩
/-- DPY.STATUS.BLACK, access RO (spec/14_displays.md). -/
abbrev DPY.STATUS.BLACK : Fld := ⟨0x36000, 3, 1⟩
/-- DPY.STATUS.ALS_FB, access RO (spec/14_displays.md). -/
abbrev DPY.STATUS.ALS_FB : Fld := ⟨0x36000, 2, 1⟩
/-- DPY.CTL.CLR, access WO (spec/14_displays.md). -/
abbrev DPY.CTL.CLR : Fld := ⟨0x36004, 2, 1⟩
/-- DPY.CTL.REQ, access WO (spec/14_displays.md). -/
abbrev DPY.CTL.REQ : Fld := ⟨0x36004, 0, 2⟩
/-- DPY.PEND.PEND, access RO (spec/14_displays.md). -/
abbrev DPY.PEND.PEND : Fld := ⟨0x36008, 16, 1⟩
/-- DPY.PEND.DISC_CLR, access W1S (spec/14_displays.md). -/
abbrev DPY.PEND.DISC_CLR : Fld := ⟨0x36008, 8, 1⟩
/-- DPY.PEND.DISCARDS, access RO (spec/14_displays.md). -/
abbrev DPY.PEND.DISCARDS : Fld := ⟨0x36008, 0, 8⟩
/-- DPY.RAIL.ELVSS, access RWS (spec/14_displays.md). -/
abbrev DPY.RAIL.ELVSS : Fld := ⟨0x3600C, 0, 6⟩
/-- DPY.BRIGHT.MAN, access RW (spec/14_displays.md). -/
abbrev DPY.BRIGHT.MAN : Fld := ⟨0x36010, 31, 1⟩
/-- DPY.BRIGHT.MAN_LEVEL, access RW (spec/14_displays.md). -/
abbrev DPY.BRIGHT.MAN_LEVEL : Fld := ⟨0x36010, 16, 10⟩
/-- DPY.BRIGHT.LEVEL, access RO (spec/14_displays.md). -/
abbrev DPY.BRIGHT.LEVEL : Fld := ⟨0x36010, 0, 10⟩
/-- DPY.CRACK.CRACKED, access RO (spec/14_displays.md). -/
abbrev DPY.CRACK.CRACKED : Fld := ⟨0x36014, 31, 1⟩
/-- DPY.CRACK.OHMS, access RO (spec/14_displays.md). -/
abbrev DPY.CRACK.OHMS : Fld := ⟨0x36014, 0, 16⟩
/-- DPY.ERRS.UNDERRUNS, access RO (spec/14_displays.md). -/
abbrev DPY.ERRS.UNDERRUNS : Fld := ⟨0x36018, 16, 16⟩
/-- DPY.ERRS.LUX, access RO (spec/14_displays.md). -/
abbrev DPY.ERRS.LUX : Fld := ⟨0x36018, 0, 16⟩
/-- LAYER[k].BASE.OFFSET, access RW (spec/14_displays.md). -/
abbrev LAYER.BASE.OFFSET (i : Nat) : Fld := ⟨0x36040 + 0x10 * i, 0, 23⟩
/-- LAYER[k].POS.X, access RW (spec/14_displays.md). -/
abbrev LAYER.POS.X (i : Nat) : Fld := ⟨0x36044 + 0x10 * i, 16, 10⟩
/-- LAYER[k].POS.Y, access RW (spec/14_displays.md). -/
abbrev LAYER.POS.Y (i : Nat) : Fld := ⟨0x36044 + 0x10 * i, 0, 9⟩
/-- LAYER[k].SIZE.W, access RW (spec/14_displays.md). -/
abbrev LAYER.SIZE.W (i : Nat) : Fld := ⟨0x36048 + 0x10 * i, 16, 10⟩
/-- LAYER[k].SIZE.H, access RW (spec/14_displays.md). -/
abbrev LAYER.SIZE.H (i : Nat) : Fld := ⟨0x36048 + 0x10 * i, 0, 9⟩
/-- LAYER[k].CTL.EN, access RW (spec/14_displays.md). -/
abbrev LAYER.CTL.EN (i : Nat) : Fld := ⟨0x3604C + 0x10 * i, 0, 1⟩
/-- BLINK[b].POS.X, access RW (spec/14_displays.md). -/
abbrev BLINK.POS.X (i : Nat) : Fld := ⟨0x36100 + 0x10 * i, 16, 10⟩
/-- BLINK[b].POS.Y, access RW (spec/14_displays.md). -/
abbrev BLINK.POS.Y (i : Nat) : Fld := ⟨0x36100 + 0x10 * i, 0, 9⟩
/-- BLINK[b].SIZE.W, access RW (spec/14_displays.md). -/
abbrev BLINK.SIZE.W (i : Nat) : Fld := ⟨0x36104 + 0x10 * i, 16, 10⟩
/-- BLINK[b].SIZE.H, access RW (spec/14_displays.md). -/
abbrev BLINK.SIZE.H (i : Nat) : Fld := ⟨0x36104 + 0x10 * i, 0, 9⟩
/-- BLINK[b].CTL.EN, access RW (spec/14_displays.md). -/
abbrev BLINK.CTL.EN (i : Nat) : Fld := ⟨0x36108 + 0x10 * i, 31, 1⟩
/-- BLINK[b].CTL.LAYER, access RW (spec/14_displays.md). -/
abbrev BLINK.CTL.LAYER (i : Nat) : Fld := ⟨0x36108 + 0x10 * i, 16, 2⟩
/-- BLINK[b].CTL.ON_F, access RW (spec/14_displays.md). -/
abbrev BLINK.CTL.ON_F (i : Nat) : Fld := ⟨0x36108 + 0x10 * i, 8, 8⟩
/-- BLINK[b].CTL.OFF_F, access RW (spec/14_displays.md). -/
abbrev BLINK.CTL.OFF_F (i : Nat) : Fld := ⟨0x36108 + 0x10 * i, 0, 8⟩
/-- DPY.PAL[i].RGB, access RW (spec/14_displays.md). -/
abbrev DPY.PAL.RGB (i : Nat) : Fld := ⟨0x36400 + 0x4 * i, 0, 24⟩
/-- BDY.STATUS.RECOVERIES, access RO (spec/14_displays.md). -/
abbrev BDY.STATUS.RECOVERIES : Fld := ⟨0x37000, 16, 16⟩
/-- BDY.STATUS.RUNNING, access RO (spec/14_displays.md). -/
abbrev BDY.STATUS.RUNNING : Fld := ⟨0x37000, 8, 8⟩
/-- BDY.STATUS.RAIL_FAULT, access RO (spec/14_displays.md). -/
abbrev BDY.STATUS.RAIL_FAULT : Fld := ⟨0x37000, 2, 1⟩
/-- BDY.STATUS.RECOVERING, access RO (spec/14_displays.md). -/
abbrev BDY.STATUS.RECOVERING : Fld := ⟨0x37000, 1, 1⟩
/-- BDY.STATUS.POSITIVE, access RO (spec/14_displays.md). -/
abbrev BDY.STATUS.POSITIVE : Fld := ⟨0x37000, 0, 1⟩
/-- BDY.TEMP.TEMP, access RO (spec/14_displays.md). -/
abbrev BDY.TEMP.TEMP : Fld := ⟨0x37004, 16, 16⟩
/-- BDY.TEMP.N, access RO (spec/14_displays.md). -/
abbrev BDY.TEMP.N : Fld := ⟨0x37004, 0, 6⟩
/-- BDY.REG[r].CTL.GO, access WO (spec/14_displays.md). -/
abbrev BDY.REG.CTL.GO (i : Nat) : Fld := ⟨0x37100 + 0x20 * i, 0, 1⟩
/-- BDY.REG[r].STATUS.REPLACED, access RO (spec/14_displays.md). -/
abbrev BDY.REG.STATUS.REPLACED (i : Nat) : Fld := ⟨0x37104 + 0x20 * i, 16, 16⟩
/-- BDY.REG[r].STATUS.PENDING, access RO (spec/14_displays.md). -/
abbrev BDY.REG.STATUS.PENDING (i : Nat) : Fld := ⟨0x37104 + 0x20 * i, 15, 1⟩
/-- BDY.REG[r].STATUS.FRAME, access RO (spec/14_displays.md). -/
abbrev BDY.REG.STATUS.FRAME (i : Nat) : Fld := ⟨0x37104 + 0x20 * i, 0, 8⟩
/-- BDY.REG[r].BITS[k].DARK, access RW (spec/14_displays.md). -/
abbrev BDY.REG.BITS.DARK (i j : Nat) : Fld := ⟨0x37108 + 0x20 * i + 0x4 * j, 0, 32⟩
/-- NFC.STATUS.FALSE_WAKES, access RO (spec/15_contactless.md). -/
abbrev NFC.STATUS.FALSE_WAKES : Fld := ⟨0x38000, 24, 8⟩
/-- NFC.STATUS.CARDS, access RO (spec/15_contactless.md). -/
abbrev NFC.STATUS.CARDS : Fld := ⟨0x38000, 20, 4⟩
/-- NFC.STATUS.ANT_FAULT, access RO (spec/15_contactless.md). -/
abbrev NFC.STATUS.ANT_FAULT : Fld := ⟨0x38000, 3, 1⟩
/-- NFC.STATUS.STATE, access RO (spec/15_contactless.md). -/
abbrev NFC.STATUS.STATE : Fld := ⟨0x38000, 0, 3⟩
/-- NFC.CTL.DONE, access WO (spec/15_contactless.md). -/
abbrev NFC.CTL.DONE : Fld := ⟨0x38004, 1, 1⟩
/-- NFC.CTL.EN, access RWS (spec/15_contactless.md). -/
abbrev NFC.CTL.EN : Fld := ⟨0x38004, 0, 1⟩
/-- NFC.DET_CFG.PING_PERIOD, access RWS (spec/15_contactless.md). -/
abbrev NFC.DET_CFG.PING_PERIOD : Fld := ⟨0x38008, 22, 10⟩
/-- NFC.DET_CFG.TRACK, access RWS (spec/15_contactless.md). -/
abbrev NFC.DET_CFG.TRACK : Fld := ⟨0x38008, 18, 4⟩
/-- NFC.DET_CFG.WAKE_AMP, access RWS (spec/15_contactless.md). -/
abbrev NFC.DET_CFG.WAKE_AMP : Fld := ⟨0x38008, 8, 8⟩
/-- NFC.DET_CFG.WAKE_PH, access RWS (spec/15_contactless.md). -/
abbrev NFC.DET_CFG.WAKE_PH : Fld := ⟨0x38008, 0, 8⟩
/-- NFC.DET_MEAS.AMP_DEV, access RO (spec/15_contactless.md). -/
abbrev NFC.DET_MEAS.AMP_DEV : Fld := ⟨0x3800C, 16, 16⟩
/-- NFC.DET_MEAS.PH_DEV, access RO (spec/15_contactless.md). -/
abbrev NFC.DET_MEAS.PH_DEV : Fld := ⟨0x3800C, 0, 16⟩
/-- NFC.LIST.TYPE_B, access RO (spec/15_contactless.md). -/
abbrev NFC.LIST.TYPE_B : Fld := ⟨0x38010, 12, 1⟩
/-- NFC.LIST.LEN, access RO (spec/15_contactless.md). -/
abbrev NFC.LIST.LEN : Fld := ⟨0x38010, 8, 4⟩
/-- NFC.LIST.SEL, access RW (spec/15_contactless.md). -/
abbrev NFC.LIST.SEL : Fld := ⟨0x38010, 0, 3⟩
/-- NFC.LIST_UID[k].BYTES, access RO (spec/15_contactless.md). -/
abbrev NFC.LIST_UID.BYTES (i : Nat) : Fld := ⟨0x38014 + 0x4 * i, 0, 32⟩
/-- TAG.STATUS.AUTH_FAILS, access RO (spec/15_contactless.md). -/
abbrev TAG.STATUS.AUTH_FAILS : Fld := ⟨0x39000, 24, 8⟩
/-- TAG.STATUS.LOCKED, access RO (spec/15_contactless.md). -/
abbrev TAG.STATUS.LOCKED : Fld := ⟨0x39000, 23, 1⟩
/-- TAG.STATUS.MAPPED, access RO (spec/15_contactless.md). -/
abbrev TAG.STATUS.MAPPED : Fld := ⟨0x39000, 22, 1⟩
/-- TAG.STATUS.MAP_COPY, access RO (spec/15_contactless.md). -/
abbrev TAG.STATUS.MAP_COPY : Fld := ⟨0x39000, 21, 1⟩
/-- TAG.STATUS.FIELD, access RO (spec/15_contactless.md). -/
abbrev TAG.STATUS.FIELD : Fld := ⟨0x39000, 20, 1⟩
/-- TAG.STATUS.LEVEL, access RO (spec/15_contactless.md). -/
abbrev TAG.STATUS.LEVEL : Fld := ⟨0x39000, 18, 2⟩
/-- TAG.STATUS.STATE, access RO (spec/15_contactless.md). -/
abbrev TAG.STATUS.STATE : Fld := ⟨0x39000, 15, 3⟩
/-- TAG.STATUS.BATT, access RO (spec/15_contactless.md). -/
abbrev TAG.STATUS.BATT : Fld := ⟨0x39000, 1, 1⟩
/-- TAG.STATUS.EN, access RO (spec/15_contactless.md). -/
abbrev TAG.STATUS.EN : Fld := ⟨0x39000, 0, 1⟩
/-- TAG.CTL.SNAP, access WO (spec/15_contactless.md). -/
abbrev TAG.CTL.SNAP : Fld := ⟨0x39004, 2, 1⟩
/-- TAG.CTL.STORE, access WO (spec/15_contactless.md). -/
abbrev TAG.CTL.STORE : Fld := ⟨0x39004, 1, 1⟩
/-- TAG.CTL.LOAD, access WO (spec/15_contactless.md). -/
abbrev TAG.CTL.LOAD : Fld := ⟨0x39004, 0, 1⟩
/-- TAG.PAGE.PAGE, access RW (spec/15_contactless.md). -/
abbrev TAG.PAGE.PAGE : Fld := ⟨0x39008, 0, 8⟩
/-- TAG.WSTAT.BUSY_COUNT, access RO (spec/15_contactless.md). -/
abbrev TAG.WSTAT.BUSY_COUNT : Fld := ⟨0x3900C, 16, 16⟩
/-- TAG.WSTAT.RESULT, access RO (spec/15_contactless.md). -/
abbrev TAG.WSTAT.RESULT : Fld := ⟨0x3900C, 0, 8⟩
/-- TAG.UID_LO.BYTES, access RO (spec/15_contactless.md). -/
abbrev TAG.UID_LO.BYTES : Fld := ⟨0x39010, 0, 32⟩
/-- TAG.UID_HI.BYTES, access RO (spec/15_contactless.md). -/
abbrev TAG.UID_HI.BYTES : Fld := ⟨0x39014, 0, 24⟩
/-- TAG.COUNTS.OPENS, access RO (spec/15_contactless.md). -/
abbrev TAG.COUNTS.OPENS : Fld := ⟨0x39018, 16, 16⟩
/-- TAG.COUNTS.AUTHS, access RO (spec/15_contactless.md). -/
abbrev TAG.COUNTS.AUTHS : Fld := ⟨0x39018, 0, 16⟩
/-- TAG.BUF[k].BYTES, access RW (spec/15_contactless.md). -/
abbrev TAG.BUF.BYTES (i : Nat) : Fld := ⟨0x39100 + 0x4 * i, 0, 32⟩
/-- CAN[b].CFG.DATA, access RWS (spec/08_outlets.md). -/
abbrev CAN.CFG.DATA (i : Nat) : Fld := ⟨0x3A000 + 0x40 * i, 30, 2⟩
/-- CAN[b].CFG.NOM, access RWS (spec/08_outlets.md). -/
abbrev CAN.CFG.NOM (i : Nat) : Fld := ⟨0x3A000 + 0x40 * i, 28, 2⟩
/-- CAN[b].CFG.EN, access RWS (spec/08_outlets.md). -/
abbrev CAN.CFG.EN (i : Nat) : Fld := ⟨0x3A000 + 0x40 * i, 0, 1⟩
/-- CAN[b].STATUS.TEC, access RO (spec/08_outlets.md). -/
abbrev CAN.STATUS.TEC (i : Nat) : Fld := ⟨0x3A004 + 0x40 * i, 24, 8⟩
/-- CAN[b].STATUS.REC, access RO (spec/08_outlets.md). -/
abbrev CAN.STATUS.REC (i : Nat) : Fld := ⟨0x3A004 + 0x40 * i, 16, 8⟩
/-- CAN[b].STATUS.BUS_OFF, access RO (spec/08_outlets.md). -/
abbrev CAN.STATUS.BUS_OFF (i : Nat) : Fld := ⟨0x3A004 + 0x40 * i, 2, 1⟩
/-- CAN[b].STATUS.PASSIVE, access RO (spec/08_outlets.md). -/
abbrev CAN.STATUS.PASSIVE (i : Nat) : Fld := ⟨0x3A004 + 0x40 * i, 1, 1⟩
/-- CAN[b].STATUS.ON, access RO (spec/08_outlets.md). -/
abbrev CAN.STATUS.ON (i : Nat) : Fld := ⟨0x3A004 + 0x40 * i, 0, 1⟩
/-- LEGAL.STATUS.FREE, access RO (spec/03_metrology_inputs.md). -/
abbrev LEGAL.STATUS.FREE : Fld := ⟨0x3C000, 16, 16⟩
/-- LEGAL.STATUS.FULL, access RO (spec/03_metrology_inputs.md). -/
abbrev LEGAL.STATUS.FULL : Fld := ⟨0x3C000, 3, 1⟩
/-- LEGAL.STATUS.COMMITTING, access RO (spec/03_metrology_inputs.md). -/
abbrev LEGAL.STATUS.COMMITTING : Fld := ⟨0x3C000, 2, 1⟩
/-- LEGAL.STATUS.PENDING, access RO (spec/03_metrology_inputs.md). -/
abbrev LEGAL.STATUS.PENDING : Fld := ⟨0x3C000, 1, 1⟩
/-- LEGAL.STATUS.IN_FORCE, access RO (spec/03_metrology_inputs.md). -/
abbrev LEGAL.STATUS.IN_FORCE : Fld := ⟨0x3C000, 0, 1⟩
/-- LEGAL.COMMIT.SRC_IMAGE, access WO (spec/03_metrology_inputs.md). -/
abbrev LEGAL.COMMIT.SRC_IMAGE : Fld := ⟨0x3C004, 1, 1⟩
/-- LEGAL.COMMIT.GO, access WO (spec/03_metrology_inputs.md). -/
abbrev LEGAL.COMMIT.GO : Fld := ⟨0x3C004, 0, 1⟩
/-- LEGAL.COMMIT_NO.NUMBER, access RO (spec/03_metrology_inputs.md). -/
abbrev LEGAL.COMMIT_NO.NUMBER : Fld := ⟨0x3C008, 0, 32⟩
/-- LEGAL.SET_CRC.CRC, access RO (spec/03_metrology_inputs.md). -/
abbrev LEGAL.SET_CRC.CRC : Fld := ⟨0x3C00C, 0, 32⟩
/-- LEGAL.RESULT.CODE, access RO (spec/03_metrology_inputs.md). -/
abbrev LEGAL.RESULT.CODE : Fld := ⟨0x3C010, 0, 8⟩

end Reg

/-- The register table, part 0. -/
def regTable0 : List RegDesc := [
  ⟨"SYS.HW_TYPE", 0x0, 1, 0, 1, 0, [⟨"TYPE", 31, 0, .ro, 0xa1600c1⟩]⟩,
  ⟨"SYS.UNIT_ID_LO", 0x4, 1, 0, 1, 0, [⟨"ID", 31, 0, .ro, 0⟩]⟩,
  ⟨"SYS.UNIT_ID_HI", 0x8, 1, 0, 1, 0, [⟨"ID", 31, 0, .ro, 0⟩]⟩,
  ⟨"SYS.CAP_CARREL", 0x10, 1, 0, 1, 0, [⟨"CARRELS", 8, 0, .ro, 0x100⟩]⟩,
  ⟨"SYS.CAP_APP_SRAM", 0x14, 1, 0, 1, 0, [⟨"TILES", 7, 0, .ro, 0x80⟩]⟩,
  ⟨"SYS.CAP_ANNEX", 0x18, 1, 0, 1, 0, [⟨"SEG", 31, 0, .ro, 0xffffffff⟩]⟩,
  ⟨"SYS.CAP_RROOM", 0x1C, 1, 0, 1, 0, [⟨"PAGES", 8, 0, .ro, 0x100⟩]⟩,
  ⟨"SYS.CAP_EVR", 0x20, 1, 0, 1, 0, [⟨"RESERVE", 24, 16, .ro, 0x1c0⟩, ⟨"BLOCKS", 10, 0, .ro, 0x400⟩]⟩,
  ⟨"SYS.CAP_APP_MRAM", 0x24, 1, 0, 1, 0, [⟨"BLOCKS", 10, 0, .ro, 0x5dc⟩]⟩,
  ⟨"SYS.CAP_RETIRED", 0x28, 1, 0, 1, 0, [⟨"ENTRIES", 8, 0, .ro, 0⟩]⟩,
  ⟨"SYS.FAB_STATUS", 0x40, 1, 0, 1, 0, [⟨"STARVE", 23, 16, .ro, 0⟩, ⟨"CAP3", 3, 3, .w1c, 0⟩, ⟨"CAP2", 2, 2, .w1c, 0⟩, ⟨"CAP1", 1, 1, .w1c, 0⟩, ⟨"CAP0", 0, 0, .w1c, 0⟩]⟩,
  ⟨"CLK.STATUS", 0x1000, 1, 0, 1, 0, [⟨"DISC_OK", 3, 3, .ro, 0⟩, ⟨"RTC_OK", 2, 2, .ro, 0⟩, ⟨"KRC_OK", 1, 1, .ro, 0⟩, ⟨"PLL_LOCK", 0, 0, .ro, 0⟩]⟩,
  ⟨"CLK.DISC", 0x1004, 1, 0, 1, 0, [⟨"DEV", 31, 0, .ro, 0⟩]⟩,
  ⟨"CLK.GATE", 0x1008, 1, 0, 1, 0, [⟨"NFC", 3, 3, .rws, 1⟩, ⟨"DSI", 2, 2, .rws, 1⟩, ⟨"CAN", 1, 1, .rws, 1⟩, ⟨"ETH", 0, 0, .rws, 1⟩]⟩,
  ⟨"PWR.STATUS", 0x2000, 1, 0, 1, 0, [⟨"VLS_OK", 13, 9, .ro, 0⟩, ⟨"VDISP_OK", 8, 8, .ro, 0⟩, ⟨"VCPN_OK", 7, 7, .ro, 0⟩, ⟨"VCPP_OK", 6, 6, .ro, 0⟩, ⟨"V33_OK", 5, 5, .ro, 0⟩, ⟨"V18_OK", 4, 4, .ro, 0⟩, ⟨"V08_OK", 3, 3, .ro, 0⟩, ⟨"VAUX_OK", 2, 2, .ro, 0⟩, ⟨"PF_PIN", 1, 1, .ro, 0⟩, ⟨"VBAT_OK", 0, 0, .ro, 0⟩]⟩,
  ⟨"PWR.PF_STAT", 0x2004, 1, 0, 1, 0, [⟨"COUNT", 31, 16, .ro, 0⟩, ⟨"LAST_US", 15, 0, .ro, 0⟩]⟩,
  ⟨"PWR.CYCLES", 0x2008, 1, 0, 1, 0, [⟨"COUNT", 31, 0, .ro, 0⟩]⟩,
  ⟨"PWR.OPSEC", 0x200C, 1, 0, 1, 0, [⟨"SECONDS", 31, 0, .ro, 0⟩]⟩,
  ⟨"PWR.CAUSE", 0x2010, 1, 0, 1, 0, [⟨"RELOAD", 5, 5, .ro, 0⟩, ⟨"WAKE", 4, 4, .ro, 0⟩, ⟨"UNWARNED", 3, 3, .ro, 0⟩, ⟨"WARNED", 2, 2, .ro, 0⟩, ⟨"RESET_PIN", 1, 1, .ro, 0⟩, ⟨"POR", 0, 0, .ro, 0⟩]⟩,
  ⟨"MODE.STATUS", 0x3000, 1, 0, 1, 0, [⟨"PREV", 27, 24, .ro, 0⟩, ⟨"LC", 23, 20, .ro, 0⟩, ⟨"QUICK", 8, 8, .ro, 0⟩, ⟨"PARKED", 7, 7, .ro, 0⟩, ⟨"SHUT", 6, 6, .ro, 0⟩, ⟨"APP_DOWN", 5, 5, .ro, 0⟩, ⟨"PF", 4, 4, .ro, 0⟩, ⟨"MODE", 3, 0, .ro, 1⟩]⟩]

/-- The register table, part 1. -/
def regTable1 : List RegDesc := [
  ⟨"MODE.REQ", 0x3004, 1, 0, 1, 0, [⟨"CODE", 3, 0, .wo, 0⟩]⟩,
  ⟨"MODE.REQ_STAT", 0x3008, 1, 0, 1, 0, [⟨"LAST_CODE", 11, 8, .ro, 0⟩, ⟨"RESULT", 7, 0, .ro, 0⟩]⟩,
  ⟨"MODE.START", 0x300C, 1, 0, 1, 0, [⟨"START_MS", 31, 16, .ro, 0⟩, ⟨"COPY_B_BAD", 15, 15, .ro, 0⟩, ⟨"COPY_A_BAD", 14, 14, .ro, 0⟩, ⟨"COPY", 13, 13, .ro, 0⟩]⟩,
  ⟨"MODE.IMG_SEQ", 0x3010, 1, 0, 1, 0, [⟨"SEQ", 31, 0, .ro, 0⟩]⟩,
  ⟨"MODE.SHELF", 0x3014, 1, 0, 1, 0, [⟨"OUT_DIS", 31, 16, .ro, 0⟩, ⟨"MISMATCH", 7, 0, .ro, 0⟩]⟩,
  ⟨"MODE.WARM", 0x3018, 1, 0, 1, 0, [⟨"APP_RESETS", 31, 24, .ro, 0⟩, ⟨"WARM_MAX", 23, 16, .ro, 0⟩, ⟨"REMAIN_MS", 15, 0, .ro, 0⟩]⟩,
  ⟨"MODE.CREDIT", 0x301C, 1, 0, 1, 0, [⟨"VALID", 31, 31, .ro, 0⟩, ⟨"REMAIN_S", 17, 0, .ro, 0⟩]⟩,
  ⟨"BND.STATUS", 0x4000, 1, 0, 1, 0, [⟨"NOSET", 31, 16, .ro, 0⟩, ⟨"PENDING", 7, 4, .ro, 0⟩, ⟨"FREE", 3, 0, .ro, 0xf⟩]⟩,
  ⟨"BND.CMD", 0x4004, 1, 0, 1, 0, [⟨"ARG", 31, 28, .wo, 0⟩, ⟨"ARG2", 27, 24, .wo, 0⟩, ⟨"SET", 17, 16, .wo, 0⟩, ⟨"KIND", 11, 8, .wo, 0⟩, ⟨"CMD", 7, 0, .wo, 0⟩]⟩,
  ⟨"BND.RESULT", 0x4008, 1, 0, 1, 0, [⟨"SET", 17, 16, .ro, 0⟩, ⟨"CMD", 15, 8, .ro, 0⟩, ⟨"CODE", 7, 0, .ro, 0⟩]⟩,
  ⟨"BND.FAIL_ADDR", 0x400C, 1, 0, 1, 0, [⟨"VALUE", 31, 0, .ro, 0⟩]⟩,
  ⟨"BND.PEEK_ADDR", 0x4010, 1, 0, 1, 0, [⟨"STAGED", 18, 18, .ro, 0⟩, ⟨"ADDR", 17, 2, .rw, 0⟩]⟩,
  ⟨"BND.PEEK_VAL", 0x4014, 1, 0, 1, 0, [⟨"VALUE", 31, 0, .ro, 0⟩]⟩,
  ⟨"BND.TIME_LO", 0x4018, 1, 0, 1, 0, [⟨"VALUE", 31, 0, .rw, 0⟩]⟩,
  ⟨"BND.TIME_HI", 0x401C, 1, 0, 1, 0, [⟨"VALUE", 31, 0, .rw, 0⟩]⟩,
  ⟨"BND.SET.STATE", 0x4040, 4, 16, 1, 0, [⟨"STATE", 31, 28, .ro, 0⟩, ⟨"KIND", 27, 24, .ro, 0⟩, ⟨"OWNER", 23, 20, .ro, 0⟩, ⟨"COUNT", 8, 0, .ro, 0⟩]⟩,
  ⟨"BND.SET.ARG", 0x4044, 4, 16, 1, 0, [⟨"VALUE", 31, 0, .ro, 0⟩]⟩,
  ⟨"BND.SET.TIME_LO", 0x4048, 4, 16, 1, 0, [⟨"VALUE", 31, 0, .ro, 0⟩]⟩,
  ⟨"BND.SET.TIME_HI", 0x404C, 4, 16, 1, 0, [⟨"VALUE", 31, 0, .ro, 0⟩]⟩,
  ⟨"HP.STATUS", 0x5000, 1, 0, 1, 0, [⟨"ACC_ERRS", 31, 24, .ro, 0⟩, ⟨"DENIED", 23, 16, .ro, 0⟩, ⟨"FAILS", 11, 8, .ro, 0⟩, ⟨"LOCKED", 7, 7, .ro, 0⟩, ⟨"CRC_STK", 6, 6, .w1c, 0⟩, ⟨"ACC_STK", 5, 5, .w1c, 0⟩, ⟨"LEVEL", 1, 0, .ro, 0⟩]⟩]

/-- The register table, part 2. -/
def regTable2 : List RegDesc := [
  ⟨"HP.AUTH", 0x5004, 1, 0, 1, 0, [⟨"GO", 31, 31, .wo, 0⟩, ⟨"CHAL", 30, 30, .wo, 0⟩, ⟨"DROP", 29, 29, .wo, 0⟩, ⟨"LEVEL", 1, 0, .wo, 0⟩]⟩,
  ⟨"HP.IRQ_STATUS", 0x5008, 1, 0, 1, 0, [⟨"SRC", 6, 3, .w1c, 0⟩, ⟨"LIVE", 2, 0, .ro, 0⟩]⟩,
  ⟨"HP.IRQ_EN", 0x500C, 1, 0, 1, 0, [⟨"EN", 6, 0, .rw, 1⟩]⟩,
  ⟨"HP.CHAL", 0x5010, 4, 4, 1, 0, [⟨"BYTES", 31, 0, .ro, 0⟩]⟩,
  ⟨"HP.RESP", 0x5020, 4, 4, 1, 0, [⟨"BYTES", 31, 0, .wo, 0⟩]⟩,
  ⟨"HP.DESC0", 0x5400, 32, 16, 1, 0, [⟨"OWN", 31, 31, .rw, 0⟩, ⟨"KIND", 23, 16, .rw, 0⟩, ⟨"RESULT", 15, 8, .ro, 0⟩, ⟨"TAG", 7, 0, .rw, 0⟩]⟩,
  ⟨"HP.DESC1", 0x5404, 32, 16, 1, 0, [⟨"PAGES", 15, 8, .rw, 0⟩, ⟨"FIRST", 7, 0, .rw, 0⟩]⟩,
  ⟨"HP.DESC2", 0x5408, 32, 16, 1, 0, [⟨"ARG", 31, 0, .rw, 0⟩]⟩,
  ⟨"HP.DESC3", 0x540C, 32, 16, 1, 0, [⟨"LENGTH", 31, 0, .rw, 0⟩]⟩,
  ⟨"Q.CTL", 0x6000, 32, 32, 1, 0, [⟨"HOST", 1, 1, .rws, 0⟩, ⟨"FLUSH", 0, 0, .w1s, 0⟩]⟩,
  ⟨"Q.STATUS", 0x6004, 32, 32, 1, 0, [⟨"LIVE", 31, 31, .ro, 0⟩, ⟨"WM_STK", 30, 30, .w1c, 0⟩, ⟨"DROP_STK", 29, 29, .w1c, 0⟩, ⟨"POISON_STK", 28, 28, .w1c, 0⟩, ⟨"SPILLED", 27, 27, .ro, 0⟩, ⟨"W", 20, 16, .ro, 0⟩, ⟨"LEVEL", 11, 0, .ro, 0⟩]⟩,
  ⟨"Q.WM", 0x6008, 32, 32, 1, 0, [⟨"WM", 11, 0, .rws, 0⟩]⟩,
  ⟨"Q.WM_CAP", 0x600C, 32, 32, 1, 0, [⟨"MS", 25, 16, .ro, 0⟩, ⟨"LEVEL", 11, 0, .ro, 0⟩]⟩,
  ⟨"Q.WM_TIME", 0x6010, 32, 32, 1, 0, [⟨"OPSEC", 31, 0, .ro, 0⟩]⟩,
  ⟨"Q.COUNTS", 0x6014, 32, 32, 1, 0, [⟨"DROPS", 31, 16, .ro, 0⟩, ⟨"FLUSHES", 15, 8, .ro, 0⟩, ⟨"POISONED", 7, 0, .ro, 0⟩]⟩,
  ⟨"Q.SEL", 0x6400, 1, 0, 1, 0, [⟨"QUEUE", 4, 0, .rw, 0⟩]⟩,
  ⟨"Q.OP", 0x6404, 1, 0, 1, 0, [⟨"OP", 2, 0, .wo, 0⟩]⟩,
  ⟨"Q.RESULT", 0x6408, 1, 0, 1, 0, [⟨"CODE", 7, 0, .ro, 0⟩]⟩,
  ⟨"Q.POISON", 0x640C, 1, 0, 1, 0, [⟨"TAG", 15, 0, .ro, 0⟩]⟩,
  ⟨"Q.ITEM", 0x6440, 32, 4, 1, 0, [⟨"HALF", 31, 0, .rw, 0⟩]⟩]

/-- The register table, part 3. -/
def regTable3 : List RegDesc := [
  ⟨"ANX.ACTIVE", 0x7000, 1, 0, 1, 0, [⟨"SEG", 31, 0, .ro, 0⟩]⟩,
  ⟨"ANX.PARITY", 0x7004, 1, 0, 1, 0, [⟨"COUNT", 15, 0, .ro, 0⟩]⟩,
  ⟨"FLT.STATUS", 0x8000, 1, 0, 1, 0, [⟨"TOP", 31, 30, .ro, 0⟩, ⟨"ANY", 29, 29, .ro, 0⟩, ⟨"OPEN", 21, 16, .ro, 0⟩, ⟨"ERR_LOW", 15, 15, .ro, 0⟩, ⟨"LATCH", 14, 14, .ro, 0⟩, ⟨"FULL_STK", 13, 13, .w1c, 0⟩, ⟨"IRQ", 12, 12, .w1c, 0⟩]⟩,
  ⟨"FLT.CTL", 0x8004, 1, 0, 1, 0, [⟨"ERR_HOLD", 0, 0, .rw, 0⟩]⟩,
  ⟨"FLT.ACK", 0x8008, 1, 0, 1, 0, [⟨"ENTRY", 4, 0, .wo, 0⟩]⟩,
  ⟨"FLT.COUNTS", 0x800C, 1, 0, 1, 0, [⟨"MINOR", 31, 16, .ro, 0⟩, ⟨"MAJOR", 15, 8, .ro, 0⟩, ⟨"MERGES", 7, 0, .ro, 0⟩]⟩,
  ⟨"FLT.LAST", 0x8010, 1, 0, 1, 0, [⟨"CODE", 15, 0, .ro, 0⟩]⟩,
  ⟨"FLT.SEL", 0x8014, 1, 0, 1, 0, [⟨"ENTRY", 4, 0, .rw, 0⟩]⟩,
  ⟨"FLT.ENTRY", 0x8018, 1, 0, 1, 0, [⟨"VALID", 31, 31, .ro, 0⟩, ⟨"CAUSE", 30, 30, .ro, 0⟩, ⟨"INJECTED", 29, 29, .ro, 0⟩, ⟨"CLASS", 25, 24, .ro, 0⟩, ⟨"MERGED", 23, 16, .ro, 0⟩, ⟨"CODE", 15, 0, .ro, 0⟩]⟩,
  ⟨"FLT.ENTRY_RNO", 0x801C, 1, 0, 1, 0, [⟨"RNO", 31, 0, .ro, 0⟩]⟩,
  ⟨"FLT.INJECT", 0x8020, 1, 0, 1, 0, [⟨"GO", 31, 31, .wo, 0⟩, ⟨"CODE", 15, 0, .wo, 0⟩]⟩,
  ⟨"FLT.INJ_MEM", 0x8024, 1, 0, 1, 0, [⟨"ARM", 31, 31, .rw, 0⟩, ⟨"MEM", 30, 28, .rw, 0⟩, ⟨"BITS", 27, 26, .rw, 0⟩, ⟨"WORD", 25, 0, .rw, 0⟩]⟩,
  ⟨"EVR.STATUS", 0x9000, 1, 0, 1, 0, [⟨"QUEUED", 21, 12, .ro, 0⟩, ⟨"LOST_STK", 3, 3, .w1c, 0⟩, ⟨"DRAINING", 2, 2, .ro, 0⟩, ⟨"ACC_FULL", 1, 1, .ro, 0⟩, ⟨"RUN", 0, 0, .ro, 0⟩]⟩,
  ⟨"EVR.NEXT_RNO", 0x9004, 1, 0, 1, 0, [⟨"RNO", 31, 0, .ro, 0⟩]⟩,
  ⟨"EVR.CIRC_HEAD", 0x9008, 1, 0, 1, 0, [⟨"SLOT", 15, 0, .ro, 0⟩]⟩,
  ⟨"EVR.CIRC_CAP", 0x900C, 1, 0, 1, 0, [⟨"SLOTS", 16, 0, .ro, 0x10000⟩]⟩,
  ⟨"EVR.CTL", 0x9010, 1, 0, 1, 0, [⟨"FLUSH", 0, 0, .w1s, 0⟩]⟩,
  ⟨"EVR.LOST", 0x9014, 1, 0, 1, 0, [⟨"COUNT", 15, 0, .ro, 0⟩]⟩,
  ⟨"EVR.LEGAL_NEXT", 0x9018, 1, 0, 1, 0, [⟨"SLOT", 13, 0, .ro, 0⟩]⟩,
  ⟨"BIST.STATUS", 0xA000, 1, 0, 1, 0, [⟨"RUN", 31, 24, .ro, 0⟩, ⟨"FAIL", 23, 16, .ro, 0⟩, ⟨"TESTED", 15, 8, .ro, 0⟩, ⟨"SLICES", 1, 1, .ro, 0⟩, ⟨"SHUT_PASS", 0, 0, .ro, 0⟩]⟩]

/-- The register table, part 4. -/
def regTable4 : List RegDesc := [
  ⟨"BIST.SLICE", 0xA004, 1, 0, 1, 0, [⟨"PASSES", 31, 16, .ro, 0⟩, ⟨"POS", 10, 0, .ro, 0⟩]⟩,
  ⟨"BIST.REPAIR", 0xA008, 1, 0, 1, 0, [⟨"SOFT", 31, 16, .ro, 0⟩, ⟨"EXHAUSTED", 15, 8, .ro, 0⟩]⟩,
  ⟨"BIST.RET_SEL", 0xA00C, 1, 0, 1, 0, [⟨"INDEX", 7, 0, .rw, 0⟩]⟩,
  ⟨"BIST.RET_ENTRY", 0xA010, 1, 0, 1, 0, [⟨"VALID", 31, 31, .ro, 0⟩, ⟨"KIND", 30, 28, .ro, 0⟩, ⟨"GOOD", 27, 26, .ro, 0⟩, ⟨"UNIT", 10, 0, .ro, 0⟩]⟩,
  ⟨"PMC.CTL", 0xB000, 1, 0, 1, 0, [⟨"EN", 31, 31, .rw, 0⟩, ⟨"OPERATOR", 30, 30, .rws, 0⟩]⟩,
  ⟨"PMC.TICK", 0xB004, 1, 0, 1, 0, [⟨"TICK", 31, 0, .ro, 0⟩]⟩,
  ⟨"PMC.OVF_LO", 0xB008, 1, 0, 1, 0, [⟨"OVF", 31, 0, .w1c, 0⟩]⟩,
  ⟨"PMC.OVF_HI", 0xB00C, 1, 0, 1, 0, [⟨"OVF", 31, 0, .w1c, 0⟩]⟩,
  ⟨"PMC.SAMPLES", 0xB010, 1, 0, 1, 0, [⟨"POSTED", 31, 16, .ro, 0⟩, ⟨"DROPPED", 15, 0, .ro, 0⟩]⟩,
  ⟨"PMC.CFG", 0xB100, 48, 16, 1, 0, [⟨"EN", 31, 31, .rw, 0⟩, ⟨"LEVEL", 30, 30, .rw, 0⟩, ⟨"SAMPLE", 29, 29, .rw, 0⟩, ⟨"CLR", 28, 28, .w1s, 0⟩, ⟨"CORE", 27, 26, .rw, 0⟩, ⟨"EVT", 7, 0, .rw, 0⟩]⟩,
  ⟨"PMC.CNT_LO", 0xB104, 48, 16, 1, 0, [⟨"COUNT", 31, 0, .ro, 0⟩]⟩,
  ⟨"PMC.CNT_HI", 0xB108, 48, 16, 1, 0, [⟨"COUNT", 15, 0, .ro, 0⟩]⟩,
  ⟨"PMC.PERIOD", 0xB10C, 48, 16, 1, 0, [⟨"PERIOD", 31, 0, .rw, 0⟩]⟩,
  ⟨"KEY.STATUS", 0xC000, 1, 0, 1, 0, [⟨"LC_PEND", 31, 28, .ro, 0xf⟩, ⟨"LC", 27, 24, .ro, 0⟩, ⟨"USED", 15, 8, .ro, 0⟩, ⟨"BUSY", 2, 2, .ro, 0⟩, ⟨"DRBG_OK", 1, 1, .ro, 0⟩, ⟨"ENTROPY_OK", 0, 0, .ro, 0⟩]⟩,
  ⟨"KEY.LC_REQ", 0xC004, 1, 0, 1, 0, [⟨"CANCEL", 8, 8, .wo, 0⟩, ⟨"TARGET", 3, 0, .wo, 0⟩]⟩,
  ⟨"KEY.CMD", 0xC008, 1, 0, 1, 0, [⟨"SLOT", 29, 24, .wo, 0⟩, ⟨"AUX", 21, 16, .wo, 0⟩, ⟨"CMD", 7, 0, .wo, 0⟩]⟩,
  ⟨"KEY.RESULT", 0xC00C, 1, 0, 1, 0, [⟨"CMD", 15, 8, .ro, 0⟩, ⟨"CODE", 7, 0, .ro, 0⟩]⟩,
  ⟨"KEY.ATTR_ARG", 0xC010, 1, 0, 1, 0, [⟨"PERSIST", 31, 31, .rw, 0⟩, ⟨"KIND", 30, 28, .rw, 0⟩, ⟨"ATTR", 27, 17, .rw, 0⟩, ⟨"CTX_LEN", 16, 11, .rw, 0⟩, ⟨"LBL_LEN", 10, 6, .rw, 0⟩]⟩,
  ⟨"KEY.ATTR_ID", 0xC014, 1, 0, 1, 0, [⟨"KEY_ID", 31, 0, .rw, 0⟩]⟩,
  ⟨"KEY.SLOT_SEL", 0xC018, 1, 0, 1, 0, [⟨"SLOT", 5, 0, .rw, 0⟩]⟩]

/-- The register table, part 5. -/
def regTable5 : List RegDesc := [
  ⟨"KEY.SLOT_INFO", 0xC01C, 1, 0, 1, 0, [⟨"PERSIST", 31, 31, .ro, 0⟩, ⟨"KIND", 30, 28, .ro, 0⟩, ⟨"ATTR", 27, 17, .ro, 0⟩, ⟨"COPY", 16, 16, .ro, 0⟩, ⟨"GEN", 15, 0, .ro, 0⟩]⟩,
  ⟨"KEY.SLOT_KCV", 0xC020, 1, 0, 1, 0, [⟨"KCV", 31, 0, .ro, 0⟩]⟩,
  ⟨"KEY.ARG", 0xC040, 64, 4, 1, 0, [⟨"BYTES", 31, 0, .rw, 0⟩]⟩,
  ⟨"UPD.STATUS", 0xD000, 1, 0, 1, 0, [⟨"POLICY", 11, 10, .ro, 0⟩, ⟨"TRIAL", 9, 9, .ro, 0⟩, ⟨"BANK", 8, 8, .ro, 0⟩, ⟨"STATE", 2, 0, .ro, 0⟩]⟩,
  ⟨"UPD.CMD", 0xD004, 1, 0, 1, 0, [⟨"CMD", 2, 0, .wo, 0⟩]⟩,
  ⟨"UPD.RESULT", 0xD008, 1, 0, 1, 0, [⟨"CHECK", 7, 0, .ro, 0⟩]⟩,
  ⟨"UPD.STAGE_ADDR", 0xD00C, 1, 0, 1, 0, [⟨"ADDR", 31, 0, .rw, 0x800000⟩]⟩,
  ⟨"UPD.SEQ", 0xD010, 1, 0, 1, 0, [⟨"SEQ", 31, 0, .ro, 0⟩]⟩,
  ⟨"UPD.SVN", 0xD014, 1, 0, 1, 0, [⟨"MIN_SVN", 31, 0, .ro, 0⟩]⟩,
  ⟨"UPD.ACT_LO", 0xD018, 1, 0, 1, 0, [⟨"NS", 31, 0, .ro, 0⟩]⟩,
  ⟨"UPD.ACT_HI", 0xD01C, 1, 0, 1, 0, [⟨"NS", 31, 0, .ro, 0⟩]⟩,
  ⟨"UPD.HASH", 0xD020, 12, 4, 1, 0, [⟨"BYTES", 31, 0, .ro, 0⟩]⟩,
  ⟨"UPD.PROGRESS", 0xD050, 1, 0, 1, 0, [⟨"PART", 31, 24, .ro, 0⟩, ⟨"KIB", 23, 0, .ro, 0⟩]⟩,
  ⟨"RTC.STATUS", 0xE000, 1, 0, 1, 0, [⟨"SLEWING", 7, 7, .ro, 0⟩, ⟨"FREE", 6, 6, .ro, 0⟩, ⟨"STEP_STK", 5, 5, .w1c, 0⟩, ⟨"LAST_SRC", 3, 2, .ro, 0⟩, ⟨"SYNCED", 1, 1, .ro, 0⟩, ⟨"VALID", 0, 0, .ro, 0⟩]⟩,
  ⟨"RTC.TICK", 0xE004, 1, 0, 1, 0, [⟨"SECONDS", 31, 0, .ro, 0⟩]⟩,
  ⟨"RTC.NOW_SEC", 0xE008, 1, 0, 1, 0, [⟨"SEC", 31, 0, .ro, 0⟩]⟩,
  ⟨"RTC.NOW_FRAC", 0xE00C, 1, 0, 1, 0, [⟨"FRAC", 14, 0, .ro, 0⟩]⟩,
  ⟨"RTC.LEAP", 0xE010, 1, 0, 1, 0, [⟨"TAI_UTC", 7, 0, .rw, 0x25⟩]⟩,
  ⟨"RTC.CFG", 0xE014, 1, 0, 1, 0, [⟨"LIMIT", 29, 24, .rws, 5⟩, ⟨"SRC_EN", 18, 16, .rws, 7⟩]⟩,
  ⟨"RTC.SET_SEC", 0xE018, 1, 0, 1, 0, [⟨"SEC", 31, 0, .rw, 0⟩]⟩]

/-- The register table, part 6. -/
def regTable6 : List RegDesc := [
  ⟨"RTC.SET_CTL", 0xE01C, 1, 0, 1, 0, [⟨"GO", 31, 31, .wo, 0⟩, ⟨"FRAC", 14, 0, .rw, 0⟩]⟩,
  ⟨"RTC.ADJ", 0xE020, 1, 0, 1, 0, [⟨"SRC", 31, 30, .ro, 0⟩, ⟨"KIND", 29, 28, .ro, 0⟩, ⟨"DELTA_MS", 27, 0, .ro, 0⟩]⟩,
  ⟨"RTC.SLEW", 0xE024, 1, 0, 1, 0, [⟨"QUANTA", 31, 24, .ro, 0⟩, ⟨"REMAIN_MS", 23, 0, .ro, 0⟩]⟩,
  ⟨"RTC.HWM_SEC", 0xE028, 1, 0, 1, 0, [⟨"SEC", 31, 0, .ro, 0⟩]⟩,
  ⟨"RTC.COUNTS", 0xE02C, 1, 0, 1, 0, [⟨"STEPS", 31, 24, .ro, 0⟩, ⟨"REFUSED", 23, 16, .ro, 0⟩, ⟨"SLEWS", 15, 0, .ro, 0⟩]⟩,
  ⟨"MET.STATUS", 0x10000, 1, 0, 1, 0, [⟨"VERIFY", 3, 3, .ro, 0⟩, ⟨"UNCAL", 2, 2, .ro, 0⟩, ⟨"MAP_DIFF", 1, 1, .ro, 0⟩, ⟨"RUN", 0, 0, .ro, 0⟩]⟩,
  ⟨"MET.SEAL", 0x10004, 1, 0, 1, 0, [⟨"OPENS", 31, 16, .ro, 0⟩, ⟨"INVALID", 1, 1, .ro, 0⟩, ⟨"OPEN", 0, 0, .ro, 0⟩]⟩,
  ⟨"MET.MB_CAPT", 0x10008, 1, 0, 1, 0, [⟨"CAPT", 3, 0, .rwl, 0⟩]⟩,
  ⟨"MET.SRC", 0x1000C, 1, 0, 1, 0, [⟨"REF", 16, 0, .ro, 0⟩]⟩,
  ⟨"MET.TEST", 0x10010, 1, 0, 1, 0, [⟨"START", 0, 0, .wo, 0⟩]⟩,
  ⟨"MET.TEST_STAT", 0x10014, 1, 0, 1, 0, [⟨"RUNNING", 31, 31, .ro, 0⟩, ⟨"NO_VERDICT", 30, 30, .ro, 0⟩, ⟨"FAIL", 16, 0, .ro, 0⟩]⟩,
  ⟨"MET.XLIM", 0x10018, 1, 0, 1, 0, [⟨"XREL", 31, 24, .rwl, 0⟩, ⟨"XABS", 23, 16, .rwl, 0⟩, ⟨"FIELD_LIM", 11, 0, .rwl, 0⟩]⟩,
  ⟨"MET.MAP.CFG", 0x10100, 17, 16, 1, 0, [⟨"RATED_I", 31, 16, .rwl, 0⟩, ⟨"NOM_V", 13, 2, .rwl, 0⟩, ⟨"TYPE", 1, 0, .rwl, 0⟩]⟩,
  ⟨"MET.MAP.V", 0x10104, 17, 16, 1, 0, [⟨"VALID3", 31, 31, .rwl, 0⟩, ⟨"CH3", 30, 24, .rwl, 0⟩, ⟨"VALID2", 23, 23, .rwl, 0⟩, ⟨"CH2", 22, 16, .rwl, 0⟩, ⟨"VALID1", 15, 15, .rwl, 0⟩, ⟨"CH1", 14, 8, .rwl, 0⟩, ⟨"VALID0", 7, 7, .rwl, 0⟩, ⟨"CH0", 6, 0, .rwl, 0⟩]⟩,
  ⟨"MET.MAP.I", 0x10108, 17, 16, 1, 0, [⟨"VALID3", 31, 31, .rwl, 0⟩, ⟨"CH3", 30, 24, .rwl, 0⟩, ⟨"VALID2", 23, 23, .rwl, 0⟩, ⟨"CH2", 22, 16, .rwl, 0⟩, ⟨"VALID1", 15, 15, .rwl, 0⟩, ⟨"CH1", 14, 8, .rwl, 0⟩, ⟨"VALID0", 7, 7, .rwl, 0⟩, ⟨"CH0", 6, 0, .rwl, 0⟩]⟩,
  ⟨"MET.MAP.R", 0x1010C, 17, 16, 1, 0, [⟨"VALID3", 31, 31, .rwl, 0⟩, ⟨"CH3", 30, 24, .rwl, 0⟩, ⟨"VALID2", 23, 23, .rwl, 0⟩, ⟨"CH2", 22, 16, .rwl, 0⟩, ⟨"VALID1", 15, 15, .rwl, 0⟩, ⟨"CH1", 14, 8, .rwl, 0⟩, ⟨"VALID0", 7, 7, .rwl, 0⟩, ⟨"CH0", 6, 0, .rwl, 0⟩]⟩,
  ⟨"MET.FNOM", 0x10400, 1, 0, 1, 0, [⟨"HZ", 7, 0, .ro, 0⟩]⟩,
  ⟨"MET.PQ_EN", 0x10404, 1, 0, 1, 0, [⟨"EN", 16, 0, .rws, 0x10000⟩]⟩,
  ⟨"MET.PQ_V", 0x10408, 1, 0, 1, 0, [⟨"DIP", 31, 24, .rws, 0x5a⟩, ⟨"SWELL", 23, 16, .rws, 0x6e⟩, ⟨"INTR", 15, 8, .rws, 5⟩, ⟨"HYS", 7, 0, .rws, 0x14⟩]⟩,
  ⟨"MET.PQ_L", 0x1040C, 1, 0, 1, 0, [⟨"FDEV", 31, 24, .rws, 0x32⟩, ⟨"UNB", 23, 16, .rws, 0x14⟩, ⟨"THD", 15, 8, .rws, 0x50⟩]⟩]

/-- The register table, part 7. -/
def regTable7 : List RegDesc := [
  ⟨"MET.PQ_STAT", 0x10410, 1, 0, 1, 0, [⟨"INTR", 31, 24, .ro, 0⟩, ⟨"SWELL", 23, 16, .ro, 0⟩, ⟨"DIP", 15, 8, .ro, 0⟩, ⟨"SLOW", 7, 0, .ro, 0⟩]⟩,
  ⟨"MET.HSEL", 0x10414, 1, 0, 1, 0, [⟨"VALID", 31, 31, .ro, 0⟩, ⟨"CUR", 9, 9, .rw, 0⟩, ⟨"PHASE", 8, 7, .rw, 0⟩, ⟨"METER", 4, 0, .rw, 0⟩]⟩,
  ⟨"MET.MQ.STATUS", 0x10480, 17, 128, 1, 0, [⟨"NOSRC", 24, 24, .ro, 0⟩, ⟨"REF", 23, 23, .ro, 0⟩, ⟨"PQ", 22, 22, .ro, 0⟩, ⟨"SEQ_STK", 21, 21, .w1c, 0⟩, ⟨"NEUT_STK", 20, 20, .w1c, 0⟩, ⟨"NEUTRAL", 19, 19, .ro, 0⟩, ⟨"SEQ", 18, 17, .ro, 0⟩, ⟨"QUAD_F", 16, 14, .ro, 0⟩, ⟨"QUAD_T", 13, 11, .ro, 0⟩, ⟨"DIR_F", 10, 9, .ro, 0⟩, ⟨"DIR_T", 8, 7, .ro, 0⟩, ⟨"PEXP", 6, 4, .ro, 0⟩, ⟨"NOLOAD", 2, 0, .ro, 0⟩]⟩,
  ⟨"MET.MQ.FREQ", 0x10484, 17, 128, 1, 0, [⟨"LOCKED", 31, 31, .ro, 0⟩, ⟨"HOLD", 30, 30, .ro, 0⟩, ⟨"MHZ", 16, 0, .ro, 0⟩]⟩,
  ⟨"MET.MQ.V", 0x10488, 17, 128, 3, 4, [⟨"VALUE", 31, 0, .ro, 0⟩]⟩,
  ⟨"MET.MQ.I", 0x10494, 17, 128, 3, 4, [⟨"VALUE", 31, 0, .ro, 0⟩]⟩,
  ⟨"MET.MQ.IN_MEAS", 0x104A0, 17, 128, 1, 0, [⟨"VALUE", 31, 0, .ro, 0⟩]⟩,
  ⟨"MET.MQ.IN_CALC", 0x104A4, 17, 128, 1, 0, [⟨"VALUE", 31, 0, .ro, 0⟩]⟩,
  ⟨"MET.MQ.P", 0x104A8, 17, 128, 3, 4, [⟨"VALUE", 31, 0, .ro, 0⟩]⟩,
  ⟨"MET.MQ.P1", 0x104B4, 17, 128, 3, 4, [⟨"VALUE", 31, 0, .ro, 0⟩]⟩,
  ⟨"MET.MQ.Q1", 0x104C0, 17, 128, 3, 4, [⟨"VALUE", 31, 0, .ro, 0⟩]⟩,
  ⟨"MET.MQ.PSUM", 0x104CC, 17, 128, 1, 0, [⟨"VALUE", 31, 0, .ro, 0⟩]⟩,
  ⟨"MET.MQ.P1SUM", 0x104D0, 17, 128, 1, 0, [⟨"VALUE", 31, 0, .ro, 0⟩]⟩,
  ⟨"MET.MQ.QSUM", 0x104D4, 17, 128, 1, 0, [⟨"VALUE", 31, 0, .ro, 0⟩]⟩,
  ⟨"MET.MQ.Q1SUM", 0x104D8, 17, 128, 1, 0, [⟨"VALUE", 31, 0, .ro, 0⟩]⟩,
  ⟨"MET.MQ.SSUM", 0x104DC, 17, 128, 1, 0, [⟨"VALUE", 31, 0, .ro, 0⟩]⟩,
  ⟨"MET.MQ.S1SUM", 0x104E0, 17, 128, 1, 0, [⟨"VALUE", 31, 0, .ro, 0⟩]⟩,
  ⟨"MET.MQ.ANG", 0x104E4, 17, 128, 3, 4, [⟨"VANG", 31, 16, .ro, 0⟩, ⟨"PHI", 15, 0, .ro, 0⟩]⟩,
  ⟨"MET.MQ.THD_V", 0x104F0, 17, 128, 1, 0, [⟨"PH2", 29, 20, .ro, 0⟩, ⟨"PH1", 19, 10, .ro, 0⟩, ⟨"PH0", 9, 0, .ro, 0⟩]⟩,
  ⟨"MET.MQ.THD_I", 0x104F4, 17, 128, 1, 0, [⟨"PH2", 29, 20, .ro, 0⟩, ⟨"PH1", 19, 10, .ro, 0⟩, ⟨"PH0", 9, 0, .ro, 0⟩]⟩]

/-- The register table, part 8. -/
def regTable8 : List RegDesc := [
  ⟨"MET.MQ.V0", 0x104F8, 17, 128, 1, 0, [⟨"VALUE", 31, 0, .ro, 0⟩]⟩,
  ⟨"MET.MQ.STAMP", 0x104FC, 17, 128, 1, 0, [⟨"SEC", 31, 4, .ro, 0⟩, ⟨"K", 3, 0, .ro, 0⟩]⟩,
  ⟨"MET.HARM0", 0x10D00, 1, 0, 1, 0, [⟨"RMS1", 31, 0, .ro, 0⟩]⟩,
  ⟨"MET.HARM", 0x10D04, 50, 4, 1, 0, [⟨"ANGLE", 31, 16, .ro, 0⟩, ⟨"MAG", 15, 0, .ro, 0⟩]⟩,
  ⟨"MCH.CFG", 0x11000, 128, 64, 1, 0, [⟨"ENABLE", 31, 31, .rwl, 0⟩, ⟨"SRC", 30, 28, .rwl, 0⟩, ⟨"SRC_IDX", 23, 16, .rwl, 0⟩, ⟨"COND", 15, 14, .rwl, 0⟩, ⟨"QTY", 13, 12, .rwl, 0⟩, ⟨"SENSOR", 11, 10, .rwl, 0⟩, ⟨"HPF", 9, 9, .rwl, 0⟩]⟩,
  ⟨"MCH.FULLSCALE", 0x11004, 128, 64, 1, 0, [⟨"FS", 31, 0, .rwl, 0⟩]⟩,
  ⟨"MCH.GAIN", 0x11008, 128, 64, 1, 0, [⟨"GAIN", 31, 0, .rwl, 0⟩]⟩,
  ⟨"MCH.OFFSET", 0x1100C, 128, 64, 1, 0, [⟨"OFFSET", 23, 0, .rwl, 0⟩]⟩,
  ⟨"MCH.PHASE", 0x11010, 128, 64, 1, 0, [⟨"TRIM", 15, 0, .rwl, 0⟩]⟩,
  ⟨"MCH.STATUS", 0x11014, 128, 64, 1, 0, [⟨"STALE", 4, 4, .ro, 0⟩, ⟨"OVR", 3, 3, .w1c, 0⟩, ⟨"LOST", 2, 2, .ro, 0⟩, ⟨"ACTIVE", 1, 1, .ro, 0⟩, ⟨"PENDING", 0, 0, .ro, 0⟩]⟩,
  ⟨"MCH.LEVEL", 0x11018, 128, 64, 1, 0, [⟨"RMS", 31, 0, .ro, 0⟩]⟩,
  ⟨"MCH.PEAK", 0x1101C, 128, 64, 1, 0, [⟨"PEAK", 31, 0, .ro, 0⟩]⟩,
  ⟨"MCH.ERRCNT", 0x11020, 128, 64, 1, 0, [⟨"HOLDS", 31, 16, .ro, 0⟩, ⟨"OVRS", 15, 0, .ro, 0⟩]⟩,
  ⟨"SLK.STATUS", 0x13000, 16, 64, 1, 0, [⟨"BOUND_OK", 6, 6, .ro, 0⟩, ⟨"FIELD", 5, 5, .ro, 0⟩, ⟨"FIELD_STK", 4, 4, .w1c, 0⟩, ⟨"ELEM_STK", 3, 3, .w1c, 0⟩, ⟨"LOST", 2, 2, .ro, 0⟩, ⟨"LINK_UP", 1, 1, .ro, 0⟩]⟩,
  ⟨"SLK.ELEM_FAIL", 0x13004, 16, 64, 1, 0, [⟨"ELEM", 31, 0, .ro, 0⟩]⟩,
  ⟨"SLK.FIELD", 0x13008, 16, 64, 1, 0, [⟨"UT", 15, 0, .ro, 0⟩]⟩,
  ⟨"SLK.TEMP", 0x1300C, 16, 64, 1, 0, [⟨"TEMP", 15, 0, .ro, 0⟩]⟩,
  ⟨"SLK.CRC_ERR", 0x13010, 16, 64, 1, 0, [⟨"COUNT", 31, 0, .ro, 0⟩]⟩,
  ⟨"SLK.BIND_SER_LO", 0x13014, 16, 64, 1, 0, [⟨"VALUE", 31, 0, .ro, 0⟩]⟩,
  ⟨"SLK.BIND_SER_HI", 0x13018, 16, 64, 1, 0, [⟨"VALUE", 31, 0, .ro, 0⟩]⟩]

/-- The register table, part 9. -/
def regTable9 : List RegDesc := [
  ⟨"SLK.BIND_CRC", 0x1301C, 16, 64, 1, 0, [⟨"VALUE", 31, 0, .ro, 0⟩]⟩,
  ⟨"TMP.STATUS", 0x14000, 1, 0, 1, 0, [⟨"LOOP_STK", 16, 16, .w1c, 0⟩, ⟨"SENSOR_STK", 15, 15, .w1c, 0⟩, ⟨"SEAL_STK", 14, 14, .w1c, 0⟩, ⟨"BYPASS_STK", 13, 13, .w1c, 0⟩, ⟨"MAGNET_STK", 12, 12, .w1c, 0⟩, ⟨"OPEN_STK", 11, 8, .w1c, 0⟩, ⟨"VBAT_LOST", 5, 5, .ro, 0⟩, ⟨"MAGNET", 4, 4, .ro, 0⟩, ⟨"OPEN", 3, 0, .ro, 0⟩]⟩,
  ⟨"TMP.CFG", 0x14004, 1, 0, 1, 0, [⟨"ACT_BYPASS", 31, 30, .rw, 0⟩, ⟨"ACT_SEAL", 29, 28, .rw, 0⟩, ⟨"ACT_MAGNET", 27, 26, .rw, 0⟩, ⟨"ACT_COVER", 25, 24, .rw, 0⟩, ⟨"BATT_PERIOD", 23, 16, .rw, 5⟩, ⟨"DYN", 15, 12, .rw, 0⟩, ⟨"EN", 11, 8, .rw, 3⟩, ⟨"BYP_I", 7, 0, .rw, 0xa⟩]⟩,
  ⟨"TMP.LATCH", 0x14008, 1, 0, 1, 0, [⟨"LOST", 31, 16, .ro, 0⟩, ⟨"COUNT", 4, 0, .ro, 0⟩]⟩,
  ⟨"TMP.BATT_EST_LO", 0x1400C, 1, 0, 1, 0, [⟨"VALUE", 31, 0, .ro, 0⟩]⟩,
  ⟨"TMP.BATT_EST_HI", 0x14010, 1, 0, 1, 0, [⟨"VALUE", 31, 0, .ro, 0⟩]⟩,
  ⟨"TMP.BATT_SPAN", 0x14014, 1, 0, 1, 0, [⟨"SECONDS", 31, 0, .ro, 0⟩]⟩,
  ⟨"TMP.LOSS", 0x14018, 1, 0, 1, 0, [⟨"DIR", 31, 30, .ro, 0⟩, ⟨"BOUND", 29, 0, .ro, 0⟩]⟩,
  ⟨"TMP.QSERIAL", 0x1401C, 1, 0, 1, 0, [⟨"LOW", 31, 0, .ro, 0⟩]⟩,
  ⟨"BIL.STATUS", 0x15000, 1, 0, 1, 0, [⟨"RATE_E", 11, 8, .ro, 0⟩, ⟨"RATE_I", 7, 4, .ro, 0⟩, ⟨"DEFAULT", 3, 3, .ro, 0⟩, ⟨"SEL_ERR", 1, 1, .ro, 0⟩, ⟨"NO_CAL", 0, 0, .ro, 0⟩]⟩,
  ⟨"BIL.SEL", 0x15004, 1, 0, 1, 0, [⟨"HIST", 31, 27, .rw, 0⟩, ⟨"METER", 26, 22, .rw, 0⟩, ⟨"QTY", 21, 16, .rw, 0⟩, ⟨"RATE", 4, 0, .rw, 0⟩]⟩,
  ⟨"BIL.VAL_LO", 0x15008, 1, 0, 1, 0, [⟨"VALUE", 31, 0, .ro, 0⟩]⟩,
  ⟨"BIL.VAL_HI", 0x1500C, 1, 0, 1, 0, [⟨"VALUE", 31, 0, .ro, 0⟩]⟩,
  ⟨"BIL.VAL_STAMP", 0x15010, 1, 0, 1, 0, [⟨"STAMP", 31, 0, .ro, 0⟩]⟩,
  ⟨"BIL.PERIOD", 0x15014, 1, 0, 1, 0, [⟨"NUMBER", 31, 0, .ro, 0⟩]⟩,
  ⟨"BIL.PERIOD_START", 0x15018, 1, 0, 1, 0, [⟨"SEC", 31, 0, .ro, 0⟩]⟩,
  ⟨"BIL.CLOSE", 0x1501C, 1, 0, 1, 0, [⟨"GO", 0, 0, .wo, 0⟩]⟩,
  ⟨"BIL.INTERVAL", 0x15020, 1, 0, 1, 0, [⟨"ELAPSED_Q", 31, 16, .ro, 0⟩, ⟨"FLAGS", 15, 8, .ro, 0⟩, ⟨"LEN_MIN", 7, 0, .ro, 0⟩]⟩,
  ⟨"BIL.INT_END", 0x15024, 1, 0, 1, 0, [⟨"SEC", 31, 0, .ro, 0⟩]⟩,
  ⟨"BIL.PROFILE", 0x15028, 1, 0, 1, 0, [⟨"HEAD", 31, 16, .ro, 0⟩, ⟨"COUNT", 15, 0, .ro, 0⟩]⟩]

/-- The register table, part 10. -/
def regTable10 : List RegDesc := [
  ⟨"BIL.CATCHUP", 0x1502C, 1, 0, 1, 0, [⟨"MISSED", 31, 16, .ro, 0⟩, ⟨"SWITCHES", 15, 8, .ro, 0⟩, ⟨"CLOSES", 7, 4, .ro, 0⟩, ⟨"ACTIVATED", 3, 3, .ro, 0⟩]⟩,
  ⟨"TAR.STATUS", 0x16000, 1, 0, 1, 0, [⟨"ACTIVE_ID", 31, 16, .ro, 0⟩, ⟨"ARM_RESULT", 15, 8, .ro, 0⟩, ⟨"ARMED", 1, 1, .ro, 0⟩, ⟨"ACTIVE", 0, 0, .ro, 0⟩]⟩,
  ⟨"TAR.ACT_SEC", 0x16004, 1, 0, 1, 0, [⟨"SEC", 31, 0, .rw, 0⟩]⟩,
  ⟨"TAR.ACT_CTL", 0x16008, 1, 0, 1, 0, [⟨"DISARM", 1, 1, .wo, 0⟩, ⟨"ARM", 0, 0, .wo, 0⟩]⟩,
  ⟨"TAR.ARMED_ID", 0x1600C, 1, 0, 1, 0, [⟨"CAL_ID", 15, 0, .ro, 0⟩]⟩,
  ⟨"TAR.ACTIVATED", 0x16010, 1, 0, 1, 0, [⟨"SEC", 31, 0, .ro, 0⟩]⟩,
  ⟨"CRD.STATUS", 0x18000, 1, 0, 1, 0, [⟨"LOW_STK", 10, 10, .w1c, 0⟩, ⟨"STOP_STK", 9, 9, .w1c, 0⟩, ⟨"FALLBACK", 8, 8, .ro, 0⟩, ⟨"EMERG", 7, 6, .ro, 0⟩, ⟨"FRIENDLY", 5, 5, .ro, 0⟩, ⟨"DEBT", 4, 4, .ro, 0⟩, ⟨"LOW", 3, 3, .ro, 0⟩, ⟨"STOPPED", 2, 2, .ro, 0⟩, ⟨"RUN", 0, 0, .ro, 0⟩]⟩,
  ⟨"CRD.SITE_LO", 0x18004, 1, 0, 1, 0, [⟨"VALUE", 31, 0, .ro, 0⟩]⟩,
  ⟨"CRD.SITE_HI", 0x18008, 1, 0, 1, 0, [⟨"VALUE", 31, 0, .ro, 0⟩]⟩,
  ⟨"CRD.OWED_LO", 0x1800C, 1, 0, 1, 0, [⟨"VALUE", 31, 0, .ro, 0⟩]⟩,
  ⟨"CRD.OWED_HI", 0x18010, 1, 0, 1, 0, [⟨"VALUE", 31, 0, .ro, 0⟩]⟩,
  ⟨"CRD.CTL", 0x18014, 1, 0, 1, 0, [⟨"EMERG", 0, 0, .wo, 0⟩]⟩,
  ⟨"CRD.LAST_CHG", 0x18018, 1, 0, 1, 0, [⟨"CHG", 31, 0, .ro, 0⟩]⟩,
  ⟨"CRD.COUNTS", 0x1801C, 1, 0, 1, 0, [⟨"STOPS", 31, 16, .ro, 0⟩, ⟨"GRANTS", 15, 8, .ro, 0⟩, ⟨"REFUSED", 7, 0, .ro, 0⟩]⟩,
  ⟨"VCH.STATUS", 0x19000, 1, 0, 1, 0, [⟨"LOCK_S", 31, 16, .ro, 0⟩, ⟨"LOCKOUT", 12, 12, .ro, 0⟩, ⟨"FAILS", 11, 8, .ro, 0⟩, ⟨"LEVEL", 4, 0, .ro, 0⟩]⟩,
  ⟨"VCH.SUBMIT", 0x19004, 1, 0, 1, 0, [⟨"GO", 31, 31, .wo, 0⟩, ⟨"FORM", 30, 30, .wo, 0⟩, ⟨"CARREL", 23, 16, .wo, 0⟩, ⟨"TAG", 7, 0, .wo, 0⟩]⟩,
  ⟨"VCH.RESULT", 0x19008, 1, 0, 1, 0, [⟨"TAG", 31, 24, .ro, 0⟩, ⟨"CODE", 23, 16, .ro, 0⟩]⟩,
  ⟨"VCH.DIGITS", 0x1900C, 3, 4, 1, 0, [⟨"BCD", 31, 0, .rw, 0⟩]⟩,
  ⟨"VCH.ISSUER_SEL", 0x19018, 1, 0, 1, 0, [⟨"INDEX", 2, 0, .rw, 0⟩]⟩,
  ⟨"VCH.ISSUER_HWM", 0x1901C, 1, 0, 1, 0, [⟨"H", 31, 0, .ro, 0⟩]⟩]

/-- The register table, part 11. -/
def regTable11 : List RegDesc := [
  ⟨"VCH.IN", 0x19020, 24, 4, 1, 0, [⟨"BYTES", 31, 0, .rw, 0⟩]⟩,
  ⟨"VCH.COUNTS", 0x19080, 1, 0, 1, 0, [⟨"APPLIED", 31, 16, .ro, 0⟩, ⟨"REFUSED", 15, 0, .ro, 0⟩]⟩,
  ⟨"OUT.STATUS", 0x20000, 16, 4096, 1, 0, [⟨"CARREL", 31, 24, .ro, 0⟩, ⟨"BOUND", 23, 23, .ro, 0⟩, ⟨"LOCKED", 22, 22, .ro, 0⟩, ⟨"STOP", 16, 12, .ro, 0⟩, ⟨"PILOT", 11, 8, .ro, 0⟩, ⟨"STATE", 3, 0, .ro, 0⟩]⟩,
  ⟨"OUT.CTL", 0x20004, 16, 4096, 1, 0, [⟨"CARREL", 31, 24, .wo, 0⟩, ⟨"CMD", 7, 0, .wo, 0⟩]⟩,
  ⟨"OUT.RESULT", 0x20008, 16, 4096, 1, 0, [⟨"CARREL", 31, 24, .ro, 0⟩, ⟨"CMD", 15, 8, .ro, 0⟩, ⟨"CODE", 7, 0, .ro, 0⟩]⟩,
  ⟨"OUT.PEND", 0x2000C, 16, 4096, 1, 0, [⟨"CARREL", 31, 24, .ro, 0⟩, ⟨"PEND", 16, 16, .ro, 0⟩, ⟨"DISC_CLR", 8, 8, .w1s, 0⟩, ⟨"DISCARDS", 7, 0, .ro, 0⟩]⟩,
  ⟨"OUT.CFG", 0x20040, 16, 4096, 1, 0, [⟨"KIND", 31, 29, .rws, 0⟩, ⟨"FLAGS", 28, 25, .rws, 0⟩, ⟨"DROP_T", 23, 16, .rws, 0⟩, ⟨"CLOSE_T", 15, 8, .rws, 0⟩, ⟨"SP_PERIOD", 7, 0, .rws, 0⟩]⟩,
  ⟨"OUT.HS_MAP", 0x20044, 16, 4096, 1, 0, [⟨"COIL0", 31, 24, .rws, 0xff⟩, ⟨"COIL1", 23, 16, .rws, 0xff⟩, ⟨"LOCK", 15, 8, .rws, 0xff⟩, ⟨"TRIP", 7, 0, .rws, 0xff⟩]⟩,
  ⟨"OUT.HS_MAP2", 0x20048, 16, 4096, 1, 0, [⟨"COOL", 31, 24, .rws, 0xff⟩, ⟨"MOVE_DN", 23, 16, .rws, 0xff⟩, ⟨"MOVE_UP", 15, 8, .rws, 0xff⟩, ⟨"ACD_SAF", 7, 0, .rws, 0xff⟩]⟩,
  ⟨"OUT.LIMIT", 0x2004C, 16, 4096, 1, 0, [⟨"I_MAX", 31, 16, .rw, 0⟩, ⟨"I_CAP", 15, 0, .ro, 0⟩]⟩,
  ⟨"OUT.CP_MEAS", 0x20100, 16, 4096, 1, 0, [⟨"HIGH", 31, 23, .ro, 0⟩, ⟨"LOW", 22, 14, .ro, 0⟩, ⟨"MODE", 13, 12, .ro, 0⟩, ⟨"DUTY", 9, 0, .ro, 0⟩]⟩,
  ⟨"OUT.CP_CTRL", 0x20104, 16, 4096, 1, 0, [⟨"MODE", 13, 12, .rw, 0⟩, ⟨"DUTY", 9, 0, .rw, 0⟩]⟩,
  ⟨"OUT.PP", 0x20108, 16, 4096, 1, 0, [⟨"CAP", 31, 24, .ro, 0⟩, ⟨"INVALID", 23, 23, .ro, 0⟩, ⟨"OHMS", 15, 0, .ro, 0⟩]⟩,
  ⟨"OUT.SUPV", 0x20200, 16, 4096, 1, 0, [⟨"WELD", 31, 30, .ro, 0⟩, ⟨"RCM_TRIP", 29, 29, .ro, 0⟩, ⟨"RCM_OK", 28, 28, .ro, 0⟩, ⟨"ISO_WARN", 27, 27, .ro, 0⟩, ⟨"ISO_FAULT", 26, 26, .ro, 0⟩, ⟨"PRECLOSE", 25, 25, .ro, 0⟩, ⟨"NEUTRAL", 24, 24, .ro, 0⟩, ⟨"ACD", 9, 8, .ro, 0⟩, ⟨"RCM_TRIPS", 7, 0, .ro, 0⟩]⟩,
  ⟨"OUT.ISO", 0x20204, 16, 4096, 1, 0, [⟨"OPV", 31, 16, .ro, 0⟩, ⟨"RISO", 15, 0, .ro, 0⟩]⟩,
  ⟨"OUT.MOD_CFG", 0x20300, 16, 4096, 2, 4, [⟨"VALID_H", 31, 31, .rws, 0⟩, ⟨"BUS_H", 30, 30, .rws, 0⟩, ⟨"NODE_H", 22, 16, .rws, 0⟩, ⟨"VALID_L", 15, 15, .rws, 0⟩, ⟨"BUS_L", 14, 14, .rws, 0⟩, ⟨"NODE_L", 6, 0, .rws, 0⟩]⟩,
  ⟨"OUT.SETPT", 0x20310, 16, 4096, 4, 4, [⟨"BYTES", 31, 0, .rw, 0⟩]⟩,
  ⟨"OUT.RAMP", 0x20320, 16, 4096, 4, 4, [⟨"BYTES", 31, 0, .rw, 0⟩]⟩,
  ⟨"OUT.MOD_STAT", 0x20330, 16, 4096, 4, 4, [⟨"LOST", 31, 31, .ro, 0⟩, ⟨"STATE", 30, 28, .ro, 0⟩, ⟨"I_OUT", 15, 0, .ro, 0⟩]⟩,
  ⟨"CRL.STATUS", 0x30000, 1, 0, 1, 0, [⟨"FULL_STK", 31, 31, .w1c, 0⟩, ⟨"FEW", 30, 30, .ro, 0⟩, ⟨"CLOSED", 24, 16, .ro, 0⟩, ⟨"FREE", 8, 0, .ro, 0⟩]⟩]

/-- The register table, part 12. -/
def regTable12 : List RegDesc := [
  ⟨"CRL.CMD", 0x30004, 1, 0, 1, 0, [⟨"CARREL", 31, 24, .wo, 0⟩, ⟨"OUTLET", 19, 16, .wo, 0⟩, ⟨"CMD", 7, 0, .wo, 0⟩]⟩,
  ⟨"CRL.RESULT", 0x30008, 1, 0, 1, 0, [⟨"CARREL", 31, 24, .ro, 0⟩, ⟨"CMD", 15, 8, .ro, 0⟩, ⟨"CODE", 7, 0, .ro, 0⟩]⟩,
  ⟨"CRL.CFG", 0x3000C, 1, 0, 1, 0, [⟨"RES_T", 31, 24, .rws, 0xf⟩, ⟨"AUTH_T", 23, 16, .rws, 0xa⟩, ⟨"SUSP_MAX", 15, 8, .rws, 0x3c⟩, ⟨"LOW_WM", 7, 0, .rws, 0x10⟩]⟩,
  ⟨"CRL.ACK_SESSION", 0x30010, 1, 0, 1, 0, [⟨"SESSION", 31, 0, .rw, 0⟩]⟩,
  ⟨"CRL.NEXT_SESSION", 0x30014, 1, 0, 1, 0, [⟨"SESSION", 31, 0, .ro, 0⟩]⟩,
  ⟨"CRL.COUNTS", 0x30018, 1, 0, 1, 0, [⟨"CLOSES", 31, 16, .ro, 0⟩, ⟨"RETIRED", 15, 8, .ro, 0⟩, ⟨"REFUSED", 7, 0, .ro, 0⟩]⟩,
  ⟨"CRL.SLIP_SEL", 0x3001C, 1, 0, 1, 0, [⟨"CARREL", 7, 0, .rw, 0⟩]⟩,
  ⟨"CRL.SLIP", 0x30020, 12, 4, 1, 0, [⟨"BYTES", 31, 0, .ro, 0⟩]⟩,
  ⟨"CRL.ARG", 0x30080, 16, 4, 1, 0, [⟨"BYTES", 31, 0, .rw, 0⟩]⟩,
  ⟨"CRL.SUMMARY", 0x30100, 32, 4, 1, 0, [⟨"ST0", 3, 0, .ro, 0⟩, ⟨"ST1", 7, 4, .ro, 0⟩, ⟨"ST2", 11, 8, .ro, 0⟩, ⟨"ST3", 15, 12, .ro, 0⟩, ⟨"ST4", 19, 16, .ro, 0⟩, ⟨"ST5", 23, 20, .ro, 0⟩, ⟨"ST6", 27, 24, .ro, 0⟩, ⟨"ST7", 31, 28, .ro, 0⟩]⟩,
  ⟨"VPL.STATUS", 0x31000, 1, 0, 1, 0, [⟨"MAX_WAIT", 31, 24, .ro, 0⟩, ⟨"OVERRUNS", 23, 16, .ro, 0⟩, ⟨"ENG1_OK", 1, 1, .ro, 0⟩, ⟨"ENG0_OK", 0, 0, .ro, 0⟩]⟩,
  ⟨"VPL.CFG", 0x31004, 1, 0, 1, 0, [⟨"SLAC_INIT", 31, 24, .rws, 0x32⟩, ⟨"MNBC", 23, 16, .rws, 0x3c⟩, ⟨"MATCH_T", 15, 8, .rws, 0xa⟩, ⟨"JOIN_T", 7, 0, .rws, 0xc⟩]⟩,
  ⟨"VPL.CFG2", 0x31008, 1, 0, 1, 0, [⟨"LINK_T", 31, 24, .rws, 0x1e⟩, ⟨"RETRY", 23, 16, .rws, 8⟩, ⟨"PROTO2", 11, 8, .rws, 1⟩, ⟨"PROTO1", 7, 4, .rws, 2⟩, ⟨"PROTO0", 3, 0, .rws, 3⟩]⟩,
  ⟨"VPL.NOTCH", 0x31010, 5, 4, 1, 0, [⟨"GROUP", 31, 0, .rws, 0⟩]⟩,
  ⟨"VPL.CTL", 0x31100, 16, 64, 1, 0, [⟨"TX_ATTEN", 7, 2, .rw, 0⟩, ⟨"EN", 0, 0, .rw, 0⟩]⟩,
  ⟨"VPL.STATUS", 0x31104, 16, 64, 1, 0, [⟨"SOUNDS", 31, 24, .ro, 0⟩, ⟨"ATTEN", 23, 16, .ro, 0⟩, ⟨"PROTO", 15, 12, .ro, 0⟩, ⟨"LAST_FAIL", 11, 8, .ro, 0⟩, ⟨"STATE", 3, 0, .ro, 0⟩]⟩,
  ⟨"VPL.PEND", 0x31108, 16, 64, 1, 0, [⟨"PEND", 16, 16, .ro, 0⟩, ⟨"DISC_CLR", 8, 8, .w1s, 0⟩, ⟨"DISCARDS", 7, 0, .ro, 0⟩]⟩,
  ⟨"VPL.EV_MAC_LO", 0x3110C, 16, 64, 1, 0, [⟨"BYTES", 31, 0, .ro, 0⟩]⟩,
  ⟨"VPL.EV_MAC_HI", 0x31110, 16, 64, 1, 0, [⟨"BYTES", 15, 0, .ro, 0⟩]⟩,
  ⟨"VPL.MAC_LO", 0x31114, 16, 64, 1, 0, [⟨"BYTES", 31, 0, .ro, 0⟩]⟩]

/-- The register table, part 13. -/
def regTable13 : List RegDesc := [
  ⟨"VPL.MAC_HI", 0x31118, 16, 64, 1, 0, [⟨"BYTES", 15, 0, .ro, 0⟩]⟩,
  ⟨"VPL.RX_FRAMES", 0x3111C, 16, 64, 1, 0, [⟨"COUNT", 31, 0, .ro, 0⟩]⟩,
  ⟨"VPL.PB_STAT", 0x31120, 16, 64, 1, 0, [⟨"FAILED", 31, 16, .ro, 0⟩, ⟨"RETX", 15, 0, .ro, 0⟩]⟩,
  ⟨"VPL.DROPS", 0x31124, 16, 64, 1, 0, [⟨"COUNT", 15, 0, .ro, 0⟩]⟩,
  ⟨"BBN.STATUS", 0x32000, 1, 0, 1, 0, [⟨"SLOW", 11, 11, .ro, 0⟩, ⟨"TIME_INVALID", 10, 10, .ro, 0⟩, ⟨"SYNC", 9, 9, .ro, 0⟩, ⟨"DUEL_STK", 8, 8, .w1c, 0⟩, ⟨"LOST_STK", 7, 7, .w1c, 0⟩, ⟨"PATH_FAULT", 6, 4, .ro, 0⟩, ⟨"ROLE", 3, 0, .ro, 0⟩]⟩,
  ⟨"BBN.NODE", 0x32004, 1, 0, 1, 0, [⟨"NODE", 27, 16, .ro, 0⟩, ⟨"DOMAIN", 15, 8, .ro, 0⟩, ⟨"DEPTH", 7, 0, .ro, 0⟩]⟩,
  ⟨"BBN.COORD", 0x32008, 1, 0, 1, 0, [⟨"PRI", 31, 24, .ro, 0⟩, ⟨"MEMBERS", 11, 0, .ro, 0⟩]⟩,
  ⟨"BBN.LONG_LO", 0x3200C, 1, 0, 1, 0, [⟨"VALUE", 31, 0, .ro, 0⟩]⟩,
  ⟨"BBN.LONG_HI", 0x32010, 1, 0, 1, 0, [⟨"VALUE", 15, 0, .ro, 0⟩]⟩,
  ⟨"BBN.CFG", 0x32014, 1, 0, 1, 0, [⟨"CYCLE", 31, 24, .rws, 0x10⟩, ⟨"LOST_CYC", 23, 16, .rws, 0x10⟩, ⟨"TM_MARGIN", 15, 8, .rws, 6⟩, ⟨"RETX_MAX", 7, 4, .rws, 2⟩]⟩,
  ⟨"BBN.TX", 0x32018, 1, 0, 1, 0, [⟨"ATT2", 29, 24, .rws, 0⟩, ⟨"ATT1", 21, 16, .rws, 0⟩, ⟨"ATT0", 13, 8, .rws, 0⟩, ⟨"COUPLE", 5, 4, .rws, 3⟩, ⟨"PATHS", 2, 0, .rws, 7⟩]⟩,
  ⟨"BBN.NTIME_LO", 0x3201C, 1, 0, 1, 0, [⟨"NS", 31, 0, .ro, 0⟩]⟩,
  ⟨"BBN.NTIME_HI", 0x32020, 1, 0, 1, 0, [⟨"NS", 31, 0, .ro, 0⟩]⟩,
  ⟨"BBN.FRAMES", 0x32024, 1, 0, 1, 0, [⟨"RETX", 31, 16, .ro, 0⟩, ⟨"MIC_FAIL", 15, 8, .ro, 0⟩, ⟨"SAFE_MISS", 7, 0, .ro, 0⟩]⟩,
  ⟨"BBN.ELECT", 0x32028, 1, 0, 1, 0, [⟨"WON", 31, 24, .ro, 0⟩, ⟨"LOST", 23, 16, .ro, 0⟩, ⟨"LOSSES", 15, 8, .ro, 0⟩]⟩,
  ⟨"BBN.VOTE", 0x3202C, 1, 0, 1, 0, [⟨"STATE", 31, 28, .ro, 0⟩, ⟨"VOTE_ID", 15, 0, .ro, 0⟩]⟩,
  ⟨"BBN.NOTCH", 0x32030, 4, 4, 1, 0, [⟨"GROUP", 31, 0, .rws, 0⟩]⟩,
  ⟨"BBN.NBR_SEL", 0x32040, 1, 0, 1, 0, [⟨"NODE", 11, 0, .rw, 0⟩]⟩,
  ⟨"BBN.NBR_INFO", 0x32044, 1, 0, 1, 0, [⟨"VALID", 31, 31, .ro, 0⟩, ⟨"MAPS", 30, 28, .ro, 0⟩, ⟨"COST", 27, 16, .ro, 0⟩, ⟨"FER", 15, 8, .ro, 0⟩, ⟨"RATE", 7, 0, .ro, 0⟩]⟩,
  ⟨"BBN.NBR_LINK", 0x32048, 1, 0, 1, 0, [⟨"FRAMES", 31, 16, .ro, 0⟩, ⟨"AGE", 15, 0, .ro, 0⟩]⟩]

/-- The register table, part 14. -/
def regTable14 : List RegDesc := [
  ⟨"BBN.COORD_LO", 0x3204C, 1, 0, 1, 0, [⟨"VALUE", 31, 0, .ro, 0⟩]⟩,
  ⟨"BBN.COORD_HI", 0x32050, 1, 0, 1, 0, [⟨"VALUE", 15, 0, .ro, 0⟩]⟩,
  ⟨"SAF.STATUS", 0x34000, 1, 0, 1, 0, [⟨"KMODE", 31, 28, .ro, 0⟩, ⟨"TPO_FAULT", 27, 20, .ro, 0⟩, ⟨"LATCHED", 9, 9, .ro, 0⟩, ⟨"FORCE", 8, 8, .ro, 0⟩, ⟨"PMI_B", 7, 7, .ro, 0⟩, ⟨"PMI_A", 6, 6, .ro, 0⟩, ⟨"CONFIRMED", 5, 5, .ro, 0⟩, ⟨"SPB_OK", 4, 4, .ro, 0⟩, ⟨"SEL_OK", 3, 3, .ro, 0⟩, ⟨"SEAL_INVALID", 2, 2, .ro, 0⟩, ⟨"SEAL_OPEN", 1, 1, .ro, 0⟩, ⟨"RUN", 0, 0, .ro, 0⟩]⟩,
  ⟨"SAF.RUN", 0x34004, 1, 0, 1, 0, [⟨"RUN", 23, 0, .ro, 0⟩]⟩,
  ⟨"SAF.RUN_K", 0x34008, 1, 0, 1, 0, [⟨"RUN", 23, 0, .ro, 0⟩]⟩,
  ⟨"SAF.OUTPUTS", 0x3400C, 1, 0, 1, 0, [⟨"LSE_K", 31, 16, .ro, 0⟩, ⟨"LSE_C", 15, 0, .ro, 0⟩]⟩,
  ⟨"SAF.SEL", 0x34010, 1, 0, 1, 0, [⟨"EXPECTED", 15, 8, .ro, 0⟩, ⟨"SWITCHES", 7, 0, .ro, 0⟩]⟩,
  ⟨"SAF.SPB_ID", 0x34014, 1, 0, 1, 0, [⟨"VALUE", 31, 0, .ro, 0⟩]⟩,
  ⟨"SAF.SPB_CRC", 0x34018, 1, 0, 1, 0, [⟨"VALUE", 31, 0, .ro, 0⟩]⟩,
  ⟨"SAF.CONFIRM", 0x3401C, 1, 0, 1, 0, [⟨"CRC", 31, 0, .rwf, 0⟩]⟩,
  ⟨"SAF.SI_LO", 0x34020, 1, 0, 1, 0, [⟨"LEVEL", 31, 0, .ro, 0⟩]⟩,
  ⟨"SAF.SI_HI", 0x34024, 1, 0, 1, 0, [⟨"LEVEL", 31, 0, .ro, 0⟩]⟩,
  ⟨"SAF.PULSE_LO", 0x34028, 1, 0, 1, 0, [⟨"STK", 31, 0, .w1c, 0⟩]⟩,
  ⟨"SAF.PULSE_HI", 0x3402C, 1, 0, 1, 0, [⟨"STK", 31, 0, .w1c, 0⟩]⟩,
  ⟨"SAF.LSE_TEST", 0x34030, 1, 0, 1, 0, [⟨"PASS", 31, 16, .ro, 0⟩, ⟨"FAIL", 15, 0, .ro, 0⟩]⟩,
  ⟨"SAF.TEST_REQ", 0x34034, 1, 0, 1, 0, [⟨"REQ", 15, 0, .w1s, 0⟩]⟩,
  ⟨"SAF.LINK", 0x34038, 1, 0, 1, 0, [⟨"SINGLE_MIN", 31, 24, .ro, 0⟩, ⟨"MISMATCH", 23, 8, .ro, 0⟩, ⟨"SINGLE", 4, 4, .ro, 0⟩, ⟨"ETH_LOST", 3, 3, .ro, 0⟩, ⟨"BBN_LOST", 2, 2, .ro, 0⟩, ⟨"ETH_UP", 1, 1, .ro, 0⟩, ⟨"MEMBER", 0, 0, .ro, 0⟩]⟩,
  ⟨"SAF.REMOTE", 0x3403C, 1, 0, 1, 0, [⟨"RUN", 15, 0, .ro, 0⟩]⟩,
  ⟨"SAF.HALVES", 0x34040, 1, 0, 1, 0, [⟨"COUNT", 31, 24, .ro, 0⟩, ⟨"SINCE_H", 23, 0, .ro, 0xffffff⟩]⟩,
  ⟨"SAF.FN", 0x34100, 24, 4, 1, 0, [⟨"TYPE", 31, 28, .ro, 0⟩, ⟨"STATE", 27, 26, .ro, 0⟩, ⟨"BOTH", 25, 25, .ro, 0⟩, ⟨"RUN_K", 24, 24, .ro, 0⟩, ⟨"DISC_STK", 23, 23, .w1c, 0⟩, ⟨"PULSE", 22, 22, .ro, 0⟩, ⟨"LOWERED", 21, 21, .ro, 0⟩, ⟨"RAISED", 20, 20, .ro, 0⟩, ⟨"DCOUNT", 11, 0, .ro, 0⟩]⟩]

/-- The register table, part 15. -/
def regTable15 : List RegDesc := [
  ⟨"LSW.STATUS", 0x35000, 1, 0, 1, 0, [⟨"BUDGET", 18, 18, .ro, 0⟩, ⟨"BUDGET_STK", 17, 17, .w1c, 0⟩, ⟨"ENV_FB", 16, 16, .ro, 0⟩, ⟨"UV_STK", 12, 8, .w1c, 0⟩, ⟨"UV", 4, 0, .ro, 0⟩]⟩,
  ⟨"LSW.POWER", 0x35004, 1, 0, 1, 0, [⟨"P_MW", 15, 0, .ro, 0⟩]⟩,
  ⟨"LSW.LATCHED_LO", 0x35008, 1, 0, 1, 0, [⟨"LATCHED", 31, 0, .ro, 0⟩]⟩,
  ⟨"LSW.LATCHED_HI", 0x3500C, 1, 0, 1, 0, [⟨"LATCHED", 31, 0, .ro, 0⟩]⟩,
  ⟨"LSW.VLS", 0x35010, 5, 4, 1, 0, [⟨"MV", 31, 16, .ro, 0⟩, ⟨"V_NOM", 15, 8, .rws, 0x18⟩, ⟨"UV_OFFS", 7, 0, .ro, 0⟩]⟩,
  ⟨"LSW.CH.CTL", 0x35100, 40, 32, 1, 0, [⟨"CLR", 2, 2, .wo, 0⟩, ⟨"REQ", 1, 0, .wo, 0⟩]⟩,
  ⟨"LSW.CH.DUTY", 0x35104, 40, 32, 1, 0, [⟨"DUTY", 9, 0, .rw, 0⟩]⟩,
  ⟨"LSW.CH.CFG", 0x35108, 40, 32, 1, 0, [⟨"MODE", 31, 29, .rws, 0⟩, ⟨"FREQ", 28, 26, .rws, 0⟩, ⟨"SAFE_KEEP", 25, 25, .rws, 0⟩, ⟨"OL_EN", 24, 24, .rws, 0⟩, ⟨"OWNER", 23, 23, .ro, 0⟩, ⟨"LIMIT", 22, 18, .rws, 0⟩, ⟨"INRUSH_T", 17, 11, .rws, 0⟩, ⟨"SLEW", 10, 6, .rws, 0⟩]⟩,
  ⟨"LSW.CH.COIL", 0x3510C, 40, 32, 1, 0, [⟨"PULL_T", 31, 24, .rws, 0⟩, ⟨"HOLD", 9, 0, .rws, 0⟩]⟩,
  ⟨"LSW.CH.STATUS", 0x35110, 40, 32, 1, 0, [⟨"STATE", 31, 29, .ro, 0⟩, ⟨"REQ_ON", 28, 28, .ro, 0⟩, ⟨"FORCED", 27, 27, .ro, 0⟩, ⟨"LATCHED", 26, 26, .ro, 0⟩, ⟨"THERMAL", 25, 25, .ro, 0⟩, ⟨"FOLDBACK", 24, 24, .ro, 0⟩, ⟨"INRUSH", 23, 23, .ro, 0⟩, ⟨"OPEN_LOAD", 22, 22, .ro, 0⟩, ⟨"PULL", 21, 21, .ro, 0⟩, ⟨"RESTARTS", 20, 17, .ro, 0⟩, ⟨"APPLIED", 9, 0, .ro, 0⟩]⟩,
  ⟨"LSW.CH.PEND", 0x35114, 40, 32, 1, 0, [⟨"PEND", 16, 16, .ro, 0⟩, ⟨"DISC_CLR", 8, 8, .w1s, 0⟩, ⟨"DISCARDS", 7, 0, .ro, 0⟩]⟩,
  ⟨"LSW.CH.MEAS", 0x35118, 40, 32, 1, 0, [⟨"I_MA", 31, 16, .ro, 0⟩, ⟨"TJ", 15, 0, .ro, 0⟩]⟩,
  ⟨"LSW.CH.HIST", 0x3511C, 40, 32, 1, 0, [⟨"THERMALS", 31, 24, .ro, 0⟩, ⟨"FOLDBACKS", 23, 16, .ro, 0⟩, ⟨"RESULT", 7, 0, .ro, 0⟩]⟩,
  ⟨"LSW.HEAT.CFG", 0x35600, 8, 16, 1, 0, [⟨"CHANNEL", 31, 24, .rws, 0xff⟩, ⟨"SENSOR", 23, 16, .rws, 0xff⟩, ⟨"ON_SPREAD", 15, 8, .rws, 0x1e⟩, ⟨"OFF_SPREAD", 7, 0, .rws, 0x32⟩]⟩,
  ⟨"LSW.HEAT.DUTY", 0x35604, 8, 16, 1, 0, [⟨"FB_DUTY", 25, 16, .rws, 0x12c⟩, ⟨"HEAT_DUTY", 9, 0, .rws, 0x3e8⟩]⟩,
  ⟨"LSW.HEAT.READING", 0x35608, 8, 16, 1, 0, [⟨"TEMP", 31, 16, .ro, 0⟩, ⟨"RH", 15, 0, .ro, 0⟩]⟩,
  ⟨"LSW.HEAT.STATE", 0x3560C, 8, 16, 1, 0, [⟨"DEW", 31, 16, .ro, 0⟩, ⟨"FALLBACK", 1, 1, .ro, 0⟩, ⟨"WANT", 0, 0, .ro, 0⟩]⟩,
  ⟨"DPY.STATUS", 0x36000, 1, 0, 1, 0, [⟨"STATE", 31, 29, .ro, 0⟩, ⟨"REQ_ON", 28, 28, .ro, 0⟩, ⟨"CAUSE", 27, 24, .ro, 0⟩, ⟨"RAILS", 7, 4, .ro, 0⟩, ⟨"BLACK", 3, 3, .ro, 0⟩, ⟨"ALS_FB", 2, 2, .ro, 0⟩]⟩,
  ⟨"DPY.CTL", 0x36004, 1, 0, 1, 0, [⟨"CLR", 2, 2, .wo, 0⟩, ⟨"REQ", 1, 0, .wo, 0⟩]⟩,
  ⟨"DPY.PEND", 0x36008, 1, 0, 1, 0, [⟨"PEND", 16, 16, .ro, 0⟩, ⟨"DISC_CLR", 8, 8, .w1s, 0⟩, ⟨"DISCARDS", 7, 0, .ro, 0⟩]⟩]

/-- The register table, part 16. -/
def regTable16 : List RegDesc := [
  ⟨"DPY.RAIL", 0x3600C, 1, 0, 1, 0, [⟨"ELVSS", 5, 0, .rws, 0x1e⟩]⟩,
  ⟨"DPY.BRIGHT", 0x36010, 1, 0, 1, 0, [⟨"MAN", 31, 31, .rw, 0⟩, ⟨"MAN_LEVEL", 25, 16, .rw, 0⟩, ⟨"LEVEL", 9, 0, .ro, 0⟩]⟩,
  ⟨"DPY.CRACK", 0x36014, 1, 0, 1, 0, [⟨"CRACKED", 31, 31, .ro, 0⟩, ⟨"OHMS", 15, 0, .ro, 0⟩]⟩,
  ⟨"DPY.ERRS", 0x36018, 1, 0, 1, 0, [⟨"UNDERRUNS", 31, 16, .ro, 0⟩, ⟨"LUX", 15, 0, .ro, 0⟩]⟩,
  ⟨"LAYER.BASE", 0x36040, 3, 16, 1, 0, [⟨"OFFSET", 22, 0, .rw, 0⟩]⟩,
  ⟨"LAYER.POS", 0x36044, 3, 16, 1, 0, [⟨"X", 25, 16, .rw, 0⟩, ⟨"Y", 8, 0, .rw, 0⟩]⟩,
  ⟨"LAYER.SIZE", 0x36048, 3, 16, 1, 0, [⟨"W", 25, 16, .rw, 0⟩, ⟨"H", 8, 0, .rw, 0⟩]⟩,
  ⟨"LAYER.CTL", 0x3604C, 3, 16, 1, 0, [⟨"EN", 0, 0, .rw, 0⟩]⟩,
  ⟨"BLINK.POS", 0x36100, 8, 16, 1, 0, [⟨"X", 25, 16, .rw, 0⟩, ⟨"Y", 8, 0, .rw, 0⟩]⟩,
  ⟨"BLINK.SIZE", 0x36104, 8, 16, 1, 0, [⟨"W", 25, 16, .rw, 0⟩, ⟨"H", 8, 0, .rw, 0⟩]⟩,
  ⟨"BLINK.CTL", 0x36108, 8, 16, 1, 0, [⟨"EN", 31, 31, .rw, 0⟩, ⟨"LAYER", 17, 16, .rw, 0⟩, ⟨"ON_F", 15, 8, .rw, 0⟩, ⟨"OFF_F", 7, 0, .rw, 0⟩]⟩,
  ⟨"DPY.PAL", 0x36400, 256, 4, 1, 0, [⟨"RGB", 23, 0, .rw, 0⟩]⟩,
  ⟨"BDY.STATUS", 0x37000, 1, 0, 1, 0, [⟨"RECOVERIES", 31, 16, .ro, 0⟩, ⟨"RUNNING", 15, 8, .ro, 0⟩, ⟨"RAIL_FAULT", 2, 2, .ro, 0⟩, ⟨"RECOVERING", 1, 1, .ro, 0⟩, ⟨"POSITIVE", 0, 0, .ro, 0⟩]⟩,
  ⟨"BDY.TEMP", 0x37004, 1, 0, 1, 0, [⟨"TEMP", 31, 16, .ro, 0⟩, ⟨"N", 5, 0, .ro, 0⟩]⟩,
  ⟨"BDY.REG.CTL", 0x37100, 8, 32, 1, 0, [⟨"GO", 0, 0, .wo, 0⟩]⟩,
  ⟨"BDY.REG.STATUS", 0x37104, 8, 32, 1, 0, [⟨"REPLACED", 31, 16, .ro, 0⟩, ⟨"PENDING", 15, 15, .ro, 0⟩, ⟨"FRAME", 7, 0, .ro, 0⟩]⟩,
  ⟨"BDY.REG.BITS", 0x37108, 8, 32, 3, 4, [⟨"DARK", 31, 0, .rw, 0⟩]⟩,
  ⟨"NFC.STATUS", 0x38000, 1, 0, 1, 0, [⟨"FALSE_WAKES", 31, 24, .ro, 0⟩, ⟨"CARDS", 23, 20, .ro, 0⟩, ⟨"ANT_FAULT", 3, 3, .ro, 0⟩, ⟨"STATE", 2, 0, .ro, 0⟩]⟩,
  ⟨"NFC.CTL", 0x38004, 1, 0, 1, 0, [⟨"DONE", 1, 1, .wo, 0⟩, ⟨"EN", 0, 0, .rws, 0⟩]⟩,
  ⟨"NFC.DET_CFG", 0x38008, 1, 0, 1, 0, [⟨"PING_PERIOD", 31, 22, .rws, 0xfa⟩, ⟨"TRACK", 21, 18, .rws, 8⟩, ⟨"WAKE_AMP", 15, 8, .rws, 0x14⟩, ⟨"WAKE_PH", 7, 0, .rws, 0xa⟩]⟩]

/-- The register table, part 17. -/
def regTable17 : List RegDesc := [
  ⟨"NFC.DET_MEAS", 0x3800C, 1, 0, 1, 0, [⟨"AMP_DEV", 31, 16, .ro, 0⟩, ⟨"PH_DEV", 15, 0, .ro, 0⟩]⟩,
  ⟨"NFC.LIST", 0x38010, 1, 0, 1, 0, [⟨"TYPE_B", 12, 12, .ro, 0⟩, ⟨"LEN", 11, 8, .ro, 0⟩, ⟨"SEL", 2, 0, .rw, 0⟩]⟩,
  ⟨"NFC.LIST_UID", 0x38014, 3, 4, 1, 0, [⟨"BYTES", 31, 0, .ro, 0⟩]⟩,
  ⟨"TAG.STATUS", 0x39000, 1, 0, 1, 0, [⟨"AUTH_FAILS", 31, 24, .ro, 0⟩, ⟨"LOCKED", 23, 23, .ro, 0⟩, ⟨"MAPPED", 22, 22, .ro, 0⟩, ⟨"MAP_COPY", 21, 21, .ro, 0⟩, ⟨"FIELD", 20, 20, .ro, 0⟩, ⟨"LEVEL", 19, 18, .ro, 0⟩, ⟨"STATE", 17, 15, .ro, 0⟩, ⟨"BATT", 1, 1, .ro, 0⟩, ⟨"EN", 0, 0, .ro, 0⟩]⟩,
  ⟨"TAG.CTL", 0x39004, 1, 0, 1, 0, [⟨"SNAP", 2, 2, .wo, 0⟩, ⟨"STORE", 1, 1, .wo, 0⟩, ⟨"LOAD", 0, 0, .wo, 0⟩]⟩,
  ⟨"TAG.PAGE", 0x39008, 1, 0, 1, 0, [⟨"PAGE", 7, 0, .rw, 0⟩]⟩,
  ⟨"TAG.WSTAT", 0x3900C, 1, 0, 1, 0, [⟨"BUSY_COUNT", 31, 16, .ro, 0⟩, ⟨"RESULT", 7, 0, .ro, 0⟩]⟩,
  ⟨"TAG.UID_LO", 0x39010, 1, 0, 1, 0, [⟨"BYTES", 31, 0, .ro, 0⟩]⟩,
  ⟨"TAG.UID_HI", 0x39014, 1, 0, 1, 0, [⟨"BYTES", 23, 0, .ro, 0⟩]⟩,
  ⟨"TAG.COUNTS", 0x39018, 1, 0, 1, 0, [⟨"OPENS", 31, 16, .ro, 0⟩, ⟨"AUTHS", 15, 0, .ro, 0⟩]⟩,
  ⟨"TAG.BUF", 0x39100, 64, 4, 1, 0, [⟨"BYTES", 31, 0, .rw, 0⟩]⟩,
  ⟨"CAN.CFG", 0x3A000, 2, 64, 1, 0, [⟨"DATA", 31, 30, .rws, 0⟩, ⟨"NOM", 29, 28, .rws, 0⟩, ⟨"EN", 0, 0, .rws, 0⟩]⟩,
  ⟨"CAN.STATUS", 0x3A004, 2, 64, 1, 0, [⟨"TEC", 31, 24, .ro, 0⟩, ⟨"REC", 23, 16, .ro, 0⟩, ⟨"BUS_OFF", 2, 2, .ro, 0⟩, ⟨"PASSIVE", 1, 1, .ro, 0⟩, ⟨"ON", 0, 0, .ro, 0⟩]⟩,
  ⟨"LEGAL.STATUS", 0x3C000, 1, 0, 1, 0, [⟨"FREE", 31, 16, .ro, 0⟩, ⟨"FULL", 3, 3, .ro, 0⟩, ⟨"COMMITTING", 2, 2, .ro, 0⟩, ⟨"PENDING", 1, 1, .ro, 0⟩, ⟨"IN_FORCE", 0, 0, .ro, 0⟩]⟩,
  ⟨"LEGAL.COMMIT", 0x3C004, 1, 0, 1, 0, [⟨"SRC_IMAGE", 1, 1, .wo, 0⟩, ⟨"GO", 0, 0, .wo, 0⟩]⟩,
  ⟨"LEGAL.COMMIT_NO", 0x3C008, 1, 0, 1, 0, [⟨"NUMBER", 31, 0, .ro, 0⟩]⟩,
  ⟨"LEGAL.SET_CRC", 0x3C00C, 1, 0, 1, 0, [⟨"CRC", 31, 0, .ro, 0⟩]⟩,
  ⟨"LEGAL.RESULT", 0x3C010, 1, 0, 1, 0, [⟨"CODE", 7, 0, .ro, 0⟩]⟩]

/-- Every register of the spec, in ascending address of its first copy (R41). -/
def regTable : List RegDesc :=
  regTable0 ++ regTable1 ++ regTable2 ++ regTable3 ++ regTable4 ++ regTable5 ++ regTable6 ++ regTable7 ++ regTable8 ++ regTable9 ++ regTable10 ++ regTable11 ++ regTable12 ++ regTable13 ++ regTable14 ++ regTable15 ++ regTable16 ++ regTable17

/-- The fields whose reset value is not 0: first key, number of copies, distance of the keys, value. -/
def resetTable : List (Nat × Nat × Nat × Nat) := [
  (0x0 * 32 + 0, 1, 0, 0xA1600C1),
  (0x10 * 32 + 0, 1, 0, 0x100),
  (0x14 * 32 + 0, 1, 0, 0x80),
  (0x18 * 32 + 0, 1, 0, 0xFFFFFFFF),
  (0x1C * 32 + 0, 1, 0, 0x100),
  (0x20 * 32 + 16, 1, 0, 0x1C0),
  (0x20 * 32 + 0, 1, 0, 0x400),
  (0x24 * 32 + 0, 1, 0, 0x5DC),
  (0x1008 * 32 + 3, 1, 0, 0x1),
  (0x1008 * 32 + 2, 1, 0, 0x1),
  (0x1008 * 32 + 1, 1, 0, 0x1),
  (0x1008 * 32 + 0, 1, 0, 0x1),
  (0x3000 * 32 + 0, 1, 0, 0x1),
  (0x4000 * 32 + 0, 1, 0, 0xF),
  (0x500C * 32 + 0, 1, 0, 0x1),
  (0x900C * 32 + 0, 1, 0, 0x10000),
  (0xC000 * 32 + 28, 1, 0, 0xF),
  (0xD00C * 32 + 0, 1, 0, 0x800000),
  (0xE010 * 32 + 0, 1, 0, 0x25),
  (0xE014 * 32 + 24, 1, 0, 0x5),
  (0xE014 * 32 + 16, 1, 0, 0x7),
  (0x10404 * 32 + 0, 1, 0, 0x10000),
  (0x10408 * 32 + 24, 1, 0, 0x5A),
  (0x10408 * 32 + 16, 1, 0, 0x6E),
  (0x10408 * 32 + 8, 1, 0, 0x5),
  (0x10408 * 32 + 0, 1, 0, 0x14),
  (0x1040C * 32 + 24, 1, 0, 0x32),
  (0x1040C * 32 + 16, 1, 0, 0x14),
  (0x1040C * 32 + 8, 1, 0, 0x50),
  (0x14004 * 32 + 16, 1, 0, 0x5),
  (0x14004 * 32 + 8, 1, 0, 0x3),
  (0x14004 * 32 + 0, 1, 0, 0xA),
  (0x20044 * 32 + 24, 16, 131072, 0xFF),
  (0x20044 * 32 + 16, 16, 131072, 0xFF),
  (0x20044 * 32 + 8, 16, 131072, 0xFF),
  (0x20044 * 32 + 0, 16, 131072, 0xFF),
  (0x20048 * 32 + 24, 16, 131072, 0xFF),
  (0x20048 * 32 + 16, 16, 131072, 0xFF),
  (0x20048 * 32 + 8, 16, 131072, 0xFF),
  (0x20048 * 32 + 0, 16, 131072, 0xFF),
  (0x3000C * 32 + 24, 1, 0, 0xF),
  (0x3000C * 32 + 16, 1, 0, 0xA),
  (0x3000C * 32 + 8, 1, 0, 0x3C),
  (0x3000C * 32 + 0, 1, 0, 0x10),
  (0x31004 * 32 + 24, 1, 0, 0x32),
  (0x31004 * 32 + 16, 1, 0, 0x3C),
  (0x31004 * 32 + 8, 1, 0, 0xA),
  (0x31004 * 32 + 0, 1, 0, 0xC),
  (0x31008 * 32 + 24, 1, 0, 0x1E),
  (0x31008 * 32 + 16, 1, 0, 0x8),
  (0x31008 * 32 + 8, 1, 0, 0x1),
  (0x31008 * 32 + 4, 1, 0, 0x2),
  (0x31008 * 32 + 0, 1, 0, 0x3),
  (0x32014 * 32 + 24, 1, 0, 0x10),
  (0x32014 * 32 + 16, 1, 0, 0x10),
  (0x32014 * 32 + 8, 1, 0, 0x6),
  (0x32014 * 32 + 4, 1, 0, 0x2),
  (0x32018 * 32 + 4, 1, 0, 0x3),
  (0x32018 * 32 + 0, 1, 0, 0x7),
  (0x34040 * 32 + 0, 1, 0, 0xFFFFFF),
  (0x35010 * 32 + 8, 5, 128, 0x18),
  (0x35600 * 32 + 24, 8, 512, 0xFF),
  (0x35600 * 32 + 16, 8, 512, 0xFF),
  (0x35600 * 32 + 8, 8, 512, 0x1E),
  (0x35600 * 32 + 0, 8, 512, 0x32),
  (0x35604 * 32 + 16, 8, 512, 0x12C),
  (0x35604 * 32 + 0, 8, 512, 0x3E8),
  (0x3600C * 32 + 0, 1, 0, 0x1E),
  (0x38008 * 32 + 22, 1, 0, 0xFA),
  (0x38008 * 32 + 18, 1, 0, 0x8),
  (0x38008 * 32 + 8, 1, 0, 0x14),
  (0x38008 * 32 + 0, 1, 0, 0xA)]

/-- Whether key `k` is one of the `n` copies `st` apart that start at `b`. -/
abbrev keyHit (b n st k : Nat) : Bool :=
  if st = 0 then k = b else b ≤ k && (k - b) % st = 0 && (k - b) / st < n

/-- The reset value of the field with key `k`, looked up in `t`; 0 when no entry names it. -/
def resetFrom : List (Nat × Nat × Nat × Nat) → Nat → Nat
  | [], _ => 0
  | (b, n, st, v) :: r, k => if keyHit b n st k then v else resetFrom r k

/-- The reset value of the field with key `k`, as the register headings of the spec give it. -/
def resetVal (k : Nat) : Nat := resetFrom resetTable k

/-- The store of the register fields. -/
abbrev RegFile := SMap Nat
/-- The value of a field. -/
def RegFile.rd (m : RegFile) (f : Fld) : Nat := mapGet resetVal m f.key

/-- A field replaced; the value is cut to the field's width. -/
def RegFile.wr (m : RegFile) (f : Fld) (v : Nat) : RegFile := mapSet resetVal m f.key (v % 2 ^ f.w)

/-- The register an address names, with its index: addresses between the copies of an array name nothing. -/
def RegDesc.hit (d : RegDesc) (a : Nat) : Bool :=
  d.base ≤ a &&
    (let x := a - d.base
     let i := if d.s1 = 0 then 0 else min (x / d.s1) (d.n1 - 1)
     let y := x - i * d.s1
     let j := if d.s2 = 0 then 0 else min (y / d.s2) (d.n2 - 1)
     y = j * d.s2)

/-- The description of the register at address `a`, if the spec defines one there. -/
def findReg (a : Nat) : Option RegDesc := regTable.find? (fun d => d.hit a)

end Sys2Proof.Machine
end

