-- ==== Sys2Proof/Machine/State.lean ====
section
/-!
DEFINITION. The state of the A16 as plain data: the register fields, the hidden state of every unit, the non-volatile
stores, and the queue of waiting commands; the reasons a command can stop; and the state right after reset.
-/
namespace Sys2Proof.Machine

/-- Reasons for which the block stops with a fault. The spec describes a reaction to every event of the opcode table,
so no meaning raises one; the constructor is for a state no command can leave (never used; safe). -/
inductive Fault where
  /-- Nobody raises it. Safe: it could only stop the model where the hardware goes on. -/
  | stuck
  deriving DecidableEq, Repr

/-- Reasons for which a command is refused by the model. -/
inductive Refusal where
  /-- Raised by an arm of `exec` that has no meaning yet. Safe: nothing is claimed of the command. -/
  | notModelled (mnemonic : String)
  deriving DecidableEq, Repr

/-! ### Queues (R540 to R546) -/

/-- A queue item: its 64-bit words, and the mask of poisoned words (R543). -/
structure Item where
  words : List Nat
  poison : Nat
  deriving DecidableEq, Repr

/-- A hardware queue: the register chain from stage 0, the tail register and the annex segment (R541). -/
structure Queue where
  chain : List Item
  tail : Option Item
  annex : List Item
  deriving DecidableEq, Repr

/-- An empty queue. -/
def Queue.empty : Queue := ⟨[], none, []⟩

/-- An access port of R546: Q.SEL, Q.RESULT, Q.POISON, Q.ITEM, and the queue whose head copy it holds, with whether a
flush has made that copy invalid (R544). -/
structure Port where
  sel : Nat
  result : Nat
  poison : Nat
  item : SMap Nat
  copyOf : Option Nat
  invalid : Bool
  deriving DecidableEq, Repr

/-! ### Fault collector and recorder (chapter 17) -/

/-- An open-table entry (R491): its number, primary code, present class, MERGED, whether the primary was injected, the
RNO of its primary record (0 while waiting under R508), and every fault it holds as (code, DETAIL). -/
structure Entry where
  idx : Nat
  code : Nat
  cls : Nat
  merged : Nat
  injected : Bool
  rno : Nat
  members : List (Nat × Nat)
  deriving DecidableEq, Repr

/-- An event record (R501); `payload` is the 40 payload bytes as one little-endian number. -/
structure Rec where
  rno : Nat
  ty : Nat
  flags : Nat
  ms : Nat
  cycle : Nat
  opsec : Nat
  payload : Nat
  deriving DecidableEq, Repr

/-- The fault collector beside its registers. -/
structure FltSt where
  table : List Entry            -- open entries, oldest first
  causes : List (Nat × Nat)     -- causes present (R494), as (code, DETAIL)
  errMin : Bool                 -- the 10 ms minimum low time of ERR_N runs (R496)
  todo : List (Nat × Nat)       -- faults of hardware queues met inside a reaction, raised at its end
  deriving DecidableEq, Repr

/-- The event recorder beside its registers: the three areas of MRAM by slot, the catalogue's RNO_MARK and CIRC_HEAD,
the losses since the last RECORDS_LOST record, and the retired circulation slots. -/
structure EvrSt where
  acc : SMap Rec
  circ : SMap Rec
  legal : SMap Rec
  rnoMark : Nat
  circHead : Nat
  lostSince : Nat
  retired : List Nat
  deriving DecidableEq, Repr

/-! ### System controller (chapters 01 and 02) -/

/-- A degradation cause: the code that names its source, an index, and whether it can go without a new start (R60). -/
structure Degr where
  code : Nat
  idx : Nat
  removable : Bool
  deriving DecidableEq, Repr

/-- A request waiting at the fabric arbiter (R42): its port, class, beats left, the beat of its arrival, whether it is aged,
and whether it comes from the metrology engine (R48). -/
structure FabReq where
  port : Nat
  cls : Nat
  beats : Nat
  since : Nat
  aged : Bool
  metro : Bool
  deriving DecidableEq, Repr

/-- The fabric arbiter: the beat reached, the waiting requests in order of arrival, and the beats granted to capped
classes within the last 2 µs as (beat, class). -/
structure FabSt where
  beat : Nat
  waiting : List FabReq
  log : List (Nat × Nat)
  deriving DecidableEq, Repr

/-- The test credit of R78: operating seconds, colophon hash, life-cycle state, whether it has been used, and whether
a Major or Grave fault has been raised since it was written. -/
structure Credit where
  opsec : Nat
  hash : Nat
  lc : Nat
  used : Bool
  spoiled : Bool
  deriving DecidableEq, Repr

/-- The outcomes of R77. -/
inductive ShelfOutcome where
  | matched | optionalAbsent | absent | corrupt | wrongKind | replaced
  deriving DecidableEq, Repr

/-- The system controller beside its registers. -/
structure SysSt where
  unpowered : Bool              -- neither VBAT nor a main supply (R60)
  resetLow : Bool               -- RESET_N is low
  freeRun : Bool                -- quanta run free from CLK_DSP (R32)
  secCycles : Nat               -- N, the CLK_DSP cycles of the last completed second (R30)
  discBad : Nat                 -- consecutive seconds with |DEV| above 30,000 (R31)
  sections : SMap (List Byte)   -- the sections of the image in force, by type (R73)
  imgValid : Bool               -- an image is in force
  startMode : Nat               -- START_MODE of the image in force
  startStep : Nat               -- the last completed step of R69
  shelf : List ShelfOutcome     -- the outcome of each SHELF entry
  shelfBody : SMap (List Byte)  -- the body of each module that matched, by entry
  shelfId : SMap (Nat × Nat)    -- its serial and the CRC of its shelfmark
  unmatched : SMap (List Byte)  -- shelfmark bytes being received over CAN FD, by bus and node
  baseMode : Nat                -- the base mode of R63
  rideReturn : Nat              -- the mode that RIDE_THROUGH returns to
  warmReturn : Nat              -- the mode that WARM_THROUGH returns to
  warmRun : Bool                -- the warm-through timer runs
  warmMax : Nat                 -- WARM_MAX: 0 not reached, 1 reached in RIDE_THROUGH and not acted on yet, 2 acted on
  warmLost : Bool               -- its 60 s passed in RIDE_THROUGH
  flushing : Bool               -- a power-fail flush is under way (R158)
  splitQ : Bool                 -- the running quantum is the rest of one that the flush split (R162)
  shutStep : Nat                -- the last completed step of R85
  degr : List Degr              -- degradation causes present
  pgOut : Bool                  -- level of PG_OUT
  clkMod : Bool                 -- CLK_MOD runs
  imgSigKind : Nat              -- SIG_KIND of the image in force
  imgSigOk : Bool               -- its signature verified under slot 2
  deriving DecidableEq, Repr

/-- The catalogue of R39, as far as no register holds it. -/
structure CatSt where
  credit : Option Credit
  commission : Option (Nat × Bool)   -- SPB_CRC and DONE of R391
  seqLc3 : Nat                       -- highest SEQ accepted in life-cycle 3
  operSlot : Nat
  utilSlot : Nat
  halvesOpsec : Option Nat           -- R357
  deriving DecidableEq, Repr

/-! ### Host port, reading room and bindery (chapter 19) -/

/-- A bind set: staged (register address, mask, value), owner (0 runtime, 1 host, 2 tariff engine, 3 update engine),
state, KIND, ARG, ARG2, TIME, whether it overflowed, whether R59 has deferred it, and its place in the order of the BIND
commands. -/
structure BindSet where
  st : Nat
  owner : Nat
  kind : Nat
  arg : Nat
  arg2 : Nat
  time : Nat
  staged : List (Nat × Nat × Nat)
  overflow : Bool
  deferred : Bool
  order : Nat
  deriving DecidableEq, Repr

/-- A free bind set. -/
def BindSet.empty : BindSet := ⟨0, 0, 0, 0, 0, 0, [], false, false, 0⟩

/-- The host port beside its registers. -/
structure HpSt where
  challenge : Option (Nat × Nat)  -- the challenge in force, 16 bytes, and RTC.TICK when it was drawn
  handed : List Nat             -- descriptors owned by the A16, in the order handed over
  active : Option Nat           -- the descriptor whose transfer is under way
  idleT : Nat                   -- IDLE_T in force, minutes
  answer : List Nat             -- words of the last answer on the wire
  answerCrc : Nat
  answerMark : Nat              -- 0xA done, 0xC CRC wrong, 0x5 access error or abandoned, 0xF none
  rroom : Bytes                 -- the reading room, 1 MiB
  ospi : SMap (Option Byte)     -- what the A16 has written to the octal SPI memory
  retiredPages : List Nat
  deriving DecidableEq, Repr

/-! ### Outlets and carrels (chapters 08 and 09) -/

/-- An outlet beside its registers. -/
structure OutSt where
  hist : List PilotVerdict      -- the verdicts of the last three pilot periods, latest first
  inv : Nat                     -- consecutive INV periods
  pilotErr : Bool               -- a pilot error is latched (R260)
  weldBad : Bool                -- FAULT after a weld verdict of welded or none
  precloseBad : Bool            -- FAULT after a failed pre-close check
  coils : Bool                  -- COIL0 and COIL1 are commanded on
  rcmTest : Nat                 -- 0 no test; 1 connection; 2 before closing; 3 CLEAR; 4 command
  rcmEach : Bool                -- the test before closing has passed in this stay in READY (R259)
  loadV : List Nat              -- load-side voltages over the last 20 ms, mV (R254)
  weldRun : Bool                -- the weld window runs
  weldHold : Bool               -- DC: the modules are held off in the window
  recheck : Bool                -- the window runs for RECHECK
  isoLow : Nat                  -- consecutive results below ISO_FAULT
  isoGood : Bool                -- the last result of this stay in CABLE_CHECK is at or above ISO_FAULT
  clamp2 : Bool                 -- the 2 A clamp holds
  acdMove : Nat                 -- 0 none; 1 moving down; 2 moving up
  acdUpLatched : Bool
  ramped : Bool                 -- the ramp step of an AC stop holds the pilot at +12 V
  coolDue : Bool                -- COOL goes off 30 s after OPENING ended
  hold1s : Bool                 -- a decoded A is being held
  seq : Nat                     -- SEQ of SETPOINT frames
  lastSet : List Nat            -- the setpoint bytes last framed, to step SEQ
  frames : SMap (List Byte)     -- the last SETPOINT frame sent to each module
  stat : SMap (List Byte)       -- the last valid STATUS of each module
  deriving DecidableEq, Repr

/-- An outlet right after reset. -/
def OutSt.init : OutSt :=
  { hist := [], inv := 0, pilotErr := false, weldBad := false, precloseBad := false, coils := false, rcmTest := 0,
    rcmEach := false, loadV := [], weldRun := false, weldHold := false, recheck := false, isoLow := 0, isoGood := false,
    clamp2 := false, acdMove := 0, acdUpLatched := false, ramped := false, coolDue := false, hold1s := false, seq := 0, lastSet := [],
    frames := [], stat := [] }

/-- A carrel's record (R268) and slip (R269). -/
structure Carrel where
  st : Nat
  unlimited : Bool
  rev : Bool
  lowPosted : Bool
  shortfall : Bool
  noAck : Bool
  outlet : Nat
  reason : Nat
  credKind : Nat
  session : Nat
  cred : Nat
  balance : Int
  eIn : Nat
  eOut : Nat
  tAuth : Nat
  tStart : Nat
  tEnd : Nat
  iLim : Nat
  pLim : Nat
  qOn : Nat
  qSusp : Nat
  resumes : Nat
  stamp : Nat
  startFee : Nat
  priceIn : Nat
  priceOut : Nat
  timePrice : Nat
  idlePrice : Nat
  idleGrace : Nat
  resIn : Nat
  resOut : Nat
  resTime : Nat
  resIdle : Nat
  deriving DecidableEq, Repr

/-- A Free carrel: every field clear, no outlet assigned. -/
def Carrel.free : Carrel :=
  { st := 0, unlimited := false, rev := false, lowPosted := false, shortfall := false, noAck := false, outlet := 0xFF,
    reason := 0, credKind := 0, session := 0, cred := 0, balance := 0, eIn := 0, eOut := 0, tAuth := 0, tStart := 0,
    tEnd := 0, iLim := 0, pLim := 0, qOn := 0, qSusp := 0, resumes := 0, stamp := 0, startFee := 0, priceIn := 0,
    priceOut := 0, timePrice := 0, idlePrice := 0, idleGrace := 0, resIn := 0, resOut := 0, resTime := 0,
    resIdle := 0 }

/-- A copy in the carrel store (R283); `qserial` is that of its commit word. -/
structure CarrelCopy where
  car : Carrel
  qserial : Nat
  valid : Bool
  deriving DecidableEq, Repr

/-- A copy that nothing has written: a Free carrel's, valid (DESIGN CHOICE, log entry 41). -/
def CarrelCopy.blank : CarrelCopy := ⟨Carrel.free, 0, true⟩

/-- The carrel engine beside its registers: records and slips, the two store copies of each (keys 2c and 2c + 1), the
copies of the session counter, which carrels changed since the last boundary, which still owe START_FEE (R208), and
whether CRL_FEW may be raised. -/
structure CrlSt where
  recs : SMap Carrel
  copies : SMap CarrelCopy
  sessCopy : Option Nat
  changed : List Nat
  feeDue : List Nat
  fewArmed : Bool
  deriving DecidableEq, Repr

/-! ### Vehicle link (chapter 10) -/

/-- A Green PHY instance beside its registers: whether the conditions of R295 held when last judged, a transmitter
fault (R296), the notch mask read on entry into STARTING, NMK and NID, the RunID held, NUM_SOUNDS with the window open,
the sounds received and those without error, the sum and count of dB per carrier group, the last profile, the last
SLAC message sent (1 PARM.CNF, 2 ATTEN_CHAR.IND, 3 MATCH.CNF, 4 VALIDATE.CNF; 0 none), the failures of each physical
block of the frame being sent, and the frames buffered for the runtime. -/
structure VplSt where
  wanted : Bool
  txFault : Bool
  notch : Nat
  nmk : Nat
  nid : Nat
  runId : Option Nat
  numSounds : Nat
  window : Bool
  heard : Nat
  good : Nat
  sums : List (Nat × Nat)
  profile : List Nat
  answer : Nat
  blocks : SMap Nat
  buf : List (List Byte)
  deriving DecidableEq, Repr

/-- An instance right after reset. -/
def VplSt.init : VplSt :=
  { wanted := false, txFault := false, notch := 0, nmk := 0, nid := 0, runId := none, numSounds := 0, window := false,
    heard := 0, good := 0, sums := [], profile := [], answer := 0, blocks := [], buf := [] }

/-- The shared FFT engines (R293): the transforms that wait in order of their grant and those that run, each as
(symbol end in 0.1 µs, requester; 16 the Rosash PHY). -/
structure FftSt where
  waiting : List (Nat × Nat)
  busy : List (Nat × Nat)
  deriving DecidableEq, Repr

/-! ### Rosash backbone (chapter 11) -/

/-- A frame that the node has sent (R321): its shape (0 beacon, 1 POLL, 2 DATA, 3 NULL, 4 SACK, 5 compact, 6 the ETH[1]
frame of R383), SRC and DST of the hop, TMI, FSEQ, RETX, MORE and INFO of its frame control, and its payload: blocks,
short payload, compact or Ethernet payload. -/
structure BbnTx where
  shape : Nat
  src : Nat
  dst : Nat
  tmi : Nat
  fseq : Nat
  retx : Bool
  more : Bool
  info : Nat
  data : List (List Byte)
  deriving DecidableEq, Repr

/-- The two directions of the link with a neighbour. Incoming: tone maps in force, the map offered with the blocks of
its TONEMAP message, the last 16 measurements by interval, per interval the frames, blocks and failed blocks since the
last choice, the failures of the last 64 frames (latest first), the frames since start and the cycles since the last
one. Outgoing: the neighbour's tone maps. -/
structure BbnLink where
  maps : List ToneMap
  offer : Option (ToneMap × List (List Byte))
  meas : SMap (List RxMeas)
  since : SMap (Nat × Nat × Nat)
  errs : List Bool
  frames : Nat
  age : Nat
  outMaps : List ToneMap
  deriving DecidableEq, Repr

/-- A link before its first frame. -/
def BbnLink.init : BbnLink := ⟨[], none, [], [], [], 0, 0, []⟩

/-- A member as the coordinator knows it: long identifier, KEK, MORE of its last answer, and whether it has been polled
in this epoch. -/
structure BbnMember where
  longId : Nat
  kek : List Byte
  more : Bool
  polled : Bool
  deriving DecidableEq, Repr

/-- The poll under way at a node: POLL_SEQ, the route to T, the node's place in it (0 for the coordinator), GRANT,
whether downlink data follows, whether the frame last sent has been repeated, the FSEQ that a SACK must echo and its
sender, the blocks sent and not yet acknowledged with their numbers in the frame, the retransmissions so far; of the
frame being received the places its blocks take among the held ones, its FSEQ and its retransmissions; the blocks a
repeater holds to forward, and the frame last sent. -/
structure BbnPoll where
  seq : Nat
  route : List Nat
  pos : Nat
  grant : Nat
  down : Bool
  repeated : Bool
  awaitSeq : Option Nat
  awaitFrom : Nat
  out : List (Nat × List Byte)
  tries : Nat
  rx : List Nat
  rxSeq : Option Nat
  rxTries : Nat
  fwd : List (List Byte)
  last : Option BbnTx
  deriving DecidableEq, Repr

/-- A vote (R348): VOTE_ID, the first 16 bytes of the colophon hash, ACT_TIME, DEADLINE, the members named and those
that answered READY, this member's own answer, whether it has committed or aborted (0 open, 1, 2), and the long
identifier of the coordinator and the CYCLE_NO with which the commit was last seen. -/
structure BbnVote where
  id : Nat
  hash : Nat
  act : Nat
  deadline : Nat
  named : List Nat
  ready : List Nat
  mine : Option Bool
  outcome : Nat
  coord : Nat
  seen : Option Nat
  deriving DecidableEq, Repr

/-- The joiner's side of an admission: the node whose beacon it follows, the join windows since its request, the
windows still to wait, the ephemeral private key, the coordinator's long identifier and key, and the KEK. -/
structure BbnJoin where
  via : Nat
  asked : Bool
  windows : Nat
  wait : Nat
  priv : List Byte
  coord : Nat
  qc : List Byte
  kek : List Byte
  deriving DecidableEq, Repr

/-- The coordinator's side of an admission: the joiner, the node that hears it, the joiner's key, the ephemeral private
key and the KEK. -/
structure BbnAdm where
  longId : Nat
  via : Nat
  qj : List Byte
  priv : List Byte
  kek : List Byte
  deriving DecidableEq, Repr

/-- The backbone beside its registers: CYCLE_NO, the cycle within the epoch, safety slots since the last central beacon,
the coordinator's long identifier, the FLAGS of the last beacon, network time (ns) with the CLK_BBN count (samples) it
holds for, the network time of the last rising zero crossing and HALF, the relay and safety lists; the announced key
switch, the key in force, the keys by index, the frame counter, the own KEK; links by neighbour; as coordinator:
directed link costs and E in 0.1 Mbit/s (keyed 4,096 × from + to), links marked down, members by node, node identifiers by
long identifier, paths by node, POLL_SEQ, the member polled last, downlink blocks by node, admission failures of the
epoch, ignored long identifiers with the operating second at which that ends, join requests that wait as (long
identifier, sender), and the admission under way; uplink blocks, received blocks by neighbour in order (an empty
one still missing), FSEQ, the poll under
way, the joiner's side, join requests to pass on, tag failures of the epoch, whether a LINKS report is due, the vote,
cycles of the takeover wait, whether the PHY is silent (R340), and the frames that the last command sent. -/
structure BbnSt where
  cycle : Nat
  epoch : Nat
  unheard : Nat
  coordLong : Option Nat
  flags : Nat
  ntime : Nat
  clk : Nat
  zc : Nat
  half : Nat
  relays : List Nat
  safety : List Nat
  nekSwitch : Nat
  nekIdx : Nat
  neks : SMap (List Byte)
  fcnt : Nat
  kek : List Byte
  links : SMap BbnLink
  costs : SMap (Nat × Nat)
  downs : List Nat
  members : SMap BbnMember
  ids : List (Nat × Nat)
  paths : SMap (List Nat)
  pollSeq : Nat
  lastPolled : Nat
  down : SMap (List (List Byte))
  admFails : List (Nat × Nat)
  ignored : List (Nat × Nat)
  requests : List (Nat × Nat)
  adm : Option BbnAdm
  up : List (List Byte)
  held : SMap (List (List Byte))
  fseq : Nat
  poll : Option BbnPoll
  join : Option BbnJoin
  passOn : List (List Byte)
  micFails : Nat
  linksDue : Bool
  vote : Option BbnVote
  takeover : Option Nat
  silent : Bool
  sent : List BbnTx
  deriving DecidableEq, Repr

/-- A node that is off. -/
def BbnSt.init : BbnSt :=
  { cycle := 0, epoch := 0, unheard := 0, coordLong := none, flags := 0, ntime := 0, clk := 0, zc := 0, half := 0,
    relays := [], safety := [], nekSwitch := 0, nekIdx := 0, neks := [], fcnt := 0, kek := [], links := [], costs := [],
    downs := [], members := [], ids := [], paths := [], pollSeq := 0, lastPolled := 0, down := [], admFails := [],
    ignored := [], requests := [], adm := none, up := [], held := [], fseq := 0, poll := none, join := none, passOn := [],
    micFails := 0, linksDue := false, vote := none, takeover := none, silent := true, sent := [] }

/-! ### Displays (chapter 14) -/

/-- The user display beside its registers: the forcing conditions in force (bit k − 1 for cause k of R420), consecutive
crack measurements out of range, the rail that faulted, the ELVSS setting reached (0.1 V), the layers in force, the
phase of each running blink unit as (shown, frames passed), the last readings of the light sensor (latest first) and
its consecutive failures, the brightness target, the level last sent, and whether this frame's underrun fault has been
raised. -/
structure DpySt where
  causes : Nat
  crackRun : Nat
  railBad : Bool
  elvss : Nat
  layers : Nat
  blink : SMap (Bool × Nat)
  lux : List Nat
  alsBad : Nat
  target : Nat
  sent : Option Nat
  underrun : Bool
  deriving DecidableEq, Repr

/-- The user display right after reset. -/
def DpySt.init : DpySt := ⟨0, 0, false, 30, 0, [], [], 0, 0, none, false⟩

/-- A running update of a region: the segments' old and new content, the frames driven, and N. -/
structure BdyRun where
  old : Nat
  new : Nat
  frame : Nat
  n : Nat
  deriving DecidableEq, Repr

/-- The legal display beside its registers: the committed image and the balance ledger (in the catalogue, R433), the
running updates and pending requests by region, the operating seconds at which each region's last update started, and
the recovery of R434: 0 none, 1 driving the ledger to 0, 2 full refresh, with its frames driven and N. -/
structure BdySt where
  image : Nat
  ledger : SMap Int
  run : SMap (Option BdyRun)
  wait : SMap (Option Nat)
  started : SMap Nat
  phase : Nat
  frame : Nat
  n : Nat
  deriving DecidableEq, Repr

/-- A legal display with every segment clear and in balance. -/
def BdySt.init : BdySt := ⟨0, [], [], [], [], 0, 0, 0⟩

/-! ### Load switches (chapter 13) -/

/-- A high-side channel beside its registers. -/
structure HsSt where
  foldAtUv : Bool     -- the channel was in fold-back when its group went off (R407)
  heatRestart : Bool  -- the next automatic enable is a thermal restart (R406)
  openRaised : Bool   -- the present open-load verdict has raised its fault (R408)
  startOn : Bool      -- START_ON of its LOADSW entry
  deriving DecidableEq, Repr

/-- A channel right after reset. -/
def HsSt.init : HsSt := ⟨false, false, false, false⟩

/-- The load switches beside their registers: per channel, the channels each group still has to restart in order, and
the consecutive unusable readings of each heater. -/
structure LswSt where
  ch : SMap HsSt
  restart : SMap (List Nat)
  bad : SMap Nat
  deriving DecidableEq, Repr

/-! ### Safety part (chapter 12) -/

/-- A function as one half sees it (R375, R378): state 0 DEMAND, 1 AWAIT, 2 RUN, 3 FAULT; BOTH; the two pair counts of
R370; the faulted pairs with the first sample of R372 seen; the samples since it last left RUN; and, for TYPE 4, the
samples left on the synchronism timer. -/
structure FnSt where
  st : Nat
  both : Bool
  cnt0 : Nat
  cnt1 : Nat
  bad0 : Bool
  bad1 : Bool
  seen0 : Bool
  seen1 : Bool
  since : Nat
  sync : Nat
  deriving DecidableEq, Repr

/-- A function before the functions start. -/
def FnSt.init : FnSt := ⟨0, true, 0, 0, false, false, false, false, 0, 0⟩

/-- One half: its last readings (bit k for SI[k]), the filtered levels, the run of samples that read a new level, its
functions, its LSE and inhibit commands, the mode it acts on, the SEQ of its next frame, the frame it sent last, its
verdicts still to be reported, the switch tests that hold a transistor off, and consecutive disagreeing exchanges. -/
structure HalfSt where
  read : Nat
  filt : Nat
  run : SMap Nat
  fn : SMap FnSt
  lse : Nat
  pmi : Bool
  mode : Nat
  seq : Nat
  sent : Nat
  rxSeq : Option Nat
  verdicts : List Nat
  testBad : Nat
  disagree : Nat
  deriving DecidableEq, Repr

/-- A half before the functions start. -/
def HalfSt.init : HalfSt := ⟨0, 0, [], [], 0, false, 0, 0, 0, none, [], 0, 0⟩

/-- What a receiver holds for remote input r and its sender (R384 to R386). -/
structure RemSt where
  seq : Option Nat          -- last SEQ accepted
  body : Nat                -- bytes 0 to 13 of the last accepted copy
  gotB : Bool               -- a backbone copy of that SEQ was accepted
  gotE : Bool               -- an ETH[1] copy of that SEQ was accepted
  bit0 : Bool               -- a copy of that SEQ showed the bit as 0
  missB : Nat               -- consecutive SEQs without a backbone copy
  missE : Nat
  okRun : Nat               -- consecutive SEQs with both copies, while single
  single : Bool             -- R385 applies
  expired : Bool            -- SINGLE_T has passed
  mismatch : Bool           -- R384 makes the inputs read demand
  paused : Bool             -- the last accepted copy carries PAUSE, within 30 s
  alive : Bool              -- a copy was accepted within WD_T
  deriving DecidableEq, Repr

/-- A remote input before its first accepted copy. -/
def RemSt.init : RemSt := ⟨none, 0, false, false, false, 0, 0, 0, false, false, false, false, false⟩

/-- The safety part beside its registers. -/
structure SafSt where
  cur : HalfSt
  kpr : HalfSt
  pulseBad : Nat            -- SI inputs with a pulse fault (bit k)
  pulseFails : SMap Nat     -- consecutive failed checks of SI[k]
  pulseOks : SMap Nat       -- consecutive passed checks of SI[k] while faulted
  tpoBad : SMap Nat         -- consecutive wrong readbacks of TPO[t]
  tpoOk : SMap Nat          -- consecutive correct pulses of TPO[t] while faulted
  stuck : Nat               -- reset inputs whose next falling edge is ignored (bit k)
  testDue : Nat             -- switch tests waiting for their outlet's state (bit n)
  rem : SMap RemSt
  msgSeq : Nat              -- SEQ of the next safety message
  pause : Bool              -- PAUSE is set in the message
  curHold : Bool            -- the Curator's gate command has been refreshed within 2 ms
  lastCycle : Option Nat    -- CYCLE_NO at which the last safety message was sent
  singleS : Nat             -- seconds left of SINGLE_T
  deriving DecidableEq, Repr

/-- Tamper supervision and battery metering beside their registers (chapter 05): the actions in force by kind of tamper,
and the kinds whose sticky bit has been cleared since (R173); pulses missed in a row by each dynamic loop; the DORMANT
FIFO as (input, open, RTC time) and the changes it lost (R171); the battery accumulators (R168): EST_MVAH, COUNTED_S,
BYP_S and IPEAK in mA; NOM_V, RATED_I and whether battery metering is enabled, as copied to the AON domain (R167); the
RTC readings of the last entry into DORMANT, power-fail warning and core under-voltage (R158, R163); and whether VBAT
was below 2.2 V in DORMANT. -/
structure TmpSt where
  acts : SMap Nat
  acked : List Nat
  missed : SMap Nat
  fifo : List (Nat × Bool × Int)
  lost : Nat
  est : Rat
  counted : Nat
  byp : Nat
  ipeak : Nat
  battNom : Nat
  battRated : Nat
  battOn : Bool
  dormFrom : Int
  pfStamp : Option Int
  uvStamp : Option Int
  vbatLow : Bool
  deriving DecidableEq, Repr

/-! ### Metrology (chapters 03 and 04) -/

/-- A channel of the metrology engine beside its registers (R96): the integrator's last input and output, the
high-pass filter's last input and output, the last values before the delay of R97 (latest first), and the over-range
and valid samples of the running quantum. -/
structure ChSt where
  u : Int
  y : Int
  hpIn : Int
  hpOut : Int
  hist : List Int
  overs : Nat
  valid : Nat
  deriving DecidableEq, Repr

/-- A channel before its first sample. -/
def ChSt.init : ChSt := ⟨0, 0, 0, 0, [], 0, 0⟩

/-- A sensor link beside its registers (R94, R102 to R104): the last element samples and conductor estimates, the
consecutive discarded frames, the sum b2 of the quantum in µT² with its frames, HSTAT bit 13, whether the head
differs from its binding (R117), and whether R104 has applied since the start. -/
structure LinkSt where
  elem : List Int
  cond : List Int
  bad : Nat
  b2 : Rat
  frames : Nat
  selfTest : Bool
  unbound : Bool
  fieldBad : Bool
  deriving DecidableEq, Repr

/-- A link before its first frame. -/
def LinkSt.init : LinkSt := ⟨[], [], 0, 0, 0, false, false, false⟩

/-- A phase current of a meter (R107 to R113): where it stands (0 primary, 1 reference, 2 start-up verification), the
causes that keep it on its reference (bit 0 disagreement, 1 lost link, 2 until the next start), consecutive counting
quanta, consecutive disagreeing quanta and Σ(I_p − I_r) over them in mA, what the last quantum was booked from
(0 primary, 1 reference, 2 nothing), whether a change to the reference has been recorded, the quanta without source
and the QSERIAL of their first, and whether the reference is unusable. -/
structure MetPh where
  src : Nat
  cause : Nat
  agree : Nat
  dis : Nat
  disSum : Rat
  booked : Nat
  switched : Bool
  noSrc : Nat
  noSrcFrom : Nat
  refBad : Bool
  deriving DecidableEq, Repr

/-- A phase before its first quantum. -/
def MetPh.init : MetPh := ⟨0, 0, 0, 0, 0, 2, false, 0, 0, false⟩

/-- A meter beside its registers (R132 to R135): f_est in Hz, the last DFT angle in 2^-32 turn, the count of good
cycles, f_meas of the cycles that ended in the quantum, the last published frequency, whether a voltage qualified for
tracking in the last quantum, the samples of the quantum that whole cycles hold, and those of the running cycle that
an earlier quantum has counted. -/
structure MeterSt where
  fEst : Rat
  xPrev : Int
  good : Nat
  cyc : List Rat
  fPub : Rat
  tracks : Bool
  doneN : Nat
  runUsed : Nat
  deriving DecidableEq, Repr

/-- A meter at start: f_est is 50 Hz (R132). -/
def MeterSt.init : MeterSt := ⟨50, 0, 0, [], 50, false, 0, 0⟩

/-- What R135 keeps for a phase and candidate: the sum over the quantum's samples, the last complete cycle, and the
values at which the running cycle was counted at the last close. -/
structure FundSt where
  acc : CycSum
  last : CycSum
  used : CycSum
  deriving DecidableEq, Repr

/-- Nothing kept. -/
def FundSt.init : FundSt := ⟨CycSum.zero, CycSum.zero, CycSum.zero⟩

/-- An open power-quality event (R147 to R149): meter, record type, phases, start (ms and wall time) and extreme. -/
structure PqOpen where
  meter : Nat
  ty : Nat
  phases : Nat
  startMs : Nat
  wall : Nat
  extreme : Nat
  deriving DecidableEq, Repr

/-- The accuracy test (R114): its phases (4 × meter + phase) each with the counting quanta and the sums of I_p² and
I_r² in mA², and the quanta it has run. -/
structure AccTest where
  phases : List (Nat × Nat × Rat × Rat)
  quanta : Nat
  deriving DecidableEq, Repr

/-- The metrology engine beside its registers: the set in force by block number (R115); the blocks, COMMIT_NO and
SET_CRC that come into force at the next boundary (R122); a running commit's blocks and SRC; channels, links; the
channel outputs of the running quantum's samples; phases (4 × meter + phase), meters; the carries of R131; the cycle
figures; open power-quality events; the accuracy test; the samples of the last closed quantum and whether it was
partial; and the seal changes latched in DORMANT (R119). -/
structure MetSt where
  set : SMap (List Byte)
  next : Option (List (Nat × List Byte) × Nat × Nat)
  commit : Option (List (Nat × List Byte) × Nat)
  ch : SMap ChSt
  link : SMap LinkSt
  run : List (SMap Int)
  ph : SMap MetPh
  meter : SMap MeterSt
  carry : SMap Rat
  fund : SMap FundSt
  pq : List PqOpen
  test : Option AccTest
  nqLast : Nat
  partLast : Bool
  sealLatch : List Nat
  deriving DecidableEq, Repr

/-- The RTC beside its registers (chapter 06): CORR in 1/32,768 s; the quantum within the second; whether a second edge
has passed since the last boundary; the K and RTC second at which the running quantum started (R144); the running slew
as (Δ, boundaries done) and the step that waits as (Δ, source), in 1/32,768 s (R183 to R185); and the TICK of each
source's last accepted request that still holds off others, and of the last accepted request of all (R182). -/
structure RtcSt where
  corr : Int
  k : Nat
  edge : Bool
  qK : Nat
  qSec : Nat
  slew : Option (Int × Nat)
  step : Option (Int × Nat)
  hold : SMap Nat
  lastOk : Option Nat
  deriving DecidableEq, Repr

/-- The running demand interval (R193): its nominal start and end as readings in 1/327,680 s, its length in minutes,
the sums of AI_T, AE_T, AI_F and AE_F in mWh (4 × meter + sum), the directions seen per meter (bits of those sums),
flags, quanta booked, and the rates of its last quantum. -/
structure Interval where
  start : Int
  nomEnd : Int
  len : Nat
  sum : SMap Nat
  dir : SMap Nat
  flags : Nat
  quanta : Nat
  rateI : Nat
  rateE : Nat
  deriving DecidableEq, Repr

/-- A closed billing period (R197): its number, readings, flags and QSERIAL; its registers and maxima, keyed as in
`BilSt`. -/
structure Period where
  number : Nat
  opened : Int
  closed : Int
  flags : Nat
  qserial : Nat
  reg : SMap Nat
  maxima : SMap (Nat × Nat)
  deriving DecidableEq, Repr

/-- The billing store (R155, R176, R177, R193 to R203): residues keyed 22 × meter + QTY; registers keyed
(22 × meter + QTY) × 17 + rate, 16 for all rates; maxima keyed (4 × meter + sum) × 17 + rate as (mW, END_SEC); the
running interval; the load profile by index with its head and count, each record one little-endian number; the open
period's number and opening reading; the history, latest first; the high-water mark; and the active calendar. -/
structure BilSt where
  res : SMap Nat
  reg : SMap Nat
  maxima : SMap (Nat × Nat)
  interval : Option Interval
  profile : SMap Nat
  head : Nat
  count : Nat
  period : Nat
  opened : Int
  history : List Period
  hwm : Option Int
  active : List Byte
  deriving DecidableEq, Repr

/-- The billing engine before its first folio. -/
def BilSt.init : BilSt := ⟨[], [], [], none, [], 0, 0, 1, 0, [], none, []⟩

/-- The tariff engine beside its registers: the armed calendar with its ACT_SEC, the copy of it in the billing store
(R191), the passive calendar, and whether a period close has been requested and VALID was 1 at the last boundary. The
last three are the model's own marks within a boundary: that a demand interval, and a period, has closed, and the
nominal start of the next interval. -/
structure TarSt where
  armed : Option (List Byte × Nat)
  armedNv : Option (List Byte × Nat)
  passive : Bytes
  closeGo : Bool
  wasValid : Bool
  demandClosed : Bool
  periodClosed : Bool
  nextStart : Int
  deriving DecidableEq, Repr

/-- A replay window (R226): the highest applied serial, and the applied serials from it down (bit i: H − i). -/
structure Window where
  high : Nat
  bits : Nat
  deriving DecidableEq, Repr

/-- A submission in the FIFO of R223: source (0 host, 1 backbone, 2 card, 3 keypad), TAG, carrel, whether it is a short
code, and its 96 bytes or 24 digits. -/
structure Submission where
  src : Nat
  tag : Nat
  carrel : Nat
  short : Bool
  data : List Byte
  deriving DecidableEq, Repr

/-- A voucher that has passed its checks (R224, R225). -/
structure Voucher where
  src : Nat
  tag : Nat
  carrel : Nat
  short : Bool
  kind : Nat
  issuer : Nat
  serial : Nat
  amount : Nat
  target : Nat
  unchecked : Bool
  deriving DecidableEq, Repr

/-- The credit records that a folio commits (R155, R225, R234): C and O, the site residue, the last charge, whether a
site stop is in force and whether CRD_SITE_LOW may be raised again; the windows by issuer, the retired marks (oldest
first), and the voucher journal by index with its head. -/
structure CrdNv where
  c : Int
  owed : Nat
  res : Nat
  lastChg : Int
  stopped : Bool
  lowSeen : Bool
  windows : SMap Window
  retired : List (Nat × Nat)
  journal : SMap Nat
  jHead : Nat
  deriving DecidableEq, Repr

/-- No credit. -/
def CrdNv.init : CrdNv := ⟨0, 0, 0, 0, false, false, [], [], [], 0⟩

/-- The credit engine beside its registers: the committed part; requests for emergency credit that wait; the submission
FIFO; pending vouchers; vouchers applied at boundaries whose folio is not yet committed, with the QSERIAL; the
operating seconds of MAC failures and the end of a lockout (R231); unusable issuers (R233). -/
structure CrdSt where
  nv : CrdNv
  asked : Nat
  fifo : List Submission
  pend : List Voucher
  applied : List (Nat × Voucher)
  macFails : List Nat
  lockEnd : Option Nat
  badIssuers : List Nat
  deriving DecidableEq, Repr

/-- A folio (R155): QSERIAL, billing store, credit records, carries, the reading of the boundary, PWR.OPSEC, P_Σ of each
meter in mW, and whether it is that of a flush. -/
structure Folio where
  qserial : Nat
  bil : BilSt
  crd : CrdNv
  carry : SMap Rat
  reading : Int
  opsec : Nat
  psum : SMap Int
  flush : Bool
  deriving DecidableEq, Repr

/-- Persistence beside its registers (chapter 05): QSERIAL of the last booked quantum; the folio in force; the folios
whose commit word is still to be written, oldest first, each with whether PWR_PERSIST_LATE has been raised; the flush
marker; whether a flush was started and cut since the folio in force; and the reading at which an activation closed its
quantum, when the next start books the span from there
(R487); and the PWR.CYCLES in which metering last ran (R166). -/
structure PerSt where
  qserial : Nat
  folio : Option Folio
  waiting : List (Folio × Bool)
  marker : Bool
  cut : Bool
  planned : Option Int
  cycle : Nat
  deriving DecidableEq, Repr

/-! ### Keys and update (chapter 16) -/

/-- A key slot (R466): kind, attribute bits, KEY_ID, generation, KCV, whether it is persistent, the copy in force, and
its material, big-endian. -/
structure KeySlot where
  kind : Nat
  attr : Nat
  keyId : Nat
  gen : Nat
  kcv : Nat
  persist : Bool
  copy : Nat
  material : List Byte
  deriving DecidableEq, Repr

/-- An empty slot. -/
def KeySlot.empty : KeySlot := ⟨0, 0, 0, 0, 0, false, 0, []⟩

/-- A persistent slot in the closed stacks (R474): the commit word's SEL and GEN, and copies A and B (kind 0: all
zero). -/
structure KeyNv where
  sel : Nat
  gen : Nat
  a : KeySlot
  b : KeySlot
  deriving DecidableEq, Repr

/-- Nothing stored. -/
def KeyNv.empty : KeyNv := ⟨0, 0, KeySlot.empty, KeySlot.empty⟩

/-- The key store: the slots, the closed stacks partition, the fuse steps taken and the scrap step (R460), and the
anchor fuses of slots 1 and 2 (R467). -/
structure KeySt where
  slots : SMap KeySlot
  nv : SMap KeyNv
  steps : Nat
  scrap : Bool
  anchor1 : KeySlot
  anchor2 : KeySlot
  locked : Bool             -- the slots are locked for a test or for scan (R517)
  deriving DecidableEq, Repr

/-- A part of a colophon: KIND, VERSION and SHA-384. -/
structure Part where
  kind : Nat
  version : Nat
  hash : Nat
  deriving DecidableEq, Repr

/-- A firmware bank (R480, R488): BANK_WORD, the arming record, the signed region with its signature block, and the
part set the bank holds. -/
structure Bank where
  st : Nat
  cyc : Nat
  gen : Nat
  armed : Option (Nat × Nat)    -- POLICY and ACT_TIME
  region : List Byte
  parts : List Part
  deriving DecidableEq, Repr

/-- A bank that is empty. -/
def Bank.empty : Bank := ⟨0, 0, 0, none, [], []⟩

/-- The update engine beside its registers: the two banks. -/
structure UpdSt where
  a : Bank
  b : Bank
  deriving DecidableEq, Repr

/-- The card reader and the embedded tag beside their registers (chapter 15): the ping baseline in the register's
units, the pings that woke in a row, the operating seconds of the recent false wakes, the cards listed as
(Type B, UID or PUPI), the tag's keys, the FeRAM bytes (256 × page + offset), its password and access bytes, the last
CHALLENGE as (key, NR, NT), the last answer on the air, the runtime bytes of the last snapshot, and whether
TAG_AUTH_LOCK waits for the next start. -/
structure NfcSt where
  base : Option (Rat × Rat)
  wakes : Nat
  falseAt : List Nat
  cards : List (Bool × List Byte)
  tagKeys : SMap (List Byte)
  tagMem : Bytes
  tagPwd : Nat
  tagAccess : List Nat
  chal : Option (Nat × List Byte × List Byte)
  answer : List Byte
  runtimeBytes : List Byte
  lockPend : Bool
  deriving DecidableEq, Repr

/-- An entry of the retirement map (R519, R524): KIND, unit, good count and location. -/
structure Retired where
  kind : Nat
  unit : Nat
  good : Nat
  loc : Nat
  deriving DecidableEq, Repr

/-- The BIST controller beside its registers (chapter 18): the groups on the two lanes and those still to start; the
spares used by soft repair, by macro (2 × macro, one more for MRAM); the retirement map, the units retired for the
present start only, and the soft-repair history of the last start; whether a slice waits for its grant; and whether scan
is enabled. -/
structure BistSt where
  lane0 : Option Nat
  lane1 : Option Nat
  todo : List Nat
  spares : SMap Nat
  map : List Retired
  now : List (Nat × Nat)
  history : SMap Nat
  sliceDue : Bool
  scan : Bool
  deriving DecidableEq, Repr

/-- Nothing tested, nothing retired. -/
def BistSt.init : BistSt := ⟨none, none, [], [], [], [], [], false, false⟩

/-- The A16. -/
structure State where
  regs : RegFile            -- every register field
  free : Nat                -- the next free value (the model's own)
  pending : List Instr      -- commands that wait, first in, first out
  sys : SysSt
  cat : CatSt
  flt : FltSt
  evr : EvrSt
  qs : SMap Queue           -- Q[0..31]
  hostPort : Port
  rtPort : Port
  hp : HpSt
  sets : SMap BindSet       -- BND.SET[0..3]
  bindNo : Nat              -- the order of BIND commands
  fab : FabSt
  outs : SMap OutSt
  crl : CrlSt
  vpl : SMap VplSt
  fft : FftSt
  bbn : BbnSt
  dpy : DpySt
  bdy : BdySt
  lsw : LswSt
  saf : SafSt
  tmp : TmpSt
  met : MetSt
  per : PerSt
  rtc : RtcSt
  bil : BilSt
  tar : TarSt
  crd : CrdSt
  key : KeySt
  upd : UpdSt
  nfc : NfcSt
  bist : BistSt
  pushed : List Nat        -- queues that hardware has pushed to within the step (the model's own; empty between steps)
  moved : Bool             -- the mode has changed within the step (the model's own; false between steps)
  deriving DecidableEq, Repr

/-! ### The state after reset -/

/-- The bank that the factory has filled (log entry 43): confirmed, generation 1. -/
def Bank.factory (st : Nat) : Bank := ⟨st, 0, 1, none, [], []⟩

/-- The system controller after reset: LOADING, boot loader verified, no image read (R69). -/
def SysSt.init : SysSt :=
  { unpowered := false, resetLow := false, freeRun := false, secCycles := 300000000, discBad := 0,
    sections := [], imgValid := false, startMode := 0, startStep := 4, shelf := [], shelfBody := [], shelfId := [],
    unmatched := [], baseMode := 1, rideReturn := 0, warmReturn := 0, warmRun := false, warmMax := 0, warmLost := false, flushing := false,
    splitQ := false, shutStep := 0, degr := [], pgOut := true, clkMod := true, imgSigKind := 0, imgSigOk := false }

/-- Slot 0: the vendor anchor of the fuses (R467). -/
def vendorSlot : KeySlot :=
  ⟨7, 2 ^ 9, Config.vendorKeyId, 0, Config.sha256 Config.vendorAnchor / 2 ^ 224 % 2 ^ 32, false, 0, Config.vendorAnchor⟩

/-- The machine right after reset, first power-up of a BLANK device: every register field at its reset value, MODE.STATUS
showing LOADING, every store and queue empty (R57, R69, R460). -/
def State.reset : State :=
  { regs := [], free := 0, pending := [], sys := SysSt.init
    cat := { credit := none, commission := none, seqLc3 := 0, operSlot := 0xFF, utilSlot := 0xFF, halvesOpsec := none }
    flt := { table := [], causes := [], errMin := false, todo := [] }
    evr := { acc := [], circ := [], legal := [], rnoMark := 1, circHead := 0, lostSince := 0, retired := [] }
    qs := [], hostPort := ⟨0, 0, 0, [], none, false⟩, rtPort := ⟨0, 0, 0, [], none, false⟩
    hp := { challenge := none, handed := [], active := none, idleT := 10, answer := [], answerCrc := 0, answerMark := 0xF,
            rroom := [], ospi := [], retiredPages := [] }
    sets := [], bindNo := 0, fab := { beat := 0, waiting := [], log := [] }
    outs := []
    crl := { recs := [], copies := [], sessCopy := none, changed := [], feeDue := [], fewArmed := true }
    vpl := [], fft := { waiting := [], busy := [] }, bbn := BbnSt.init, dpy := DpySt.init, bdy := BdySt.init
    lsw := { ch := [], restart := [], bad := [] }
    saf := { cur := HalfSt.init, kpr := HalfSt.init, pulseBad := 0, pulseFails := [], pulseOks := [], tpoBad := [],
             tpoOk := [], stuck := 0, testDue := 0, rem := [], msgSeq := 0, pause := false, curHold := false,
             lastCycle := none, singleS := 0 }
    tmp := { acts := [], acked := [], missed := [], fifo := [], lost := 0, est := 0, counted := 0, byp := 0, ipeak := 0,
             battNom := 0, battRated := 0, battOn := false, dormFrom := 0, pfStamp := none, uvStamp := none,
             vbatLow := false }
    met := { set := [], next := none, commit := none, ch := [], link := [], run := [], ph := [], meter := [], carry := [],
             fund := [], pq := [], test := none, nqLast := 0, partLast := false, sealLatch := [] }
    per := { qserial := 0, folio := none, waiting := [], marker := false, cut := false, planned := none, cycle := 0 }
    rtc := { corr := 0, k := 0, edge := false, qK := 0, qSec := 0, slew := none, step := none, hold := [], lastOk := none }
    bil := BilSt.init
    tar := { armed := none, armedNv := none, passive := [], closeGo := false, wasValid := false, demandClosed := false,
             periodClosed := false, nextStart := 0 }
    crd := { nv := CrdNv.init, asked := 0, fifo := [], pend := [], applied := [], macFails := [], lockEnd := none,
             badIssuers := [] }
    key := { slots := [(0, vendorSlot)], nv := [], steps := 0, scrap := false, anchor1 := KeySlot.empty,
             anchor2 := KeySlot.empty, locked := false }
    upd := ⟨Bank.factory 2, Bank.factory 3⟩
    nfc := { base := none, wakes := 0, falseAt := [], cards := [], tagKeys := [], tagMem := [], tagPwd := 0,
             tagAccess := [], chal := none, answer := [], runtimeBytes := [], lockPend := false }
    bist := BistSt.init, pushed := [], moved := false }

end Sys2Proof.Machine
end

