-- ==== Sys2Proof/Machine/Ops.lean ====
section
/-!
DEFINITION. The named operations over the state that every family uses: reading and writing register fields, free
values, check sums, event records, hardware queues, and the state machine of the units of R50.
-/
namespace Sys2Proof.Machine

/-- What a meaning answers. -/
abbrev Out := Host.Outcome State Fault Refusal

/-! ### Register fields -/

/-- The stored value of a field. -/
def State.rd (s : State) (f : Fld) : Nat := s.regs.rd f

/-- A field written (cut to its width). -/
def State.wr (s : State) (f : Fld) (v : Nat) : State := { s with regs := s.regs.wr f v }

/-- Whether a one-bit field is 1. -/
def State.bit (s : State) (f : Fld) : Bool := s.rd f == 1

/-- A one-bit field written. -/
def State.setB (s : State) (f : Fld) (b : Bool) : State := s.wr f (b2n b)

/-- A count incremented, saturating at the largest value of its field. -/
def State.inc (s : State) (f : Fld) : State := s.wr f (min (2 ^ f.w - 1) (s.rd f + 1))

/-- A count incremented, wrapping at the width of its field. -/
def State.incWrap (s : State) (f : Fld) : State := s.wr f (s.rd f + 1)

/-- The signed value of a field. -/
def State.rdI (s : State) (f : Fld) : Int := toInt f.w (s.rd f)

/-- A signed value written. -/
def State.wrI (s : State) (f : Fld) (v : Int) : State := s.wr f (ofInt f.w v)

/-- Bit `n` of a field used as a set of flags. -/
def State.flag (s : State) (f : Fld) (n : Nat) : Bool := Nat.testBit (s.rd f) n

/-- A number with bit `n` set or cleared. -/
def putBit (v n : Nat) (b : Bool) : Nat :=
  if Nat.testBit v n = b then v else if b then v + 2 ^ n else v - 2 ^ n

/-- Bit `n` of a field written. -/
def State.setFlag (s : State) (f : Fld) (n : Nat) (b : Bool) : State := s.wr f (putBit (s.rd f) n b)

/-- The current mode code (R57). -/
def State.mode (s : State) : Nat := s.rd Reg.MODE.STATUS.MODE

/-- The life-cycle state (R20). -/
def State.lc (s : State) : Nat := s.rd Reg.MODE.STATUS.LC

/-- Whether the core runs: some mode from LOADING to LOCKDOWN, RESET_N high. -/
def State.running (s : State) : Bool := !s.sys.unpowered && s.mode ≠ 0 && !s.sys.resetLow

/-- A register word as its fields store it; 0 at an address that names no register. -/
def State.word (s : State) (a : Nat) : Nat :=
  match findReg a with
  | none => 0
  | some d => d.fields.foldl (fun v (f : FldDesc) => v + s.rd ⟨a, f.lo, f.hi - f.lo + 1⟩ * 2 ^ f.lo) 0

/-- Every field of a register word written. -/
def State.setWord (s : State) (a v : Nat) : State :=
  match findReg a with
  | none => s
  | some d => d.fields.foldl (fun s (f : FldDesc) => s.wr ⟨a, f.lo, f.hi - f.lo + 1⟩ (v / 2 ^ f.lo)) s

/-- SYS.UNIT_ID_LO: the low half of the unit identifier in its fuses. -/
def unitLo : Nat := Config.unitId % 2 ^ 32

/-- SYS.UNIT_ID_HI. -/
def unitHi : Nat := Config.unitId / 2 ^ 32 % 2 ^ 32

/-! ### The set in force of the metrology engine (R115) -/

/-- The data of a constant block. -/
def State.block (s : State) (b : Nat) : List Byte := mapGet (fun _ => []) s.met.set b

/-- The `n`-byte number at offset `off` of a constant block in force. -/
def State.inForce (s : State) (b off n : Nat) : Nat := leValue (((s.block b).drop off).take n)

/-- TYPE of METER[m] in force. -/
def State.meterType (s : State) (m : Nat) : Nat := s.inForce m 0 4 % 4

/-- NOM_V of METER[m] in force, V. -/
def State.nomV (s : State) (m : Nat) : Nat := s.inForce m 0 4 / 4 % 4096

/-- RATED_I of METER[m] in force, A. -/
def State.ratedI (s : State) (m : Nat) : Nat := s.inForce m 0 4 / 65536

/-! ### Free values -/

/-- The next free value, and the state that has used it. -/
def State.fresh (s : State) : Nat × State := (Config.freeValue s.free, { s with free := s.free + 1 })

/-- Random bits from the DRBG, below `2 ^ bits`. -/
def State.draw (s : State) (bits : Nat) : Nat × State :=
  (Config.random s.free % 2 ^ bits, { s with free := s.free + 1 })

/-! ### Check sums -/

/-- One step of a most-significant-bit-first CRC of width `w`. -/
def crcBit (w poly c : Nat) (b : Bool) : Nat :=
  let top := Nat.testBit c (w - 1) != b
  let c' := (c * 2) % 2 ^ w
  if top then Nat.xor c' poly else c'

/-- A most-significant-bit-first CRC over the `n` low bits of `v`, highest first. -/
def crcBits (w poly : Nat) : Nat → Nat → Nat → Nat
  | 0, _, c => c
  | n + 1, v, c => crcBits w poly n v (crcBit w poly c (Nat.testBit v n))

/-- CRC-16 of R93 and R263: polynomial 0x1021, initial value 0xFFFF, over bytes. -/
def crc16 (l : List Byte) : Nat := l.foldl (fun c b => crcBits 16 0x1021 8 b.toNat c) 0xFFFF

/-- CRC-6 of R354: polynomial x^6 + x + 1, initial value 0, over the 58 bits [63:6] of an exchange frame. -/
def crc6 (v : Nat) : Nat := crcBits 6 0x03 58 v 0

/-- Eight steps of a reflected CRC. -/
def crcRefl (poly : Nat) : Nat → Nat → Nat
  | 0, c => c
  | n + 1, c => crcRefl poly n (if c % 2 = 1 then Nat.xor (c / 2) poly else c / 2)

/-- A reflected 32-bit CRC with initial value and final XOR of all ones. -/
def crc32With (poly : Nat) (l : List Byte) : Nat :=
  Nat.xor (l.foldl (fun c b => crcRefl poly 8 (Nat.xor c b.toNat)) 0xFFFFFFFF) 0xFFFFFFFF

/-- CRC-32 of IEEE 802.3 (R72, R501). -/
def crc32 (l : List Byte) : Nat := crc32With 0xEDB88320 l

/-- CRC-32C of R382: polynomial 0x1EDC_6F41, reflected. -/
def crc32c (l : List Byte) : Nat := crc32With 0x82F63B78 l

/-! ### Sections of the image in force -/

/-- The bytes of a section; empty when the image has none. -/
def State.sec (s : State) (t : Nat) : List Byte := mapGet (fun _ => []) s.sys.sections t

/-- The `n`-byte little-endian number at offset `off` of a list of bytes; absent bytes read as 0. -/
def leAt (l : List Byte) (off n : Nat) : Nat := leValue ((l.drop off).take n)

/-- The `n`-byte big-endian number at offset `off` of a list of bytes. -/
def beAt (l : List Byte) (off n : Nat) : Nat := beValue ((l.drop off).take n)

/-- A field of a section of the image in force, little-endian. -/
def State.cfg (s : State) (t off n : Nat) : Nat := leAt (s.sec t) off n

/-- A field of OUT[n]'s entry in the OUTLETS section (R237). -/
def State.outCfg (s : State) (n off len : Nat) : Nat := s.cfg 6 (64 * n + off) len

/-! ### The time of the device -/

/-- (TICK * 10 + k) * 32,768 + CORR * 10: the RTC reading in units of 1/327,680 s at the last quantum boundary
(R179). -/
def State.reading (s : State) : Int :=
  ((s.rd Reg.RTC.TICK.SECONDS * 10 + s.rtc.k) * 32768 : Int) + s.rtc.corr * 10

/-- The RTC reading in whole seconds. -/
def State.rtcSec (s : State) : Nat := (s.reading / 327680).toNat

/-- UTC Unix seconds, or 0 while RTC.STATUS.VALID = 0 (R499). -/
def State.wall (s : State) : Nat :=
  if s.bit Reg.RTC.STATUS.VALID then s.rtcSec - s.rd Reg.RTC.LEAP.TAI_UTC else 0

/-! ### Queues -/

/-- The item size of each queue in words (R540). -/
def qWords (n : Nat) : Nat :=
  if n = 4 || n = 6 || n = 10 || n = 16 then 2
  else if n = 5 || n = 15 then 8
  else if n = 7 || n = 8 || n = 17 || n = 18 then 4
  else 16

/-- The queue `n`. -/
def State.q (s : State) (n : Nat) : Queue := mapGet (fun _ => Queue.empty) s.qs n

/-- The queue `n` replaced. -/
def State.setQ (s : State) (n : Nat) (q : Queue) : State :=
  { s with qs := mapSet (fun _ => Queue.empty) s.qs n q }

/-- The level: the items in the chain, the tail register and the annex (R541). -/
def Queue.level (q : Queue) : Nat := q.chain.length + q.annex.length + (if q.tail.isSome then 1 else 0)

/-- The capacity in items: 8 stages and 32,768 / (8 × W) in the annex; 8 when the annex segment is retired. -/
def State.qCap (s : State) (n : Nat) : Nat :=
  if s.flag Reg.SYS.CAP_ANNEX.SEG n then 8 + 32768 / (8 * qWords n) else 8

/-- The spill of R541: the item in the tail register goes into the annex behind the items there. -/
def Queue.spill (q : Queue) : Queue :=
  match q.tail with
  | none => q
  | some i => { q with tail := none, annex := q.annex ++ [i] }

/-- The refill of R541: the oldest annex item takes stage 7. -/
def Queue.refill (q : Queue) : Queue :=
  match q.annex with
  | [] => q
  | i :: r => if q.chain.length < 8 then { q with chain := q.chain ++ [i], annex := r } else q

/-- An item accepted: it drops to the lowest empty stage, or enters the tail register when the chain is full or the
annex holds items (R541). -/
def Queue.put (q : Queue) (i : Item) : Queue :=
  if q.chain.length < 8 && q.annex.isEmpty && q.tail.isNone then { q with chain := q.chain ++ [i] }
  else { q with tail := some i }

/-- Whether a push is refused (R542): the level equals the capacity, or the tail register is occupied. -/
def State.qRefuses (s : State) (n : Nat) : Bool := s.qCap n ≤ (s.q n).level || (s.q n).tail.isSome

/-- Recorder time's milliseconds: not driven by any command, so a free value below 1,000 (log entry 5). -/
def State.recMs (s : State) : Nat × State := let (v, s) := s.fresh; (v % 1000, s)

/-- The watermark rule of R545 after a push that raised the level from `was`. -/
def State.crossing (s : State) (n was : Nat) : State :=
  let wm := s.rd (Reg.Q.WM.WM n)
  let now := (s.q n).level
  if wm ≠ 0 && was < wm && wm ≤ now && !s.bit (Reg.Q.STATUS.WM_STK n) then
    let (ms, s) := s.recMs
    ((((s.setB (Reg.Q.STATUS.WM_STK n) true).wr (Reg.Q.WM_CAP.LEVEL n) now).wr (Reg.Q.WM_CAP.MS n) ms).wr
      (Reg.Q.WM_TIME.OPSEC n) (s.rd Reg.PWR.OPSEC.SECONDS))
  else s

/-- An item accepted into queue `n`, with its crossing. -/
def State.qAccept (s : State) (n : Nat) (i : Item) : State :=
  let was := (s.q n).level
  (s.setQ n ((s.q n).put i)).crossing n was

/-- A push by a hardware producer (R542): a refused item is dropped and counted; the first drop, and every drop on
Q[0] to Q[2], leaves its fault in `todo`. An item that follows another item of the same step finds that item's spill
done. -/
def State.hwPush0 (s : State) (n : Nat) (i : Item) : State :=
  let s := if s.pushed.contains n then s.setQ n (s.q n).spill else s
  let s := { s with pushed := n :: s.pushed }
  if s.qRefuses n then
    let first := !s.bit (Reg.Q.STATUS.DROP_STK n)
    let s := (s.inc (Reg.Q.COUNTS.DROPS n)).setB (Reg.Q.STATUS.DROP_STK n) true
    if n < 3 then { s with flt := { s.flt with todo := s.flt.todo ++ [(0x8603, n)] } }
    else if first then { s with flt := { s.flt with todo := s.flt.todo ++ [(0x0601, n)] } }
    else s
  else s.qAccept n i

/-! ### Event records (R501 to R508) -/

/-- A payload built from (offset, value) pairs. -/
def payloadOf : List (Nat × Nat) → Nat
  | [] => 0
  | (off, v) :: r => v * 256 ^ off + payloadOf r

/-- The item of a record in the recorder-input queue, laid out as R501 (CRC and GEN_B are formed in the slot). -/
def Rec.toItem (r : Rec) : Item :=
  ⟨[r.rno + r.ty * 2 ^ 32 + r.flags * 2 ^ 40 + r.ms * 2 ^ 48, r.cycle + r.opsec * 2 ^ 32,
    r.payload % 2 ^ 64, r.payload / 2 ^ 64 % 2 ^ 64, r.payload / 2 ^ 128 % 2 ^ 64, r.payload / 2 ^ 192 % 2 ^ 64,
    r.payload / 2 ^ 256 % 2 ^ 64, 0], 0⟩

/-- Word `w` of an item as it leaves the queue: 0 when poisoned. -/
def Item.word (i : Item) (w : Nat) : Nat := if Nat.testBit i.poison w then 0 else i.words.getD w 0

/-- The record an item of the recorder-input queue holds; a poisoned word reads as 0 and sets FLAGS bit 1 (R506). -/
def Item.toRec (i : Item) : Rec :=
  let w0 := i.word 0
  let w1 := i.word 1
  { rno := w0 % 2 ^ 32, ty := w0 / 2 ^ 32 % 256,
    flags := (if i.poison = 0 then w0 / 2 ^ 40 % 256 else putBit (w0 / 2 ^ 40 % 256) 1 true),
    ms := w0 / 2 ^ 48 % 2 ^ 16, cycle := w1 % 2 ^ 32, opsec := w1 / 2 ^ 32 % 2 ^ 32,
    payload := i.word 2 + i.word 3 * 2 ^ 64 + i.word 4 * 2 ^ 128 + i.word 5 * 2 ^ 192 + i.word 6 * 2 ^ 256 }

/-- An empty slot. -/
def Rec.empty : Rec := ⟨0, 0, 0, 0, 0, 0, 0⟩

/-- The record numbers run on: RNO_MARK is raised by 1,024 before a record would reach it (R508). -/
def State.takeRno (s : State) : Nat × State :=
  let n := s.rd Reg.EVR.NEXT_RNO.RNO
  let s := if s.evr.rnoMark ≤ n then { s with evr := { s.evr with rnoMark := s.evr.rnoMark + 1024 } } else s
  let s := s.wr Reg.EVR.NEXT_RNO.RNO (n + 1)
  (n, if 4096 < n + 1 then s.setB Reg.EVR.STATUS.ACC_FULL true else s)

/-- The number of free legal slots (R115). -/
def State.legalFree (s : State) : Nat := s.rd Reg.LEGAL.STATUS.FREE

/-- A record written to the next free legal slot (R507). -/
def State.legalWrite (s : State) (r : Rec) : State :=
  let slot := 8192 - s.legalFree
  let s := { s with evr := { s.evr with legal := mapSet (fun _ => Rec.empty) s.evr.legal slot r } }
  (s.wr Reg.LEGAL.STATUS.FREE (s.legalFree - 1)).wr Reg.EVR.LEGAL_NEXT.SLOT ((slot + 1) % 8192)

/-- The item placed in the recorder-input queue behind the items there; its predecessor's spill has had its time. -/
def State.recPut (s : State) (r : Rec) : State :=
  let s := s.setQ 15 (s.q 15).spill
  s.qAccept 15 r.toItem

/-- A record created now (R501, R502): it takes the next RNO, or waits without one before step 7 of R69 (R508). A
legal record is written to its slot, and its copy carries FLAGS bit 0. A full queue loses the record (R505). -/
def State.record (s : State) (ty payload : Nat) (legal : Bool) : State :=
  let (ms, s) := s.recMs
  let r : Rec := ⟨0, ty, 0, ms, s.rd Reg.PWR.CYCLES.COUNT, s.rd Reg.PWR.OPSEC.SECONDS, payload⟩
  let full := s.qCap 15 ≤ (s.q 15).level
  let lose := fun (s : State) =>
    let s := (s.inc Reg.EVR.LOST.COUNT).setB Reg.EVR.STATUS.LOST_STK true
    { s with evr := { s.evr with lostSince := s.evr.lostSince + 1 } }
  if !s.bit Reg.EVR.STATUS.RUN then
    if full then lose s else s.recPut { r with flags := b2n legal }
  else if legal && s.legalFree ≠ 0 then
    let (n, s) := s.takeRno
    let s := s.legalWrite { r with rno := n }
    if full then lose s else s.recPut { r with rno := n, flags := 1 }
  else if full then lose s
  else
    let (n, s) := s.takeRno
    s.recPut { r with rno := n }

/-- A drain of the recorder-input queue starts (R504); it opens with one RECORDS_LOST record when records were lost
since the last one (R505), and EVR_LOST follows. A running drain takes no second start. -/
def State.startDrain (s : State) : State :=
  if s.bit Reg.EVR.STATUS.DRAINING || !s.bit Reg.EVR.STATUS.RUN then s
  else
    let s := s.setB Reg.EVR.STATUS.DRAINING true
    if s.evr.lostSince = 0 then s
    else
      let (ms, s) := s.recMs
      let (n, s) := s.takeRno
      let r : Rec := ⟨n, 0x03, 0, ms, s.rd Reg.PWR.CYCLES.COUNT, s.rd Reg.PWR.OPSEC.SECONDS, s.evr.lostSince⟩
      let s := s.recPut r
      { s with evr := { s.evr with lostSince := 0 }, flt := { s.flt with todo := s.flt.todo ++ [(0x4901, 0)] } }

/-- The drain that R504 starts when the queue holds 256 records. -/
def State.drainAt256 (s : State) : State := if 256 ≤ (s.q 15).level then s.startDrain else s

/-! ### Units (R49 to R56) -/

/-- Where a unit keeps its state, P and discard counter, and the codes of its five states. -/
structure UnitRef where
  st : Fld
  pend : Fld
  disc : Fld
  off : Nat
  starting : Nat
  on : Nat
  stopping : Nat
  resting : Nat
  deriving DecidableEq, Repr

/-- The unit HS[c]. -/
def hsUnit (c : Nat) : UnitRef :=
  ⟨Reg.LSW.CH.STATUS.STATE c, Reg.LSW.CH.PEND.PEND c, Reg.LSW.CH.PEND.DISCARDS c, 0, 1, 2, 3, 4⟩

/-- The user display. -/
def dpyUnit : UnitRef := ⟨Reg.DPY.STATUS.STATE, Reg.DPY.PEND.PEND, Reg.DPY.PEND.DISCARDS, 0, 1, 2, 3, 4⟩

/-- How R55 takes an enable. -/
inductive Taken where
  | accepted | latched | discarded | refused
  deriving DecidableEq, Repr

/-- An enable request (R55, R51, R53): the way it is taken, and whether the start sequence begins. -/
def unitEnable (u : UnitRef) (forced : Bool) (s : State) : Taken × State :=
  let st := s.rd u.st
  if st = u.off then if forced then (.refused, s) else (.accepted, s.wr u.st u.starting)
  else if st = u.stopping || st = u.resting then
    if s.bit u.pend then if forced then (.refused, s) else (.discarded, s.inc u.disc)
    else if forced then (.refused, s)
    else (.latched, s.setB u.pend true)
  else (.accepted, s)

/-- A disable request (R55, R52, R54). -/
def unitDisable (u : UnitRef) (s : State) : State :=
  let st := s.rd u.st
  if st = u.off then s
  else if st = u.stopping || st = u.resting then s.setB u.pend false
  else s.wr u.st u.stopping

/-- A forcing condition begins (R53, R55). -/
def unitForce (u : UnitRef) (s : State) : State :=
  let st := s.rd u.st
  let s := s.setB u.pend false
  if st = u.stopping || st = u.resting then s else s.wr u.st u.stopping

/-- The start is complete (R55). -/
def unitStarted (u : UnitRef) (s : State) : State := if s.rd u.st = u.starting then s.wr u.st u.on else s

/-- The shut-down is complete: the off-timer starts (R55). -/
def unitStopped (u : UnitRef) (s : State) : State := if s.rd u.st = u.stopping then s.wr u.st u.resting else s

/-- The off-timer expires (R55). -/
def unitRested (u : UnitRef) (s : State) : State :=
  if s.rd u.st = u.resting then
    if s.bit u.pend then (s.setB u.pend false).wr u.st u.starting else s.wr u.st u.off
  else s

end Sys2Proof.Machine
end

