-- ==== Sys2Proof/Machine/React.lean ====
section
/-!
DEFINITION. The shared reactions: how channels, outlets, carrels and the safety outputs stop, how a mode is entered,
and what raising a fault does (R491 to R497). These operations raise no fault themselves; what they would raise waits
in `FltSt.todo` and is raised at the end of the step.
-/
namespace Sys2Proof.Machine

/-! ### Causes of faults (R494) -/

/-- A lasting cause appears or ends (R494). -/
def setCause (code detail : Nat) (on : Bool) (s : State) : State :=
  let l := s.flt.causes.filter (fun x => x ≠ (code, detail))
  { s with flt := { s.flt with causes := if on then (code, detail) :: l else l } }

/-! ### High-side channels (chapter 13) -/

/-- The hidden state of HS[c]. -/
def State.hs (s : State) (c : Nat) : HsSt := mapGet (fun _ => HsSt.init) s.lsw.ch c

/-- The hidden state of HS[c] replaced. -/
def State.setHs (s : State) (c : Nat) (h : HsSt) : State :=
  { s with lsw := { s.lsw with ch := mapSet (fun _ => HsSt.init) s.lsw.ch c h } }

/-- Whether a channel fills role LOCK or COOL of an outlet: such a channel has safe-keep (R400). -/
def State.keepRole (s : State) (c : Nat) : Bool :=
  (List.range 16).any fun n => s.rd (Reg.OUT.HS_MAP.LOCK n) = c || s.rd (Reg.OUT.HS_MAP2.COOL n) = c

/-- The safe-keep attribute (R400). -/
def State.safeKeep (s : State) (c : Nat) : Bool :=
  if s.bit (Reg.LSW.CH.CFG.OWNER c) then s.keepRole c else s.bit (Reg.LSW.CH.CFG.SAFE_KEEP c)

/-- Whether the operating mode forces the channel off (R400, R57). -/
def State.hsModeForced (s : State) (c : Nat) : Bool :=
  let m := s.mode
  m < 3 || m = 11 || (m = 10 && !s.safeKeep c)

/-- Whether a site stop forces the channel off: it is the one named by DISC_HS (R212). -/
def State.siteStops (s : State) (c : Nat) : Bool := s.bit Reg.CRD.STATUS.STOPPED && s.cfg 5 0x38 1 = c

/-- Whether a forcing condition of R53 holds for HS[c]: the mode, heat, a latch, its group's supply, or a site stop. -/
def State.hsForced (s : State) (c : Nat) : Bool :=
  s.hsModeForced c || s.bit (Reg.LSW.CH.STATUS.LATCHED c) || s.bit (Reg.LSW.CH.STATUS.THERMAL c) ||
    s.flag Reg.LSW.STATUS.UV (c / 8) || s.siteStops c

/-- The output turns off: pull-in, inrush and fold-back end and no duty is applied. -/
def hsDark (c : Nat) (s : State) : State :=
  (((s.wr (Reg.LSW.CH.STATUS.APPLIED c) 0).setB (Reg.LSW.CH.STATUS.PULL c) false).setB
    (Reg.LSW.CH.STATUS.INRUSH c) false).setB (Reg.LSW.CH.STATUS.FOLDBACK c) false

/-- The output turns on: the inrush window of R405 starts and the open-load verdict clears (R408). -/
def hsTurnOn (c : Nat) (s : State) : State :=
  let s := (s.setB (Reg.LSW.CH.STATUS.INRUSH c) (s.rd (Reg.LSW.CH.CFG.INRUSH_T c) ≠ 0)).setB
    (Reg.LSW.CH.STATUS.OPEN_LOAD c) false
  setCause (0x3500 + c) c false (s.setHs c { s.hs c with openRaised := false })

/-- An enable of HS[c] under R49 to R56, whoever asks. -/
def hsEnable (c : Nat) (s : State) : Taken × State :=
  let was := s.rd (hsUnit c).st
  let (t, s) := unitEnable (hsUnit c) (s.hsForced c) s
  let s := if t = .accepted || t = .latched then s.setB (Reg.LSW.CH.STATUS.REQ_ON c) true else s
  (t, if t = .accepted && was = 0 then hsTurnOn c s else s)

/-- A disable of HS[c]; RESTARTS returns to 0 (R406). -/
def hsDisable (c : Nat) (s : State) : State :=
  let s := (unitDisable (hsUnit c) (s.setB (Reg.LSW.CH.STATUS.REQ_ON c) false)).wr (Reg.LSW.CH.STATUS.RESTARTS c) 0
  if s.rd (hsUnit c).st = 3 then hsDark c s else s

/-- A forcing condition begins for HS[c]. -/
def hsForce (c : Nat) (s : State) : State := hsDark c (unitForce (hsUnit c) s)

/-- The enable that R399 issues when no forcing condition holds, the channel is OFF and its request level is 1. -/
def hsAuto (c : Nat) (s : State) : State :=
  if !s.hsForced c && s.rd (hsUnit c).st = 0 && s.bit (Reg.LSW.CH.STATUS.REQ_ON c) then
    let s := if (s.hs c).heatRestart then
        (s.wr (Reg.LSW.CH.STATUS.RESTARTS c) (min 8 (s.rd (Reg.LSW.CH.STATUS.RESTARTS c) + 1))).setHs c
          { s.hs c with heatRestart := false }
      else s
    (hsEnable c s).2
  else s

/-- The outlet hardware drives one of its channels; 0xFF names none. -/
def hsDrive (c : Nat) (on : Bool) (s : State) : State :=
  if 40 ≤ c then s else if on then (hsEnable c s).2 else hsDisable c s

/-! ### Carrels (chapter 09) -/

/-- Carrel `c`. -/
def State.car (s : State) (c : Nat) : Carrel := mapGet (fun _ => Carrel.free) s.crl.recs c

/-- Carrel `c` replaced; its record has changed. -/
def State.setCar (s : State) (c : Nat) (r : Carrel) : State :=
  { s with crl := { s.crl with
      recs := mapSet (fun _ => Carrel.free) s.crl.recs c r
      changed := if s.crl.changed.contains c then s.crl.changed else c :: s.crl.changed } }

/-- The carrel bound to OUT[n]. -/
def State.bound (s : State) (n : Nat) : Option Nat :=
  if s.bit (Reg.OUT.STATUS.BOUND n) then some (s.rd (Reg.OUT.STATUS.CARREL n)) else none

/-- OUT[n] has no carrel bound. -/
def unbind (n : Nat) (s : State) : State :=
  (s.setB (Reg.OUT.STATUS.BOUND n) false).wr (Reg.OUT.STATUS.CARREL n) 0

/-- The change that an outlet stop makes to the carrel it serves (R272): reasons 3, 8 and 18 close it, any other
suspends it. -/
def crlOutletStop (n reason : Nat) (s : State) : State :=
  match s.bound n with
  | none => s
  | some c =>
    let r := s.car c
    if r.st = 3 then
      if reason = 3 || reason = 8 || reason = 18 then s.setCar c { r with st := 5, reason := reason }
      else s.setCar c { r with st := 4, reason := reason, qSusp := 0 }
    else s

/-! ### Outlets (chapter 08) -/

/-- The hidden state of OUT[n]. -/
def State.out (s : State) (n : Nat) : OutSt := mapGet (fun _ => OutSt.init) s.outs n

/-- The hidden state of OUT[n] replaced. -/
def State.setOut (s : State) (n : Nat) (o : OutSt) : State :=
  { s with outs := mapSet (fun _ => OutSt.init) s.outs n o }

/-- The state code of OUT[n] (R249). -/
def State.outSt (s : State) (n : Nat) : Nat := s.rd (Reg.OUT.STATUS.STATE n)

/-- An AC outlet: KIND 1 or 2. -/
def State.isAc (s : State) (n : Nat) : Bool := s.rd (Reg.OUT.CFG.KIND n) = 1 || s.rd (Reg.OUT.CFG.KIND n) = 2

/-- A DC outlet: KIND 3 or 4. -/
def State.isDc (s : State) (n : Nat) : Bool := s.rd (Reg.OUT.CFG.KIND n) = 3 || s.rd (Reg.OUT.CFG.KIND n) = 4

/-- An outlet event is posted to Q[4] (R266). -/
def outEvent (n ev detail word1 : Nat) (s : State) : State :=
  let c := match s.bound n with | some c => c | none => 0xFF
  s.hwPush0 4 ⟨[n * 2 ^ 56 + ev * 2 ^ 48 + detail % 256 * 2 ^ 40 + c * 2 ^ 32 + s.rtcSec % 2 ^ 32, word1 % 2 ^ 64], 0⟩

/-! ### Green PHY instances as units (R295 to R297) -/

/-- The instance n as a unit of R50. -/
def vplUnit (n : Nat) : UnitRef :=
  ⟨Reg.VPL.STATUS.STATE n, Reg.VPL.PEND.PEND n, Reg.VPL.PEND.DISCARDS n, 0, 1, 2, 7, 8⟩

/-- The hidden state of VPL[n]. -/
def State.vplAt (s : State) (n : Nat) : VplSt := mapGet (fun _ => VplSt.init) s.vpl n

/-- The hidden state of VPL[n] replaced. -/
def State.setVpl (s : State) (n : Nat) (x : VplSt) : State := { s with vpl := mapSet (fun _ => VplSt.init) s.vpl n x }

/-- An item of the vehicle-link event queue (R310). -/
def vplEvent (n ev detail word1 : Nat) (s : State) : State :=
  let c := match s.bound n with | some c => c | none => 0xFF
  s.hwPush0 6 ⟨[n * 2 ^ 56 + ev * 2 ^ 48 + detail % 256 * 2 ^ 40 + c * 2 ^ 32 + s.rtcSec % 2 ^ 32, word1 % 2 ^ 64], 0⟩

/-- VPL[n] takes a state and posts the change; the vehicle's MAC address shows only in MATCHED and LINKED, and a
protocol is in use only in LINKED. -/
def vplEnter (n st : Nat) (s : State) : State :=
  let s := s.wr (Reg.VPL.STATUS.STATE n) st
  let s := if st = 5 || st = 6 then s
    else (s.wr (Reg.VPL.EV_MAC_LO.BYTES n) 0).wr (Reg.VPL.EV_MAC_HI.BYTES n) 0
  let s := if st = 6 then s else s.wr (Reg.VPL.STATUS.PROTO n) 0
  vplEvent n 1 st 0 s

/-- VPL.NOTCH as one mask. -/
def State.vplNotch (s : State) : Nat := (List.range 5).foldl (fun a k => a + s.rd (Reg.VPL.NOTCH.GROUP k) * 2 ^ (32 * k)) 0

/-- Entry into STARTING: the notch mask is read, an NMK drawn and its NID derived (R291, R297). -/
def vplStarting (n : Nat) (s : State) : State :=
  let (nmk, s) := s.draw 128
  let x := s.vplAt n
  vplEnter n 1 (s.setVpl n { VplSt.init with
    wanted := x.wanted, notch := s.vplNotch, nmk := nmk, nid := Config.nidOf nmk, buf := x.buf })

/-- Entry into STOPPING: NMK, NID and RunID are erased (R297). -/
def vplStopping (n : Nat) (s : State) : State :=
  let x := s.vplAt n
  vplEnter n 7 (s.setVpl n { VplSt.init with wanted := x.wanted, txFault := x.txFault })

/-- A forcing condition of R296 holds. -/
def State.vplForced (s : State) (n : Nat) : Bool := s.mode = 11 || (s.vplAt n).txFault

/-- An enable of VPL[n] under R55. -/
def vplEnable (n : Nat) (s : State) : State :=
  let was := s.rd (vplUnit n).st
  let (t, s) := unitEnable (vplUnit n) (s.vplForced n) s
  if t = .accepted && was = 0 then vplStarting n s
  else if t = .discarded then vplEvent n 6 0 (s.rd (vplUnit n).disc) s
  else s

/-- A disable of VPL[n] under R55. -/
def vplDisable (n : Nat) (s : State) : State :=
  let was := s.rd (vplUnit n).st
  let s := unitDisable (vplUnit n) s
  if 1 ≤ was && was ≤ 6 then vplStopping n s else s

/-- A forcing condition begins for VPL[n] (R53, R55). -/
def vplForce (n : Nat) (s : State) : State :=
  let was := s.rd (vplUnit n).st
  let s := s.setB (vplUnit n).pend false
  if was ≤ 6 then vplStopping n s else s

/-- The conditions of R295. -/
def State.vplWanted (s : State) (n : Nat) : Bool :=
  let p := s.rd (Reg.OUT.STATUS.PILOT n)
  s.bit (Reg.VPL.CTL.EN n) && s.rd (Reg.OUT.STATUS.STATE n) ≠ 0 && (p = 1 || p = 2 || p = 3) &&
    s.rd (Reg.OUT.CP_MEAS.MODE n) = 2 && s.rd (Reg.OUT.CP_MEAS.DUTY n) = 50

/-- R295 is judged again: the instance is enabled when its conditions have come to hold, disabled when one fails. -/
def vplFollow (n : Nat) (s : State) : State :=
  let w := s.vplWanted n
  let x := s.vplAt n
  if w = x.wanted then s
  else
    let s := s.setVpl n { x with wanted := w }
    if w then vplEnable n s else vplDisable n s

/-! ### The pilot (R242 to R245) -/

/-- D_CAP of R243, in 0.1 %. -/
def dCap (iCap : Nat) : Nat := min 970 (if iCap ≤ 510 then iCap * 10 / 6 else iCap * 2 / 5 + 640)

/-- The pilot generator's mode and duty as R242, R243 and R57 have it; `none` while the mode holds the last duty. -/
def State.pilotWanted (s : State) (n : Nat) : Option (Nat × Nat) :=
  let m := s.mode
  if m < 3 then some (0, 0)
  else if m = 8 || m = 9 then none
  else if m = 4 || m = 7 || 10 ≤ m || s.outSt n = 0 || s.outSt n = 10 then some (3, 0)
  else if (s.out n).ramped then some (1, 0)
  else
    let mode := s.rd (Reg.OUT.CP_CTRL.MODE n)
    if mode ≠ 2 then some (mode, 0)
    else
      let duty := s.rd (Reg.OUT.CP_CTRL.DUTY n)
      let cap := s.rd (Reg.OUT.LIMIT.I_CAP n)
      if duty = 50 then some (2, 50)
      else if cap < 60 then some (1, 0)
      else some (2, min duty (dCap cap))

/-- While −12 V steady or high impedance is driven no verdict is formed and the decoded state is F (R245). -/
def pilotF (n : Nat) (s : State) : State :=
  let s := s.setOut n { s.out n with hist := [], inv := 0 }
  if s.rd (Reg.OUT.STATUS.PILOT n) = 5 then s
  else
    let s := s.wr (Reg.OUT.STATUS.PILOT n) 5
    if s.mode < 3 then s else outEvent n 2 5 (s.rd (Reg.OUT.CP_MEAS.DUTY n)) s

/-- The pilot generator takes the mode and duty it should have. -/
def pilotApply (n : Nat) (s : State) : State :=
  match s.pilotWanted n with
  | none => s
  | some (m, d) =>
    let s := (s.wr (Reg.OUT.CP_MEAS.MODE n) m).wr (Reg.OUT.CP_MEAS.DUTY n) d
    vplFollow n (if m = 0 || m = 3 then pilotF n s else s)

/-- OUT[n] takes a new state and posts the event of a state change. -/
def outEnter (n st : Nat) (s : State) : State :=
  let s := s.wr (Reg.OUT.STATUS.STATE n) st
  let s := if st = 9 || st = 8 then s else s.setOut n { s.out n with ramped := false }
  pilotApply n (outEvent n 1 st (s.rd (Reg.OUT.STATUS.STOP n)) s)

/-- COIL0 and COIL1 are commanded on or off. -/
def coilsSet (n : Nat) (on : Bool) (s : State) : State :=
  let s := hsDrive (s.rd (Reg.OUT.HS_MAP.COIL0 n)) on s
  let s := hsDrive (s.rd (Reg.OUT.HS_MAP.COIL1 n)) on s
  s.setOut n { s.out n with coils := on }

/-- The stop reason is recorded. -/
def outReason (n reason : Nat) (s : State) : State := s.wr (Reg.OUT.STATUS.STOP n) reason

/-- A vehicle is present (R250): a decoded B, C or D, with a valid proximity value for KIND 1 and presence for KIND 3
and 4 (R247). -/
def State.vehicle (s : State) (n : Nat) : Bool :=
  let p := s.rd (Reg.OUT.STATUS.PILOT n)
  let k := s.rd (Reg.OUT.CFG.KIND n)
  (p = 1 || p = 2 || p = 3) &&
    (if k = 1 then s.rd (Reg.OUT.PP.CAP n) ≠ 0
     else if k = 3 || k = 4 then s.rd (Reg.OUT.PP.OHMS n) ≤ 2400 else true)

/-- OUT[n] enters IDLE: LOCK goes off (R250). -/
def outIdle (n : Nat) (s : State) : State := outEnter n 1 (hsDrive (s.rd (Reg.OUT.HS_MAP.LOCK n)) false s)

/-- An RCM test starts: 1 of the connection, 2 before closing, 3 for CLEAR, 4 by command (R259). -/
def rcmStart (n why : Nat) (s : State) : State := s.setOut n { s.out n with rcmTest := why }

/-- OUT[n] enters CONNECTED: the RCM test of the connection and a switch test of LSE[n] (R259, R363). -/
def outToConnected (n : Nat) (s : State) : State :=
  let s := outEnter n 2 (s.setB (Reg.OUT.SUPV.RCM_OK n) false)
  rcmStart n 1 { s with saf := { s.saf with testDue := putBit s.saf.testDue n true } }

/-- A stop in READY: no contactor to open, so the outlet is CONNECTED at once, or IDLE when no vehicle is present and
no carrel is bound (R250). -/
def outFromReady (n reason : Nat) (s : State) : State :=
  let s := outToConnected n (outReason n reason s)
  if !s.vehicle n && (s.bound n).isNone then outIdle n s else s

/-- The coils go off and the outlet is in OPENING. -/
def outOpen (n : Nat) (s : State) : State := outEnter n 9 (coilsSet n false s)

/-- A stop of the first list of R255, with its reason: RAMPING from CLOSING to ENERGISED, with the ramp step (for AC
the pilot at +12 V steady); from READY, CONNECTED at once. -/
def outRamp (n reason : Nat) (s : State) : State :=
  let st := s.outSt n
  if 4 ≤ st && st ≤ 7 then
    let s := crlOutletStop n reason (outReason n reason s)
    let s := if s.isAc n then s.setOut n { s.out n with ramped := true } else s
    outEnter n 8 s
  else if st = 3 then outFromReady n reason s
  else s

/-- A stop of the second list of R255, with its reason: OPENING from CLOSING to RAMPING. A vehicle stop of an AC outlet
latches its carrel as pending (R257). -/
def outOpenStop (n reason : Nat) (s : State) : State :=
  let st := s.outSt n
  if 4 ≤ st && st ≤ 8 then
    let c := s.bound n
    let s := crlOutletStop n reason (outReason n reason s)
    let s := match c with
      | some c =>
        if reason = 2 && s.isAc n then (s.setB (Reg.OUT.PEND.PEND n) true).wr (Reg.OUT.PEND.CARREL n) c else s
      | none => s
    outOpen n s
  else s

/-- The pending enable of OUT[n] is cleared (R52, R53). -/
def outClearPend (n : Nat) (s : State) : State :=
  (s.setB (Reg.OUT.PEND.PEND n) false).wr (Reg.OUT.PEND.CARREL n) 0

/-- A forcing condition of R53 for OUT[n], with its stop reason: OPENING from every state but DISABLED, OPENING and
FAULT, and P cleared (R250). -/
def outForce (n reason : Nat) (s : State) : State :=
  let st := s.outSt n
  if st = 0 then s
  else
    let s := outClearPend n s
    if st = 9 || st = 10 then s
    else outOpen n (crlOutletStop n reason (outReason n reason s))

/-! ### Safety outputs (chapter 12) -/

/-- Whether LSE[n] is closed: both halves command it (R352). -/
def State.lse (s : State) (n : Nat) : Bool := Nat.testBit s.saf.cur.lse n && Nat.testBit s.saf.kpr.lse n

/-- Every LSE[n] and both inhibit lines go off (R495). -/
def lseOff (s : State) : State :=
  { s with saf := { s.saf with
      cur := { s.saf.cur with lse := 0, pmi := false }
      kpr := { s.saf.kpr with lse := 0, pmi := false } } }

/-! ### Modes (R57 to R66) -/

/-- A change of mode: PREV, the MODE record with its trigger and fault code, bit 5 of HP.IRQ_STATUS, and the base mode
of R63. -/
def setMode (m trigger code : Nat) (s : State) : State :=
  let old := s.mode
  if old = m then s
  else
    let s := (s.wr Reg.MODE.STATUS.PREV old).wr Reg.MODE.STATUS.MODE m
    let s := s.setFlag Reg.HP.IRQ_STATUS.SRC 2 true
    let s := { s with
      sys := { s.sys with baseMode := if m = 8 || m = 9 || m = 10 then s.sys.baseMode else m }
      moved := true }
    s.record 0x05 (payloadOf [(0, old), (1, m), (2, trigger), (4, code)]) false

/-- Applies an operation for every index below `n`, in ascending order. -/
def forEach (n : Nat) (f : Nat → State → State) (s : State) : State := (List.range n).foldl (fun s i => f i s) s

/-- The pilots take the state of the mode in force. -/
def pilotsApply (s : State) : State := forEach 16 pilotApply s

/-- Every output takes its safe state (R495 step 4): LSE[n] and inhibits off, channels off as the mode forces them,
request levels 0 (R399), outlets stopped with reason 14, pilots at −12 V, pending enables cleared. In LOCKDOWN a
backbone coordinator continues as member (R340), and the Green PHY instances stop (R296). -/
def outputsSafe (s : State) : State :=
  let s := lseOff s
  let s := forEach 16 (fun n s => outForce n 14 s) s
  let s := forEach 40 (fun c s =>
    let s := s.setB (Reg.LSW.CH.STATUS.REQ_ON c) false
    if s.hsModeForced c then hsForce c s else s) s
  let s := (forEach 16 (fun n s => s.setB (Reg.VPL.PEND.PEND n) false) s).setB Reg.DPY.PEND.PEND false
  let s := pilotsApply s
  if s.mode = 11 then
    let s := if s.rd Reg.BBN.STATUS.ROLE = 4 then s.wr Reg.BBN.STATUS.ROLE 3 else s
    forEach 16 vplForce s
  else s

/-! ### Raising a fault (R490 to R497) -/

/-- The class of a code: 0 Notice, 1 Minor, 2 Major, 3 Grave (R18). -/
def faultClass (code : Nat) : Nat := code / 16384 % 4

/-- Whether a cause is present (R494). -/
def State.causePresent (s : State) (m : Nat × Nat) : Bool := s.flt.causes.contains m

/-- The lowest entry number not in the open table. -/
def freeEntry (t : List Entry) : Nat :=
  ((List.range 32).find? fun i => !t.any fun e => e.idx = i).getD 0

/-- The entry that a fault of code `code` merges into (R491, cases 1 to 3), and whether case 3 applied. -/
def mergeTarget (t : List Entry) (code : Nat) : Option (Entry × Bool) :=
  match t.find? (fun e => 2 ≤ e.cls) with
  | some e => some (e, false)
  | none =>
    match t.find? (fun e => e.code = code) with
    | some e => some (e, false)
    | none => if 32 ≤ t.length then t.head?.map (fun e => (e, true)) else none

/-- MERGED_INTO of a merged fault whose primary record still waits for its RNO (R508). -/
def mergeWaiting : Nat := 2 ^ 32 - 1

/-- The FAULT record of R499. -/
def faultRecord (code cls idx merged loc detail : Nat) (injected full : Bool) (s : State) : State :=
  s.record 0x01 (payloadOf [(0, code), (2, cls), (3, idx), (4, merged), (8, loc), (0x10, detail % 2 ^ 32),
    (0x14, s.wall % 2 ^ 32), (0x18, s.mode),
    (0x19, b2n injected + 2 * b2n full + 4 * b2n (s.causePresent (code, detail)))]) false

/-- Steps 1 and 2 of R495: the fault merges into an entry (R492) or opens one, and its FAULT record is queued. -/
def collect (code loc detail : Nat) (injected : Bool) (s : State) : State :=
  let cls := faultClass code
  match mergeTarget s.flt.table code with
  | some (e, full) =>
    let e' := { e with cls := max e.cls cls, merged := min 255 (e.merged + 1), members := e.members ++ [(code, detail)] }
    let s := { s with flt := { s.flt with table := s.flt.table.map fun (x : Entry) => if x.idx = e.idx then e' else x } }
    let s := (if full then s.setB Reg.FLT.STATUS.FULL_STK true else s).inc Reg.FLT.COUNTS.MERGES
    faultRecord code e'.cls e.idx (if e.rno = 0 then mergeWaiting else e.rno) loc detail injected full s
  | none =>
    let idx := freeEntry s.flt.table
    let rno := if s.bit Reg.EVR.STATUS.RUN && (s.q 15).level < s.qCap 15 then s.rd Reg.EVR.NEXT_RNO.RNO else 0
    let e : Entry := ⟨idx, code, cls, 0, injected, rno, [(code, detail)]⟩
    let s := { s with flt := { s.flt with table := s.flt.table ++ [e] } }
    faultRecord code cls idx 0 loc detail injected false s

/-- SAFE_HOLD is entered for a Major fault (R60, R495). -/
def enterSafeHold (code : Nat) (s : State) : State := outputsSafe (setMode 10 1 code s)

/-- LOCKDOWN is entered for a Grave fault: the Keeper latches (R60, R355, R495). -/
def enterLockdown (trigger code : Nat) (s : State) : State :=
  outputsSafe (setMode 11 trigger code
    ((s.setB Reg.FLT.STATUS.LATCH true).setB Reg.SAF.STATUS.LATCHED true))

/-- The outputs of a Major or Grave fault that no mode change accompanies: force lines active (R355). -/
def forceLines (s : State) : State := lseOff (s.setB Reg.SAF.STATUS.FORCE true)

/-- Steps 3 and 4 of R495 for a fault of class `cls`: the interrupt and a drain for Minor and above; ERR_N, FLT.LAST,
the force lines and the mode for Major and Grave. -/
def reactTo (code cls : Nat) (s : State) : State :=
  if cls = 0 then s
  else
    let s := (s.setB Reg.FLT.STATUS.IRQ true).startDrain
    if cls = 1 then s.inc Reg.FLT.COUNTS.MINOR
    else
      let s := if cls = 2 then s.inc Reg.FLT.COUNTS.MAJOR else s
      let s := (s.wr Reg.FLT.LAST.CODE code).setB Reg.FLT.STATUS.ERR_LOW true
      let s := { s with
        flt := { s.flt with errMin := true }
        cat := { s.cat with credit := s.cat.credit.map fun c => { c with spoiled := true } } }
      let s := forceLines s
      let m := s.mode
      if cls = 2 then (if 2 ≤ m && m ≤ 9 then enterSafeHold code s else s)
      else if 1 ≤ m && m ≤ 10 then enterLockdown 1 code s
      else (s.setB Reg.FLT.STATUS.LATCH true).setB Reg.SAF.STATUS.LATCHED true

/-- A fault is raised: collected under R491 and R492, and acted on in full with its own class. -/
def raise1 (code loc detail : Nat) (injected : Bool) (s : State) : State :=
  (reactTo code (faultClass code) (collect code loc detail injected s)).drainAt256

/-- The faults that a reaction left waiting are raised; what those leave is raised at the end of the next pass. -/
def raiseTodo : Nat → State → State
  | 0, s => s
  | n + 1, s =>
    match s.flt.todo with
    | [] => s
    | (c, d) :: r => raiseTodo n (raise1 c 0 d false { s with flt := { s.flt with todo := r } })

/-- A fault is raised (no location path). -/
def raise (code detail : Nat) (s : State) : State := raise1 code 0 detail false s

/-- A fault with a lasting cause is raised (R494). -/
def raiseCause (code detail : Nat) (s : State) : State := raise code detail (setCause code detail true s)

/-! ### Degradation (R60) -/

/-- A degradation cause is noted, once. -/
def noteDegr (code idx : Nat) (removable : Bool) (s : State) : State :=
  let d : Degr := ⟨code, idx, removable⟩
  { s with sys := { s.sys with degr := if s.sys.degr.contains d then s.sys.degr else s.sys.degr ++ [d] } }

/-- A degradation cause appears: OPERATIONAL becomes DEGRADED. -/
def addDegr (code idx : Nat) (removable : Bool) (s : State) : State :=
  if s.mode = 5 then setMode 6 7 0 (noteDegr code idx removable s) else noteDegr code idx removable s

/-- A removable degradation cause goes; DEGRADED is left at the next quantum boundary. -/
def dropDegr (code idx : Nat) (s : State) : State :=
  { s with sys := { s.sys with degr := s.sys.degr.filter fun d => !(d.code = code && d.idx = idx) } }

/-! ### The user display and the card reader as the mode leaves them (R420, R438) -/

/-- The number of SHELF entries. -/
def State.shelfCount (s : State) : Nat := (s.sec 2).length / 16

/-- A field of SHELF entry `i` (R76). -/
def State.shelfAt (s : State) (i off n : Nat) : Nat := s.cfg 2 (16 * i + off) n

/-- The user display's state changed. -/
def State.mapDpy (s : State) (f : DpySt → DpySt) : State := { s with dpy := f s.dpy }

/-- The SHELF entry of the user display. -/
def State.dpyEntry (s : State) : Option Nat := (List.range s.shelfCount).find? fun i => s.shelfAt i 2 1 = 4

/-- The shelfmark body of the user display, when its module matched. -/
def State.dpyBody (s : State) : Option (List Byte) :=
  match s.dpyEntry with
  | some i => if s.sys.shelf.getD i .absent = .matched then some (mapGet (fun _ => []) s.sys.shelfBody i) else none
  | none => none

/-- The forcing conditions of R420, bit k − 1 for cause k; a display that USER_EN leaves out counts as cause 3. -/
def State.dpyCauses (s : State) : Nat :=
  let m := s.mode
  b2n (m ≤ 2 || m = 9 || m = 11) + 2 * b2n (!s.bit Reg.PWR.STATUS.VDISP_OK) +
    4 * b2n (s.dpyBody.isNone || s.cfg 9 0 1 % 2 = 0) + 8 * b2n (s.bit Reg.DPY.CRACK.CRACKED) + 16 * b2n s.dpy.railBad

/-- CAUSE: the lowest forcing condition in force. -/
def lowestCause (v : Nat) : Nat := ((List.range 5).find? fun k => Nat.testBit v k).elim 0 (· + 1)

/-- The rails that are within ±5 %, and BLACK, follow the state of the display. -/
def dpyShow (s : State) : State :=
  let st := s.rd Reg.DPY.STATUS.STATE
  let s := s.setB Reg.DPY.STATUS.BLACK (st = 1 || st = 3)
  if st = 0 || st = 4 then (s.wr Reg.DPY.STATUS.RAILS 0).mapDpy fun d => { d with sent := none, blink := [] } else s

/-- The start sequence begins (R418). -/
def dpyTurnOn (s : State) : State :=
  dpyShow ((s.wr Reg.DPY.STATUS.RAILS 0).mapDpy fun d => { d with
    elvss := s.rd Reg.DPY.RAIL.ELVSS, crackRun := 0, sent := none })

/-- An enable of the display, whoever asks (R55). -/
def dpyEnable (s : State) : State :=
  let was := s.rd dpyUnit.st
  let (t, s) := unitEnable dpyUnit (s.dpyCauses ≠ 0) s
  let s := if t = .accepted || t = .latched then s.setB Reg.DPY.STATUS.REQ_ON true else s
  if t = .accepted && was = 0 then dpyTurnOn s else s

/-- A disable of the display. -/
def dpyDisable (s : State) : State := dpyShow (unitDisable dpyUnit (s.setB Reg.DPY.STATUS.REQ_ON false))

/-- The forcing conditions are judged: one that begins shuts the display down; when none is left, the display is OFF
and its request level 1, it is enabled. -/
def dpyJudge (s : State) : State :=
  let c := s.dpyCauses
  let new := (List.range 5).any fun k => Nat.testBit c k && !Nat.testBit s.dpy.causes k
  let s := (s.mapDpy fun d => { d with causes := c }).wr Reg.DPY.STATUS.CAUSE (lowestCause c)
  if new then dpyShow (unitForce dpyUnit s)
  else if c = 0 && s.rd dpyUnit.st = 0 && s.bit Reg.DPY.STATUS.REQ_ON then dpyEnable s
  else s

/-- The reader runs (R438): READER_EN, its clock, a mode of the four, and no antenna fault since the start. -/
def State.nfcRuns (s : State) : Bool :=
  s.running && s.bit Reg.NFC.CTL.EN && s.bit Reg.CLK.GATE.NFC && decide (4 ≤ s.mode) && decide (s.mode ≤ 7) &&
    !s.bit Reg.NFC.STATUS.ANT_FAULT

/-- The reader enters DETECT: the first ping sets the baseline (R440). -/
def nfcDetect (s : State) : State :=
  (s.wr Reg.NFC.STATUS.STATE 1) |> fun s => { s with nfc := { s.nfc with base := none, wakes := 0 } }

/-- The reader turns on or off as R438 has it; an exchange that runs is abandoned. -/
def nfcJudge (s : State) : State :=
  if s.nfcRuns then (if s.rd Reg.NFC.STATUS.STATE = 0 then nfcDetect s else s)
  else s.wr Reg.NFC.STATUS.STATE 0

/-- SAF_SEAL_OPEN holds while the seal is open outside COMMISSIONING, or invalid (R390). -/
def sealCheck (s : State) : State :=
  let bad := (s.bit Reg.SAF.STATUS.SEAL_OPEN && s.mode ≠ 4) || s.bit Reg.SAF.STATUS.SEAL_INVALID
  if bad && !s.causePresent (0x7405, 0) then addDegr 0x7405 0 true (raiseCause 0x7405 0 s)
  else if !bad then dropDegr 0x7405 0 (setCause 0x7405 0 false s)
  else s

/-- What follows a change of mode: the seal that only COMMISSIONING allows open, the pilots, the channels that R399 enables, the user display and the reader. -/
def modeFollow (s : State) : State :=
  nfcJudge (dpyJudge (forEach 40 hsAuto (pilotsApply { sealCheck s with moved := false })))

/-- An event of the core die: it acts while the core runs. -/
def live (f : State → State) (s : State) : State := if s.running then f s else s

/-! ### The end of a step -/

/-- The faults left waiting are raised and what a change of mode brings follows, until neither is left (at most `n`
rounds: a mode of higher rank stands after three). -/
def settleRounds : Nat → State → State
  | 0, s => s
  | n + 1, s =>
    let s := raiseTodo 64 s
    if s.moved then settleRounds n (modeFollow s) else s

/-- The modes in which R57 permits no outlet to energise and holds the outputs off: DORMANT, LOADING, START_TEST,
SAFE_HOLD and LOCKDOWN. -/
def State.outputsBarred (s : State) : Bool := s.mode < 3 || s.mode = 10 || s.mode = 11

/-- A channel that the mode forces off and that is starting or on is shut down (R57, R400). -/
def barHs (c : Nat) (s : State) : State :=
  if s.hsModeForced c && (s.rd (hsUnit c).st = 1 || s.rd (hsUnit c).st = 2) then hsForce c s else s

/-- The coils of OUT[n] are not commanded on. -/
def barCoils (n : Nat) (s : State) : State :=
  if (s.out n).coils then s.setOut n { s.out n with coils := false } else s

/-- The outputs that R57 permits in the mode in force, whatever the step's operations have left. -/
def permitOutputs (s : State) : State :=
  if s.outputsBarred then forEach 40 barHs (forEach 16 barCoils (lseOff s)) else s

/-- The end of a step: what is left waiting happens, the outputs are those the mode permits, and the step's own marks
are cleared. -/
def settle (s : State) : State :=
  let s := raiseTodo 64 (settleRounds 8 s).drainAt256
  { permitOutputs s with pushed := [] }

/-- A step's answer. -/
def done (s : State) : Out := .next (settle s)

/-- An item that a hardware producer posts. -/
def hwPost (n : Nat) (words : List Nat) (s : State) : State := s.hwPush0 n ⟨words, 0⟩

/-- A poisoned item leaves for its consumer: it counts, and raises Q_PARITY (R543). -/
def poisonSeen (n : Nat) (i : Item) (s : State) : State :=
  if i.poison = 0 then s
  else raise 0x0602 n ((s.inc (Reg.Q.COUNTS.POISONED n)).setB (Reg.Q.STATUS.POISON_STK n) true)

/-- The queue with an item in stage 0 where it holds one at all: what waits in the tail register and the annex moves up
(R541). -/
def Queue.ready (q : Queue) : Queue := if q.chain.isEmpty then q.spill.refill else q

/-- The queue without its head; the annex refills stage 7 (R541). -/
def Queue.pop (q : Queue) : Queue := Queue.refill { q with chain := q.chain.drop 1 }

/-- The consumer of queue `n` takes the item at its head (R541, R543). -/
def takeHead (n : Nat) (s : State) : Option (Item × State) :=
  let q := (s.q n).ready
  q.chain.head?.map fun i => (i, poisonSeen n i (s.setQ n q.pop))

/-! ### Privilege (R57, R574, R575) -/

/-- The level at which an agent writes: the runtime holds Utility level (R574). -/
def State.level (s : State) : Agent → Nat
  | .host => s.rd Reg.HP.STATUS.LEVEL
  | .runtime => 2

/-- Whether the mode accepts writes of classes RW, RWS, W1C, W1S and WO (R57). -/
def State.modeWrites (s : State) : Bool := s.running && 3 ≤ s.mode && s.mode ≤ 10

/-- A write refused for privilege is counted for a host session (R536, R575). -/
def deny (a : Agent) (s : State) : State := if a = .host then s.inc Reg.HP.STATUS.DENIED else s

/-- A write that needs level `min` in a mode that accepts writes: ignored in another mode, counted when the session is
too low. -/
def gated (a : Agent) (min : Nat) (f : State → State) (s : State) : State :=
  if !s.modeWrites then s else if s.level a < min then deny a s else f s

end Sys2Proof.Machine
end

