-- ==== Sys2Proof/Machine/Sessions.lean ====
section
/-!
DEFINITION. What carrels and outlets share (chapters 08 and 09): current cap, configuration checks, closing the
contactors, and the changes of a carrel that reach its outlet.
-/
namespace Sys2Proof.Machine

/-! ### Attached modules (R75 to R77, R240) -/

/-- The body of the matching module of `kind` that SHELF binds to outlet `n`. -/
def State.moduleBody (s : State) (n kind : Nat) : Option (List Byte) :=
  ((List.range s.shelfCount).find? fun i =>
      s.shelfAt i 4 1 = n && s.shelfAt i 2 1 = kind && s.sys.shelf.getD i .absent = .matched).map
    fun i => mapGet (fun _ => []) s.sys.shelfBody i

/-- The body of the matching power module at a bus and node. -/
def State.powerBody (s : State) (bus node : Nat) : Option (List Byte) :=
  ((List.range s.shelfCount).find? fun i =>
      s.shelfAt i 0 1 = 0x10 + bus && s.shelfAt i 1 1 = node && s.shelfAt i 2 1 = 6 &&
        s.sys.shelf.getD i .absent = .matched).map
    fun i => mapGet (fun _ => []) s.sys.shelfBody i

/-- Module `k` of OUT[n]: whether it is listed, its bus and its node (OUT[n].MOD_CFG). -/
def State.modCfg (s : State) (n k : Nat) : Option (Nat × Nat) :=
  if k % 2 = 0 then
    if s.bit (Reg.OUT.MOD_CFG.VALID_L n (k / 2)) then
      some (s.rd (Reg.OUT.MOD_CFG.BUS_L n (k / 2)), s.rd (Reg.OUT.MOD_CFG.NODE_L n (k / 2))) else none
  else
    if s.bit (Reg.OUT.MOD_CFG.VALID_H n (k / 2)) then
      some (s.rd (Reg.OUT.MOD_CFG.BUS_H n (k / 2)), s.rd (Reg.OUT.MOD_CFG.NODE_H n (k / 2))) else none

/-- The listed modules of OUT[n], in order. -/
def State.modules (s : State) (n : Nat) : List Nat := (List.range 4).filter fun k => (s.modCfg n k).isSome

/-! ### The current cap (R247, R248) -/

/-- The cable capacity of OUT[n] in 0.1 A: by proximity for KIND 1, CABLE_I for KIND 2, the cable shelfmark else. -/
def State.cableCap (s : State) (n : Nat) : Nat :=
  let k := s.rd (Reg.OUT.CFG.KIND n)
  if k = 1 then 10 * s.rd (Reg.OUT.PP.CAP n)
  else if k = 2 then 10 * s.outCfg n 4 2
  else match s.moduleBody n 3 with
    | some b => 10 * leAt b 2 2
    | none => 65535

/-- I_CAP of R248, in 0.1 A. -/
def State.iCap (s : State) (n : Nat) : Nat :=
  let rated := 10 * s.outCfg n 2 2
  let board := match s.moduleBody n 2 with | some b => 10 * leAt b 2 2 | none => 65535
  let mods := if s.isDc n then
      (s.modules n).foldl (fun a k =>
        match s.modCfg n k with
        | some (b, d) => a + (match s.powerBody b d with | some b => leAt b 2 2 | none => 0)
        | none => a) 0
    else 65535
  let lim := s.rd (Reg.OUT.LIMIT.I_MAX n)
  let car := match s.bound n with | some c => (s.car c).iLim | none => 0
  let opt := fun (x : Nat) => if x = 0 then 65535 else x
  min rated (min (s.cableCap n) (min board (min mods (min (opt lim) (opt car)))))

/-- I_CAP is recomputed, and the pilot follows (R248, R243). -/
def outRecap (n : Nat) (s : State) : State := pilotApply n (s.wr (Reg.OUT.LIMIT.I_CAP n) (s.iCap n))

/-! ### Configuration (R238, R240, R251) -/

/-- The channels OUT[n] names in its seven roles; 0xFF entries left out. -/
def State.roles (s : State) (n : Nat) : List Nat :=
  [s.rd (Reg.OUT.HS_MAP.COIL0 n), s.rd (Reg.OUT.HS_MAP.COIL1 n), s.rd (Reg.OUT.HS_MAP.LOCK n),
   s.rd (Reg.OUT.HS_MAP.TRIP n), s.rd (Reg.OUT.HS_MAP2.COOL n), s.rd (Reg.OUT.HS_MAP2.MOVE_DN n),
   s.rd (Reg.OUT.HS_MAP2.MOVE_UP n)].filter (· < 40)

/-- Whether a list names something twice. -/
def hasRepeat : List Nat → Bool
  | [] => false
  | x :: r => r.contains x || hasRepeat r

/-- The LOADSW section drives channel `c` itself: OWNER 0 with MODE not 0 (R415). -/
def State.loadswOwns (s : State) (c : Nat) : Bool := s.cfg 8 (8 + 16 * c) 1 = 0 && s.cfg 8 (9 + 16 * c) 1 ≠ 0

/-- No channel of OUT[n] is in two roles, with two outlets, or driven by the LOADSW section (R238). -/
def State.rolesOk (s : State) (n : Nat) : Bool :=
  let r := s.roles n
  !hasRepeat r && !r.any s.loadswOwns &&
    !(List.range 16).any fun m => m ≠ n && s.rd (Reg.OUT.CFG.KIND m) ≠ 0 && (s.roles m).any r.contains

/-- KIND agrees with METER[n] and with the outlet board (R238, R240). -/
def State.kindOk (s : State) (n : Nat) : Bool :=
  let k := s.rd (Reg.OUT.CFG.KIND n)
  let t := s.meterType n
  let three := s.flag (Reg.OUT.CFG.FLAGS n) 0
  let kind := if k = 1 || k = 2 then (t = 1 && !three) || (t = 2 && three)
    else t = 3 && s.outCfg n 0x18 1 ≠ 0xFF && s.outCfg n 0x1B 1 ≠ 0xFF && s.outCfg n 0x1C 1 ≠ 0xFF &&
      !(s.modules n).isEmpty
  let board := match s.moduleBody n 2 with
    | some b => Nat.testBit (leAt b 0 1) k && (!s.isDc n || leAt b 6 2 = s.outCfg n 0x1E 2)
    | none => true
  kind && board

/-- Whether OUT[n] is left enabled: KIND not 0, R238 and R240 hold, OUT_DIS bit 0 (R250, R251). -/
def State.outEnabled (s : State) (n : Nat) : Bool :=
  s.rd (Reg.OUT.CFG.KIND n) ≠ 0 && s.rolesOk n && s.kindOk n && !s.flag Reg.MODE.SHELF.OUT_DIS n

/-! ### Carrels that close (R272, R277, R281) -/

/-- The STATE byte of a record (R268). -/
def Carrel.stateByte (r : Carrel) : Nat :=
  r.st + 8 * b2n r.unlimited + 16 * b2n r.rev + 32 * b2n r.lowPosted + 64 * b2n r.shortfall + 128 * b2n r.noAck

/-- The 64-byte record as one little-endian number (R268). -/
def Carrel.record (r : Carrel) : Nat :=
  if r.st = 7 then 7
  else payloadOf [(0, r.stateByte), (1, r.outlet), (2, r.reason), (3, r.credKind), (4, r.session), (8, r.cred),
    (0x10, ofInt 64 r.balance), (0x18, r.eIn % 2 ^ 48), (0x1E, r.eOut % 2 ^ 48), (0x24, r.tAuth % 2 ^ 32),
    (0x28, r.tStart % 2 ^ 32), (0x2C, r.tEnd % 2 ^ 32), (0x30, r.iLim), (0x32, r.pLim), (0x34, r.qOn % 2 ^ 32),
    (0x38, r.qSusp % 2 ^ 32), (0x3C, r.resumes), (0x3E, r.stamp)]

/-- The 48-byte slip as one little-endian number (R269). -/
def Carrel.slip (r : Carrel) : Nat :=
  payloadOf [(0, r.startFee), (4, r.priceIn), (8, r.priceOut), (0xC, r.timePrice), (0x10, r.idlePrice),
    (0x14, r.idleGrace), (0x18, r.resIn), (0x1C, r.resOut), (0x20, r.resTime), (0x24, r.resIdle)]

/-- The eight words of a close item (R281). -/
def Carrel.words (r : Carrel) : List Nat := (List.range 8).map fun w => r.record / 2 ^ (64 * w) % 2 ^ 64

/-- A close item is posted to Q[5]. -/
def postClose (r : Carrel) (s : State) : State := hwPost 5 r.words s

/-- The CARREL_CLOSE record (R509). -/
def closeRecord (c : Nat) (r : Carrel) (s : State) : State :=
  s.record 0x31 (payloadOf [(0, c), (1, r.reason), (2, r.stateByte), (4, r.session), (8, r.eIn % 2 ^ 48),
    (0xE, r.eOut % 2 ^ 48), (0x14, ofInt 64 r.balance), (0x1C, r.tStart % 2 ^ 32), (0x20, r.tEnd % 2 ^ 32)]) false

/-- The number of carrels in a state other than Free; Free carrels are those not listed with one. -/
def State.usedCarrels (s : State) : Nat := (s.crl.recs.filter fun x => x.2.st ≠ 0).length

/-- CRL_FEW (R275): raised when the free carrels fall below LOW_WM, again only after they have reached it. -/
def crlWatch (s : State) : State :=
  let few := 256 - s.usedCarrels < s.rd Reg.CRL.CFG.LOW_WM
  if few then
    if s.crl.fewArmed then raiseCause 0x3002 0 { s with crl := { s.crl with fewArmed := false } } else s
  else if s.crl.fewArmed then s
  else setCause 0x3002 0 false { s with crl := { s.crl with fewArmed := true } }

/-- How the outlet of a carrel that enters Closing or Closed acts (R277): in READY it takes a STOP with reason 1, in
OPENING its pending latch is cleared, and in both it has no carrel bound; a Closed carrel is bound no longer. -/
def crlLeaves (c : Nat) (s : State) : State :=
  let r := s.car c
  let n := r.outlet
  if 16 ≤ n then s
  else
    let s := if s.outSt n = 9 && s.bit (Reg.OUT.PEND.PEND n) && s.rd (Reg.OUT.PEND.CARREL n) = c then
        let s := outClearPend n s
        if s.bound n = some c then unbind n s else s
      else s
    let s := if s.bound n = some c then
        if s.outSt n = 3 then outFromReady n 1 (unbind n s)
        else if r.st = 6 then unbind n s else s
      else s
    let s := if s.outSt n = 2 && !s.vehicle n && (s.bound n).isNone then outIdle n s else s
    outRecap n s

/-- A carrel enters Closed (R272): T_END, SHORTFALL, the close item and its record. -/
def crlClosed (c : Nat) (reason : Option Nat) (s : State) : State :=
  let r := s.car c
  let r := { r with st := 6, tEnd := s.rtcSec, shortfall := decide (r.balance < 0), reason := reason.getD r.reason }
  let s := (s.setCar c r).inc Reg.CRL.COUNTS.CLOSES
  crlLeaves c (closeRecord c r (postClose r s))

/-- A carrel enters Closing (R272) with its reason. -/
def crlClosing (c reason : Nat) (s : State) : State :=
  crlLeaves c (s.setCar c { s.car c with st := 5, reason := reason })

/-- Every carrel that `p` picks, with its index. -/
def State.carrelsWhere (s : State) (p : Carrel → Bool) : List Nat := (s.crl.recs.filter fun x => p x.2).map (·.1)

/-- The vehicle of OUT[n] is no longer present: its Suspended carrels enter Closing with REASON 3 (R272). -/
def crlVehicleGone (n : Nat) (s : State) : State :=
  (s.carrelsWhere fun r => r.outlet = n && r.st = 4).foldl (fun s c => crlClosing c 3 s) s

/-- OUT[n] binds carrel `c`: another Suspended carrel of the outlet enters Closing with REASON 38 (R277). -/
def outBind (n c : Nat) (s : State) : State :=
  let s := (s.setB (Reg.OUT.STATUS.BOUND n) true).wr (Reg.OUT.STATUS.CARREL n) c
  let s := ((s.carrelsWhere fun r => r.outlet = n && r.st = 4).filter (· ≠ c)).foldl (fun s d => crlClosing d 38 s) s
  outRecap n s

/-- The carrel bound to OUT[n] enters Energising as the outlet enters CLOSING (R272). -/
def crlEnergising (n : Nat) (s : State) : State :=
  match s.bound n with
  | none => s
  | some c =>
    let r := s.car c
    if r.st = 2 || r.st = 4 then
      let s := if r.st = 2 then { s with crl := { s.crl with feeDue := s.crl.feeDue ++ [c] } } else s
      s.setCar c { r with
        st := 3
        tStart := if r.tStart = 0 then s.rtcSec else r.tStart
        resumes := if r.st = 4 then min 255 (r.resumes + 1) else r.resumes }
    else s

/-! ### Connecting and closing (R250, R254, R259, R278) -/

/-- OUT[n] enters CONNECTED from IDLE: LOCK on for KIND 1, and the tests of the entry (R250, R259, R363). -/
def outConnect (n : Nat) (s : State) : State :=
  outToConnected n
    (if s.rd (Reg.OUT.CFG.KIND n) = 1 then hsDrive (s.rd (Reg.OUT.HS_MAP.LOCK n)) true s else s)

/-- OUT[n] is in FAULT. -/
def outFault (n : Nat) (s : State) : State := outEnter n 10 (outClearPend n s)

/-- The code of a fault of OUT[0] shifted to OUT[n] (R267). -/
def outCode (code n : Nat) : Nat := code + 0x100 * n

/-- The pre-close check of R254 on the load-side voltages. -/
def State.precloseOk (s : State) (n : Nat) : Bool :=
  (s.out n).loadV.all fun v => if s.isAc n then v < 50000 else v < 60000

/-- Whether another carrel assigned to OUT[n] is in state 5 (R278). -/
def State.otherClosing (s : State) (n : Nat) : Bool :=
  (s.carrelsWhere fun r => r.outlet = n && r.st = 5).any fun c => s.bound n ≠ some c

/-- READY with a decoded C, or D with VENT_OK: the test before closing, then the pre-close check, then CLOSING with the
coils and COOL on; a failed check leads to FAULT with OUT_PRECLOSE (R250, R254, R259). -/
def tryClose (n : Nat) (s : State) : State :=
  let p := s.rd (Reg.OUT.STATUS.PILOT n)
  if s.outSt n = 3 && (p = 2 || (p = 3 && s.flag (Reg.OUT.CFG.FLAGS n) 1)) && !s.otherClosing n then
    if s.flag (Reg.OUT.CFG.FLAGS n) 3 && !(s.out n).rcmEach then
      if (s.out n).rcmTest = 0 then rcmStart n 2 s else s
    else if s.precloseOk n then
      let s := (s.setB (Reg.OUT.SUPV.PRECLOSE n) false).setOut n { s.out n with rcmEach := false, coolDue := false }
      let s := crlEnergising n s
      let s := hsDrive (s.rd (Reg.OUT.HS_MAP2.COOL n)) true (coilsSet n true s)
      outEnter n 4 s
    else
      let s := (s.setB (Reg.OUT.SUPV.PRECLOSE n) true).setOut n { s.out n with precloseBad := true }
      raise (outCode 0x600A n) n (outFault n s)
  else s

/-- OUT[n] enters READY with a carrel bound. -/
def outReady (n c : Nat) (s : State) : State :=
  let s := outEnter n 3 (outBind n c s)
  tryClose n (s.setOut n { s.out n with rcmEach := false })

/-- Presence of a vehicle is judged anew (R250). While no verdict is formed (decoded F) carrels stay suspended: a
carrel's vehicle is gone at the first verdict that says so (DEDUCED from R63 and R85, log entry 20). -/
def outPresence (n : Nat) (s : State) : State :=
  let v := s.vehicle n
  let st := s.outSt n
  if st = 1 && v then outConnect n s
  else if st = 3 && !v then
    let s := outFromReady n 3 s
    if s.rd (Reg.OUT.STATUS.PILOT n) = 5 then s else crlVehicleGone n s
  else
    let s := if v || s.rd (Reg.OUT.STATUS.PILOT n) = 5 then s else crlVehicleGone n s
    if s.outSt n = 2 && !v && (s.bound n).isNone then outIdle n s else s

/-- New carrels are refused (R275): a site stop, a tamper action in force, or SHUT. -/
def State.tamperAction (s : State) : Bool := (s.mode = 5 || s.mode = 6) && s.tmp.acts.any fun x => 1 ≤ x.2

end Sys2Proof.Machine
end

