-- ==== Sys2Proof/Machine/Outlets.lean ====
section
/-!
DEFINITION. The charging outlets (chapter 08): commands, control pilot, proximity, closing, stopping, the weld check,
residual current, insulation, power modules and connection devices. Each command and event is an operation
`State → State` that the register bus can also start, and a meaning that ends the step.
-/
namespace Sys2Proof.Machine

/-! ### What the safety part tells an outlet (R375, R377, R380) -/

/-- A field of entry FN[f] of the safety parameter block (R387). -/
def State.fnCfg (s : State) (f off n : Nat) : Nat := s.cfg 7 (0xA0 + 16 * f + off) n

/-- TYPE of function f (R374). -/
def State.fnType (s : State) (f : Nat) : Nat := s.fnCfg f 0 1

/-- Whether LSE[n] is in the mask of function f. -/
def State.fnMasks (s : State) (f n : Nat) : Bool := s.fnType f ≠ 0 && Nat.testBit (s.fnCfg f 0xA 2) n

/-- Function f as a half sees it. -/
def HalfSt.fnAt (h : HalfSt) (f : Nat) : FnSt := mapGet (fun _ => FnSt.init) h.fn f

/-- Function f is in RUN in both halves. -/
def State.fnRuns (s : State) (f : Nat) : Bool := (s.saf.cur.fnAt f).st = 2 && (s.saf.kpr.fnAt f).st = 2

/-- A safety demand holds for OUT[n]: a function of its mask, TYPE 4 left out, is not in RUN (R53, R360, R377). -/
def State.safeDemand (s : State) (n : Nat) : Bool :=
  (List.range 24).any fun f => s.fnMasks f n && s.fnType f ≠ 4 && !s.fnRuns f

/-- The TYPE 4 function whose mask names LSE[n] (R379). -/
def State.jogFn (s : State) (n : Nat) : Option Nat :=
  (List.range 24).find? fun f => s.fnMasks f n && s.fnType f = 4

/-- The group supply of COIL0 or COIL1 is under-voltage (R407). -/
def State.coilUv (s : State) (n : Nat) : Bool :=
  [s.rd (Reg.OUT.HS_MAP.COIL0 n), s.rd (Reg.OUT.HS_MAP.COIL1 n)].any fun c =>
    c < 40 && s.flag Reg.LSW.STATUS.UV (c / 8)

/-- A forcing condition of R53 holds for OUT[n]. -/
def State.outForced (s : State) (n : Nat) : Bool :=
  s.mode < 3 || s.mode = 10 || s.mode = 11 || s.coilUv n || s.safeDemand n

/-! ### Commands (R252) -/

/-- OUT[n].RESULT is written. -/
def outResult (n car cmd code : Nat) (s : State) : State :=
  ((s.wr (Reg.OUT.RESULT.CARREL n) car).wr (Reg.OUT.RESULT.CMD n) cmd).wr (Reg.OUT.RESULT.CODE n) code

/-- A stop cause that leaves its cause latched (an RCM trip or a pilot error): at once from CLOSING to RAMPING, and as
a shut-down forced by a fault from IDLE to READY (R53, R250, R255). -/
def outLatchStop (n reason : Nat) (s : State) : State :=
  if 4 ≤ s.outSt n then outOpenStop n reason s else outForce n reason s

/-- The conditions of R252 that also hold for a request in OPENING: (code, holds), in order. -/
def energiseConds1 (n c : Nat) (s : State) : List (Nat × Bool) :=
  let r := s.car c
  [(1, s.mode = 5 || (s.mode = 6 && s.outSt n ≠ 0)),
   (2, s.outSt n = 2 || s.outSt n = 9),
   (3, r.outlet = n && (r.st = 2 || r.st = 4)),
   (4, r.unlimited || decide ((r.startFee : Int) < r.balance)),
   (5, !s.bit Reg.CRD.STATUS.STOPPED && !s.tamperAction),
   (6, s.rd (Reg.MET.MQ.STATUS.NOSRC n) = 0),
   (7, s.isDc n || !(s.bit (Reg.MET.MQ.STATUS.NEUTRAL 16) || s.bit (Reg.MET.MQ.STATUS.NEUTRAL n)))]

/-- The conditions 8 to 12 of R252. -/
def energiseConds2 (n : Nat) (s : State) : List (Nat × Bool) :=
  let p := s.rd (Reg.OUT.STATUS.PILOT n)
  [(8, s.bit (Reg.OUT.SUPV.RCM_OK n)),
   (9, decide (40 ≤ s.rd (Reg.OUT.HS_MAP.LOCK n)) || s.bit (Reg.OUT.STATUS.LOCKED n)),
   (10, !s.isAc n || decide (60 ≤ s.rd (Reg.OUT.LIMIT.I_CAP n))),
   (11, !s.isDc n || (s.modules n).any fun k =>
      s.rd (Reg.OUT.MOD_STAT.STATE n k) = 1 && !s.bit (Reg.OUT.MOD_STAT.LOST n k)),
   (12, s.rd (Reg.OUT.CFG.KIND n) ≠ 4 ||
      (s.rd (Reg.OUT.SUPV.ACD n) = 3 && (p = 1 || p = 2 || p = 3)))]

/-- `ENERGISE` (R252). -/
def outEnergise (a : Agent) (n c : Nat) (s : State) : State :=
  gated a 1 (fun s =>
    let conds := energiseConds1 n c s ++ (if s.outSt n = 9 then [] else energiseConds2 n s)
    match conds.find? (fun x => !x.2) with
    | some (code, _) => raise (outCode 0x200B n) n (outEvent n 9 code 0 (outResult n c 1 code s))
    | none =>
      if s.outForced n then outResult n c 1 22 s
      else if s.outSt n = 9 then
        if s.bit (Reg.OUT.PEND.PEND n) then
          let s := s.inc (Reg.OUT.PEND.DISCARDS n)
          outEvent n 10 0 (s.rd (Reg.OUT.PEND.DISCARDS n)) (outResult n c 1 21 s)
        else outResult n c 1 20 ((s.setB (Reg.OUT.PEND.PEND n) true).wr (Reg.OUT.PEND.CARREL n) c)
      else outReady n c (outResult n c 1 0 s)) s

/-- `STOP` (R250, R255, R257): in OPENING it clears the pending enable under R52. -/
def outStopCmd (a : Agent) (n : Nat) (s : State) : State :=
  gated a 1 (fun s =>
    outResult n 0 2 0 (if s.outSt n = 9 then outClearPend n s else outRamp n 1 s)) s

/-- A command that the outlet's state admits when `ok` (code 0), and that is otherwise refused with code 30. -/
def outCmd (a : Agent) (n cmd : Nat) (ok : State → Bool) (act : State → State) (s : State) : State :=
  gated a 1 (fun s => if ok s then outResult n 0 cmd 0 (act s) else outResult n 0 cmd 30 s) s

/-- `PRECHARGE` (R250, R262): `diffMv` is the distance of the load side from the supply side. -/
def outPrechargeCmd (a : Agent) (n diffMv : Nat) (s : State) : State :=
  outCmd a n 3 (fun s => s.outSt n = 5 && (s.out n).isoGood && diffMv ≤ 20000) (outEnter n 6) s

/-- `DELIVER` (R250): the 2 A clamp is lifted. -/
def outDeliverCmd (a : Agent) (n : Nat) (s : State) : State :=
  outCmd a n 4 (fun s => s.outSt n = 6)
    (fun s => outEnter n 7 (s.setOut n { s.out n with clamp2 := false })) s

/-- `RECHECK` (R260): a weld check runs in FAULT. -/
def outRecheckCmd (a : Agent) (n : Nat) (s : State) : State :=
  outCmd a n 5 (fun s => s.outSt n = 10 && (s.out n).weldBad)
    (fun s => s.setOut n { s.out n with recheck := true }) s

/-- `CLEAR` (R260): the test that clears a trip. -/
def outClearCmd (a : Agent) (n : Nat) (s : State) : State :=
  outCmd a n 6 (fun s => s.outSt n = 10 && s.bit (Reg.OUT.SUPV.RCM_TRIP n)) (rcmStart n 3) s

/-- A move of the connection device starts: 1 down, 2 up (R265). -/
def acdStart (n dir : Nat) (s : State) : State :=
  let s := hsDrive (s.rd (Reg.OUT.HS_MAP2.MOVE_DN n)) (dir = 1) s
  let s := hsDrive (s.rd (Reg.OUT.HS_MAP2.MOVE_UP n)) (dir = 2) s
  let s := s.setOut n { s.out n with acdMove := dir, acdUpLatched := false }
  outEvent n 13 2 0 (s.wr (Reg.OUT.SUPV.ACD n) 2)

/-- A move ends with the device at `pos` (R265, R379). -/
def acdEnd (n pos : Nat) (s : State) : State :=
  let s := hsDrive (s.rd (Reg.OUT.HS_MAP2.MOVE_DN n)) false s
  let s := hsDrive (s.rd (Reg.OUT.HS_MAP2.MOVE_UP n)) false s
  let s := s.setOut n { s.out n with acdMove := 0 }
  outEvent n 13 pos 0 (s.wr (Reg.OUT.SUPV.ACD n) pos)

/-- In the Jog class a device command is a jog command: it acts only while its TYPE 4 function is in RUN (R379). -/
def State.jogs (s : State) (n : Nat) : Option Bool :=
  if s.mode = 7 then (s.jogFn n).map s.fnRuns else none

/-- `ACD_DOWN` (R265). -/
def acdDownCmd (a : Agent) (n : Nat) (s : State) : State :=
  outCmd a n 7 (fun s => s.rd (Reg.OUT.CFG.KIND n) = 4 &&
      match s.jogs n with
      | some ok => ok
      | none => s.outSt n = 1 && s.fnRuns (s.rd (Reg.OUT.HS_MAP2.ACD_SAF n))) (acdStart n 1) s

/-- `ACD_UP` (R265): from CLOSING to OPENING it is latched, and first causes a stop with reason 18. -/
def acdUpCmd (a : Agent) (n : Nat) (s : State) : State :=
  outCmd a n 8 (fun s => s.rd (Reg.OUT.CFG.KIND n) = 4 && s.outSt n ≠ 0 && (s.jogs n).getD true)
    (fun s =>
      if 4 ≤ s.outSt n && s.outSt n ≤ 9 then
        outRamp n 18 (s.setOut n { s.out n with acdUpLatched := true })
      else acdStart n 2 s) s

/-- `RCM_TEST` (R259): admitted while the contactors are open and no test runs (log entry 22). -/
def rcmTestCmd (a : Agent) (n : Nat) (s : State) : State :=
  outCmd a n 9 (fun s => ((1 ≤ s.outSt n && s.outSt n ≤ 3) || s.outSt n = 10) && (s.out n).rcmTest = 0)
    (rcmStart n 4) s

/-- A command code of 10 to 255 is refused with code 31; CMD = 0 is no command (R252). -/
def outCmdUndef (a : Agent) (n cmd : Nat) (s : State) : State :=
  gated a 1 (fun s => if 10 ≤ cmd then outResult n 0 cmd 31 s else s) s

/-- A write of OUT[n].CP_CTRL (R242). -/
def cpCtrl (a : Agent) (n mode duty : Nat) (s : State) : State :=
  gated a 1 (fun s =>
    if mode = 2 && duty ≠ 50 && (duty < 80 || 970 < duty) then raise (outCode 0x200E n) n s
    else
      outPresence n (pilotApply n ((s.wr (Reg.OUT.CP_CTRL.MODE n) mode).wr (Reg.OUT.CP_CTRL.DUTY n) duty))) s

/-- A write of OUT[n].LIMIT.I_MAX (R248). -/
def outLimit (a : Agent) (n iMax : Nat) (s : State) : State :=
  gated a 1 (fun s => outRecap n (s.wr (Reg.OUT.LIMIT.I_MAX n) iMax)) s

/-- The load-side voltages of METER[n] over the last 20 ms are measured (R254). -/
def withLoad (n : Nat) (load : List Nat) (s : State) : State := s.setOut n { s.out n with loadV := load }

/-- `ENERGISE`. -/
def execEnergise (a : Agent) (n : Fin 16) (c : Fin 256) (load : List Nat) (s : State) : Out :=
  done (outEnergise a n c (withLoad n load s))

/-- `STOP`. -/
def execOutStop (a : Agent) (n : Fin 16) (s : State) : Out := done (outStopCmd a n s)

/-- `PRECHARGE`. -/
def execOutPrecharge (a : Agent) (n : Fin 16) (diffMv : Nat) (s : State) : Out := done (outPrechargeCmd a n diffMv s)

/-- `DELIVER`. -/
def execOutDeliver (a : Agent) (n : Fin 16) (s : State) : Out := done (outDeliverCmd a n s)

/-- `RECHECK`. -/
def execOutRecheck (a : Agent) (n : Fin 16) (s : State) : Out := done (outRecheckCmd a n s)

/-- `CLEAR`. -/
def execOutClear (a : Agent) (n : Fin 16) (s : State) : Out := done (outClearCmd a n s)

/-- `ACD_DOWN`. -/
def execAcdDown (a : Agent) (n : Fin 16) (s : State) : Out := done (acdDownCmd a n s)

/-- `ACD_UP`. -/
def execAcdUp (a : Agent) (n : Fin 16) (s : State) : Out := done (acdUpCmd a n s)

/-- `RCM_TEST`. -/
def execRcmTest (a : Agent) (n : Fin 16) (s : State) : Out := done (rcmTestCmd a n s)

/-- `OUT_CMD_UNDEFINED`. -/
def execOutCmdUndefined (a : Agent) (n : Fin 16) (cmd : Fin 256) (s : State) : Out := done (outCmdUndef a n cmd s)

/-- `CP_CTRL_WRITE`. -/
def execCpCtrlWrite (a : Agent) (n : Fin 16) (mode : Fin 4) (duty : Fin 1024) (s : State) : Out :=
  done (cpCtrl a n mode duty s)

/-- `OUT_LIMIT_WRITE`. -/
def execOutLimitWrite (a : Agent) (n : Fin 16) (iMax : Nat) (s : State) : Out := done (outLimit a n (iMax % 65536) s)

/-! ### Control pilot (R244 to R246) -/

/-- The verdict of one period from its plateaus, mV (R244). -/
def pilotVerdict (pwm : Bool) (high low : Int) : PilotVerdict :=
  let v : PilotVerdict :=
    if 10500 ≤ high ∧ high ≤ 13500 then .a
    else if 7500 ≤ high ∧ high < 10500 then .b
    else if 4500 ≤ high ∧ high < 7500 then .c
    else if 1500 ≤ high ∧ high < 4500 then .d
    else if -1500 ≤ high ∧ high < 1500 then .e
    else .inv
  if pwm && decide (-10500 < low) && (v = .b || v = .c || v = .d) then .inv else v

/-- The code of a verdict in OUT[n].STATUS.PILOT. -/
def pilotCode : PilotVerdict → Nat
  | .a => 0 | .b => 1 | .c => 2 | .d => 3 | .e => 4 | .inv => 6

/-- The verdict held by at least two of the last three periods (R245). -/
def pilotMajority : List PilotVerdict → Option PilotVerdict
  | x :: y :: z :: _ => if x = y || x = z then some x else if y = z then some y else none
  | [x, y] => if x = y then some x else none
  | _ => none

/-- A plateau as CP_MEAS shows it: 0.1 V, 9 bits, saturating. -/
def plateauField (mv : Int) : Int := max (-256) (min 255 (mv / 100))

/-- A pilot error (R246): it is latched, its fault is raised, and the outlet stops under R255 with reason 4. -/
def pilotError (n : Nat) (s : State) : State :=
  if (s.out n).pilotErr then s
  else raise (outCode 0x6007 n) n (outLatchStop n 4 (s.setOut n { s.out n with pilotErr := true }))

/-- The decoded state changes from `old` to `new` (R245, R250, R255, R266). -/
def pilotDecoded (n old new : Nat) (s : State) : State :=
  let s := vplFollow n (outEvent n 2 new (s.rd (Reg.OUT.CP_MEAS.DUTY n)) (s.wr (Reg.OUT.STATUS.PILOT n) new))
  let s :=
    if new = 4 then pilotError n s
    else if old = 2 || old = 3 then
      if new = 1 then outOpenStop n 2 s
      else if new = 0 then outOpenStop n 3 s
      else if new = 6 then outOpenStop n 4 s
      else s
    else s
  tryClose n (outPresence n s)

/-- One pilot period with its plateaus (R244 to R246). -/
def pilotPeriod (n : Nat) (high low : Int) (s : State) : State :=
  let m := s.rd (Reg.OUT.CP_MEAS.MODE n)
  let s := (s.wrI (Reg.OUT.CP_MEAS.HIGH n) (plateauField high)).wrI (Reg.OUT.CP_MEAS.LOW n) (plateauField low)
  if m = 0 || m = 3 then outPresence n (vplFollow n (pilotF n s))
  else
    let v := pilotVerdict (m = 2) high low
    let o := s.out n
    let hist := (v :: o.hist).take 3
    let inv := if v = .inv then o.inv + 1 else 0
    let s := s.setOut n { o with hist := hist, inv := inv }
    let old := s.rd (Reg.OUT.STATUS.PILOT n)
    let s := match pilotMajority hist with
      | some w => if pilotCode w = old then s else pilotDecoded n old (pilotCode w) s
      | none => s
    if inv = 10 then pilotError n s else s

/-- `PILOT_STATE_CHANGE`. -/
def execPilotStateChange (n : Fin 16) (high low : Int) (load : List Nat) (s : State) : Out :=
  done (live (fun s => pilotPeriod n high low (withLoad n load s)) s)

/-- `OUT_PILOT_ERR`. -/
def execOutPilotErr (n : Fin 16) (s : State) : Out := done (live (pilotError n) s)

/-! ### Proximity and lock (R247, R266) -/

/-- The cable capacity of a resistance, A: (0, false) for no cable, (0, true) in a gap (R247). -/
def ppBand (ohms : Nat) : Nat × Bool :=
  if 1100 ≤ ohms ∧ ohms ≤ 2400 then (13, false)
  else if 400 ≤ ohms ∧ ohms ≤ 935 then (20, false)
  else if 164 ≤ ohms ∧ ohms ≤ 330 then (32, false)
  else if 75 ≤ ohms ∧ ohms ≤ 144 then (63, false)
  else if 4500 < ohms then (0, false)
  else (0, true)

/-- The proximity measurement (R247): above 5,000 Ω it reads 0xFFFF. -/
def proximity (n ohms : Nat) (s : State) : State :=
  let shown := if 5000 < ohms then 0xFFFF else ohms
  let (cap, inv) := if s.rd (Reg.OUT.CFG.KIND n) = 1 then ppBand ohms else (0, false)
  let changed := s.rd (Reg.OUT.PP.OHMS n) ≠ shown || s.rd (Reg.OUT.PP.CAP n) ≠ cap ||
    s.bit (Reg.OUT.PP.INVALID n) ≠ inv
  let s := ((s.wr (Reg.OUT.PP.OHMS n) shown).wr (Reg.OUT.PP.CAP n) cap).setB (Reg.OUT.PP.INVALID n) inv
  let s := if changed then outEvent n 3 cap shown s else s
  tryClose n (outPresence n (outRecap n s))

/-- `PROXIMITY_CHANGE`. -/
def execProximityChange (n : Fin 16) (ohms : Nat) (s : State) : Out := done (live (proximity n ohms) s)

/-- `LOCK_FEEDBACK_CHANGE` (R266). -/
def execLockFeedbackChange (n : Fin 16) (confirmed : Bool) (s : State) : Out :=
  done (live (fun s => outEvent n 4 (b2n confirmed) 0 (s.setB (Reg.OUT.STATUS.LOCKED n) confirmed)) s)

/-! ### Closing and stopping (R250, R255, R256) -/

/-- `READY_T_ELAPSED`. -/
def execReadyTElapsed (n : Fin 16) (s : State) : Out :=
  done (live (fun s => if s.outSt n = 3 then outFromReady n 17 s else s) s)

/-- CLOSE_T elapses (R250): a DC outlet enters CABLE_CHECK under the 2 A clamp; an AC outlet, not verified, opens. -/
def closeT (n : Nat) (s : State) : State :=
  if s.outSt n ≠ 4 then s
  else if s.isDc n then
    outEnter n 5 (s.setOut n { s.out n with clamp2 := true, isoGood := false, isoLow := 0 })
  else raise (outCode 0x6002 n) n (outOpenStop n 16 s)

/-- `CLOSE_T_ELAPSED`. -/
def execCloseTElapsed (n : Fin 16) (s : State) : Out := done (live (closeT n) s)

/-- `CLOSURE_VERIFIED` (R256): the fundamental load-side voltage of each used phase reaches 80 % of the supply side. -/
def execClosureVerified (n : Fin 16) (load supply : List Nat) (s : State) : Out :=
  done (live (fun s =>
    if s.outSt n = 4 && s.isAc n && load.length = supply.length &&
      (load.zip supply).all (fun x => 8 * x.2 ≤ 10 * x.1) then outEnter n 7 s else s) s)

/-- `RAMP_END` (R250): the current is below 1 A, or 200 ms have elapsed. -/
def execRampEnd (n : Fin 16) (s : State) : Out := done (live (fun s => if s.outSt n = 8 then outOpen n s else s) s)

/-! ### Weld check (R258, R260) -/

/-- `WELD_CHECK_START` (R258): with more than 100 V on the load side a DC outlet's modules are held off. -/
def execWeldCheckStart (n : Fin 16) (vLoad : Nat) (s : State) : Out :=
  done (live (fun s =>
    let o := s.out n
    if s.outSt n = 9 || (s.outSt n = 10 && o.recheck) then
      s.setOut n { o with weldRun := true, weldHold := decide (100000 < vLoad) }
    else s) s)

/-- The verdict of the window: 1 open, 2 welded, 3 none (R258). -/
def weldJudge (nomMv : Nat) : WeldWindow → Nat
  | .ac supply load =>
    if !supply.all (fun v => nomMv ≤ 2 * v) then 3
    else if (supply.zip load).any (fun x => x.1 ≤ 2 * x.2) then 2 else 1
  | .dc diff => if diff < 20000 then 2 else 1

/-- What a verdict of welded leaves before its fault: LOCK is held on, TRIP goes on when named, the outlet is in FAULT. -/
def weldMark (n : Nat) (s : State) : State :=
  let s := hsDrive (s.rd (Reg.OUT.HS_MAP.TRIP n)) true (hsDrive (s.rd (Reg.OUT.HS_MAP.LOCK n)) true s)
  outFault n (s.setOut n { s.out n with weldBad := true })

/-- A verdict of welded (R258): its fault is Minor where TRIP is named, else Major. -/
def welded (n : Nat) (s : State) : State :=
  raise (if s.rd (Reg.OUT.HS_MAP.TRIP n) < 40 then outCode 0x6001 n else outCode 0xA001 n) n (weldMark n s)

/-- FAULT is left: TRIP goes off, and the outlet is CONNECTED with a vehicle or a carrel, else IDLE (R250, R260). -/
def leaveFault (n : Nat) (s : State) : State :=
  let s := hsDrive (s.rd (Reg.OUT.HS_MAP.TRIP n)) false s
  let s := s.setOut n { s.out n with weldBad := false, pilotErr := false, precloseBad := false, recheck := false }
  let s := s.setB (Reg.OUT.SUPV.RCM_TRIP n) false
  if s.vehicle n || (s.bound n).isSome then outToConnected n s else outPresence n (outIdle n s)

/-- OPENING ends with a verdict of open (R250). -/
def openingEnds (n : Nat) (s : State) : State :=
  let s := s.setOut n { s.out n with coolDue := true }
  if s.bit (Reg.OUT.SUPV.RCM_TRIP n) || (s.out n).pilotErr then outFault n s
  else if s.bit (Reg.OUT.PEND.PEND n) then
    let c := s.rd (Reg.OUT.PEND.CARREL n)
    outReady n c (outClearPend n s)
  else if s.vehicle n || (s.bound n).isSome then outToConnected n s
  else outIdle n s

/-- The weld window ends (R258): the verdict, its event, and where it leads; a latched ACD_UP follows (R265). -/
def weldEnds (n : Nat) (w : WeldWindow) (s : State) : State :=
  let o := s.out n
  let st := s.outSt n
  if !(st = 9 || (st = 10 && o.recheck)) then s
  else
    let v := weldJudge (1000 * s.nomV n) w
    let s := s.setOut n { o with weldRun := false, weldHold := false, recheck := false }
    let s := outEvent n 5 (v - 1) 0 (s.wr (Reg.OUT.SUPV.WELD n) v)
    let s :=
      if v = 1 then (if st = 9 then openingEnds n s else leaveFault n s)
      else if v = 2 then welded n s
      else outFault n (s.setOut n { s.out n with weldBad := true })
    if (s.out n).acdUpLatched then acdStart n 2 s else s

/-- `WELD_VERDICT`. -/
def execWeldVerdict (n : Fin 16) (w : WeldWindow) (load : List Nat) (s : State) : Out :=
  done (live (fun s => weldEnds n w (withLoad n load s)) s)

/-- `COOL_OFF` (R250): 30 s after OPENING ended, unless the outlet has entered CLOSING since. -/
def execCoolOff (n : Fin 16) (s : State) : Out :=
  done (live (fun s =>
    if (s.out n).coolDue then
      hsDrive (s.rd (Reg.OUT.HS_MAP2.COOL n)) false (s.setOut n { s.out n with coolDue := false })
    else s) s)

/-! ### Residual current (R259, R260) -/

/-- A filtered trip; the low level that a running test causes is no trip (R259). -/
def rcmTrip (n : Nat) (s : State) : State :=
  if (s.out n).rcmTest ≠ 0 then s
  else
    let s := (s.setB (Reg.OUT.SUPV.RCM_TRIP n) true).inc (Reg.OUT.SUPV.RCM_TRIPS n)
    let s := outEvent n 6 0 0 s
    raise (outCode 0x6003 n) n (outLatchStop n 5 (coilsSet n false s))

/-- `OUT_RCM_TRIP`. -/
def execOutRcmTrip (n : Fin 16) (s : State) : Out := done (live (rcmTrip n) s)

/-- The sensor test passes: low within 40 ms of its start, high again within 100 ms of its end (R259). -/
def rcmPasses (lowMs highMs : Option Nat) : Bool :=
  (match lowMs with | some t => t ≤ 40 | none => false) && (match highMs with | some t => t ≤ 100 | none => false)

/-- The RCM test ends (R259, R260). -/
def rcmTestEnds (n : Nat) (pass : Bool) (s : State) : State :=
  let why := (s.out n).rcmTest
  if why = 0 then s
  else
    let s := rcmStart n 0 s
    let s := outEvent n 7 (b2n !pass) 0 s
    let s := if s.outSt n = 2 || s.outSt n = 3 then s.setB (Reg.OUT.SUPV.RCM_OK n) pass else s
    if !pass then raise (outCode 0x6004 n) n s
    else if why = 2 then tryClose n (s.setOut n { s.out n with rcmEach := true })
    else if why = 3 && s.outSt n = 10 && !(s.out n).weldBad then leaveFault n s
    else tryClose n s

/-- `RCM_TEST_RESULT`. -/
def execRcmTestResult (n : Fin 16) (lowMs highMs : Option Nat) (load : List Nat) (s : State) : Out :=
  done (live (fun s => rcmTestEnds n (rcmPasses lowMs highMs) (withLoad n load s)) s)

/-- `FAULT_CLEAR_A_HELD` (R260): after a trip with RCM[n] healthy, or after a pilot error. -/
def execFaultClearAHeld (n : Fin 16) (rcmHealthy : Bool) (s : State) : Out :=
  done (live (fun s =>
    let trip := s.bit (Reg.OUT.SUPV.RCM_TRIP n)
    if s.outSt n = 10 && !(s.out n).weldBad && !(s.out n).precloseBad &&
      (trip || (s.out n).pilotErr) && (!trip || rcmHealthy) then leaveFault n s else s) s)

/-! ### Insulation (R261, R262) -/

/-- One result from the voltages of states a and b (mV) and ISO_RI (kΩ): riso in kΩ and its ratio in Ω/V, both rounded
down; `none` where a quotient of R261 has the divisor 0. -/
def isoResult (ri : Nat) (vpA vnA vpB vnB : Int) : Option (Int × Int) :=
  let pa := |vpA|
  let na := |vnA|
  let pb := |vpB|
  let nb := |vnB|
  let num := (ri : Int) * (pb * na - pa * nb)
  let dp := nb * (na + pa)
  let dn := pa * (nb + pb)
  let v := |vpB - vnB|
  if na = 0 ∨ dp = 0 ∨ dn = 0 ∨ v = 0 then none
  else some (min (num / dp) (num / dn), min (num * 1000000 / (dp * v)) (num * 1000000 / (dn * v)))

/-- A value shown in 16 bits, saturating. -/
def sat16 (v : Int) : Nat := min 65535 v.toNat

/-- A result of the insulation measurement is shown and counted (R262). -/
def isoTake (n : Nat) (riso opv : Int) (warn bad : Bool) (s : State) : State :=
  let s := (s.wr (Reg.OUT.ISO.OPV n) (sat16 opv)).wr (Reg.OUT.ISO.RISO n) (sat16 riso)
  let s := (s.setB (Reg.OUT.SUPV.ISO_WARN n) warn).setB (Reg.OUT.SUPV.ISO_FAULT n) bad
  s.setOut n { s.out n with isoLow := if bad then (s.out n).isoLow + 1 else 0, isoGood := s.outSt n = 5 && !bad }

/-- What a result leads to (R262): the event while a warning stands or has stood, the Notice of a warning, and the stop
with reason 6 at the second result in a row below ISO_FAULT. -/
def isoJudge (n : Nat) (riso opv : Int) (s : State) : State :=
  let warn := decide (opv < s.outCfg n 0x20 2)
  let bad := decide (opv < s.outCfg n 0x22 2)
  let was := s.bit (Reg.OUT.SUPV.ISO_WARN n)
  let low := if bad then (s.out n).isoLow + 1 else 0
  let s := isoTake n riso opv warn bad s
  let s := if warn || was then outEvent n 8 (if bad then 2 else b2n warn) (sat16 opv) s else s
  let s := if warn then raise (outCode 0x2005 n) n s else s
  if low = 2 then raise (outCode 0x6006 n) n (outRamp n 6 s) else s

/-- A result of the insulation measurement (R261, R262); a quotient with the divisor 0 leaves free values. -/
def insulation (n : Nat) (vpA vnA vpB vnB : Int) (s : State) : State :=
  if !s.isDc n || |vpA - vnA| < 50000 || |vpB - vnB| < 50000 then s
  else match isoResult (s.outCfg n 0x1E 2) vpA vnA vpB vnB with
    | some r => isoJudge n r.1 r.2 s
    | none =>
      let (a, s) := s.fresh
      let (b, s) := s.fresh
      isoJudge n a b s

/-- `INSULATION_RESULT`. -/
def execInsulationResult (n : Fin 16) (vpA vnA vpB vnB : Int) (s : State) : Out :=
  done (live (insulation n vpA vnA vpB vnB) s)

/-! ### Power modules (R263, R264) -/

/-- The sixteen bytes of a frame without its CHECK: SEQ, MODE, V_SET, I_FWD, I_REV, P_MAX, RAMP and the outlet. -/
structure Setpoint where
  mode : Nat
  vSet : Nat
  iFwd : Nat
  iRev : Nat
  pMax : Nat
  ramp : Nat
  deriving DecidableEq, Repr

/-- The frame held in four registers. -/
def setpointOf (r : Nat → Nat) : Setpoint :=
  { mode := r 0 / 256 % 256, vSet := r 0 / 65536, iFwd := r 1 % 65536, iRev := r 1 / 65536,
    pMax := r 2 % 65536, ramp := r 2 / 65536 }

/-- OUT[n].SETPT. -/
def State.setpt (s : State) (n : Nat) : Setpoint := setpointOf fun k => s.rd (Reg.OUT.SETPT.BYTES n k)

/-- The frame of the outlet's state before the clamps (R264). -/
def State.stateFrame (s : State) (n : Nat) : Setpoint :=
  let st := s.outSt n
  let off : Setpoint := ⟨0, 0, 0, 0, 0, 0⟩
  if st = 5 then { s.setpt n with mode := 1 }
  else if st = 6 then { s.setpt n with mode := 3 }
  else if st = 7 then s.setpt n
  else if st = 8 then
    let r := setpointOf fun k => s.rd (Reg.OUT.RAMP.BYTES n k)
    if r.mode = 2 then r else { off with mode := 2, ramp := s.outCfg n 0x24 2 }
  else if (st = 9 || st = 10) && (s.out n).weldRun && !(s.out n).weldHold then
    { off with mode := 4, vSet := 1000, iFwd := 5 }
  else off

/-- Reverse flow is permitted: BPT, and the carrel's own permission (R264). -/
def State.revOk (s : State) (n : Nat) : Bool :=
  s.flag (Reg.OUT.CFG.FLAGS n) 2 && (match s.bound n with | some c => (s.car c).rev | none => false)

/-- The clamps of R264. -/
def State.clampFrame (s : State) (n : Nat) (f : Setpoint) : Setpoint :=
  let p := s.outCfg n 8 2
  { f with
    vSet := min f.vSet (10 * s.outCfg n 6 2)
    iFwd := min (min f.iFwd (s.rd (Reg.OUT.LIMIT.I_CAP n)))
      (if (s.outSt n = 5 || s.outSt n = 6) && (s.out n).clamp2 then 20 else 65535)
    iRev := if s.revOk n then f.iRev else 0
    pMax := if p = 0 then f.pMax else min f.pMax p }

/-- The modules in STATUS state 1 to 3, among which a frame is divided (R264). -/
def State.activeModules (s : State) (n : Nat) : List Nat :=
  (s.modules n).filter fun k =>
    let st := s.rd (Reg.OUT.MOD_STAT.STATE n k)
    1 ≤ st && st ≤ 3 && !s.bit (Reg.OUT.MOD_STAT.LOST n k)

/-- The share of module `k`. -/
def Setpoint.share (f : Setpoint) (active : List Nat) (k : Nat) : Setpoint :=
  if active.contains k then
    { f with iFwd := f.iFwd / active.length, iRev := f.iRev / active.length, pMax := f.pMax / active.length }
  else { f with iFwd := 0, iRev := 0, pMax := 0 }

/-- Bytes 0 to 15 of a SETPOINT frame, with its CHECK (R263). -/
def Setpoint.bytes (f : Setpoint) (seq n : Nat) : List Byte :=
  let b := leBytes 14 (payloadOf [(0, seq % 256), (1, f.mode), (2, f.vSet), (4, f.iFwd), (6, f.iRev), (8, f.pMax),
    (10, f.ramp), (12, n)])
  b ++ leBytes 2 (crc16 b)

/-- Every listed module of OUT[n] is sent its frame; SEQ steps on each new setpoint. -/
def setpoints (n : Nat) (s : State) : State :=
  let f := s.clampFrame n (s.stateFrame n)
  let o := s.out n
  let key := [f.mode, f.vSet, f.iFwd, f.iRev, f.pMax, f.ramp]
  let seq := if o.lastSet = key then o.seq else (o.seq + 1) % 256
  let act := s.activeModules n
  let frames := (s.modules n).foldl (fun (m : SMap (List Byte)) k =>
    match s.modCfg n k with
    | some (b, _) =>
      if s.bit (Reg.CAN.CFG.EN b) && !s.bit (Reg.CAN.STATUS.BUS_OFF b) then
        mapSet (fun _ => []) m k ((f.share act k).bytes seq n) else m
    | none => m) o.frames
  s.setOut n { o with seq := seq, lastSet := key, frames := frames }

/-- `SETPOINT`. -/
def execSetpoint (n : Fin 16) (s : State) : Out :=
  done (live (fun s => if (s.modules n).isEmpty then s else setpoints n s) s)

/-- A valid STATUS of module `k` of OUT[n] (R263, R266). -/
def moduleStatus (n k : Nat) (bytes : List Byte) (s : State) : State :=
  let s := s.setOut n { s.out n with stat := mapSet (fun _ => []) (s.out n).stat k bytes }
  let s := ((s.setB (Reg.OUT.MOD_STAT.LOST n k) false).wr (Reg.OUT.MOD_STAT.STATE n k) (leAt bytes 1 1)).wr
    (Reg.OUT.MOD_STAT.I_OUT n k) (leAt bytes 4 2)
  outEvent n 12 k (leAt bytes 0 8) (setCause (outCode 0x6009 n) k false s)

/-- A valid STATUS goes to every module entry of that bus and node. -/
def statusTake (bus node : Nat) (bytes : List Byte) (s : State) : State :=
  forEach 16 (fun n s => forEach 4 (fun k s =>
    if s.modCfg n k = some (bus, node) then moduleStatus n k bytes s else s) s) s

/-- `STATUS` (R263): a frame of a length or CHECK that is wrong is not valid. -/
def execStatusFrame (bus : Fin 2) (node : Fin 128) (bytes : List Byte) (s : State) : Out :=
  done (live (fun s =>
    if bytes.length = 16 && crc16 (bytes.take 14) = leAt bytes 14 2 && s.bit (Reg.CAN.CFG.EN bus) then
      statusTake bus node bytes s
    else s) s)

/-- `OUT_MOD_LOST` (R264). -/
def execOutModLost (n : Fin 16) (k : Fin 4) (s : State) : Out :=
  done (live (fun s =>
    if (s.modCfg n k).isSome && !s.bit (Reg.OUT.MOD_STAT.LOST n k) then
      raiseCause (outCode 0x6009 n) k (outRamp n 15 (s.setB (Reg.OUT.MOD_STAT.LOST n k) true))
    else s) s)

/-! ### Connection devices and CAN (R265) -/

/-- `ACD_END_POSITION`. -/
def execAcdEndPosition (n : Fin 16) (lowered : Bool) (s : State) : Out :=
  done (live (fun s => if s.rd (Reg.OUT.CFG.KIND n) = 4 then acdEnd n (if lowered then 3 else 1) s else s) s)

/-- `OUT_ACD_TIMEOUT`. -/
def execOutAcdTimeout (n : Fin 16) (s : State) : Out :=
  done (live (fun s => if (s.out n).acdMove ≠ 0 then raise (outCode 0x600C n) n (acdEnd n 0 s) else s) s)

/-- `CAN_BUS_OFF`: the error counters of ISO 11898-1 are not driven by any command and become free values. -/
def execCanBusOff (b : Fin 2) (s : State) : Out :=
  done (live (fun s =>
    let (t, s) := s.fresh
    let (r, s) := s.fresh
    raiseCause 0x7A01 b
    ((((s.setB (Reg.CAN.STATUS.BUS_OFF b) true).setB (Reg.CAN.STATUS.ON b) false).wr (Reg.CAN.STATUS.TEC b) t).wr
      (Reg.CAN.STATUS.REC b) r)) s)

/-- `BUS_OFF_RECOVERED`: the bus recovers by itself under ISO 11898-1, with both counters at 0. -/
def execBusOffRecovered (b : Fin 2) (s : State) : Out :=
  done (live (fun s =>
    if s.bit (Reg.CAN.STATUS.BUS_OFF b) then
      setCause 0x7A01 b false
        (((((s.setB (Reg.CAN.STATUS.BUS_OFF b) false).setB (Reg.CAN.STATUS.PASSIVE b) false).setB
          (Reg.CAN.STATUS.ON b) (s.bit (Reg.CAN.CFG.EN b))).wr (Reg.CAN.STATUS.TEC b) 0).wr
          (Reg.CAN.STATUS.REC b) 0)
    else s) s)

/-! ### Configuration (R238, R250, R251) -/

/-- A bind set has changed the configuration of OUT[n] (R239, R250). -/
def outRebound (n : Nat) (s : State) : State :=
  let s := outRecap n s
  if s.outSt n = 0 then
    if s.outEnabled n then outPresence n (outEnter n 1 s) else s
  else if (s.outSt n = 1 || s.outSt n = 2) && (s.rd (Reg.OUT.CFG.KIND n) = 0 || !s.rolesOk n || !s.kindOk n) then
    outEnter n 0 (hsDrive (s.rd (Reg.OUT.HS_MAP.LOCK n)) false s)
  else s

/-- OUT[n] at step 8 of R69 (R251, R254): the pre-close check, then IDLE, or FAULT as after a verdict of welded. -/
def outStart (n : Nat) (s : State) : State :=
  if s.outSt n ≠ 0 || !s.outEnabled n then s
  else if s.precloseOk n then outPresence n (outEnter n 1 (s.setB (Reg.OUT.SUPV.PRECLOSE n) false))
  else
    let s := (s.setB (Reg.OUT.SUPV.PRECLOSE n) true).wr (Reg.OUT.SUPV.WELD n) 2
    raise (outCode 0x600A n) n (welded n s)

end Sys2Proof.Machine
end

