-- ==== Sys2Proof/Machine/Safety.lean ====
section
/-!
DEFINITION. The safety part (chapter 12): the samples of the two halves, channel forms and discrepancy, functions,
output commands, exchange frames, switch tests, test pulses, remote inputs, the seal and the confirmation.
-/
namespace Sys2Proof.Machine

/-! ### The two halves -/

/-- A half of the safety part. -/
def State.half (s : State) : SafHalf → HalfSt
  | .curator => s.saf.cur
  | .keeper => s.saf.kpr

/-- A half replaced. -/
def State.setHalf (s : State) : SafHalf → HalfSt → State
  | .curator, h => { s with saf := { s.saf with cur := h } }
  | .keeper, h => { s with saf := { s.saf with kpr := h } }

/-- Function `f` of a half replaced. -/
def HalfSt.setFn (h : HalfSt) (f : Nat) (x : FnSt) : HalfSt :=
  { h with fn := mapSet (fun _ => FnSt.init) h.fn f x }

/-- A flag of function f: 0 MANUAL, 1 START_INTLK, 2 CAT1, 3 PMI, 4 EXPORT (R387). -/
def State.fnFlag (s : State) (f b : Nat) : Bool := Nat.testBit (s.fnCfg f 7 1) b

/-- Input `i` of function f: 0 IN_A, 1 IN_B, 2 IN_C, 3 IN_D. -/
def State.fnIn (s : State) (f i : Nat) : Nat := s.fnCfg f (2 + i) 1

/-- The TPO of SI[k], 15 for none (R387). -/
def State.siTpo (s : State) (k : Nat) : Nat := s.cfg 7 (0x40 + 2 * k) 1 / 16

/-- FILT of SI[k] (R365). -/
def State.siFilt (s : State) (k : Nat) : Nat := s.cfg 7 (0x40 + 2 * k) 1 % 16 + 1

/-- The mode a half acts on: the Curator on the mode, the Keeper on the last valid frame, with its overrides (R355). -/
def State.actMode (s : State) : SafHalf → Nat
  | .curator => s.mode
  | .keeper =>
    if s.bit Reg.SAF.STATUS.LATCHED then 11 else if s.bit Reg.SAF.STATUS.FORCE then 10 else s.saf.kpr.mode

/-- The permission class of a mode: 0 Normal, 1 Jog, 2 Test, 3 None (R359). -/
def permClass (m : Nat) : Nat :=
  if m = 5 || m = 6 || m = 8 || m = 9 then 0 else if m = 7 then 1 else if m = 3 then 2 else 3

/-- The flag forced of R360. -/
def State.safForced (s : State) (h : SafHalf) : Bool :=
  s.bit Reg.SAF.STATUS.FORCE || s.actMode h = 10 || s.actMode h = 11

/-! ### Samples (R364 to R366) -/

/-- The new reading of each input from the levels above 11 V and below 5 V; a masked sample, or a level between the
thresholds, leaves the previous reading. -/
def readInputs (prev high low masked : Nat) : Nat :=
  (List.range 48).foldl (fun r k =>
    if Nat.testBit masked k then r
    else if Nat.testBit high k then putBit r k true
    else if Nat.testBit low k then putBit r k false
    else r) prev

/-- The filtered level of SI[k] after one more sample (R365). -/
def filterInput (filt : Nat) (k : Nat) (h : HalfSt) : HalfSt :=
  let lvl := Nat.testBit h.read k
  if Nat.testBit h.filt k = lvl then { h with run := mapSet (fun _ => 0) h.run k 0 }
  else
    let n := mapGet (fun _ => 0) h.run k + 1
    if filt ≤ n then { h with filt := putBit h.filt k lvl, run := mapSet (fun _ => 0) h.run k 0 }
    else { h with run := mapSet (fun _ => 0) h.run k n }

/-- Whether SI[k] has a pulse fault, or is treated as having one (R366, R367). -/
def State.siBad (s : State) (k : Nat) : Bool :=
  k < 48 && (Nat.testBit s.saf.pulseBad k || (s.siTpo k < 8 && s.flag Reg.SAF.STATUS.TPO_FAULT (s.siTpo k)))

/-! ### Channels (R368, R386) -/

/-- What remote input r holds. -/
def State.rem (s : State) (r : Nat) : RemSt := mapGet (fun _ => RemSt.init) s.saf.rem r

/-- What remote input r holds, replaced. -/
def State.setRem (s : State) (r : Nat) (x : RemSt) : State :=
  { s with saf := { s.saf with rem := mapSet (fun _ => RemSt.init) s.saf.rem r x } }

/-- A field of entry REMOTE[r] (R387). -/
def State.remCfg (s : State) (r off n : Nat) : Nat := s.cfg 7 (0x220 + 8 * r + off) n

/-- The RUN bit of function `f` in a message body of 14 bytes, byte 0 first (R382). -/
def msgRun (body f : Nat) : Bool := Nat.testBit (body / 256 ^ 3) f

/-- Remote input r is RUN (R386). -/
def State.remRun (s : State) (r : Nat) : Bool :=
  let x := s.rem r
  x.alive && x.seq.isSome && msgRun x.body (s.remCfg r 1 1) && !x.bit0 && !x.mismatch && !(x.single && x.expired)

/-- Whether channel `i` (0 or 1) of pair `p` of function f is in demand: hands of TYPE 4 are pairs 0 and 1 (R368). -/
def State.chDemand (s : State) (h : HalfSt) (f p i : Nat) : Bool :=
  if s.fnType f = 5 then !s.remRun (s.fnCfg f 0xC 1)
  else
    let k := s.fnIn f (2 * p + i)
    let lvl := k < 48 && Nat.testBit h.filt k
    if s.fnCfg f 1 1 = 2 && i = 1 then lvl else !lvl

/-- Whether function f reads pairs, and not a single channel. -/
def State.fnPaired (s : State) (f : Nat) : Bool := s.fnType f ≠ 5 && s.fnCfg f 1 1 ≠ 0

/-- The pairs of function f; a single channel counts as one pair whose channels are the same. -/
def State.fnPairs (s : State) (f : Nat) : List Nat := if s.fnType f = 4 then [0, 1] else [0]

/-- The demands of the two channels of pair p. -/
def State.pairDemand (s : State) (h : HalfSt) (f p : Nat) : Bool × Bool :=
  let a := s.chDemand h f p 0
  (a, if s.fnPaired f then s.chDemand h f p 1 else a)

/-- The inputs that the channels of function f use. -/
def State.fnInputs (s : State) (f : Nat) : List Nat :=
  if s.fnType f = 5 then []
  else if s.fnType f = 4 then (List.range 4).map (s.fnIn f)
  else if s.fnPaired f then [s.fnIn f 0, s.fnIn f 1] else [s.fnIn f 0]

/-- Whether an input of function f has a pulse fault. -/
def State.fnInputBad (s : State) (f : Nat) : Bool := (s.fnInputs f).any s.siBad

/-! ### Discrepancy (R370 to R372) -/

/-- The limit L of R370 in samples. -/
def State.discLimit (s : State) (f : Nat) : Nat := 20 * s.fnCfg f 8 2

/-- One sample of a pair: its count, and the two samples in order that clear a faulted pair (R370, R372). -/
def pairSample (d : Bool × Bool) (cnt : Nat) (bad seen : Bool) : Nat × Bool × Bool :=
  let cnt := if d.1 ≠ d.2 then cnt + 1 else 0
  if !bad then (cnt, false, false)
  else if d.1 && d.2 then (cnt, true, true)
  else if seen && !d.1 && !d.2 then (cnt, false, false)
  else (cnt, true, seen)

/-- The pairs of function f take one sample. -/
def State.fnPairsSample (s : State) (h : HalfSt) (f : Nat) (x : FnSt) : FnSt :=
  if !s.fnPaired f then x
  else
    let (c0, b0, s0) := pairSample (s.pairDemand h f 0) x.cnt0 x.bad0 x.seen0
    let x := { x with cnt0 := c0, bad0 := b0, seen0 := s0 }
    if s.fnType f = 4 then
      let (c1, b1, s1) := pairSample (s.pairDemand h f 1) x.cnt1 x.bad1 x.seen1
      { x with cnt1 := c1, bad1 := b1, seen1 := s1 }
    else x

/-! ### Functions (R375, R378) -/

/-- A function takes a new state; `since` counts from its leaving RUN (R360). -/
def fnGoto (st : Nat) (x : FnSt) : FnSt :=
  if x.st = 2 && st ≠ 2 then { x with st := st, since := 0 } else { x with st := st }

/-- The state change of a function other than TYPE 4 (R375). -/
def fnStep (manual fault anyD bothD : Bool) (x : FnSt) : FnSt :=
  if x.st = 3 then (if fault then x else { fnGoto 0 x with both := true })
  else if fault then fnGoto 3 x
  else if x.st = 0 then
    let both := x.both || bothD
    if anyD then { x with both := both }
    else if both && !manual then { fnGoto 2 x with both := both }
    else { fnGoto 1 x with both := both }
  else if anyD then { fnGoto 0 x with both := bothD }
  else x

/-- The state change of a two-hand function: `a0`, `a1` say which hands are actuated (R378). -/
def fnStepHands (jog fault a0 a1 : Bool) (x : FnSt) : FnSt :=
  if x.st = 3 then (if fault then x else { fnGoto 0 x with sync := 0 })
  else if fault then fnGoto 3 { x with sync := 0 }
  else if x.st = 1 then (if a0 || a1 then { fnGoto 0 x with sync := 1 } else x)
  else if x.st = 2 then (if a0 && a1 then x else { fnGoto 0 x with sync := 0 })
  else if !a0 && !a1 then { fnGoto 1 x with sync := 0 }
  else if x.sync = 1 && a0 && a1 && jog then { fnGoto 2 x with sync := 0 }
  else x

/-- Function f takes one sample in a half; the Keeper takes TYPE 5 from the Curator's frames (R355). -/
def State.fnSample (s : State) (w : SafHalf) (f : Nat) (h : HalfSt) : HalfSt :=
  let t := s.fnType f
  if t = 0 || (t = 5 && w = .keeper) then h
  else
    let x := h.fnAt f
    let x := s.fnPairsSample h f { x with since := if x.st = 2 then x.since else x.since + 1 }
    let fault := x.bad0 || x.bad1 || s.fnInputBad f
    let (d0, d1) := s.pairDemand h f 0
    if t = 4 then
      let (e0, e1) := s.pairDemand h f 1
      h.setFn f (fnStepHands (permClass (s.actMode w) = 1) fault (!d0 && !d1 && !x.bad0) (!e0 && !e1 && !x.bad1) x)
    else h.setFn f (fnStep (s.fnFlag f 0) fault (d0 || d1) (d0 && d1) x)

/-! ### Outputs (R353, R360) -/

/-- STOP1_T in samples. -/
def State.stop1 (s : State) : Nat := 2 * s.cfg 7 0xC 2

/-- The command of a half for its transistor of LSE[n] (R360). -/
def State.lseOn (s : State) (w : SafHalf) (h : HalfSt) (n : Nat) : Bool :=
  let cls := permClass (s.actMode w)
  let normal := cls = 0 && !s.safForced w
  let jog := cls = 1 && !s.safForced w
  let ok := !Nat.testBit h.testBad n && (List.range 24).all fun f =>
    !s.fnMasks f n ||
      (if s.fnType f = 4 then !jog || (h.fnAt f).st = 2
       else (h.fnAt f).st = 2 ||
        (s.fnFlag f 2 && Nat.testBit (s.cfg 7 0x12 2) n && normal && (h.fnAt f).since < s.stop1))
  let th := (List.range 24).any fun f => s.fnMasks f n && s.fnType f = 4 && (h.fnAt f).st = 2
  ok && (normal || (jog && th))

/-- The command of a half for its inhibit line (R360). -/
def State.pmiRelease (s : State) (w : SafHalf) (h : HalfSt) : Bool :=
  permClass (s.actMode w) = 0 && !s.safForced w &&
    (List.range 24).all fun f => s.fnType f = 0 || !s.fnFlag f 3 || (h.fnAt f).st = 2

/-- Whether a half may release at all: its functions run, and for the Keeper both checks of R389 passed. -/
def State.mayRelease (s : State) (w : SafHalf) : Bool :=
  s.bit Reg.SAF.STATUS.RUN && (w = .curator || (s.bit Reg.SAF.STATUS.SPB_OK && s.bit Reg.SAF.STATUS.SEL_OK))

/-- A set of flags as a number. -/
def maskOf (n : Nat) (p : Nat → Bool) : Nat := (List.range n).foldl (fun m i => m + b2n (p i) * 2 ^ i) 0

/-- What the opening of LSE[n] does to OUT[n]: a forcing condition when a safety demand opened it, otherwise a stop
that opens at once, with reason 13 (R253, R255, R377). -/
def lseOpened (n : Nat) (s : State) : State := if s.safeDemand n then outForce n 13 s else outOpenStop n 13 s

/-- Every LSE[n] that was closed in `was` and is open now acts on its outlet. -/
def lseCheck (was : State) (s : State) : State :=
  forEach 16 (fun n s => if was.lse n && !s.lse n then lseOpened n s else s) s

/-- A half computes its commands (R360). -/
def safOutputs (w : SafHalf) (s : State) : State :=
  let h := s.half w
  let ok := s.mayRelease w
  let h := { h with lse := if ok then maskOf 16 (s.lseOn w h) else 0, pmi := ok && s.pmiRelease w h }
  let s' := s.setHalf w h
  lseCheck s (if w = .curator then { s' with saf := { s'.saf with curHold := true } } else s')

/-- A device move ends when the function that watches it leaves RUN: ACD_SAF, or the TYPE 4 function when jogging
(R265, R379). -/
def acdCheck (was : State) (s : State) : State :=
  forEach 16 (fun n s =>
    if (s.out n).acdMove = 0 then s
    else
      let f := if s.mode = 7 then (s.jogFn n).getD 24 else s.rd (Reg.OUT.HS_MAP2.ACD_SAF n)
      if f < 24 && was.fnRuns f && !s.fnRuns f then acdEnd n 0 s else s) s

/-! ### Exchange frames (R354 to R358) -/

/-- The RUN bits of a half. -/
def HalfSt.runMask (h : HalfSt) : Nat := maskOf 24 fun f => (h.fnAt f).st = 2

/-- The exchange frame of a half (R354). -/
def State.exFrame (s : State) (w : SafHalf) : Nat :=
  let h := s.half w
  let v := 0xA * 2 ^ 60 + h.seq % 16 * 2 ^ 56 + s.actMode w * 2 ^ 52 + h.runMask * 2 ^ 28 + h.lse % 65536 * 2 ^ 12 +
    b2n h.pmi * 2 ^ 11 + h.verdicts.headD 31 * 2 ^ 6
  v + crc6 (v / 64)

/-- A half forms and sends its frame; one verdict goes with each (R354, R358). -/
def exSend (w : SafHalf) (s : State) : State :=
  let h := s.half w
  s.setHalf w { h with sent := s.exFrame w, seq := (h.seq + 1) % 16, verdicts := h.verdicts.drop 1 }

/-- One sample of a half (R351, R360). -/
def safSample (w : SafHalf) (high low masked : Nat) (s : State) : State :=
  let h := s.half w
  let h := { h with read := readInputs h.read high low masked }
  let h := (List.range 48).foldl (fun h k => filterInput (s.siFilt k) k h) h
  let was := s
  let s1 := s.setHalf w h
  let h := if s1.bit Reg.SAF.STATUS.RUN then (List.range 24).foldl (fun h f => s1.fnSample w f h) h else h
  exSend w (acdCheck was (safOutputs w (s1.setHalf w h)))

/-- `SAFETY_SAMPLE`. -/
def execSafetySample (half : SafHalf) (high low masked : Nat) (s : State) : Out :=
  done (if s.running then safSample half high low masked s else s)

/-- Function f enters FAULT in a half, its counting pairs faulted (R358, R373). -/
def fnVerdict (f : Nat) (s : State) (h : HalfSt) : HalfSt :=
  let x := h.fnAt f
  let none := x.cnt0 = 0 && x.cnt1 = 0
  h.setFn f { fnGoto 3 x with
    bad0 := s.fnPaired f && (x.bad0 || x.cnt0 ≠ 0 || none)
    bad1 := s.fnType f = 4 && (x.bad1 || x.cnt1 ≠ 0 || none)
    seen0 := x.seen0 && x.bad0
    seen1 := x.seen1 && x.bad1 }

/-- `SAF_DISCREPANCY` (R370, R373): a count of the half has exceeded L. -/
def execSafDiscrepancy (half : SafHalf) (f : Fin 24) (s : State) : Out :=
  done (live (fun s =>
    let h := s.half half
    let x := h.fnAt f
    let l := s.discLimit f
    let new0 := decide (l < x.cnt0) && !x.bad0
    let new1 := s.fnType f = 4 && l < x.cnt1 && !x.bad1
    if s.fnPaired f && s.fnType f ≠ 0 && (new0 || new1) then
      let h := h.setFn f { fnGoto 3 x with bad0 := x.bad0 || new0, bad1 := x.bad1 || new1 }
      let h := { h with verdicts := (h.verdicts ++ [f.val]).mergeSort (· ≤ ·) }
      let s' := (s.setHalf half h).setB (Reg.SAF.FN.DISC_STK f) true
      raise (0x7440 + f.val) 0 (acdCheck s (safOutputs half s'))
    else s) s)

/-- The two frames of an exchange agree (R356); TYPE 5 functions are left out of RUN. -/
def State.framesAgree (s : State) (a b : Nat) : Bool :=
  permClass (bitsOf a 55 52) = permClass (bitsOf b 55 52) && bitsOf a 27 12 = bitsOf b 27 12 &&
    bitsOf a 11 11 = bitsOf b 11 11 &&
    (List.range 24).all fun f => s.fnType f = 5 || Nat.testBit a (28 + f) = Nat.testBit b (28 + f)

/-- A frame is valid: SYNC, SEQ in order, and CRC (R356). -/
def frameValid (last : Option Nat) (w : Nat) : Bool :=
  bitsOf w 63 60 = 0xA && w % 64 = crc6 (w / 64) &&
    match last with | some q => bitsOf w 59 56 = (q + 1) % 16 | none => true

/-- What a valid frame tells the half that receives it (R355, R358). -/
def exTake (dst : SafHalf) (w : Nat) (s : State) : State :=
  let h := { s.half dst with rxSeq := some (bitsOf w 59 56) }
  let v := bitsOf w 10 6
  let h := if v < 24 then fnVerdict v s h else h
  match dst with
  | .curator =>
    let s' := (s.setHalf dst h).wr Reg.SAF.RUN_K.RUN (bitsOf w 51 28)
    forEach 24 (fun f s => s.setB (Reg.SAF.FN.RUN_K f) (Nat.testBit w (28 + f))) s'
  | .keeper =>
    let h := { h with mode := bitsOf w 55 52 }
    let h := (List.range 24).foldl (fun h f =>
      if s.fnType f = 5 then
        let x := h.fnAt f
        h.setFn f (fnGoto (if Nat.testBit w (28 + f) then 2 else 0) x)
      else h) h
    s.setHalf dst h

/-- `EXCHANGE_FRAME` (R356): the frame that half `dst` receives in this exchange, if any arrived in time. -/
def execExchangeFrame (dst : SafHalf) (frame : Option Nat) (late : Bool) (s : State) : Out :=
  done (live (fun s =>
    let h := s.half dst
    let valid := match frame with | some w => frameValid h.rxSeq w && !late | none => false
    let agree := valid && s.framesAgree (frame.getD 0) h.sent
    let s1 := s.setHalf dst { h with disagree := if agree then 0 else h.disagree + 1 }
    let s1 := if valid then safOutputs dst (exTake dst (frame.getD 0) s1) else s1
    let s1 := if s1.saf.cur.disagree = 0 && s1.saf.kpr.disagree = 0 then setCause 0xB401 0 false s1 else s1
    acdCheck s s1) s)

/-- `SAF_HALVES` (R356, R357): a half has seen two consecutive disagreeing exchanges. -/
def execSafHalves (s : State) : Out :=
  done (live (fun s =>
    let now := s.rd Reg.PWR.OPSEC.SECONDS
    let due := (2 ≤ s.saf.cur.disagree || 2 ≤ s.saf.kpr.disagree) && !s.causePresent (0xB401, 0)
    let again := match s.cat.halvesOpsec with | some t => decide (now < t + 86400) | none => false
    if !due then s
    else
      let s := setCause 0xB401 0 true { s with cat := { s.cat with halvesOpsec := some now } }
      if again then raise 0xF402 0 s else raise 0xB401 0 (s.inc Reg.SAF.HALVES.COUNT)) s)

/-- Transistor one of every LSE[n] goes off and PMI_A_N falls (R353). -/
def curatorDrops (s : State) : State :=
  lseCheck s { s with saf := { s.saf with cur := { s.saf.cur with lse := 0, pmi := false }, curHold := false } }

/-- `CURATOR_HOLD_EXPIRED` (R353). -/
def execCuratorHoldExpired (s : State) : Out := done (live curatorDrops s)

/-! ### Switch test (R363) -/

/-- A switch test falls due for each LSE[n] of the mask. -/
def testFalls (mask : Nat) (s : State) : State :=
  { s with saf := { s.saf with testDue := Nat.lor s.saf.testDue (mask % 65536) } }

/-- A request through SAF.TEST_REQ: the bits read 1 until their tests end. -/
def lseTestReq (a : Agent) (mask : Nat) (s : State) : State :=
  gated a 1 (fun s =>
    testFalls mask (s.wr Reg.SAF.TEST_REQ.REQ (Nat.lor (s.rd Reg.SAF.TEST_REQ.REQ) (mask % 65536)))) s

/-- `LSE_TEST_REQUEST`. -/
def execLseTestRequest (a : Agent) (mask : Fin 65536) (s : State) : Out := done (lseTestReq a mask s)

/-- `LSE_TEST_PERIODIC`. -/
def execLseTestPeriodic (n : Fin 16) (s : State) : Out := done (live (fun s => testFalls (2 ^ n.val) s) s)

/-- Whether a test that is due runs: OUT[n] DISABLED, IDLE, CONNECTED or FAULT, and not in RIDE_THROUGH. -/
def State.testRuns (s : State) (n : Nat) : Bool :=
  Nat.testBit s.saf.testDue n && s.mode ≠ 9 && (s.outSt n ≤ 2 || s.outSt n = 10)

/-- `LSE_TEST_END` (R363): a half whose reading differs holds its transistor off until the next start. -/
def execLseTestEnd (n : Fin 16) (curatorOk keeperOk : Bool) (s : State) : Out :=
  done (live (fun s =>
    if !s.testRuns n then s
    else
      let hold := fun (h : HalfSt) (ok : Bool) => if ok then h else { h with testBad := putBit h.testBad n true }
      let s := { s with saf := { s.saf with
        testDue := putBit s.saf.testDue n false
        cur := hold s.saf.cur curatorOk
        kpr := hold s.saf.kpr keeperOk } }
      let s := s.setFlag Reg.SAF.TEST_REQ.REQ n false
      if curatorOk && keeperOk then s.setFlag Reg.SAF.LSE_TEST.PASS n true
      else
        let s := s.setFlag Reg.SAF.LSE_TEST.FAIL n true
        raiseCause (0x74A0 + n.val) 0 (addDegr 0x74A0 n false (safOutputs .keeper (safOutputs .curator s)))) s)

/-! ### Test pulses (R366, R367) -/

/-- The sticky bit of a pulse fault of SI[k]. -/
def pulseStk (k : Nat) (s : State) : State :=
  if k < 32 then s.setFlag Reg.SAF.PULSE_LO.STK k true else s.setFlag Reg.SAF.PULSE_HI.STK (k - 32) true

/-- Every function that uses SI[k] enters FAULT in both halves. -/
def pulseFaults (k : Nat) (s : State) : State :=
  let hit := fun (h : HalfSt) => (List.range 24).foldl (fun h f =>
    if s.fnType f ≠ 0 && (s.fnInputs f).contains k && (h.fnAt f).st ≠ 3 then h.setFn f (fnGoto 3 (h.fnAt f)) else h) h
  let s' := { s with saf := { s.saf with cur := hit s.saf.cur, kpr := hit s.saf.kpr } }
  acdCheck s (safOutputs .keeper (safOutputs .curator (pulseStk k s')))

/-- One check of SI[k] on a pulse of its TPO (R366). -/
def pulseCheck (k : Nat) (fail : Bool) (s : State) : State :=
  let z : Nat → Nat := fun _ => 0
  let bad := Nat.testBit s.saf.pulseBad k
  if fail then
    let n := mapGet z s.saf.pulseFails k + 1
    let s := { s with saf := { s.saf with
      pulseFails := mapSet z s.saf.pulseFails k (min n 2), pulseOks := mapSet z s.saf.pulseOks k 0 } }
    if 2 ≤ n && !bad then
      raiseCause (0x7460 + k) 0 (pulseFaults k { s with saf := { s.saf with pulseBad := putBit s.saf.pulseBad k true } })
    else s
  else
    let n := mapGet z s.saf.pulseOks k + 1
    let s := { s with saf := { s.saf with
      pulseFails := mapSet z s.saf.pulseFails k 0, pulseOks := mapSet z s.saf.pulseOks k (min n 2) } }
    if bad && 2 ≤ n then
      setCause (0x7460 + k) 0 false { s with saf := { s.saf with pulseBad := putBit s.saf.pulseBad k false } }
    else s

/-- The readback of TPO[t] on a pulse (R367). -/
def tpoCheck (t : Nat) (ok : Bool) (s : State) : State :=
  let z : Nat → Nat := fun _ => 0
  let bad := s.flag Reg.SAF.STATUS.TPO_FAULT t
  if ok then
    let n := if bad then mapGet z s.saf.tpoOk t + 1 else 0
    let s := { s with saf := { s.saf with
      tpoBad := mapSet z s.saf.tpoBad t 0, tpoOk := mapSet z s.saf.tpoOk t (n % 8) } }
    if bad && 8 ≤ n then setCause (0x74C0 + t) 0 false (s.setFlag Reg.SAF.STATUS.TPO_FAULT t false) else s
  else
    let n := mapGet z s.saf.tpoBad t + 1
    let s := { s with saf := { s.saf with
      tpoBad := mapSet z s.saf.tpoBad t (min n 2), tpoOk := mapSet z s.saf.tpoOk t 0 } }
    if 2 ≤ n && !bad then
      let s := s.setFlag Reg.SAF.STATUS.TPO_FAULT t true
      let s := forEach 48 (fun k s => if s.siTpo k = t then pulseFaults k s else s) s
      raiseCause (0x74C0 + t) 0 s
    else s

/-- `TEST_PULSE` (R366, R367): bit k of `fails` is 1 when input SI[k], high before the pulse, failed its check. -/
def execTestPulse (t : Fin 8) (fails : Nat) (readbackOk : Bool) (s : State) : Out :=
  done (live (fun s =>
    let s1 := forEach 48 (fun k s =>
      if s.siTpo k = t && Nat.testBit s.saf.kpr.read k then pulseCheck k (Nat.testBit fails k) s else s) s
    tpoCheck t readbackOk s1) s)

/-! ### Resets and timers (R376 to R378) -/

/-- A reset acts on the functions in AWAIT whose RESET_IN is SI[k] (R375, R376). -/
def fnReset (k : Nat) (s : State) : State :=
  let hit := fun (h : HalfSt) => (List.range 24).foldl (fun h f =>
    if s.fnType f ≠ 0 && s.fnType f ≠ 4 && s.fnCfg f 6 1 = k && s.fnFlag f 0 && (h.fnAt f).st = 1 then
      h.setFn f (fnGoto 2 (h.fnAt f)) else h) h
  safOutputs .keeper (safOutputs .curator { s with saf := { s.saf with cur := hit s.saf.cur, kpr := hit s.saf.kpr } })

/-- `RESET_INPUT_EDGE` (R376): a falling edge after `highMs` of high level. -/
def execResetInputEdge (k : Fin 48) (highMs : Nat) (s : State) : Out :=
  done (live (fun s =>
    if Nat.testBit s.saf.stuck k then { s with saf := { s.saf with stuck := putBit s.saf.stuck k false } }
    else if 100 ≤ highMs && highMs ≤ 3000 then fnReset k s else s) s)

/-- `SAF_RESET_STUCK` (R376). -/
def execSafResetStuck (k : Fin 48) (s : State) : Out :=
  done (live (fun s =>
    if (List.range 24).any (fun f => s.fnType f ≠ 0 && s.fnCfg f 6 1 = k) && !Nat.testBit s.saf.stuck k then
      raise 0x340A k { s with saf := { s.saf with stuck := putBit s.saf.stuck k true } }
    else s) s)

/-- `SAF_TWOHAND_SYNC` (R378): the synchronism timer expires without both hands. -/
def execSafTwohandSync (f : Fin 24) (s : State) : Out :=
  done (live (fun s =>
    let stop := fun (h : HalfSt) => h.setFn f { h.fnAt f with sync := 0 }
    if s.fnType f = 4 && ((s.saf.cur.fnAt f).sync = 1 || (s.saf.kpr.fnAt f).sync = 1) then
      raise 0x340B f { s with saf := { s.saf with cur := stop s.saf.cur, kpr := stop s.saf.kpr } }
    else s) s)

/-- `CAT1_STOP_DELAY` (R377): STOP1_T has passed since a category 1 function left RUN. -/
def execCat1StopDelay (f : Fin 24) (s : State) : Out :=
  done (live (fun s =>
    let late := fun (h : HalfSt) =>
      if (h.fnAt f).st = 2 then h else h.setFn f { h.fnAt f with since := max s.stop1 (h.fnAt f).since }
    if s.fnType f ≠ 0 && s.fnFlag f 2 then
      safOutputs .keeper (safOutputs .curator
        { s with saf := { s.saf with cur := late s.saf.cur, kpr := late s.saf.kpr } })
    else s) s)

/-- A function as step 8 of R69 starts it (R375, R378). -/
def State.fnStart (s : State) (f : Nat) : FnSt :=
  { FnSt.init with st := if s.fnFlag f 1 && s.fnType f ≠ 4 then 1 else 0, both := true, since := s.stop1 }

/-- The functions of both halves start (R375), with a switch test of every LSE[n] due (R363). -/
def safStart (s : State) : State :=
  let go := fun (h : HalfSt) => (List.range 24).foldl (fun h f => if s.fnType f = 0 then h else h.setFn f (s.fnStart f)) h
  testFalls 0xFFFF ({ s with saf := { s.saf with cur := go s.saf.cur, kpr := go s.saf.kpr } }.setB
    Reg.SAF.STATUS.RUN true)

/-! ### Messages between units (R381 to R386) -/

/-- Bytes 0 to 13 of the safety message of this unit (R382). -/
def State.safBody (s : State) : List Byte :=
  let run := maskOf 24 fun f => (s.saf.cur.fnAt f).st = 2 && s.fnType f ≠ 0 && s.fnFlag f 4
  leBytes 1 0x11 ++ leBytes 1 (s.cfg 7 0x11 1) ++ beBytes 4 unitLo ++
    beBytes 2 s.saf.msgSeq ++ beBytes 3 run ++ leBytes 1 (s.mode + 16 * b2n s.saf.pause) ++ [0, 0]

/-- The safety message of R382. -/
def State.safMessage (s : State) : List Byte := s.safBody ++ beBytes 4 (crc32c s.safBody)

/-- SEQ of an accepted copy against the last one: whether it is accepted, and whether it is a new SEQ (R384). -/
def remSeqOk (x : RemSt) (backbone : Bool) (seq : Nat) : Bool × Bool :=
  match x.seq with
  | none => (true, true)
  | some q =>
    let d := (seq + 65536 - q) % 65536
    if d = 0 then (!(if backbone then x.gotB else x.gotE), false)
    else (decide (d ≤ 64), decide (d ≤ 64))

/-- The misses of the two channels when a new SEQ arrives; a pausing sender's backbone copies do not count (R385). -/
def remMisses (x : RemSt) (seq : Nat) : RemSt :=
  match x.seq with
  | none => x
  | some q =>
    let skipped := (seq + 65536 - q) % 65536 - 1
    { x with
      missB := if x.paused then x.missB
        else if x.gotB then (if skipped = 0 then 0 else skipped) else min 1000 (x.missB + 1 + skipped)
      missE := if x.gotE then skipped else min 1000 (x.missE + 1 + skipped)
      okRun := if x.gotB && x.gotE && skipped = 0 then x.okRun else 0 }

/-- SAF.LINK shows the lost channels and SINGLE of every sender (R385). -/
def linkRefresh (s : State) : State :=
  let any := fun (p : RemSt → Bool) => s.saf.rem.any fun x => p x.2
  ((s.setB Reg.SAF.LINK.SINGLE (any RemSt.single)).setB Reg.SAF.LINK.BBN_LOST
    (any fun x => x.single && 8 ≤ x.missB)).setB Reg.SAF.LINK.ETH_LOST (any fun x => x.single && 8 ≤ x.missE)

/-- Both copies of one SEQ have been accepted: after eight in a row, operation is on both channels again (R385). -/
def remBoth (r : Nat) (s : State) : State :=
  let x := s.rem r
  let x := { x with okRun := min 8 (x.okRun + 1), missB := 0, missE := 0 }
  if x.single && x.okRun = 8 then
    let s := s.setRem r { x with single := false, expired := false }
    linkRefresh (dropDegr 0x7407 r (setCause 0x7408 r false (setCause 0x7407 r false s)))
  else s.setRem r x

/-- A copy of the message `m` (18 bytes), its transport check passed, reaches remote input r (R384, R386). -/
def remCopy (backbone : Bool) (r : Nat) (m : List Byte) (s : State) : State :=
  let x := s.rem r
  let seq := beAt m 6 2
  let body := beAt m 0 14
  let (ok, new) := remSeqOk x backbone seq
  if !(ok && s.remCfg r 0 1 = leAt m 1 1 && s.remCfg r 2 4 = beAt m 2 4) then s
  else
    let off := !msgRun body (s.remCfg r 1 1)
    let pause := Nat.testBit (leAt m 11 1) 4
    if new then
      let x := remMisses x seq
      setCause 0x7409 r false (s.setRem r { x with
        seq := some seq, body := body, gotB := backbone, gotE := !backbone, bit0 := off, paused := pause, alive := true })
    else
      let same := decide (x.body = body)
      let x := { x with gotB := x.gotB || backbone, gotE := x.gotE || !backbone, bit0 := x.bit0 || off,
                        paused := pause, alive := true, mismatch := !same }
      let s := setCause 0x7409 r false (setCause 0x7406 r (!same) (s.setRem r x))
      if same then remBoth r s else raise 0x7406 r (s.inc Reg.SAF.LINK.MISMATCH)

/-- A copy of a safety message arrives, its transport check having passed. -/
def safCopy (backbone : Bool) (m : List Byte) (s : State) : State :=
  if m.length = 18 && leAt m 0 1 = 0x11 && crc32c (m.take 14) = beAt m 14 4 then
    forEach 16 (fun r s => remCopy backbone r m s) s
  else s

/-- `SAF_CHAN_LOST` (R385): eight consecutive SEQs without an accepted copy on a channel. -/
def execSafChanLost (r : Fin 16) (backbone : Bool) (s : State) : Out :=
  done (live (fun s =>
    let x := s.rem r
    if (if backbone then 8 ≤ x.missB else 8 ≤ x.missE) && !x.single then
      let s := s.setRem r { x with single := true, expired := false, okRun := 0 }
      let s := { s with saf := { s.saf with singleS := 60 * s.cfg 7 0xF 1 } }
      raiseCause (if backbone then 0x7407 else 0x7408) r (addDegr 0x7407 r true (linkRefresh s))
    else s) s)

/-- `SINGLE_T_ELAPSED` (R385). -/
def execSingleTElapsed (r : Fin 16) (s : State) : Out :=
  done (live (fun s =>
    let x := s.rem r
    if x.single then s.setRem r { x with expired := true } else s) s)

/-- `PAUSE_TIMEOUT` (R385). -/
def execPauseTimeout (r : Fin 16) (s : State) : Out :=
  done (live (fun s => s.setRem r { s.rem r with paused := false }) s)

/-- `SAF_REMOTE_SILENT` (R386). -/
def execSafRemoteSilent (r : Fin 16) (s : State) : Out :=
  done (live (fun s => if (s.rem r).alive then raiseCause 0x7409 r (s.setRem r { s.rem r with alive := false }) else s) s)

/-! ### Seal and confirmation (R390, R391) -/

/-- `SAFE_SEAL_CHANGE` (R390): the filtered levels of the pair. -/
def execSafeSealChange (sealA sealB : Bool) (s : State) : Out :=
  done (live (fun s =>
    let op := !sealA && sealB
    let inv := decide (sealA = sealB)
    if s.bit Reg.SAF.STATUS.SEAL_OPEN = op && s.bit Reg.SAF.STATUS.SEAL_INVALID = inv then s
    else
      let s := (s.setB Reg.SAF.STATUS.SEAL_OPEN op).setB Reg.SAF.STATUS.SEAL_INVALID inv
      let s := s.record 0x38 (payloadOf [(0, if inv then 2 else b2n op), (1, s.rd Reg.SAF.SEL.SWITCHES),
        (4, s.wall % 2 ^ 32)]) false
      sealCheck s) s)

/-- The condition of RWF fields: COMMISSIONING with SAFE_SEAL open (R9). -/
def State.rwfOk (s : State) : Bool := s.mode = 4 && s.bit Reg.SAF.STATUS.SEAL_OPEN

/-- A write of SAF.CONFIRM (R391, R9). -/
def safConfirm (a : Agent) (crc : Nat) (s : State) : State :=
  gated a 1 (fun s =>
    if !s.rwfOk then raise 0x0005 0x3401C s
    else if crc = s.rd Reg.SAF.SPB_CRC.VALUE then
      let d := match s.cat.commission with | some (c, d) => decide (c = crc) && d | none => false
      { s with cat := { s.cat with commission := some (crc, d) } }
    else raise 0x3404 0 s) s

/-- `SAF_CONFIRM_WRITE`. -/
def execSafConfirmWrite (a : Agent) (crc : Nat) (s : State) : Out := done (safConfirm a (crc % 2 ^ 32) s)

/-- The safety parameter block is confirmed (R391). -/
def State.confirmed (s : State) : Bool :=
  match s.cat.commission with | some (c, _) => decide (c = s.rd Reg.SAF.SPB_CRC.VALUE) | none => false

/-- A commissioning record is in force (R391). -/
def State.commissioned (s : State) : Bool :=
  match s.cat.commission with | some (c, d) => decide (c = s.rd Reg.SAF.SPB_CRC.VALUE) && d | none => false

end Sys2Proof.Machine
end

