-- ==== Sys2Proof/Machine/Faults.lean ====
section
/-!
DEFINITION. Fault handling and the event recorder (chapter 17): closing entries, ERR_N, injection, memory errors,
runtime records, and the drains that bring records to MRAM.
-/
namespace Sys2Proof.Machine

/-! ### Open entries (R493, R494, R496) -/

/-- ERR_N follows its rules of R496: low for 10 ms after a raise, while ERR_HOLD, and for ever after a Grave fault. -/
def errUpdate (s : State) : State :=
  s.setB Reg.FLT.STATUS.ERR_LOW (s.flt.errMin || s.bit Reg.FLT.CTL.ERR_HOLD || s.bit Reg.FLT.STATUS.LATCH)

/-- Whether an entry of class Major or Grave is open. -/
def State.majorOpen (s : State) : Bool := s.flt.table.any fun e => 2 ≤ e.cls

/-- The force lines are active while a Major or Grave entry is open (R355; DEDUCED, log entry 24); ERR_HOLD clears
when the last Major entry closes (R496). -/
def afterClose (s : State) : State :=
  if s.majorOpen then s else errUpdate ((s.setB Reg.SAF.STATUS.FORCE false).setB Reg.FLT.CTL.ERR_HOLD false)

/-- An entry closes (R493): its FAULT_CLOSE record, and the entry is free. HOW: 0 FLT.ACK; 1 quiet period; 2 mode ACK;
3 LOADING. -/
def closeEntry (idx how : Nat) (s : State) : State :=
  match s.flt.table.find? (fun e => e.idx = idx) with
  | none => s
  | some e =>
    let s := { s with flt := { s.flt with table := s.flt.table.filter fun x => x.idx ≠ idx } }
    let s := s.record 0x02 (payloadOf [(0, e.code), (2, e.cls), (3, how),
      (4, if e.rno = 0 then mergeWaiting else e.rno), (8, e.merged)]) false
    afterClose s

/-- Every open entry that `p` picks closes, oldest first. -/
def closeWhere (p : Entry → Bool) (how : Nat) (s : State) : State :=
  (s.flt.table.filter p).foldl (fun s e => closeEntry e.idx how s) s

/-- Whether a cause of an entry is present (R494). -/
def State.entryCause (s : State) (e : Entry) : Bool := e.members.any s.causePresent

/-- `FAULT_RAISE` (R491 to R495). -/
def execFaultRaise (code : Fin 65536) (detail : Nat) (s : State) : Out :=
  done (if s.running then raise code detail s else s)

/-- `NOTICE_CLOSE` (R493): 1 s after the primary fault of an entry that is still a Notice. -/
def execNoticeClose (entry : Fin 32) (s : State) : Out :=
  done (live (fun s => if s.flt.table.any (fun e => e.idx = entry.val && e.cls = 0) then closeEntry entry 1 s else s) s)

/-- A write of FLT.ACK (R493): it closes a Minor entry. -/
def fltAck (a : Agent) (entry : Nat) (s : State) : State :=
  gated a 1 (fun s => if s.flt.table.any (fun e => e.idx = entry && e.cls = 1) then closeEntry entry 0 s else s) s

/-- `FLT_ACK`. -/
def execFltAck (a : Agent) (entry : Fin 32) (s : State) : Out := done (fltAck a entry s)

/-- A write of FLT.CTL.ERR_HOLD (R496). -/
def errHold (a : Agent) (v : Bool) (s : State) : State :=
  gated a 1 (fun s => if v && !s.majorOpen then s else errUpdate (s.setB Reg.FLT.CTL.ERR_HOLD v)) s

/-- `ERR_HOLD_WRITE`. -/
def execErrHoldWrite (a : Agent) (v : Bool) (s : State) : Out := done (errHold a v s)

/-- `ERR_N_RELEASE` (R496): the 10 ms have passed. -/
def execErrNRelease (s : State) : Out :=
  done (live (fun s => errUpdate { s with flt := { s.flt with errMin := false } }) s)

/-! ### Injection and memory errors (R490, R498) -/

/-- A write that only FACTORY_TEST admits; in any other mode it is ignored with FLT_INJECT_REFUSED (R498). -/
def injection (a : Agent) (act : State → State) (s : State) : State :=
  if !s.running then s
  else if s.level a < 1 then deny a s
  else if s.mode ≠ 3 then raise 0x0806 0 s
  else act s

/-- A write of FLT.INJECT. -/
def fltInject (a : Agent) (code : Nat) (go : Bool) (s : State) : State :=
  injection a (fun s => if go then raise1 code 0 0 true s else s) s

/-- `FLT_INJECT`. -/
def execFltInject (a : Agent) (code : Fin 65536) (go : Bool) (s : State) : Out := done (fltInject a code go s)

/-- A write of FLT.INJ_MEM: the inversion is armed for the next write to the named word. -/
def fltInjMem (a : Agent) (arm : Bool) (mem bits word : Nat) (s : State) : State :=
  injection a (fun s =>
    (((s.setB Reg.FLT.INJ_MEM.ARM arm).wr Reg.FLT.INJ_MEM.MEM mem).wr Reg.FLT.INJ_MEM.BITS bits).wr
      Reg.FLT.INJ_MEM.WORD word) s

/-- `FLT_INJ_MEM`. -/
def execFltInjMem (a : Agent) (arm : Bool) (mem : Fin 8) (bits : Fin 4) (word : Nat) (s : State) : Out :=
  done (fltInjMem a arm mem bits word s)

/-- The code of an uncorrectable error of a memory class (R490). -/
def eccCode : MemClass → Nat
  | .sram => 0x4802
  | .critical => 0x8803
  | .mramOther => 0x4802
  | .mramStore => 0x8803
  | .mramLegal => 0xC804

/-- `ECC_ERROR` (R490, R500): `loc` is the location path of the failing word as R500 encodes it. -/
def execEccError (mem : MemClass) (correctable : Bool) (loc : Nat) (s : State) : Out :=
  done (if s.running then raise1 (if correctable then 0x0801 else eccCode mem) loc 0 false s else s)

/-! ### The recorder (R502 to R510) -/

/-- A record item that the runtime posts (R510): types below 0x80 are discarded and counted. -/
def runtimeRecord (ty : Nat) (payload : List Byte) (s : State) : State :=
  if !s.running then s
  else if ty < 0x80 then s.inc Reg.EVR.LOST.COUNT
  else s.record ty (leValue (payload.take 40)) false

/-- `RUNTIME_RECORD`. -/
def execRuntimeRecord (ty : Fin 256) (payload : List Byte) (s : State) : Out := done (runtimeRecord ty payload s)

/-- `DRAIN_TIMER` (R504). -/
def execDrainTimer (s : State) : Out := done (live (fun s => s.startDrain) s)

/-- A write of EVR.CTL.FLUSH = 1 (R504); the bit reads 1 until the drain ends. -/
def evrFlush (a : Agent) (s : State) : State := gated a 1 (fun s => (s.setB Reg.EVR.CTL.FLUSH true).startDrain) s

/-- `EVR_FLUSH`. -/
def execEvrFlush (a : Agent) (s : State) : Out := done (evrFlush a s)

/-- The next usable circulation slot from `slot` on; retired slots are skipped (R502). -/
def usableSlot (retired : List Nat) : Nat → Nat → Nat
  | 0, slot => slot
  | n + 1, slot => if retired.contains slot then usableSlot retired n ((slot + 1) % 65536) else slot

/-- A record is written to its slot (R502, R503). -/
def slotWrite (s : State) (r : Rec) : State :=
  if r.rno ≤ 4096 then
    { s with evr := { s.evr with acc := mapSet (fun _ => Rec.empty) s.evr.acc (r.rno - 1) r } }
  else
    let k := usableSlot s.evr.retired s.evr.retired.length (s.rd Reg.EVR.CIRC_HEAD.SLOT)
    { s with evr := { s.evr with circ := mapSet (fun _ => Rec.empty) s.evr.circ k r } }.wr
      Reg.EVR.CIRC_HEAD.SLOT (usableSlot s.evr.retired s.evr.retired.length ((k + 1) % 65536))

/-- Every item of a queue in order. -/
def Queue.items (q : Queue) : List Item := q.chain ++ q.annex ++ q.tail.toList

/-- The recorder-input queue is written to MRAM in RNO order, and CIRC_HEAD goes to the catalogue (R504, R508). -/
def drainAll (s : State) : State :=
  let items := (s.q 15).items
  let s := (items.map Item.toRec).foldl slotWrite (s.setQ 15 Queue.empty)
  let s := items.foldl (fun s i => poisonSeen 15 i s) s
  { s with evr := { s.evr with circHead := s.rd Reg.EVR.CIRC_HEAD.SLOT } }

/-- A drain ends. -/
def drainEnds (s : State) : State :=
  if s.bit Reg.EVR.STATUS.DRAINING then
    ((drainAll s).setB Reg.EVR.STATUS.DRAINING false).setB Reg.EVR.CTL.FLUSH false
  else s

/-- `DRAIN_COMPLETE`. -/
def execDrainComplete (s : State) : Out := done (live drainEnds s)

/-- What numbering the waiting records has found: the RNO of each entry's primary record, and of each code's. -/
abbrev Primaries := List (Nat × Nat)

/-- A waiting record takes its RNO (R508); a merged one, or a FAULT_CLOSE, names that of its primary record. -/
def numberOne (acc : State × Primaries × List Item) (i : Item) : State × Primaries × List Item :=
  let (s, ps, out) := acc
  let r := i.toRec
  if r.rno ≠ 0 then (s, ps, out ++ [i])
  else
    let (n, s) := s.takeRno
    let code := r.payload % 65536
    let entry := r.payload / 2 ^ 24 % 256
    let into := r.payload / 2 ^ 32 % 2 ^ 32
    let found := (ps.find? fun x => if r.ty = 2 then x.1 = 256 + code else x.1 = entry).map (·.2)
    let p := if (r.ty = 1 || r.ty = 2) && into = mergeWaiting then
        r.payload - mergeWaiting * 2 ^ 32 + found.getD 0 * 2 ^ 32 else r.payload
    let ps := if r.ty = 1 && into = 0 then (entry, n) :: (256 + code, n) :: ps else ps
    let r := { r with rno := n, payload := p }
    let s := if r.ty = 1 && into = 0 then
        { s with flt := { s.flt with table := s.flt.table.map fun (e : Entry) =>
            if e.idx = entry && e.rno = 0 then { e with rno := n } else e } }
      else s
    let legal := Nat.testBit r.flags 0 && s.legalFree ≠ 0
    let s := if legal then s.legalWrite { r with flags := putBit r.flags 0 false } else s
    let item : Item := { r.toItem with poison := i.poison }
    (s, ps, out ++ [item])

/-- The records of the recorder-input queue are put back in order: stages, tail register and annex. -/
def Queue.ofItems (l : List Item) : Queue := ⟨l.take 8, none, l.drop 8⟩

/-- The head of the circulation area is found: it advances while a slot holds a higher RNO than the one before it. -/
def findHead (s : State) : Nat → Nat → Nat
  | 0, k => k
  | n + 1, k =>
    let at_ := fun (i : Nat) => (mapGet (fun _ => Rec.empty) s.evr.circ (i % 65536)).rno
    if at_ (k + 65535) < at_ k then findHead s n ((k + 1) % 65536) else k

/-- Step 7 of R69 for the recorder (R508). -/
def recorderStart (s : State) : State :=
  if s.bit Reg.EVR.STATUS.RUN then s
  else
    let s := s.wr Reg.EVR.CIRC_HEAD.SLOT (findHead s s.evr.circ.length s.evr.circHead)
    let s := (s.wr Reg.EVR.NEXT_RNO.RNO s.evr.rnoMark).setB Reg.EVR.STATUS.RUN true
    let s := s.setB Reg.EVR.STATUS.ACC_FULL (decide (4096 < s.evr.rnoMark))
    let s := { s with evr := { s.evr with rnoMark := s.evr.rnoMark + 1024 } }
    let free := 8192 - s.evr.legal.length
    let s := (s.wr Reg.LEGAL.STATUS.FREE free).setB Reg.LEGAL.STATUS.FULL (decide (free < 3))
    let s := s.wr Reg.EVR.LEGAL_NEXT.SLOT (s.evr.legal.length % 8192)
    let (s, _, items) := ((s.q 15).items).foldl numberOne (s, [], [])
    s.setQ 15 (Queue.ofItems items)

end Sys2Proof.Machine
end

