-- ==== Sys2Proof/Machine/Keys.lean ====
section
/-!
DEFINITION. Keys (chapter 16, first part): slots, attributes, key check values, derivation, the key commands, the
persistent slots with their A/B commit, and the life cycle.
-/
namespace Sys2Proof.Machine

/-! ### Slots (R466 to R469, R471) -/

/-- Slot `k`. -/
def State.slot (s : State) (k : Nat) : KeySlot := mapGet (fun _ => KeySlot.empty) s.key.slots k

/-- Slot `k` replaced. -/
def State.setSlot (s : State) (k : Nat) (x : KeySlot) : State :=
  { s with key := { s.key with slots := mapSet (fun _ => KeySlot.empty) s.key.slots k x } }

/-- What the closed stacks hold for slot `k`. -/
def State.keyNv (s : State) (k : Nat) : KeyNv := mapGet (fun _ => KeyNv.empty) s.key.nv k

/-- What the closed stacks hold for slot `k`, replaced. -/
def State.setKeyNv (s : State) (k : Nat) (x : KeyNv) : State :=
  { s with key := { s.key with nv := mapSet (fun _ => KeyNv.empty) s.key.nv k x } }

/-- The size of the material of a kind, bytes (R466). -/
def kindLen (kind : Nat) : Nat :=
  if kind = 1 then 16 else if kind = 2 || kind = 3 || kind = 4 then 32
  else if kind = 5 then 64 else if kind = 6 then 48 else if kind = 7 then 96 else 0

/-- A public key. -/
def kindPublic (kind : Nat) : Bool := kind = 5 || kind = 7

/-- The curve of a kind: 384 for kinds 6 and 7. -/
def kindCurve (kind : Nat) : Nat := if kind = 6 || kind = 7 then 384 else 256

/-- The kinds that may carry attribute bit `b` (R468). -/
def attrKind (b kind : Nat) : Bool :=
  if b = 0 then kind = 1 || kind = 2
  else if b = 1 || b = 6 then kind = 3
  else if b = 2 || b = 4 || b = 7 then kind = 4 || kind = 6
  else if b = 3 || b = 9 then kind = 5 || kind = 7
  else if b = 5 then kind = 2 || kind = 3
  else if b = 8 then kind = 3 || kind = 5
  else if b = 10 then kind = 1
  else false

/-- A set of attributes that a kind may carry: each bit fits the kind, and a slot with one of bits 6 to 10 carries no
other bit (R468). -/
def attrOk (kind attr : Nat) : Bool :=
  ((List.range 11).all fun b => !Nat.testBit attr b || attrKind b kind) &&
    (attr < 64 || (List.range 11).any fun b => attr = 2 ^ b)

/-- Whether a slot carries an attribute. -/
def State.slotHas (s : State) (k b : Nat) : Bool := (s.slot k).kind ≠ 0 && Nat.testBit (s.slot k).attr b

/-- The key check value of R469, byte 0 highest. -/
def kcvOf (kind : Nat) (material : List Byte) : Nat :=
  if kind = 0 then 0
  else (if kindPublic kind then Config.sha256 material
    else Config.hmacSha256 material [0x4B, 0x43, 0x56, 0x31]) / 2 ^ 224 % 2 ^ 32

/-- The blocks K(1) ∥ K(2) ∥ … of R471. -/
def kdfBlocks (ki label ctx : List Byte) (bits : Nat) : Nat → List Byte
  | 0 => []
  | n + 1 => kdfBlocks ki label ctx bits n ++
      beBytes 32 (Config.hmacSha256 ki (beBytes 4 (n + 1) ++ label ++ [0] ++ ctx ++ beBytes 4 bits))

/-- KDF(KI, Label, Context, L) of R471. -/
def kdf (ki label ctx : List Byte) (bits : Nat) : List Byte :=
  (kdfBlocks ki label ctx bits ((bits + 255) / 256)).take (bits / 8)

/-- The bytes of an ASCII text. -/
def ascii (t : String) : List Byte := t.toList.map fun c => BitVec.ofNat 8 c.toNat

/-- The unit identifier as messages hold it: 8 bytes, little-endian. -/
def State.unitBytes (_ : State) : List Byte :=
  leBytes 4 unitLo ++ leBytes 4 unitHi

/-- HMAC-SHA-256 under the key of a slot. -/
def State.slotMac (s : State) (k : Nat) (m : List Byte) : Nat := Config.hmacSha256 (s.slot k).material m

/-- Whether a signature r ∥ s of bytes `sig` over `m` verifies under the public key in a slot. -/
def State.slotVerify (s : State) (k : Nat) (m sig : List Byte) : Bool :=
  let x := s.slot k
  let n := kindLen x.kind / 2
  kindPublic x.kind &&
    Config.ecdsaVerify (kindCurve x.kind) (beValue x.material) m (beAt sig 0 n) (beAt sig n n)

/-! ### Fixed slots at a start (R460, R467, R476) -/

/-- The life-cycle state that the fuses show (R460). -/
def KeySt.lc (k : KeySt) : Nat := if k.scrap then 5 else k.steps

/-- The copy that SEL selects. -/
def KeyNv.inForce (v : KeyNv) : KeySlot := if v.sel = 1 then v.a else if v.sel = 2 then v.b else KeySlot.empty

/-- The copy that SEL does not select. -/
def KeyNv.other (v : KeyNv) : KeySlot := if v.sel = 2 then v.a else v.b

/-- The other copy is wiped. -/
def KeyNv.wipeOther (v : KeyNv) : KeyNv :=
  if v.sel = 2 then { v with a := KeySlot.empty } else if v.sel = 1 then { v with b := KeySlot.empty }
  else { v with a := KeySlot.empty, b := KeySlot.empty }

/-- A slot whose other copy is not all zero. -/
def KeyNv.dirty (v : KeyNv) : Bool :=
  v.other.kind ≠ 0 || (v.sel = 0 && v.a.kind ≠ 0)

/-- The slots at step 3 of R69 (R467, R476): `bad` are the slots whose selected copy does not decrypt or agree. -/
def slotsRestore (bad : List Nat) (s : State) : State :=
  let lc := s.key.lc
  let dirty := (List.range 64).filter fun k => (s.keyNv k).dirty
  let s := { s with key := { s.key with slots := [], locked := false } }
  let s := forEach 64 (fun k s =>
    let v := s.keyNv k
    if v.sel = 0 then s
    else if bad.contains k then raiseCause 0xCC03 k s
    else s.setSlot k { v.inForce with persist := true, copy := v.sel - 1, gen := v.gen }) s
  let s := dirty.foldl (fun s k =>
    let s := s.record 0x08 (payloadOf [(0, k), (4, (s.keyNv k).gen)]) false
    s.setKeyNv k (s.keyNv k).wipeOther) s
  let s := if dirty.isEmpty then s else raise 0x0C02 0 s
  let s := s.setSlot 0 ⟨7, 2 ^ 9, Config.vendorKeyId, 0, kcvOf 7 Config.vendorAnchor, false, 0, Config.vendorAnchor⟩
  let anchor := fun (k : Nat) (x : KeySlot) (s : State) =>
    if (s.slot k).kind = 0 && (lc = 3 || lc = 4) then s.setSlot k x else s
  let s := anchor 2 s.key.anchor2 (anchor 1 s.key.anchor1 s)
  if lc = 0 || lc = 5 then s
  else
    let m := kdf (beBytes 32 (Config.root lc)) (ascii "HPVN") s.unitBytes 256
    s.setSlot 3 ⟨3, 2, 0, 0, kcvOf 3 m, false, 0, m⟩

/-! ### Writing a slot (R474, R475) -/

/-- A key is written to slot `k`: a persistent one through its A/B commit, with GEN one more than the copy in force. -/
def slotWriteKey (k : Nat) (x : KeySlot) (s : State) : State :=
  let x := { x with kcv := kcvOf x.kind x.material }
  if x.persist then
    let v := s.keyNv k
    let gen := (v.gen + 1) % 2 ^ 32
    let x := { x with gen := gen, copy := if v.sel = 1 then 1 else 0 }
    let v := if v.sel = 1 then { v with sel := 2, gen := gen, b := x } else { v with sel := 1, gen := gen, a := x }
    (s.setKeyNv k v).setSlot k x
  else s.setSlot k { x with gen := ((s.slot k).gen + 1) % 2 ^ 32, copy := 0 }

/-! ### Commands (R470 to R473) -/

/-- KEY.RESULT is written; a code other than 0 raises KEY_CMD_REFUSED (R470). -/
def keyResult (cmd code : Nat) (s : State) : State :=
  let s := (s.wr Reg.KEY.RESULT.CMD cmd).wr Reg.KEY.RESULT.CODE code
  if code = 0 then s else raise 0x0C01 0 s

/-- A key command: the first failing condition, or the effect (R470). Commands run in the modes that accept writes. -/
def keyCommand (cmd : Nat) (conds : List (Nat × Bool)) (act : State → State) (s : State) : State :=
  if !s.modeWrites then s
  else match conds.find? (fun x => !x.2) with
    | some (code, _) => keyResult cmd code s
    | none => keyResult cmd 0 (act s)

/-- Byte `i` on of KEY.ARG. -/
def State.keyArg (s : State) (off n : Nat) : List Byte :=
  (((List.range 64).flatMap fun k => leBytes 4 (s.rd (Reg.KEY.ARG.BYTES k))).drop off).take n

/-- The new KIND of KEY.ATTR_ARG. -/
def State.argKind (s : State) : Nat := s.rd Reg.KEY.ATTR_ARG.KIND

/-- The new attributes of KEY.ATTR_ARG. -/
def State.argAttr (s : State) : Nat := s.rd Reg.KEY.ATTR_ARG.ATTR

/-- A new key as KEY.ATTR_ARG and KEY.ATTR_ID describe it. -/
def State.newKey (s : State) (material : List Byte) : KeySlot :=
  ⟨s.argKind, s.argAttr, s.rd Reg.KEY.ATTR_ID.KEY_ID, 0, 0, s.bit Reg.KEY.ATTR_ARG.PERSIST, 0, material⟩

/-- A slot that no command writes or erases. -/
def fixedSlot (k : Nat) : Bool := k < 4

/-- Attribute bits 8 and 9 are clear, as life-cycle states 3 and 4 require of an imported key. -/
def State.importAttr (s : State) : Bool :=
  !(s.lc = 3 || s.lc = 4) || (!Nat.testBit s.argAttr 8 && !Nat.testBit s.argAttr 9)

/-- Random material from the DRBG. -/
def drawBytes (n : Nat) (s : State) : List Byte × State := let (v, s) := s.draw (8 * n); (beBytes n v, s)

/-- GENERATE. -/
def keyGenerate (a : Agent) (k : Nat) (s : State) : State :=
  let kind := s.argKind
  keyCommand 1 [(1, decide (2 ≤ s.level a)), (2, s.lc ≠ 0 && s.lc ≠ 5), (4, !fixedSlot k),
      (5, ((1 ≤ kind && kind ≤ 4) || kind = 6) && s.argAttr < 256 && attrOk kind s.argAttr),
      (10, s.bit Reg.KEY.STATUS.DRBG_OK)]
    (fun s => let (m, s) := drawBytes (kindLen kind) s; slotWriteKey k (s.newKey m) s) s

/-- DERIVE (R471). -/
def keyDerive (a : Agent) (k aux : Nat) (s : State) : State :=
  let kind := s.argKind
  keyCommand 2 [(1, decide (2 ≤ s.level a)), (2, s.lc ≠ 0 && s.lc ≠ 5), (4, !fixedSlot k),
      (5, (1 ≤ kind && kind ≤ 3) && s.argAttr < 256 && attrOk kind s.argAttr), (6, s.slotHas aux 5)]
    (fun s =>
      let label := s.keyArg 0 (min 16 (s.rd Reg.KEY.ATTR_ARG.LBL_LEN))
      let ctx := s.keyArg 16 (min 32 (s.rd Reg.KEY.ATTR_ARG.CTX_LEN))
      slotWriteKey k (s.newKey (kdf (s.slot aux).material label ctx (8 * kindLen kind))) s) s

/-- IMPORT_PUBLIC: slots 1 and 2 keep the kind and attribute that R467 gives them. -/
def keyImportPublic (a : Agent) (k : Nat) (s : State) : State :=
  let kind := s.argKind
  let fixedOk := !(k = 1 || k = 2) || (kind = 5 && s.argAttr = 2 ^ 9)
  keyCommand 3 [(1, decide ((if s.lc = 1 || s.lc = 2 then 2 else 1) ≤ s.level a)), (2, s.lc ≠ 0 && s.lc ≠ 5),
      (4, k ≠ 0 && k ≠ 3), (5, kindPublic kind && attrOk kind s.argAttr && fixedOk && s.importAttr)]
    (fun s => slotWriteKey k
      { s.newKey (s.keyArg 0 (kindLen kind)) with persist := s.bit Reg.KEY.ATTR_ARG.PERSIST || k < 4 } s) s

/-- The key that IMPORT_WRAPPED unwraps (R472): `none` when the tag is wrong. -/
def unwrapped (s : State) (k aux : Nat) : Option (List Byte) :=
  let x := s.slot aux
  let ql := if x.kind = 6 then 96 else 64
  let n := kindLen s.argKind
  let z := Config.ecdh (kindCurve x.kind) x.material (s.keyArg 0 ql)
  let w := kdf z (ascii "KWRP") (leBytes 1 k ++ leBytes 4 (s.rd Reg.KEY.ATTR_ID.KEY_ID)) 256
  let attrWord := b2n (s.bit Reg.KEY.ATTR_ARG.PERSIST) * 2 ^ 31 + s.argKind * 2 ^ 28 + s.argAttr * 2 ^ 17 +
    s.rd Reg.KEY.ATTR_ARG.CTX_LEN * 2 ^ 11 + s.rd Reg.KEY.ATTR_ARG.LBL_LEN * 2 ^ 6
  let aad := leBytes 4 attrWord ++ leBytes 4 (k * 2 ^ 24 + aux * 2 ^ 16 + 4)
  Config.gcmOpen w (s.keyArg ql 12) aad (s.keyArg (ql + 12) n) (s.keyArg (ql + 12 + n) 16)

/-- IMPORT_WRAPPED (R472). -/
def keyImportWrapped (a : Agent) (k aux : Nat) (s : State) : State :=
  let kind := s.argKind
  let m := unwrapped s k aux
  keyCommand 4 [(1, decide (2 ≤ s.level a)), (2, s.lc ≠ 0 && s.lc ≠ 5), (4, !fixedSlot k),
      (5, kind ≠ 0 && attrOk kind s.argAttr && s.importAttr), (6, s.slotHas aux 4), (7, m.isSome),
      (9, m.any fun m => kcvOf kind m = s.rd (Reg.KEY.ARG.BYTES 63))]
    (fun s => slotWriteKey k (s.newKey (m.getD [])) s) s

/-- What a KEY_CHANGE message in KEY.ARG gives for slot `k` (R473): whether it is authentic, its generation, KEY_ID
and material. -/
def keyChangeMsg (s : State) (k : Nat) : Bool × Nat × Nat × List Byte :=
  let x := s.slot k
  let arg := s.keyArg 0 256
  let gen := leAt arg 5 4
  let id := leAt arg 9 4
  if x.kind = 3 then
    let w := kdf x.material (ascii "KCHW") (leBytes 1 k ++ leBytes 4 gen) 256
    match Config.gcmOpen w (s.keyArg 13 12) (arg.take 25) (s.keyArg 25 32) (s.keyArg 57 16) with
    | some m => (arg.take 4 = ascii "KCH3" && leAt arg 4 1 = k, gen, id, m)
    | none => (false, gen, id, [])
  else
    let n := kindLen x.kind
    let sig := s.keyArg (13 + n) n
    (arg.take 4 = ascii "KCH1" && leAt arg 4 1 = k && s.slotVerify k (arg.take (13 + n)) sig, gen, id,
      s.keyArg 13 n)

/-- KEY_CHANGE (R473): the new key keeps the slot's attributes and kind; slots 1 and 2 write their persistent copy. -/
def keyChangeCmd (a : Agent) (k : Nat) (s : State) : State :=
  let x := s.slot k
  let (ok, gen, id, m) := keyChangeMsg s k
  keyCommand 5 [(1, decide (2 ≤ s.level a)), (2, s.lc ≠ 0 && s.lc ≠ 5), (4, k ≠ 0 && k ≠ 3),
      (5, (x.kind = 3 || x.kind = 5 || x.kind = 7) && (Nat.testBit x.attr 8 || Nat.testBit x.attr 9)), (7, ok),
      (8, decide (gen = x.gen + 1))]
    (fun s => slotWriteKey k { x with keyId := id, material := m, persist := x.persist || k < 4 } s) s

/-- ERASE: the slot is emptied and a persistent copy wiped. -/
def keyEraseCmd (a : Agent) (k : Nat) (s : State) : State :=
  keyCommand 6 [(1, decide (2 ≤ s.level a)), (2, s.lc ≠ 0 && s.lc ≠ 5), (4, !fixedSlot k)]
    (fun s => (s.setSlot k KeySlot.empty).setKeyNv k KeyNv.empty) s

/-- Bytes written to KEY.ARG from byte 0. -/
def keyArgWrite (m : List Byte) (s : State) : State :=
  forEach (m.length / 4) (fun k s => s.wr (Reg.KEY.ARG.BYTES k) (leAt m (4 * k) 4)) s

/-- READ_PUBLIC: the public key to KEY.ARG. -/
def keyReadPublicCmd (k : Nat) (s : State) : State :=
  let x := s.slot k
  keyCommand 7 [(5, decide (4 ≤ x.kind))]
    (fun s => keyArgWrite (if kindPublic x.kind then x.material else Config.ecPublic (kindCurve x.kind) x.material) s) s

/-- `GENERATE`. -/
def execKeyGenerate (a : Agent) (slot : Fin 64) (s : State) : Out := done (keyGenerate a slot s)

/-- `DERIVE`. -/
def execKeyDerive (a : Agent) (slot aux : Fin 64) (s : State) : Out := done (keyDerive a slot aux s)

/-- `IMPORT_PUBLIC`. -/
def execKeyImportPublic (a : Agent) (slot : Fin 64) (s : State) : Out := done (keyImportPublic a slot s)

/-- `IMPORT_WRAPPED`. -/
def execKeyImportWrapped (a : Agent) (slot aux : Fin 64) (s : State) : Out := done (keyImportWrapped a slot aux s)

/-- `KEY_CHANGE`. -/
def execKeyChange (a : Agent) (slot : Fin 64) (s : State) : Out := done (keyChangeCmd a slot s)

/-- `ERASE`. -/
def execKeyErase (a : Agent) (slot : Fin 64) (s : State) : Out := done (keyEraseCmd a slot s)

/-- `READ_PUBLIC`. -/
def execKeyReadPublic (slot : Fin 64) (s : State) : Out := done (keyReadPublicCmd slot s)

/-- `KEY_ENTROPY` (R478): the DRBG refuses every request until a new start passes the tests. -/
def execKeyEntropy (s : State) : Out :=
  done (live (fun s => raiseCause 0x8C05 0 ((s.setB Reg.KEY.STATUS.ENTROPY_OK false).setB Reg.KEY.STATUS.DRBG_OK false)) s)

/-- `CRYPTO_QUEUE_REQUEST` (R468): the engines take the item at the head of Q[13] and post a result to Q[14]. The spec
gives neither item's format, nor what a result says of a slot without the attribute: every word of it is a free value
for every operation `_op` and slot `_slot`. -/
def execCryptoQueueRequest (_op : CryptoOp) (_slot : Fin 64) (s : State) : Out :=
  done (live (fun s =>
    match takeHead 13 s with
    | none => s
    | some (_, s) =>
      let (words, s) := (List.range 16).foldl (fun (acc : List Nat × State) _ =>
        let (v, s) := acc.2.fresh; (acc.1 ++ [v % 2 ^ 64], s)) (([] : List Nat), s)
      hwPost 14 words s) s)

/-! ### Life cycle (R462 to R465) -/

/-- The lowest level that may request a transition from `lc` to `target`; `none` when R462 has no such row. -/
def lcLevel (lc target : Nat) : Option Nat :=
  if lc = 0 && target = 1 then some 3
  else if lc = 1 && target = 2 then some 3
  else if lc = 2 && target = 3 then some 2
  else if lc = 3 && target = 4 then some 3
  else if 1 ≤ lc && lc ≤ 4 && target = 5 then some (if lc = 3 then 2 else 3)
  else none

/-- The return authorisation in KEY.ARG (R463). -/
def returnAuth (s : State) : Bool :=
  let m := s.keyArg 0 16
  m = ascii "RTN1" ++ [0, 0, 0, 0] ++ s.unitBytes && s.slotVerify 0 m (s.keyArg 16 96)

/-- The condition of a transition beyond its level and mode (R462). -/
def lcCondition (lc target : Nat) (s : State) : Bool :=
  if lc = 2 && target = 3 then
    (s.slot 1).kind ≠ 0 && (s.slot 2).kind ≠ 0 && s.sys.imgValid && s.sys.imgSigKind = 1 && s.sys.imgSigOk
  else if lc = 3 && target = 4 then returnAuth s
  else true

/-- Whether the fuses of an accepted transition are blown at once, in LOADING (R464). -/
def lcAccepted (target : Nat) (s : State) : State := keyResult 0xFF 0 (s.wr Reg.KEY.STATUS.LC_PEND target)

/-- A request for a transition (R462): its target becomes pending, or the request is refused with a code. -/
def lcRequest (a : Agent) (target : Nat) (s : State) : State :=
  if !(s.modeWrites || s.mode = 1) then s
  else
    let lc := s.key.lc
    match lcLevel lc target with
    | none => keyResult 0xFF 11 s
    | some l =>
      if s.level a < l then keyResult 0xFF 1 s
      else if target = 3 && s.mode ≠ 4 then keyResult 0xFF 3 s
      else if !lcCondition lc target s then keyResult 0xFF 12 s
      else lcAccepted target s

/-- KEY.LC_REQ with CANCEL = 1 (R462). -/
def lcCancelReq (a : Agent) (s : State) : State :=
  if !(s.modeWrites || s.mode = 1) then s
  else
    let p := s.rd Reg.KEY.STATUS.LC_PEND
    if p = 15 then keyResult 0xFF 0 s
    else if s.level a < (lcLevel s.key.lc p).getD 3 then keyResult 0xFF 1 s
    else keyResult 0xFF 0 (s.wr Reg.KEY.STATUS.LC_PEND 15)

/-- `LC_CANCEL`. -/
def execLcCancel (a : Agent) (s : State) : Out := done (lcCancelReq a s)

/-- A pending transition is carried out (R464, R465): the fuses, the anchors, every slot and tag key destroyed, the
life-cycle record, and the slot numbers of R535. -/
def lcCarryOut (s : State) : State :=
  let p := s.rd Reg.KEY.STATUS.LC_PEND
  if p = 15 then s
  else
    let old := s.key.lc
    let s := if p = 3 then { s with key := { s.key with anchor1 := s.slot 1, anchor2 := s.slot 2 } } else s
    let s := { s with key := { s.key with
      steps := if p = 5 then s.key.steps else p
      scrap := s.key.scrap || p = 5
      slots := []
      nv := [] } }
    let s := { s with cat := { s.cat with operSlot := 0xFF, utilSlot := 0xFF }, nfc := { s.nfc with tagKeys := [] } }
    let s := s.wr Reg.KEY.STATUS.LC_PEND 15
    s.record 0x07 (payloadOf [(0, old), (1, p)]) false

end Sys2Proof.Machine
end

