-- ==== Sys2Proof/Machine/Tamper.lean ====
section
/-!
DEFINITION. Tamper supervision and metering on the battery (chapter 05): loops, the DORMANT FIFO, tamper records and
actions, and the AON measurement windows.
-/
namespace Sys2Proof.Machine

/-- Whether P/AON runs: any supply is present. -/
def State.aon (s : State) : Bool := !s.sys.unpowered

/-- Whether the A16 is in DORMANT with its AON domain running. -/
def State.dormant (s : State) : Bool := s.aon && s.mode = 0

/-- Unix seconds of an RTC reading, or 0 while RTC.STATUS.VALID = 0. -/
def State.wallAt (s : State) (reading : Int) : Nat :=
  if s.bit Reg.RTC.STATUS.VALID then (reading / 327680).toNat - s.rd Reg.RTC.LEAP.TAI_UTC else 0

/-! ### Actions and records (R172, R173) -/

/-- The configured action of a tamper kind: 1 cover, 2 magnet, 3 seal, 5 bypass; kind 4 has none. -/
def State.tamperAct (s : State) (kind : Nat) : Nat :=
  if kind = 1 then s.rd Reg.TMP.CFG.ACT_COVER else if kind = 2 then s.rd Reg.TMP.CFG.ACT_MAGNET
  else if kind = 3 then s.rd Reg.TMP.CFG.ACT_SEAL else if kind = 5 then s.rd Reg.TMP.CFG.ACT_BYPASS else 0

/-- Every outlet that serves a carrel in state 3 stops through the ramp path. -/
def suspendAll (reason : Nat) (s : State) : State :=
  forEach 16 (fun n s =>
    match s.bound n with
    | some c => if (s.car c).st = 3 then outRamp n reason s else s
    | none => s) s

/-- Action 2 suspends what energises, in the modes in which actions apply (R172). -/
def tamperSuspend (s : State) : State :=
  if (s.mode = 5 || s.mode = 6) && s.tmp.acts.any (fun x => x.2 = 2) then suspendAll 11 s else s

/-- The configured action of a detected tamper begins. -/
def tamperApply (kind : Nat) (s : State) : State :=
  let t := s.tmp
  tamperSuspend { s with tmp := { t with
    acts := mapSet (fun _ => 0) t.acts kind (s.tamperAct kind)
    acked := t.acked.filter (· ≠ kind) } }

/-- A legal record leaves fewer than three free slots: FULL and LEGAL_FULL (R123). -/
def legalCheck (s : State) : State :=
  if s.legalFree < 3 && s.bit Reg.EVR.STATUS.RUN then
    if s.bit Reg.LEGAL.STATUS.FULL then s else raiseCause 0x7C01 0 (s.setB Reg.LEGAL.STATUS.FULL true)
  else s

/-- A record for the legal accession area (R507). -/
def legalRecord (ty payload : Nat) (s : State) : State := legalCheck (s.record ty payload true)

/-- The tamper record of R173. -/
def tamperRecord (kind source flags : Nat) (reading : Int) (extra : Nat) (legal : Bool) (s : State) : State :=
  let p := payloadOf [(0, kind), (1, source), (2, flags), (4, s.wallAt reading), (0xC, extra)]
  if legal then legalRecord 0x22 p s else s.record 0x22 p false

/-- Whether the cause of a tamper kind is present (R173). -/
def State.tamperCause (s : State) (kind : Nat) : Bool :=
  if kind = 1 then s.rd Reg.TMP.STATUS.OPEN ≠ 0
  else if kind = 2 then s.bit Reg.TMP.STATUS.MAGNET
  else if kind = 3 then (s.bit Reg.MET.SEAL.OPEN && s.mode ≠ 4) || s.bit Reg.MET.SEAL.INVALID
  else false

/-- An action ends when its cause is gone and 1 has been written to its sticky bit (R173). -/
def tamperRelease (s : State) : State :=
  let t := s.tmp
  { s with tmp := { t with acts := t.acts.filter fun x => s.tamperCause x.1 || !t.acked.contains x.1 } }

/-! ### Loops (R170, R171) -/

/-- A loop opens or closes, seen at `reading`; `dorm` when it was latched in DORMANT. -/
def loopSeen (t : Nat) (isOpen dorm : Bool) (reading : Int) (s : State) : State :=
  let flags := b2n dorm + 2 * b2n (!isOpen)
  let s := tamperRecord 1 t flags reading 0 (t < 2) s
  if isOpen then tamperApply 1 (raiseCause 0x5401 t (s.setFlag Reg.TMP.STATUS.OPEN_STK t true))
  else tamperRelease (setCause 0x5401 t false s)

/-- A loop's filtered state changes: acted on while the core runs, latched in the FIFO in DORMANT. -/
def loopChange (t : Nat) (isOpen : Bool) (s : State) : State :=
  if !s.aon || s.flag Reg.TMP.STATUS.OPEN t = isOpen then s
  else
    let s := s.setFlag Reg.TMP.STATUS.OPEN t isOpen
    if s.mode ≠ 0 then loopSeen t isOpen false s.reading s
    else
      let x := s.tmp
      let s := if isOpen then s.setFlag Reg.TMP.STATUS.OPEN_STK t true else s
      if 16 ≤ x.fifo.length then { s with tmp := { x with lost := min 65535 (x.lost + 1) } }
      else { s with tmp := { x with fifo := x.fifo ++ [(t, isOpen, s.reading)] } }

/-- `TAMPER_LOOP_CHANGE` (R170, R172): an enabled loop has read its new level for 20 ms. -/
def execTamperLoopChange (t : Fin 4) (isOpen : Bool) (s : State) : Out :=
  done (if s.flag Reg.TMP.CFG.EN t then loopChange t isOpen s else s)

/-- `TAMP_DRV_PULSE` (R170): `follow` has bit t set when TAMP[t] followed the pulse. -/
def execTampDrvPulse (follow : Fin 16) (s : State) : Out :=
  done (if !s.aon then s else forEach 4 (fun t s =>
    let x := s.tmp
    if s.flag Reg.TMP.CFG.EN t && s.flag Reg.TMP.CFG.DYN t then
      let n := if Nat.testBit follow t then 0 else min 8 (mapGet (fun _ => 0) x.missed t + 1)
      let s := { s with tmp := { x with missed := mapSet (fun _ => 0) x.missed t n } }
      if n = 0 then setCause 0x5405 t false s else s
    else s) s)

/-- `TMP_LOOP` (R170): a dynamic loop that has not followed 8 consecutive pulses is reported as open. In DORMANT the
fault waits for the next start (R171). -/
def execTmpLoop (t : Fin 4) (s : State) : Out :=
  done (if s.aon && 8 ≤ mapGet (fun _ => 0) s.tmp.missed t then
      let s := s.setB Reg.TMP.STATUS.LOOP_STK true
      let s := if s.mode = 0 then s else raiseCause 0x5405 t s
      loopChange t true s
    else s)

/-- The sticky bits of TMP.STATUS with the tamper kinds whose action they end. -/
def stickyKinds : List (Fld × Nat) :=
  [(Reg.TMP.STATUS.LOOP_STK, 1), (Reg.TMP.STATUS.SENSOR_STK, 4), (Reg.TMP.STATUS.SEAL_STK, 3),
   (Reg.TMP.STATUS.BYPASS_STK, 5), (Reg.TMP.STATUS.MAGNET_STK, 2)]

/-- A write of ones to the sticky bits of TMP.STATUS. -/
def tmpSticky (a : Agent) (w : Nat) (s : State) : State :=
  gated a 1 (fun s =>
    let s := forEach 4 (fun t s =>
      if Nat.testBit w (8 + t) then
        { s.setFlag Reg.TMP.STATUS.OPEN_STK t false with tmp := { s.tmp with acked := 1 :: s.tmp.acked.filter (· ≠ 1) } }
      else s) s
    let s := stickyKinds.foldl (fun s x =>
      if Nat.testBit w x.1.lo then
        { s.setB x.1 false with tmp := { s.tmp with acked := x.2 :: s.tmp.acked.filter (· ≠ x.2) } }
      else s) s
    tamperRelease s) s

/-- `TMP_STICKY_CLEAR` (R173): `w` is the word written to TMP.STATUS. -/
def execTmpStickyClear (a : Agent) (w : Nat) (s : State) : Out := done (tmpSticky a w s)

/-! ### Battery metering (R167, R168) -/

/-- The channel that slot `p` of a MAP word names, when its valid bit is set. -/
def mapSlot (w p : Nat) : Option Nat :=
  let b := w / 256 ^ p % 256
  if 128 ≤ b then some (b - 128) else none

/-- SRC of a channel in force: 0 none, 1 MB, 2 head conductor, 3 AIN. -/
def State.chSrc (s : State) (c : Nat) : Nat := s.inForce (0x100 + c) 0 4 / 2 ^ 28 % 8

/-- SRC_IDX of a channel in force. -/
def State.chIdx (s : State) (c : Nat) : Nat := s.inForce (0x100 + c) 0 4 / 2 ^ 16 % 256

/-- The constants of battery metering are copied to the AON domain (R167). -/
def battCopy (s : State) : State :=
  let ok := (List.range 3).all fun p =>
    match mapSlot (s.inForce 16 12 4) p with
    | some c => s.chSrc c = 3 && s.chIdx c ≤ 2
    | none => false
  { s with tmp := { s.tmp with battNom := s.nomV 16, battRated := s.ratedI 16, battOn := ok } }

/-- One window: the currents of the three inputs in mA, scaled by the copied constants (R168). -/
def battWindow (i0 i1 i2 : Nat) (s : State) : State :=
  let t := s.tmp
  let period := s.rd Reg.TMP.CFG.BATT_PERIOD
  let l := [i0, i1, i2]
  let start := l.filter (t.battRated ≤ ·)
  let va : Rat := (start.foldl (fun a i => a + i * t.battNom) 0 : Nat) / 1000
  let top := l.foldl max 0
  { s with tmp := { t with
    est := t.est + va * period / (36 / 10)
    counted := t.counted + (if start.isEmpty then 0 else period)
    byp := t.byp + (if s.rd Reg.TMP.CFG.BYP_I * t.battRated ≤ top then period else 0)
    ipeak := max t.ipeak top } }

/-- `BATT_WINDOW` (R167, R168): `i0` to `i2` are the RMS currents of AIN[0..2] over the window, in mA. -/
def execBattWindow (i0 i1 i2 : Nat) (s : State) : Out :=
  done (if s.dormant && s.tmp.battOn && s.rd Reg.TMP.CFG.BATT_PERIOD ≠ 0 then battWindow i0 i1 i2 s else s)

/-! ### At the next start (R163 to R166, R169, R171) -/

/-- The lost span in 1/327,680 s between the end of the last committed quantum and the stamp, with whether it is the
assumed 108 ms (R163): the stamp is missing, or inconsistent with the folio in force. -/
def lostSpan (stamp : Option Int) (committed : Int) : Int × Bool :=
  match stamp with
  | some t => if committed ≤ t then (t - committed, false) else (35389, true)
  | none => (35389, true)

/-- Microseconds of a span; the assumed span is 108 ms. -/
def spanUs (span : Int × Bool) : Nat :=
  if span.2 then 108000 else (span.1 * 1000000 / 327680).toNat

/-- The bound of a meter over a lost span, mWh, rounded up (R166). -/
def lossBound (mw : Int) (us : Nat) : Nat := (mw.natAbs * us + 3600000000 - 1) / 3600000000

/-- The FIFO's entries are written oldest first, with the faults of an overflow and of dynamic loops (R170, R171). -/
def fifoWrite (s : State) : State :=
  let l := s.tmp.fifo
  let lost := s.tmp.lost
  let s := (s.wr Reg.TMP.LATCH.COUNT l.length).wr Reg.TMP.LATCH.LOST lost
  let s := l.foldl (fun s (x : Nat × Bool × Int) =>
    let s := loopSeen x.1 x.2.1 true x.2.2 s
    if x.2.1 && 8 ≤ mapGet (fun _ => 0) s.tmp.missed x.1 then raiseCause 0x5405 x.1 s else s) s
  let s := { s with tmp := { s.tmp with fifo := [], lost := 0 } }
  if lost = 0 then s else raise 0x1404 0 s

/-- The unpowered-supply record and the bypass verdict (R169). -/
def battReport (s : State) : State :=
  let t := s.tmp
  let est := (Config.rounded t.est).toNat
  let span := ((s.reading - t.dormFrom) / 327680).toNat
  if t.est = 0 then s
  else
    let bypass := 60 ≤ t.byp
    let s := legalRecord 0x21 (payloadOf [(0, span % 2 ^ 32), (4, t.counted % 2 ^ 32), (8, est % 2 ^ 64),
      (0x10, t.ipeak / 100 % 2 ^ 32), (0x14, b2n bypass + 2 * b2n t.vbatLow)]) s
    let s := ((s.wr Reg.TMP.BATT_EST_LO.VALUE est).wr Reg.TMP.BATT_EST_HI.VALUE (est / 2 ^ 32)).wr
      Reg.TMP.BATT_SPAN.SECONDS span
    let s := { s with tmp := { s.tmp with est := 0, counted := 0, byp := 0, ipeak := 0, vbatLow := false } }
    if bypass then
      let s := raise 0x5403 0 (s.setB Reg.TMP.STATUS.BYPASS_STK true)
      tamperApply 5 (tamperRecord 5 16 1 s.reading 0 true s)
    else s

end Sys2Proof.Machine
end

