-- ==== Sys2Proof/Machine/Metering.lean ====
section
/-!
DEFINITION. The sample path of the metrology engine (chapter 03): sensor links, channels, and what makes a head or a
channel unusable.
-/
namespace Sys2Proof.Machine

/-! ### Sensor heads (R100 to R104) -/

/-- The meter that uses the head on SL[l], the lowest-numbered one whose current slots name it. -/
def State.linkMeter (s : State) (l : Nat) : Option Nat :=
  (List.range 17).find? fun m => s.meterType m ≠ 0 && (List.range 4).any fun p =>
    match mapSlot (s.inForce m 8 4) p with
    | some c => decide (s.chSrc c = 2 ∧ s.chIdx c = l)
    | none => false

/-- The links that the current slots of METER[m] name, in slot order, each once. -/
def State.meterLinks (s : State) (m : Nat) : List Nat :=
  ((List.range 4).filterMap fun p =>
    match mapSlot (s.inForce m 8 4) p with
    | some c => if s.chSrc c = 2 then some (s.chIdx c) else none
    | none => none).foldl (fun l x => if l.contains x then l else l ++ [x]) []

/-- The SHELF entry of the head on SL[l]: the sensor heads that SHELF binds to the meter, in order, are those on the
meter's links in slot order (DEDUCED, log entry 26). -/
def State.headEntry (s : State) (l : Nat) : Option Nat :=
  match s.linkMeter l with
  | none => none
  | some m =>
    let k := (s.meterLinks m).findIdx (· = l)
    ((List.range s.shelfCount).filter fun i => s.shelfAt i 2 1 = 1 && s.shelfAt i 4 1 = m)[k]?

/-- Link `l`. -/
def State.link (s : State) (l : Nat) : LinkSt := mapGet (fun _ => LinkSt.init) s.met.link l

/-- Link `l` replaced. -/
def State.setLink (s : State) (l : Nat) (x : LinkSt) : State :=
  { s with met := { s.met with link := mapSet (fun _ => LinkSt.init) s.met.link l x } }

/-- The shelfmark body of the head on SL[l], when its module matched. -/
def State.headBody (s : State) (l : Nat) : Option (List Byte) :=
  match s.headEntry l with
  | some i => if s.sys.shelf.getD i .absent = .matched then some (mapGet (fun _ => []) s.sys.shelfBody i) else none
  | none => none

/-- Why the head on SL[l] is unusable, as the causes of `MetPh`: 0 none; bit 1 the link is lost; bit 2 an element
failed, an external field, a self-test failure, a binding mismatch, or a shelfmark outcome other than a match. -/
def State.headCause (s : State) (l : Nat) : Nat :=
  let x := s.link l
  2 * b2n (s.bit (Reg.SLK.STATUS.LOST l)) +
    4 * b2n (s.rd (Reg.SLK.ELEM_FAIL.ELEM l) ≠ 0 || x.fieldBad || x.selfTest || x.unbound || (s.headBody l).isNone)

/-- A signed number of `n` little-endian bytes at an offset of a body. -/
def leInt (b : List Byte) (off n : Nat) : Int := toInt (8 * n) (leAt b off n)

/-- The conductor estimate of R102, Q0.23 of FS_A, from element samples in 2^-17 of full scale. -/
def conductor (b : List Byte) (elem : List Int) (temp : Int) (c : Nat) : Int :=
  let acc := (List.range 32).foldl (fun a e => a + leInt b (0x1C + 64 * c + 2 * e) 2 * elem.getD e 0) 0
  let i : Rat := (leAt b (0xC + 4 * c) 4 : Rat) / 2 ^ 30 * acc / 2 ^ 15 * 2 ^ 6
  Config.rounded (i * (1 + (leInt b 6 2 : Rat) / 10 ^ 8 * ((temp : Rat) / 16 - (leInt b 8 2 : Rat) / 10)))

/-- One component of the field in µT (R102). -/
def fieldPart (b : List Byte) (elem : List Int) (a : Nat) : Rat :=
  let sum := (List.range 32).foldl (fun x e => x + leInt b (0x11C + 64 * a + 2 * e) 2 * elem.getD e 0) 0
  (leAt b 0x19C 4 : Rat) / 2 ^ 16 * sum / 2 ^ 15 / 2 ^ 17

/-- Bits `hi` down to `lo` of a frame of 640 bits, bit 639 first on the wire. -/
def frameBits (w hi lo : Nat) : Nat := w / 2 ^ lo % 2 ^ (hi + 1 - lo)

/-- The channels fed from SL[l]. -/
def State.linkChannels (s : State) (l : Nat) : List Nat :=
  (List.range 128).filter fun c => s.chSrc c = 2 && s.chIdx c = l

/-- A valid frame is taken (R93, R102). -/
def linkTake (l w : Nat) (s : State) : State :=
  let elem := (List.range 32).map fun e => toInt 18 (frameBits w (607 - 18 * e) (590 - 18 * e))
  let temp := toInt 16 (frameBits w 31 16)
  let x := s.link l
  let s := (s.setB (Reg.SLK.STATUS.LINK_UP l) true).wrI (Reg.SLK.TEMP.TEMP l) temp
  match s.headBody l with
  | none => s.setLink l { x with elem := elem, bad := 0, selfTest := Nat.testBit w 621 }
  | some b =>
    let bx := fieldPart b elem 0
    let bY := fieldPart b elem 1
    s.setLink l { x with
      elem := elem
      cond := (List.range (leAt b 0 1)).map (conductor b elem temp)
      bad := 0
      b2 := x.b2 + bx * bx + bY * bY
      frames := x.frames + 1
      selfTest := Nat.testBit w 621 }

/-- `SL_FRAME_RECEIVED` (R93, R94): `bytes` are the 80 bytes of the frame as sent. -/
def execSlFrameReceived (n : Fin 16) (bytes : List Byte) (s : State) : Out :=
  done (live (fun s =>
    if !s.bit Reg.MET.STATUS.RUN || s.bit (Reg.SLK.STATUS.LOST n) then s
    else if bytes.length = 80 && beAt bytes 0 2 = 0xA5C3 && beAt bytes 78 2 = crc16 ((bytes.drop 2).take 76) then
      linkTake n (beValue bytes) s
    else
      let x := s.link n
      let s := (s.inc (Reg.SLK.CRC_ERR.COUNT n)).setLink n { x with bad := x.bad + 1 }
      (s.linkChannels n).foldl (fun s c => s.inc (Reg.MCH.ERRCNT.HOLDS c)) s) s)

/-- `SLK_LINK_LOST` (R94). -/
def execSlkLinkLost (n : Fin 16) (s : State) : Out :=
  done (live (fun s =>
    if 8 ≤ (s.link n).bad && !s.bit (Reg.SLK.STATUS.LOST n) then
      raiseCause 0x5302 n ((s.setB (Reg.SLK.STATUS.LOST n) true).setB (Reg.SLK.STATUS.LINK_UP n) false)
    else s) s)

/-! ### Phases (R107 to R113) -/

/-- A phase current. -/
def State.phase (s : State) (m p : Nat) : MetPh := mapGet (fun _ => MetPh.init) s.met.ph (4 * m + p)

/-- A phase current replaced. -/
def State.setPhase (s : State) (m p : Nat) (x : MetPh) : State :=
  { s with met := { s.met with ph := mapSet (fun _ => MetPh.init) s.met.ph (4 * m + p) x } }

/-- The primary channel of a phase. -/
def State.primary (s : State) (m p : Nat) : Option Nat := mapSlot (s.inForce m 8 4) p

/-- The reference channel of a phase. -/
def State.reference (s : State) (m p : Nat) : Option Nat := mapSlot (s.inForce m 12 4) p

/-- The voltage channel of a phase. -/
def State.voltage (s : State) (m p : Nat) : Option Nat := mapSlot (s.inForce m 4 4) p

/-- The phases of a meter (R127). -/
def State.phases (s : State) (m : Nat) : Nat := if s.meterType m = 2 then 3 else if s.meterType m = 0 then 0 else 1

/-- MET.SRC.REF and MET.STATUS.VERIFY follow the phases. -/
def srcFlags (s : State) : State :=
  let anyPh := fun (m : Nat) (q : MetPh → Bool) => (List.range 3).any fun p => q (s.phase m p)
  let ref := (List.range 17).foldl (fun a m => a + b2n (anyPh m fun x => x.src = 1) * 2 ^ m) 0
  (s.wr Reg.MET.SRC.REF ref).setB Reg.MET.STATUS.VERIFY ((List.range 17).any fun m => anyPh m fun x => x.src = 2)

/-- Every phase whose primary comes from SL[l] and that `f` changes. -/
def linkPhases (l : Nat) (f : MetPh → MetPh) (s : State) : State :=
  forEach 17 (fun m s => forEach 3 (fun p s =>
    match s.primary m p with
    | some c => if s.chSrc c = 2 && s.chIdx c = l then s.setPhase m p (f (s.phase m p)) else s
    | none => s) s) s

/-- A phase of a link that is back: the cause goes, and without another one the phase is verified anew (R113). -/
def linkBack (x : MetPh) : MetPh :=
  let cause := putBit x.cause 1 false
  if x.src = 1 && Nat.testBit x.cause 1 then
    { x with cause := cause, src := if cause = 0 then 2 else 1, agree := 0 }
  else { x with cause := cause }

/-- `SL_LINK_RETRY` (R94, R113): `ok` when frames pass again. -/
def execSlLinkRetry (n : Fin 16) (ok : Bool) (s : State) : Out :=
  done (live (fun s =>
    if s.bit (Reg.SLK.STATUS.LOST n) && ok then
      let s := (s.setB (Reg.SLK.STATUS.LOST n) false).setB (Reg.SLK.STATUS.LINK_UP n) true
      srcFlags (linkPhases n linkBack (setCause 0x5302 n false (s.setLink n { s.link n with bad := 0 })))
    else s) s)

/-- Every channel fed from MB[n] reads LOST, or no longer. -/
def mbLost (n : Nat) (lost : Bool) (s : State) : State :=
  ((List.range 128).filter fun c => s.chSrc c = 1 && s.chIdx c = n).foldl
    (fun s c => s.setB (Reg.MCH.STATUS.LOST c) lost) s

/-- `MCH_BITSTREAM_LOST` (R91). -/
def execMchBitstreamLost (n : Fin 96) (s : State) : Out :=
  done (live (fun s => if s.bit Reg.MET.STATUS.RUN then raiseCause 0x5101 n (mbLost n true s) else s) s)

/-- `MB_INPUT_RESTORED` (R91). -/
def execMbInputRestored (n : Fin 96) (s : State) : Out :=
  done (live (fun s => setCause 0x5101 n false (mbLost n false s)) s)

/-- `SLK_ELEMENT` (R103). -/
def execSlkElement (n : Fin 16) (e : Fin 32) (s : State) : Out :=
  done (live (fun s =>
    if !s.bit Reg.MET.STATUS.RUN then s
    else
      let first := s.rd (Reg.SLK.ELEM_FAIL.ELEM n) = 0
      let s := (s.setFlag (Reg.SLK.ELEM_FAIL.ELEM n) e true).setB (Reg.SLK.STATUS.ELEM_STK n) true
      if first then raiseCause 0x5304 n s else s) s)

/-- `SLK_FIELD` (R104, R172): a head of METER[16] under external field is a magnet tamper. -/
def execSlkField (n : Fin 16) (s : State) : Out :=
  done (live (fun s =>
    if !s.bit Reg.MET.STATUS.RUN || (s.link n).fieldBad then s
    else
      let s := (s.setLink n { s.link n with fieldBad := true }).setB (Reg.SLK.STATUS.FIELD_STK n) true
      let s := raiseCause 0x5303 n s
      let ut := s.rd (Reg.SLK.FIELD.UT n)
      if s.linkMeter n = some 16 then
        let s := (s.setB Reg.TMP.STATUS.MAGNET true).setB Reg.TMP.STATUS.MAGNET_STK true
        tamperApply 2 (tamperRecord 2 n 0 s.reading ut true s)
      else tamperRecord 2 n 0 s.reading ut false s) s)

/-! ### Samples (R88 to R99) -/

/-- Channel `c`. -/
def State.chan (s : State) (c : Nat) : ChSt := mapGet (fun _ => ChSt.init) s.met.ch c

/-- The raw sample of a channel: `none` while its source gives none. -/
def State.rawSample (s : State) (mb ain : List (Nat × Int)) (c : Nat) : Option Int :=
  let src := s.chSrc c
  let idx := s.chIdx c
  if src = 1 then (mb.find? fun x => x.1 = idx).map (·.2)
  else if src = 3 then (ain.find? fun x => x.1 = idx).map (·.2)
  else if src = 2 then (s.link idx).cond[s.inForce (0x100 + c) 0 4 / 2 ^ 14 % 4]?
  else none

/-- The delay of R97 beyond the source's own, in 10 ns: 1,250 µs less the source delay, and the PHASE trim. -/
def State.chDelay (s : State) (c : Nat) : Int :=
  let own : Nat := if s.chSrc c = 1 then 61235 else if s.chSrc c = 3 then 64000
    else 2624 + (match s.headBody (s.chIdx c) with | some b => leAt b 4 2 | none => 0)
  125000 - (own : Int) + toInt 16 (s.inForce (0x100 + c) 16 2)

/-- Steps 2 to 7 of R96: the channel's state, its output in Q0.31, and whether the sample saturated. -/
def channelStep (cfg gain : Nat) (offset delay r : Int) (x : ChSt) : ChSt × Int × Bool :=
  let u := r - offset
  let y : Int := if cfg / 2 ^ 10 % 4 = 2 then
      Config.rounded ((1 - 1 / 2 ^ 13 : Rat) * x.y + ((u + x.u : Int) : Rat) / 2) else u
  let h := if Nat.testBit cfg 9 then Config.highPass x.hpIn x.hpOut y else y
  let v : Rat := ((h * gain * 256 : Int) : Rat) / 2 ^ 30
  let ovr := decide (2 ^ 31 ≤ v) || decide (v < -(2 ^ 31 : Rat))
  let out : Int := if 2 ^ 31 ≤ v then 2 ^ 31 - 1 else if v < -(2 ^ 31 : Rat) then -(2 ^ 31) else Config.rounded v
  let hist := (out :: x.hist).take 16
  ({ x with u := u, y := y, hpIn := y, hpOut := h, hist := hist, overs := x.overs + b2n ovr }, Config.delayed delay hist, ovr)

/-- One channel takes its sample; the output joins `row`. -/
def sampleChannel (mb ain : List (Nat × Int)) (c : Nat) (acc : State × SMap Int) : State × SMap Int :=
  let (s, row) := acc
  let cfg := s.inForce (0x100 + c) 0 4
  if !Nat.testBit cfg 31 then acc
  else match s.rawSample mb ain c with
    | none => acc
    | some r =>
      let (x, out, ovr) := channelStep cfg (s.inForce (0x100 + c) 8 4) (toInt 24 (s.inForce (0x100 + c) 12 3))
        (s.chDelay c) r (s.chan c)
      let x := if s.bit (Reg.MCH.STATUS.LOST c) then x else { x with valid := x.valid + 1 }
      let s := { s with met := { s.met with ch := mapSet (fun _ => ChSt.init) s.met.ch c x } }
      let s := if ovr then (s.setB (Reg.MCH.STATUS.OVR c) true).inc (Reg.MCH.ERRCNT.OVRS c) else s
      (s, mapSet (fun _ => (0 : Int)) row c out)

/-- `METROLOGY_SAMPLE` (R88, R96): the decimated samples of the MB and AIN inputs, Q0.23 of full scale; sensor links
give the estimates of their last frame. The command stands for a sample that has passed the common latency. -/
def execMetrologySample (mb ain : List (Nat × Int)) (s : State) : Out :=
  done (live (fun s =>
    if !s.bit Reg.MET.STATUS.RUN then s
    else
      let (s, row) := (List.range 128).foldl (fun acc c => sampleChannel mb ain c acc) (s, [])
      { s with met := { s.met with run := s.met.run ++ [row] } }) s)

end Sys2Proof.Machine
end

