-- ==== Sys2Proof/Machine/Quantities.lean ====
section
/-!
DEFINITION. The close of a quantum (chapters 03 and 04): the source of each phase, the total and fundamental
quantities, energies with their carries, directions, the quantum-result items and registers.
-/
namespace Sys2Proof.Machine

/-! ### Sums over the samples of the quantum (R130) -/

/-- Σ a·b over the samples, for the outputs of two channels. -/
def sumProd (run : List (SMap Int)) (a b : Nat) : Int :=
  run.foldl (fun t x => t + mapGet (fun _ => 0) x a * mapGet (fun _ => 0) x b) 0

/-- Σ a over the samples. -/
def sumOut (run : List (SMap Int)) (a : Nat) : Int := run.foldl (fun t x => t + mapGet (fun _ => 0) x a) 0

/-- FULLSCALE of a channel in force, mV or mA. -/
def State.chFs (s : State) (c : Nat) : Nat := s.inForce (0x100 + c) 4 4

/-- The number of samples of the quantum, at least 1 as a divisor. -/
def State.nq (s : State) : Nat := s.met.run.length

/-- The mean square of a channel, mV² or mA². -/
def State.meanSq (s : State) (c : Nat) : Rat :=
  if s.nq = 0 then 0 else (sumProd s.met.run c c : Rat) * s.chFs c * s.chFs c / 2 ^ 62 / s.nq

/-- The mean of a channel, mV or mA. -/
def State.meanOf (s : State) (c : Nat) : Rat :=
  if s.nq = 0 then 0 else (sumOut s.met.run c : Rat) * s.chFs c / 2 ^ 31 / s.nq

/-- The sample time Ts of R129, s. -/
def State.ts (s : State) : Rat :=
  let n := if s.bit Reg.CLK.STATUS.RTC_OK && s.sys.secCycles ≠ 0 then s.sys.secCycles else 300000000
  37500 / n

/-! ### The source of a phase (R106 to R112) -/

/-- Why a primary channel is unusable, as the causes of `MetPh`. -/
def State.primaryCause (s : State) (c : Nat) : Nat :=
  if s.chSrc c = 2 then s.headCause (s.chIdx c) else if s.bit (Reg.MCH.STATUS.LOST c) then 2 else 0

/-- Whether a reference channel is usable in the quantum (R106). -/
def State.refUsable (s : State) (c : Nat) : Bool :=
  !s.bit (Reg.MCH.STATUS.LOST c) && (s.chan c).overs ≤ 8 && (s.chSrc c ≠ 2 || s.headCause (s.chIdx c) = 0)

/-- Whether two currents, given by their squares, differ by more than `t`. -/
def differMore (a b t : Rat) : Bool :=
  let hi := max a b
  let lo := min a b
  let x := hi - lo - t * t
  decide (0 < x) && decide (4 * t * t * lo < x * x)

/-- Whether two currents, given by their squares, differ by more than the share `r` of the second. -/
def differRel (a b r : Rat) : Bool :=
  decide ((1 + r) * (1 + r) * b < a) || (decide (r < 1) && decide (a < (1 - r) * (1 - r) * b))

/-- R109: |I_p − I_r| > max(XREL × I_r, XABS × RATED_I), with both limits divided by `div`; squares in mA². -/
def State.disagrees (s : State) (m : Nat) (a b div : Rat) : Bool :=
  let xrel := s.inForce 0x200 3 1
  let xabs := s.inForce 0x200 2 1
  differRel a b (xrel / 10000 / div) && differMore a b (xabs * (s.ratedI m : Rat) / 10 / div)

/-- The reference exceeds 1 % of RATED_I. -/
def State.aboveOne (s : State) (m : Nat) (b : Rat) : Bool :=
  let i : Rat := s.ratedI m * 10
  decide (i * i < b)

/-- The squares of the primary and reference currents of a phase with both channels. -/
def State.pairSq (s : State) (cp cr : Nat) : Rat × Rat := (s.meanSq cp, s.meanSq cr)

/-- The decision of R108: what the quantum is booked from (0 primary, 1 reference, 2 nothing), and the rule that
decided. `pU` and `rU` say whether the channels are usable, `tenth` whether rule 4 applies. -/
def decideSource (src : Nat) (pU rU tenth : Bool) : Nat × Nat :=
  let rule := if !pU then 1 else if src = 1 then 2 else if src = 2 then 3 else if tenth then 4 else 5
  if rule = 5 then (0, 5)
  else if rU then (1, rule)
  else if pU then (0, rule)
  else (2, rule)

/-- A SOURCE record of R509. -/
def sourceRecord (m p kind rule : Nat) (sum : Int) (qs quanta : Nat) (s : State) : State :=
  let pl := payloadOf [(0, m), (1, p), (2, kind), (3, rule), (4, ofInt 64 sum), (0xC, qs), (0x14, quanta % 2 ^ 32)]
  if m = 16 then legalRecord 0x14 pl s else s.record 0x14 pl false

/-- A change of a phase to its reference (R110), and the sensor tamper of METER[16] (R172). -/
def toReference (m p rule : Nat) (sum : Int) (s : State) : State :=
  let s := sourceRecord m p 1 rule sum (s.per.qserial + 1) 0 s
  let s := addDegr 0x5001 (4 * m + p) true (raiseCause 0x5001 (4 * m + p) s)
  if m = 16 then tamperRecord 4 16 0 s.reading 0 true (s.setB Reg.TMP.STATUS.SENSOR_STK true) else s

/-- A phase without source (R111), from its first such quantum on; the outlet stops. -/
def loseSource (m p : Nat) (s : State) : State :=
  if m = 16 then
    let s := tamperRecord 4 16 0 s.reading 0 true (s.setB Reg.TMP.STATUS.SENSOR_STK true)
    raiseCause 0x9002 (4 * m + p) s
  else outRamp m 19 (raiseCause 0x5003 (4 * m + p) s)

/-- A span without source ends: its SOURCE record of kind 3. -/
def sourceReturns (m p : Nat) (x : MetPh) (s : State) : State :=
  sourceRecord m p 3 0 0 x.noSrcFrom x.noSrc (setCause (if m = 16 then 0x9002 else 0x5003) (4 * m + p) false s)

/-- The reference of a phase becomes unusable or usable again (R106). -/
def refWatch (m p : Nat) (bad : Bool) (s : State) : State :=
  let x := s.phase m p
  if x.refBad = bad then s
  else
    let s := s.setPhase m p { x with refBad := bad }
    let i := 4 * m + p
    if bad then addDegr 0x5004 i true (raiseCause 0x5004 i s) else dropDegr 0x5004 i (setCause 0x5004 i false s)

/-- The counts of a phase after a quantum (R109, R112). -/
def countQuantum (both dis counts : Bool) (diff : Rat) (x : MetPh) : MetPh :=
  { x with
    dis := if dis then x.dis + 1 else 0
    disSum := if dis then (if x.dis = 0 then 0 else x.disSum) + diff else x.disSum
    agree := if !both || dis then 0 else if counts then x.agree + 1 else x.agree }

/-- The accuracy test takes a counting quantum of a phase (R114). -/
def testQuantum (m p : Nat) (a b : Rat) (s : State) : State :=
  match s.met.test with
  | none => s
  | some t => { s with met := { s.met with test := some { t with
      phases := t.phases.map fun x => if x.1 = 4 * m + p && x.2.1 < 600 then
        (x.1, x.2.1 + 1, x.2.2.1 + a, x.2.2.2 + b) else x } } }

/-- Ten disagreeing quanta of the phase are complete. -/
def MetPh.tenth (x : MetPh) : Bool := 10 ≤ x.dis

/-- The source of a phase for the quantum that closes: the verdict, its counts, and what follows from it. The answer
is what the quantum is booked from. -/
def phaseSource (m p : Nat) (s : State) : Nat × State :=
  let x := s.phase m p
  let cp := s.primary m p
  let cr := s.reference m p
  let cause := match cp with | some c => s.primaryCause c | none => 4
  let vU := match s.voltage m p with | some c => !s.bit (Reg.MCH.STATUS.LOST c) | none => false
  let pU := cp.isSome && cause = 0
  let rU := match cr with | some c => s.refUsable c | none => false
  let s := if cr.isSome then refWatch m p (!rU) s else s
  let (a, b) := s.pairSq (cp.getD 0) (cr.getD 0)
  let both := pU && rU
  let dis := both && s.disagrees m a b 1
  let counts := both && s.aboveOne m b
  let s := if counts then testQuantum m p a b s else s
  let x := countQuantum both dis counts (if dis then Config.sqrt a - Config.sqrt b else 0) { x with refBad := cr.isSome && !rU }
  let (b0, rule) := decideSource x.src pU rU (x.src = 0 && x.tenth)
  let booked := if vU then b0 else 2
  let stays := rule = 1 || rule = 4
  let cause' := if rule = 1 && cr.isSome then Nat.lor x.cause cause else if rule = 4 then putBit x.cause 0 true else x.cause
  let change := booked = 1 && x.booked = 0 && x.src = 0
  let back := booked = 0 && x.switched && x.src = 0
  let sum := if rule = 4 then Config.rounded x.disSum else 0
  let lost := booked = 2 && x.noSrc = 0
  let found := booked ≠ 2 && x.noSrc ≠ 0
  let s := if found then sourceReturns m p x s else s
  let x' := { x with
    cause := cause'
    src := if stays && cr.isSome then 1 else x.src
    booked := booked
    switched := (x.switched || change) && !back
    noSrc := if booked = 2 then x.noSrc + 1 else 0
    noSrcFrom := if lost then s.per.qserial + 1 else x.noSrcFrom }
  let s := s.setPhase m p x'
  let s := if change then toReference m p rule sum s else s
  let s := if back then
      dropDegr 0x5001 (4 * m + p) (setCause 0x5001 (4 * m + p) false (sourceRecord m p 2 5 0 (s.per.qserial + 1) 0 s))
    else s
  (booked, if lost then loseSource m p s else s)

/-! ### Quantities of a phase (R130 to R138) -/

/-- The figures of a phase in a quantum: squares of voltage (mV²) and current (mA²); total and fundamental active power,
total and fundamental reactive power, total and fundamental apparent power, in µW, µvar and µVA. -/
structure PhaseFig where
  v2 : Rat
  i2 : Rat
  pT : Rat
  pF : Rat
  qT : Rat
  qF : Rat
  sT : Rat
  sF : Rat

/-- No figure. -/
def PhaseFig.zero : PhaseFig := ⟨0, 0, 0, 0, 0, 0, 0, 0⟩

/-- The key of the cycle figures of a phase and candidate. -/
def fundKey (m p cand : Nat) : Nat := (3 * m + p) * 2 + cand

/-- The cycle figures of a phase and candidate. -/
def State.fund (s : State) (m p cand : Nat) : FundSt := mapGet (fun _ => FundSt.init) s.met.fund (fundKey m p cand)

/-- A meter's tracker. -/
def State.meter (s : State) (m : Nat) : MeterSt := mapGet (fun _ => MeterSt.init) s.met.meter m

/-- A meter's tracker replaced. -/
def State.setMeter (s : State) (m : Nat) (x : MeterSt) : State :=
  { s with met := { s.met with meter := mapSet (fun _ => MeterSt.init) s.met.meter m x } }

/-- A sum of cycle figures: `a + k · b`. -/
def cycAdd (a : CycSum) (k : Int) (b : CycSum) : CycSum :=
  ⟨a.p1 + k * b.p1, a.q1 + k * b.q1, a.s1 + k * b.s1, a.qt + k * b.qt⟩

/-- The figures of R135 over the quantum: a cycle still running is valued at the last complete one. -/
def State.fundSum (s : State) (m p cand : Nat) : CycSum :=
  let f := s.fund m p cand
  cycAdd f.acc ((s.nq : Int) - (s.meter m).doneN) f.last

/-- The figures of a phase booked from the current channel `ci`, candidate `cand` (R130, R134, R136, R137). -/
def State.phaseFig (s : State) (m p cv ci cand : Nat) (d : PhaseDft) : PhaseFig :=
  if s.nq = 0 then PhaseFig.zero
  else
    let n : Rat := s.nq
    let vi : Rat := (sumProd s.met.run cv ci : Rat) * s.chFs cv * s.chFs ci / 2 ^ 62 / n
    if s.meterType m = 3 then
      let pF := s.meanOf cv * s.meanOf ci
      let v2 := s.meanSq cv
      let i2 := s.meanSq ci
      ⟨v2, i2, vi, pF, 0, 0, Config.sqrt v2 * Config.sqrt i2, if pF < 0 then -pF else pF⟩
    else
      let f := s.fundSum m p cand
      let v2 := s.meanSq cv
      let i2 := s.meanSq ci + d.dI2.getD cand 0
      ⟨v2, i2, vi + d.dP.getD cand 0, f.p1 / n, f.qt / n, f.q1 / n, Config.sqrt v2 * Config.sqrt i2, f.s1 / n⟩

/-- A phase below start (R138): its current, given by its square in mA², is below RATED_I / 1,000. -/
def State.belowStart (s : State) (m : Nat) (i2 : Rat) : Bool :=
  let r : Rat := s.ratedI m
  decide (i2 < r * r)

/-- The six figures that form energies, in the order of the carries. -/
def PhaseFig.six (f : PhaseFig) : List Rat := [f.pT, f.pF, f.qT, f.qF, f.sT, f.sF]

/-! ### Energies (R131) -/

/-- Round half away from zero. -/
def roundHalfAway (x : Rat) : Int := if 0 ≤ x then (x + 1 / 2).floor else -((-x + 1 / 2).floor)

/-- The carry of a meter's phase (3 for the sum) and quantity. -/
def carryKey (m ph q : Nat) : Nat := (4 * m + ph) * 6 + q

/-- An energy is rounded to nWh with its carry, which is kept; `none` books nothing and leaves the carry. -/
def bookEnergy (m ph q : Nat) (e : Option Rat) (s : State) : Int × State :=
  match e with
  | none => (0, s)
  | some e =>
    let k := carryKey m ph q
    let x := e + mapGet (fun _ => (0 : Rat)) s.met.carry k
    let out := roundHalfAway x
    (out, { s with met := { s.met with carry := mapSet (fun _ => (0 : Rat)) s.met.carry k (x - out) } })

/-- The six energies of a phase or sum, from its figures in µW over the quantum. -/
def bookSix (m ph : Nat) (figs : Option (List Rat)) (s : State) : List Int × State :=
  let scale : Rat := s.nq * s.ts / (36 / 10)
  (List.range 6).foldl (fun (acc : List Int × State) q =>
    let (e, s) := bookEnergy m ph q (figs.map fun l => l.getD q 0 * scale) acc.2
    (acc.1 ++ [e], s)) ([], s)

/-! ### Directions and quadrants (R139, R140) -/

/-- 0 none; 1 import; 2 export. -/
def direction (e : Int) : Nat := if 0 < e then 1 else if e < 0 then 2 else 0

/-- The quadrant of a set; 0 when every phase is below start. -/
def quadrant (none : Bool) (e q : Int) : Nat :=
  if none then 0 else if 0 ≤ e then (if 0 ≤ q then 1 else 4) else if 0 ≤ q then 2 else 3

/-! ### Phase sequence (R145) -/

/-- An angle in 0.01° within ±30° of `c`. -/
def nearAngle (a c : Int) : Bool := decide (((a - c + 18000) % 36000 - 18000).natAbs ≤ 3000)

/-- The verdict of R145: 0 undetermined; 1 positive; 2 negative; 3 indeterminate. -/
def State.sequence (s : State) (m : Nat) (d : MeterDft) : Nat :=
  if s.meterType m ≠ 2 || d.ph.length < 3 || d.ph.any (fun x => x.v1 < 500 * s.nomV m) then 0
  else
    let a1 := (d.ph.map (·.vang)).getD 1 0
    let a2 := (d.ph.map (·.vang)).getD 2 0
    if nearAngle a1 (-12000) && nearAngle a2 12000 then 1
    else if nearAngle a1 12000 && nearAngle a2 (-12000) then 2 else 3

/-! ### Publication (R143, R144) -/

/-- A register value that saturates at its field. -/
def satField (w : Nat) (v : Int) : Nat := if v < 0 then 0 else min (2 ^ w - 1) v.toNat

/-- A signed register value that saturates at its field. -/
def satSigned (w : Nat) (v : Int) : Nat := ofInt w (max (-(2 ^ (w - 1))) (min (2 ^ (w - 1) - 1) v))

/-- What the close of a quantum finds for one phase of a meter: what it is booked from, whether it is below start, and
its figures with and without that rule. -/
structure PhaseClose where
  booked : Nat
  noLoad : Bool
  fig : PhaseFig
  raw : PhaseFig

/-- The close of a phase: its source, then its figures. -/
def closePhase (m p : Nat) (d : PhaseDft) (s : State) : PhaseClose × State :=
  let (booked, s) := phaseSource m p s
  let ch := if booked = 0 then s.primary m p else s.reference m p
  let cv := (s.voltage m p).getD 0
  if booked = 2 then (⟨2, false, PhaseFig.zero, PhaseFig.zero⟩, s)
  else
    let f := s.phaseFig m p cv (ch.getD 0) booked d
    let low := s.belowStart m f.i2
    let s := (s.setB (Reg.MCH.STATUS.ACTIVE cv) true).setB (Reg.MCH.STATUS.ACTIVE (ch.getD 0)) true
    (⟨booked, low, if low then { PhaseFig.zero with v2 := f.v2, i2 := f.i2 } else f, f⟩, s)

/-- Whether an absent phase has a DFT figure of its own. -/
def dftPhase (d : MeterDft) (p : Nat) : PhaseDft := d.ph.getD p ⟨0, 0, 0, 0, 0, [], []⟩

/-- The published frequency of METER[m], in Hz, and whether it is held or taken over (R132). -/
def State.freqOf (s : State) (m : Nat) : Rat × Bool :=
  let x := s.meter m
  if x.tracks then (if x.cyc.isEmpty then x.fPub else x.cyc.foldl (· + ·) 0 / x.cyc.length, false)
  else
    let y := s.meter 16
    if m ≠ 16 && s.meterType 16 ≠ 0 && s.meterType 16 ≠ 3 && y.tracks then
      (if y.cyc.isEmpty then y.fPub else y.cyc.foldl (· + ·) 0 / y.cyc.length, true)
    else (x.fPub, true)

/-- The first phase voltage that is at least 20 % of NOM_V (R132). -/
def trackingPhase (nomV : Nat) (figs : List PhaseClose) : Option Nat :=
  (List.range figs.length).find? fun p =>
    let v2 := ((figs.map (·.raw.v2)).getD p 0)
    let lim : Rat := 200 * nomV
    decide (lim * lim ≤ v2)

/-- The neutral current that R130 calculates from the phases' booked channels, squared mA. -/
def State.neutralSq (s : State) (m : Nat) (figs : List PhaseClose) : Rat :=
  let chs := (List.range 3).map fun p =>
    if (figs.map (·.booked)).getD p 2 = 0 then s.primary m p
    else if (figs.map (·.booked)).getD p 2 = 1 then s.reference m p else none
  let tot := s.met.run.foldl (fun (t : Rat) (x : SMap Int) =>
    let i : Rat := chs.foldl (fun a c => match c with
      | some c => a + ((mapGet (fun _ => (0 : Int)) x c : Int) : Rat) * s.chFs c / 2 ^ 31
      | none => a) 0
    t + i * i) 0
  if s.nq = 0 then 0 else tot / s.nq

/-- The registers MQ[m].V, I, P, P1, Q1 and ANG of phase `p`. -/
def publishPhase (m p : Nat) (c : PhaseClose) (d : PhaseDft) (s : State) : State :=
  let r := fun (x : Rat) => Config.rounded x
  let s := (s.wr (Reg.MET.MQ.V.VALUE m p) (satField 32 (r (Config.sqrt c.fig.v2)))).wr
    (Reg.MET.MQ.I.VALUE m p) (satField 32 (r (Config.sqrt c.fig.i2)))
  let s := (s.wr (Reg.MET.MQ.P.VALUE m p) (satSigned 32 (r (c.fig.pT / 1000)))).wr
    (Reg.MET.MQ.P1.VALUE m p) (satSigned 32 (r (c.fig.pF / 1000)))
  let s := s.wr (Reg.MET.MQ.Q1.VALUE m p) (satSigned 32 (r (c.fig.qF / 1000)))
  (s.wr (Reg.MET.MQ.ANG.VANG m p) (satSigned 16 d.vang)).wr (Reg.MET.MQ.ANG.PHI m p) (satSigned 16 d.phi)

/-- The THD registers of METER[m]. -/
def publishThd (m : Nat) (d : MeterDft) (s : State) : State :=
  let s := ((s.wr (Reg.MET.MQ.THD_V.PH0 m) (min 1023 (dftPhase d 0).thdV)).wr
    (Reg.MET.MQ.THD_V.PH1 m) (min 1023 (dftPhase d 1).thdV)).wr (Reg.MET.MQ.THD_V.PH2 m) (min 1023 (dftPhase d 2).thdV)
  ((s.wr (Reg.MET.MQ.THD_I.PH0 m) (min 1023 (dftPhase d 0).thdI)).wr
    (Reg.MET.MQ.THD_I.PH1 m) (min 1023 (dftPhase d 1).thdI)).wr (Reg.MET.MQ.THD_I.PH2 m) (min 1023 (dftPhase d 2).thdI)

/-- A packed word of three 21-bit figures. -/
def pack21 (l : List Nat) : Nat :=
  min (2 ^ 21 - 1) (l.getD 0 0) + min (2 ^ 21 - 1) (l.getD 1 0) * 2 ^ 21 + min (2 ^ 21 - 1) (l.getD 2 0) * 2 ^ 42

/-- Adds the figures of the phases that are not below start and have a source. -/
def sumFigs (figs : List PhaseClose) : List Rat :=
  figs.foldl (fun a c => (List.range 6).map fun q => a.getD q 0 + c.fig.six.getD q 0) [0, 0, 0, 0, 0, 0]

/-- The close of METER[m]: sources, quantities, registers and the item. -/
def closeMeter (m : Nat) (part : Bool) (dft : List MeterDft) (s : State) : State :=
  let d := dft.getD m ⟨0, []⟩
  let n := s.phases m
  let (figs, s) := (List.range n).foldl (fun (acc : List PhaseClose × State) p =>
    let (c, s) := closePhase m p (dftPhase d p) acc.2
    (acc.1 ++ [c], s)) ([], s)
  let books := fun (c : PhaseClose) => c.booked ≠ 2 && !c.noLoad
  let (es, s) := (List.range n).foldl (fun (acc : List (List Int) × State) p =>
    let (e, s) := bookSix m p (((figs[p]?).filter books).map fun c => c.fig.six) acc.2
    (acc.1 ++ [e], s)) (([] : List (List Int)), s)
  let total := sumFigs figs
  let empty := !figs.any books
  let (sum, s) := bookSix m 3 (if empty then none else some total) s
  let e := fun (q : Nat) => sum.getD q 0
  let ep := fun (p q : Nat) => (es.getD p []).getD q 0
  let dc := s.meterType m = 3
  let (f, held) := s.freqOf m
  let mhz := if dc then 0 else satField 17 (Config.rounded (f * 1000))
  let locked := !dc && !held && 5 ≤ (s.meter m).good
  let seq := s.sequence m d
  let noSrc := figs.any fun c => c.booked = 2
  let onRef := figs.any fun c => c.booked = 1
  let noLoad := figs.any fun c => c.noLoad
  let pq := s.met.pq.any fun x => x.meter = m
  let quadT := quadrant empty (e 0) (e 2)
  let quadF := quadrant empty (e 1) (e 3)
  let flags := b2n part + 2 * b2n onRef + 4 * b2n noSrc + 8 * b2n noLoad + 16 * b2n (held && !dc) +
    32 * b2n (seq = 2) + 64 * b2n (s.bit (Reg.MET.MQ.STATUS.NEUTRAL m)) + 128 * b2n pq
  let r10 := fun (x : Rat) => (Config.rounded (Config.sqrt x / 10)).toNat
  let words :=
    [m * 2 ^ 56 + s.rtc.qK % 16 * 2 ^ 52 + s.nq % 65536 * 2 ^ 32 + s.rtc.qSec % 2 ^ 32,
     flags * 2 ^ 48 + quadT * 2 ^ 45 + quadF * 2 ^ 42 + direction (e 0) * 2 ^ 40 + direction (e 1) * 2 ^ 38 + mhz,
     ofInt 64 (e 0), ofInt 64 (e 1), ofInt 64 (e 2), ofInt 64 (e 3), ofInt 64 (e 4), ofInt 64 (e 5),
     ofInt 64 (ep 0 0), ofInt 64 (ep 1 0), ofInt 64 (ep 2 0), ofInt 64 (ep 0 1), ofInt 64 (ep 1 1), ofInt 64 (ep 2 1),
     pack21 (figs.map fun c => r10 c.fig.v2), pack21 (figs.map fun c => r10 c.fig.i2)]
  let s := ((hwPost 0 words s) |> hwPost 1 words |> hwPost 2 words |> hwPost 3 words)
  let s := (List.range n).foldl (fun s p =>
    match figs[p]? with | some c => publishPhase m p c (dftPhase d p) s | none => s) s
  let bits := fun (q : Nat → Bool) => (List.range 3).foldl (fun a p => a + b2n (q p) * 2 ^ p) 0
  let s := ((((s.setB (Reg.MET.MQ.STATUS.NOSRC m) noSrc).setB (Reg.MET.MQ.STATUS.REF m) onRef).setB
    (Reg.MET.MQ.STATUS.PQ m) pq).wr (Reg.MET.MQ.STATUS.SEQ m) seq).wr (Reg.MET.MQ.STATUS.QUAD_F m) quadF
  let s := (((s.wr (Reg.MET.MQ.STATUS.QUAD_T m) quadT).wr (Reg.MET.MQ.STATUS.DIR_F m) (direction (e 1))).wr
    (Reg.MET.MQ.STATUS.DIR_T m) (direction (e 0))).wr (Reg.MET.MQ.STATUS.PEXP m) (bits fun p => decide (ep p 0 < 0))
  let s := s.wr (Reg.MET.MQ.STATUS.NOLOAD m) (bits fun p => match figs[p]? with | some c => c.noLoad | none => false)
  let s := ((s.setB (Reg.MET.MQ.FREQ.LOCKED m) locked).setB (Reg.MET.MQ.FREQ.HOLD m) (held && !dc)).wr
    (Reg.MET.MQ.FREQ.MHZ m) mhz
  let mw := fun (q : Nat) => satSigned 32 (Config.rounded (total.getD q 0 / 1000))
  let s := (((((s.wr (Reg.MET.MQ.PSUM.VALUE m) (mw 0)).wr (Reg.MET.MQ.P1SUM.VALUE m) (mw 1)).wr
    (Reg.MET.MQ.QSUM.VALUE m) (mw 2)).wr (Reg.MET.MQ.Q1SUM.VALUE m) (mw 3)).wr (Reg.MET.MQ.SSUM.VALUE m) (mw 4)).wr
    (Reg.MET.MQ.S1SUM.VALUE m) (mw 5)
  let inMeas := match mapSlot (s.inForce m 8 4) 3 with | some c => if dc then 0 else s.meanSq c | none => 0
  let s := (s.wr (Reg.MET.MQ.IN_MEAS.VALUE m) (satField 32 (Config.rounded (Config.sqrt inMeas)))).wr
    (Reg.MET.MQ.IN_CALC.VALUE m)
    (satField 32 (Config.rounded (Config.sqrt (if s.meterType m = 2 then s.neutralSq m figs else 0))))
  let s := publishThd m d (s.wr (Reg.MET.MQ.V0.VALUE m) (min (2 ^ 32 - 1) d.v0))
  let s := (s.wr (Reg.MET.MQ.STAMP.SEC m) s.rtc.qSec).wr (Reg.MET.MQ.STAMP.K m) s.rtc.qK
  let x := s.meter m
  s.setMeter m { x with
    fPub := f
    tracks := !dc && (trackingPhase (s.nomV m) figs).isSome
    cyc := []
    runUsed := s.nq - x.doneN
    doneN := 0 }

/-- The cycle figures start the next quantum (R135). -/
def fundClose (s : State) : State :=
  { s with met := { s.met with
      fund := s.met.fund.map fun x => (x.1, { x.2 with acc := CycSum.zero, used := x.2.last }) } }

/-- The level registers of channel `c` and its counts for the next quantum. -/
def closeChannel (c : Nat) (s : State) : State :=
  let cfg := s.inForce (0x100 + c) 0 4
  if !Nat.testBit cfg 31 then s
  else
    let peak := s.met.run.foldl (fun a x => max a (mapGet (fun _ => (0 : Int)) x c).natAbs) 0
    let ms : Rat := if s.nq = 0 then 0 else (sumProd s.met.run c c : Rat) / s.nq
    let s := (s.wr (Reg.MCH.LEVEL.RMS c) (satField 32 (Config.rounded (Config.sqrt ms)))).wr (Reg.MCH.PEAK.PEAK c) peak
    let x := s.chan c
    let s := (s.setB (Reg.MCH.STATUS.STALE c) (x.valid = 0)).setB (Reg.MCH.STATUS.ACTIVE c) false
    s

/-- The over-range and sample counts of every channel start anew. -/
def resetCounts (s : State) : State :=
  { s with met := { s.met with ch := s.met.ch.map fun x => (x.1, { x.2 with overs := 0, valid := 0 }) } }

/-- The field of the head on SL[l] over the quantum (R102). -/
def closeLink (l : Nat) (s : State) : State :=
  let x := s.link l
  if x.frames = 0 then s
  else
    let ms : Rat := x.b2 / x.frames
    let lim : Rat := s.inForce 0x200 0 4 % 4096
    let s := s.setB (Reg.SLK.STATUS.FIELD l) (decide (lim * lim < ms))
    let s := s.wr (Reg.SLK.FIELD.UT l) (satField 16 (Config.rounded (Config.sqrt ms)))
    s.setLink l { x with b2 := 0, frames := 0 }

/-- MET.HARM takes the selection's last quantum (R143). -/
def publishHarm (h : HarmWindow) (s : State) : State :=
  let m := s.rd Reg.MET.HSEL.METER
  let p := s.rd Reg.MET.HSEL.PHASE
  let used := s.phases m ≠ 0 && s.meterType m ≠ 3 && p < s.phases m
  let s := s.wr Reg.MET.HARM0.RMS1 (if used then h.rms1 else 0)
  let s := forEach 50 (fun i s =>
    let x := if used then h.harm.getD i (0, 0) else (0, 0)
    (s.wr (Reg.MET.HARM.MAG i) x.1).wr (Reg.MET.HARM.ANGLE i) (satSigned 16 x.2)) s
  s.setB Reg.MET.HSEL.VALID true

/-- The engine closes a quantum (R142): links, sources and quantities of every meter in ascending order, the items of
R143, the registers, and the counts for the next quantum. -/
def closeQuantum (part : Bool) (dft : List MeterDft) (h : HarmWindow) (s : State) : State :=
  let s := forEach 128 closeChannel (forEach 16 closeLink s)
  let s := forEach 17 (fun m s => if s.meterType m = 0 then s else closeMeter m part dft s) s
  let s := publishHarm h (srcFlags (resetCounts (fundClose s)))
  let s := { s with met := { s.met with
    nqLast := s.nq
    partLast := part
    run := []
    test := s.met.test.map fun t => { t with quanta := t.quanta + 1 } } }
  s

/-- `QUANTUM_CLOSE` (R142). -/
def execQuantumClose (dft : List MeterDft) (harm : HarmWindow) (s : State) : Out :=
  done (live (fun s => if s.bit Reg.MET.STATUS.RUN then closeQuantum s.sys.splitQ dft harm { s with sys := { s.sys with splitQ := false } } else s) s)

/-! ### Verdicts that follow (R109 to R114) -/

/-- `MET_DISAGREE` (R109). -/
def execMetDisagree (m : Fin 17) (p : Fin 3) (s : State) : Out :=
  done (live (fun s => if (s.phase m p).tenth then raiseCause 0x5008 (4 * m + p) s else s) s)

/-- `VERIFICATION_END` (R112): the primary is used from the next quantum. -/
def execVerificationEnd (m : Fin 17) (p : Fin 3) (s : State) : Out :=
  done (live (fun s =>
    let x := s.phase m p
    if x.src = 2 && 10 ≤ x.agree then srcFlags (s.setPhase m p { x with src := 0, agree := 0, dis := 0 }) else s) s)

/-- `RETURN_TO_PRIMARY` (R113). -/
def execReturnToPrimary (m : Fin 17) (p : Fin 3) (s : State) : Out :=
  done (live (fun s =>
    let x := s.phase m p
    if x.src = 1 && x.cause = 1 && 600 ≤ x.agree then
      srcFlags (setCause 0x5008 (4 * m + p) false (s.setPhase m p { x with src := 0, cause := 0, agree := 0, dis := 0 }))
    else s) s)

/-- The accuracy test starts for every phase that has a reference and is on its primary (R114). -/
def accStart (s : State) : State :=
  if s.mode = 9 || s.bit Reg.MET.TEST_STAT.RUNNING || !s.bit Reg.MET.STATUS.RUN then s
  else
    let l := (List.range 68).filter fun i =>
      s.meterType (i / 4) ≠ 0 && i % 4 < s.phases (i / 4) && (s.reference (i / 4) (i % 4)).isSome &&
        (s.phase (i / 4) (i % 4)).src = 0
    ({ s with met := { s.met with test := some ⟨l.map fun i => (i, 0, 0, 0), 0⟩ } }).setB
      Reg.MET.TEST_STAT.RUNNING true

/-- A write of MET.TEST.START = 1. -/
def metTest (a : Agent) (s : State) : State := gated a 1 accStart s

/-- `MET_TEST_START`. -/
def execMetTestStart (a : Agent) (s : State) : Out := done (metTest a s)

/-- `ACCURACY_TEST_TIME`: TEST_TIME 0xFFFF names no time. -/
def execAccuracyTestTime (s : State) : Out := done (live (fun s => if s.cfg 3 2 2 = 0xFFFF then s else accStart s) s)

/-- The verdict of a phase: 0 pass; 1 fail; 2 none. The currents compared are the RMS over the 600 counting quanta
(DEDUCED, log entry 27). -/
def accVerdict (s : State) (x : Nat × Nat × Rat × Rat) : Nat :=
  if x.2.1 < 600 then 2
  else if s.disagrees (x.1 / 4) (x.2.2.1 / 600) (x.2.2.2 / 600) (5 / 2) then 1 else 0

/-- A phase that fails the test is changed to its reference as under rule 4 of R108. -/
def accFail (i : Nat) (s : State) : State :=
  let x := s.phase (i / 4) (i % 4)
  if x.src ≠ 0 then s
  else raiseCause 0x5008 i (s.setPhase (i / 4) (i % 4) { x with src := 1, cause := putBit x.cause 0 true, agree := 0 })

/-- The test ends with its verdicts (R114). -/
def accEnd (t : AccTest) (s : State) : State :=
  let vs := t.phases.map fun x => (x.1, accVerdict s x, x.2.1)
  let s := ({ s with met := { s.met with test := none } }).setB Reg.MET.TEST_STAT.RUNNING false
  let s := s.setB Reg.MET.TEST_STAT.NO_VERDICT (vs.any fun v => v.2.1 = 2)
  let s := s.wr Reg.MET.TEST_STAT.FAIL
    ((List.range 17).foldl (fun a m => a + b2n (vs.any fun v => v.1 / 4 = m && v.2.1 = 1) * 2 ^ m) 0)
  let s := forEach 17 (fun m s =>
    let l := vs.filter fun v => v.1 / 4 = m
    if l.isEmpty then s
    else
      let v := if l.any (fun v => v.2.1 = 1) then 1 else if l.any (fun v => v.2.1 = 2) then 2 else 0
      s.record 0x15 (payloadOf [(0, m), (1, v), (2, (l.map (·.2.2)).foldl min 600)]) false) s
  srcFlags ((vs.filter fun v => v.2.1 = 1).foldl (fun s v => accFail v.1 s) s)

/-- `ACCURACY_TEST_END` (R114): every phase has its 600 counting quanta, or 6,000 quanta have passed. -/
def execAccuracyTestEnd (s : State) : Out :=
  done (live (fun s =>
    match s.met.test with
    | none => s
    | some t => if 6000 ≤ t.quanta || t.phases.all (fun x => 600 ≤ x.2.1) then accEnd t s else s) s)

/-! ### Tracking and supervision (R132, R133, R135, R145, R146) -/

/-- An angle difference in 2^-32 turn, wrapped to (−1/2, 1/2] turn. -/
def wrapTurn (d : Int) : Int :=
  let x := d % 2 ^ 32
  if x ≤ 2 ^ 31 then x else x - 2 ^ 32

/-- The tracker takes the angle of DFT bin 1 of a cycle (R132). -/
def trackCycle (ang : Int) (x : MeterSt) : MeterSt :=
  let d := wrapTurn (ang - x.xPrev)
  let fMeas : Rat := x.fEst * (1 + (d : Rat) / 2 ^ 32)
  let f := x.fEst + (fMeas - x.fEst) / 4
  let f := if f < 45 then 45 else if 65 < f then 65 else f
  { x with fEst := f, xPrev := ang, good := if d.natAbs * 360 < 2 ^ 32 then x.good + 1 else 0, cyc := x.cyc ++ [fMeas] }

/-- The figures of a cycle of `n` samples join the sums of a phase and candidate; the part that an earlier quantum
counted is corrected (R135). -/
def fundCycle (n before : Nat) (v : CycSum) (f : FundSt) : FundSt :=
  { f with
    acc := cycAdd (cycAdd f.acc ((n : Int) - before) v) before (cycAdd v (-1) f.used)
    last := v }

/-- `TRACKER_CYCLE` (R132, R134, R135): `ang` is the angle of bin 1 in 2^-32 turn, `n` the samples of the cycle, and
`vals` the cycle's figures, for each phase first of the primary, then of the reference. -/
def execTrackerCycle (m : Fin 17) (ang : Int) (n : Nat) (vals : List CycSum) (s : State) : Out :=
  done (live (fun s =>
    if !s.bit Reg.MET.STATUS.RUN || s.meterType m = 0 || s.meterType m = 3 then s
    else
      let x := s.meter m
      let before := min n x.runUsed
      let s := s.setMeter m { trackCycle ang x with runUsed := x.runUsed - before, doneN := x.doneN + (n - before) }
      forEach 6 (fun i s =>
        let k := fundKey m (i / 2) (i % 2)
        let f := fundCycle n before (vals.getD i CycSum.zero) (mapGet (fun _ => FundSt.init) s.met.fund k)
        { s with met := { s.met with fund := mapSet (fun _ => FundSt.init) s.met.fund k f } }) s) s)

/-- `MET_FREQ_RANGE` (R132). -/
def execMetFreqRange (s : State) : Out := done (live (fun s => if s.bit Reg.MET.STATUS.RUN then raise 0x5010 16 s else s) s)

/-- `FNOM_SET` (R133): once per start. -/
def execFnomSet (meanMhz : Nat) (s : State) : Out :=
  done (live (fun s =>
    if s.bit Reg.MET.STATUS.RUN && s.rd Reg.MET.FNOM.HZ = 0 then
      s.wr Reg.MET.FNOM.HZ (if meanMhz < 55000 then 50 else 60) else s) s)

/-- `MET_PHASE_SEQ` (R145). -/
def execMetPhaseSeq (m : Fin 17) (s : State) : Out :=
  done (live (fun s =>
    if s.meterType m = 2 && 2 ≤ s.rd (Reg.MET.MQ.STATUS.SEQ m) then
      raise 0x5011 m (s.setB (Reg.MET.MQ.STATUS.SEQ_STK m) true) else s) s)

/-- The outlets that a missing neutral stops: the meter's own AC outlet, or for METER[16] every AC outlet (R252
condition 7, R255). -/
def neutralStop (m : Nat) (s : State) : State :=
  forEach 16 (fun n s => if (n = m || m = 16) && s.isAc n then outRamp n 12 s else s) s

/-- `MET_NEUTRAL_LOST` (R146). -/
def execMetNeutralLost (m : Fin 17) (s : State) : Out :=
  done (live (fun s =>
    if s.meterType m = 2 && !s.bit (Reg.MET.MQ.STATUS.NEUTRAL m) then
      let s := (s.setB (Reg.MET.MQ.STATUS.NEUTRAL m) true).setB (Reg.MET.MQ.STATUS.NEUT_STK m) true
      neutralStop m (addDegr 0x5012 m true (raiseCause 0x5012 m s))
    else s) s)

/-- `NEUTRAL_RESTORED` (R146). -/
def execNeutralRestored (m : Fin 17) (s : State) : Out :=
  done (live (fun s => dropDegr 0x5012 m (setCause 0x5012 m false (s.setB (Reg.MET.MQ.STATUS.NEUTRAL m) false))) s)

/-! ### Power quality (R147 to R150) -/

/-- Share of nominal in 0.01 %, of a cycle RMS in mV. -/
def State.pqShare (s : State) (m rms : Nat) : Nat :=
  if s.nomV m = 0 then 0 else (Config.rounded ((rms : Rat) * 10 / s.nomV m)).toNat

/-- A power-quality record (R149). -/
def pqRecord (x : PqOpen) (flags nowMs : Nat) (s : State) : State :=
  s.record x.ty (payloadOf [(0, x.meter), (1, x.phases), (2, flags), (4, (nowMs - x.startMs) % 2 ^ 32), (8, x.extreme % 2 ^ 32),
    (0xC, x.wall % 2 ^ 64)]) false

/-- The count that an event of a record type increments. -/
def pqCount (ty : Nat) : Fld :=
  if ty = 0x18 then Reg.MET.PQ_STAT.DIP else if ty = 0x19 then Reg.MET.PQ_STAT.SWELL
  else if ty = 0x1A then Reg.MET.PQ_STAT.INTR else Reg.MET.PQ_STAT.SLOW

/-- The open event of a meter and record type. -/
def State.pqOpen (s : State) (m ty : Nat) : Option PqOpen := s.met.pq.find? fun x => x.meter = m && x.ty = ty

/-- The open events without that of a meter and type. -/
def pqDrop (m ty : Nat) (s : State) : State :=
  { s with met := { s.met with pq := s.met.pq.filter fun x => !(x.meter = m && x.ty = ty) } }

/-- An event ends: its record. -/
def pqEnd (x : PqOpen) (flags nowMs : Nat) (s : State) : State := pqRecord x flags nowMs (pqDrop x.meter x.ty s)

/-- An event starts. -/
def pqStart (m ty phases extreme nowMs : Nat) (s : State) : State :=
  let s := s.inc (pqCount ty)
  { s with met := { s.met with pq := s.met.pq ++ [⟨m, ty, phases, nowMs, s.wall, extreme⟩] } }

/-- An open event takes in another half cycle. -/
def pqMore (m ty phases extreme : Nat) (s : State) : State :=
  { s with met := { s.met with pq := s.met.pq.map fun x =>
      if x.meter = m && x.ty = ty then { x with phases := Nat.lor x.phases phases, extreme := extreme } else x } }

/-- The voltage events of METER[m] after a refresh of its cycle RMS (R147); a dip during which an interruption starts
becomes the interruption. -/
def pqVoltage (m : Nat) (rms : List Nat) (nowMs : Nat) (s : State) : State :=
  let nom := s.nomV m
  let pct := fun (f : Fld) => s.rd f * 10 * nom
  let hys := s.rd Reg.MET.PQ_V.HYS * nom
  let mask := fun (q : Nat → Bool) => (List.range rms.length).foldl (fun a p => a + b2n (q (rms.getD p 0)) * 2 ^ p) 0
  let low := rms.foldl min (rms.headD 0)
  let high := rms.foldl max 0
  let dip := pct Reg.MET.PQ_V.DIP
  let swell := pct Reg.MET.PQ_V.SWELL
  let intr := pct Reg.MET.PQ_V.INTR
  -- interruption
  let s := match s.pqOpen m 0x1A with
    | some x =>
      let ext := min x.extreme (s.pqShare m low)
      let s := pqMore m 0x1A (mask fun v => v < intr) ext s
      if rms.any (fun v => intr + hys ≤ v) then pqEnd { x with extreme := ext } 0 nowMs s else s
    | none =>
      if !rms.isEmpty && rms.all (fun v => v < intr) then
        match s.pqOpen m 0x18 with
        | some x =>
          let s := (pqDrop m 0x18 s).inc Reg.MET.PQ_STAT.INTR
          { s with met := { s.met with pq := s.met.pq ++ [{ x with ty := 0x1A, phases := mask fun _ => true, extreme := s.pqShare m low }] } }
        | none => pqStart m 0x1A (mask fun _ => true) (s.pqShare m low) nowMs s
      else s
  -- dip
  let s := match s.pqOpen m 0x18 with
    | some x =>
      let ext := min x.extreme (s.pqShare m low)
      let x := { x with extreme := ext, phases := Nat.lor x.phases (mask fun v => v < dip) }
      let s := pqMore m 0x18 x.phases ext s
      if rms.all (fun v => dip + hys ≤ v) then pqEnd x 0 nowMs s else s
    | none =>
      if (s.pqOpen m 0x1A).isNone && rms.any (fun v => v < dip) then
        pqStart m 0x18 (mask fun v => v < dip) (s.pqShare m low) nowMs s else s
  -- swell
  match s.pqOpen m 0x19 with
    | some x =>
      let ext := max x.extreme (s.pqShare m high)
      let x := { x with extreme := ext, phases := Nat.lor x.phases (mask fun v => swell < v) }
      let s := pqMore m 0x19 x.phases ext s
      if rms.all (fun v => v + hys ≤ swell) then pqEnd x 0 nowMs s else s
    | none =>
      if rms.any (fun v => swell < v) then pqStart m 0x19 (mask fun v => swell < v) (s.pqShare m high) nowMs s else s

/-- `CYCLE_RMS_REFRESH` (R147): `rms` are the cycle RMS of the phases in mV, `nowMs` a running count of ms. -/
def execCycleRmsRefresh (m : Fin 17) (rms : List Nat) (nowMs : Nat) (s : State) : Out :=
  done (live (fun s =>
    if s.bit Reg.MET.STATUS.RUN && s.flag Reg.MET.PQ_EN.EN m && (s.meterType m = 1 || s.meterType m = 2) then
      pqVoltage m rms nowMs s else s) s)

/-- `PQ_SLOW_EVENT` (R148): `kind` 0 frequency, 1 unbalance, 2 THD; its condition has held (`start`) or cleared for
its count of quanta. -/
def execPqSlowEvent (kind : Fin 3) (m : Fin 17) (start : Bool) (phases : Fin 8) (extreme nowMs : Nat) (s : State) : Out :=
  done (live (fun s =>
    let ty := 0x1B + kind.val
    if !s.bit Reg.MET.STATUS.RUN || !s.flag Reg.MET.PQ_EN.EN m || (kind = 0 && m ≠ 16) then s
    else match s.pqOpen m ty with
      | some x => if start then s else pqEnd { x with phases := Nat.lor x.phases phases, extreme := extreme } 0 nowMs s
      | none => if start then pqStart m ty phases extreme nowMs s else s) s)

/-- A power-fail warning closes every open event (R150). -/
def pqCloseAll (nowMs : Nat) (s : State) : State := s.met.pq.foldl (fun s x => pqEnd x 1 nowMs s) s

/-- A write of MET.HSEL (R143): VALID clears. -/
def hselSet (a : Agent) (cur : Bool) (phase meter : Nat) (s : State) : State :=
  gated a 0 (fun s =>
    (((s.setB Reg.MET.HSEL.CUR cur).wr Reg.MET.HSEL.PHASE phase).wr Reg.MET.HSEL.METER meter).setB
      Reg.MET.HSEL.VALID false) s

/-- `HSEL_WRITE`. -/
def execHselWrite (a : Agent) (cur : Bool) (phase : Fin 4) (meter : Fin 32) (s : State) : Out :=
  done (hselSet a cur phase meter s)

end Sys2Proof.Machine
end

