-- ==== Sys2Proof/Machine/Legal.lean ====
section
/-!
DEFINITION. The legal area and the metrology seal (chapter 03): the set in force, pending values, commits, and the
seal pair.
-/
namespace Sys2Proof.Machine

/-! ### Constant blocks and the registers that show them (R115, R126) -/

/-- The block numbers in order. -/
def blockNumbers : List Nat :=
  List.range 17 ++ (List.range 128).map (0x100 + ·) ++ [0x200] ++ (List.range 16).map (0x300 + ·)

/-- The size of a block's data. -/
def blockLen (b : Nat) : Nat := if b < 0x100 then 16 else if b < 0x200 then 20 else if b < 0x300 then 8 else 12

/-- The registers that show a block, in the order of its words. -/
def blockRegs (b : Nat) : List Nat :=
  if b < 0x100 then (List.range 4).map fun i => 0x10100 + 0x10 * b + 4 * i
  else if b < 0x200 then (List.range 5).map fun i => 0x11000 + 0x40 * (b - 0x100) + 4 * i
  else if b < 0x300 then [0x10018, 0x10008]
  else (List.range 3).map fun i => 0x13014 + 0x40 * (b - 0x300) + 4 * i

/-- A block's data at its full size. -/
def State.blockData (s : State) (b : Nat) : List Byte := ((s.block b) ++ List.replicate 20 0).take (blockLen b)

/-- A block as the registers hold it. -/
def State.blockPending (s : State) (b : Nat) : List Byte := (blockRegs b).flatMap fun a => leBytes 4 (s.word a)

/-- The registers of a block take the set in force. -/
def blockLoad (b : Nat) (s : State) : State :=
  let d := s.blockData b
  ((blockRegs b).zipIdx).foldl (fun s x => s.setWord x.1 (leAt d (4 * x.2) 4)) s

/-- Every register of the set in force is loaded; nothing is pending any longer (R120, R126). -/
def setLoad (s : State) : State :=
  let s := blockNumbers.foldl (fun s b => blockLoad b s) s
  forEach 128 (fun c s => s.setB (Reg.MCH.STATUS.PENDING c) false) (s.setB Reg.LEGAL.STATUS.PENDING false)

/-- Pending values are discarded (R120). -/
def pendingDiscard (s : State) : State := if s.bit Reg.LEGAL.STATUS.PENDING then setLoad s else s

/-- The CRC of a set: CRC-32 over the data of its 162 blocks in order (DEDUCED, log entry 28). -/
def setCrc (data : Nat → List Byte) : Nat := crc32 (blockNumbers.flatMap data)

/-- A set with one block replaced. -/
def setBlock (m : SMap (List Byte)) (b : Nat) (d : List Byte) : SMap (List Byte) := mapSet (fun _ => []) m b d

/-- MET.STATUS.MAP_DIFF: the METROLOGY section differs from the set in force (R124). -/
def mapDiff (s : State) : State :=
  let n := s.cfg 3 0 2
  s.setB Reg.MET.STATUS.MAP_DIFF ((List.range n).any fun i =>
    let b := s.cfg 3 (8 + 36 * i) 2
    ((s.sec 3).drop (8 + 36 * i + 4)).take (blockLen b) ≠ s.blockData b)

/-! ### RWL writes (R9, R120) -/

/-- The condition of RWL fields. -/
def State.rwlOk (s : State) : Bool := s.mode = 4 && s.bit Reg.MET.SEAL.OPEN

/-- The RWL fields of a register take their bits of a word. -/
def rwlStore (d : RegDesc) (addr v : Nat) (s : State) : State :=
  d.fields.foldl (fun s (f : FldDesc) =>
    if f.acc = .rwl then s.wr ⟨addr, f.lo, f.hi - f.lo + 1⟩ (v / 2 ^ f.lo) else s) s

/-- A write to the RWL fields of a register: pending, or ignored with SYS_SEALED_WRITE. -/
def rwlWrite (a : Agent) (addr v : Nat) (s : State) : State :=
  match findReg addr with
  | none => s
  | some d =>
    if !s.running || !(d.fields.any fun f => f.acc = .rwl) then s
    else if s.level a < 1 then deny a s
    else if s.rwlOk then
      let s := (rwlStore d addr v s).setB Reg.LEGAL.STATUS.PENDING true
      if 0x11000 ≤ addr && addr < 0x13000 then s.setB (Reg.MCH.STATUS.PENDING ((addr - 0x11000) / 0x40)) true else s
    else raise 0x0005 addr s

/-- `RWL_FIELD_WRITE` (R9, R120). -/
def execRwlFieldWrite (a : Agent) (addr value : Nat) (s : State) : Out := done (rwlWrite a addr value s)

/-! ### Consistency (R121) -/

/-- A quantity slot names an enabled channel of the right QTY and HPF. -/
def State.slotOk (s : State) (dc : Bool) (cur : Bool) (slot : Option Nat) : Bool :=
  match slot with
  | none => true
  | some c =>
    let cfg := s.inForce (0x100 + c) 0 4
    let qty := (if cur then 1 else 0) + (if dc then 2 else 0)
    decide (Nat.testBit cfg 31 ∧ cfg / 2 ^ 12 % 4 = qty ∧ Nat.testBit cfg 9 = !dc)

/-- The channels that the MAP words at an offset name. -/
def State.namedChannels (s : State) (off : Nat) : List Nat :=
  (List.range 17).flatMap fun m => (List.range 4).filterMap fun p => mapSlot (s.inForce m off 4) p

/-- The consistency rules of R121, on a state that holds the proposed set. -/
def State.setConsistent (s : State) : Bool :=
  let slots := (List.range 17).all fun m =>
    let dc := decide (s.meterType m = 3)
    (List.range 4).all fun p =>
      s.slotOk dc false (mapSlot (s.inForce m 4 4) p) && s.slotOk dc true (mapSlot (s.inForce m 8 4) p) &&
        s.slotOk dc true (mapSlot (s.inForce m 12 4) p) &&
        (!dc || p = 0 || ((mapSlot (s.inForce m 4 4) p).isNone && (mapSlot (s.inForce m 8 4) p).isNone))
  let refs := s.namedChannels 12
  let both := (s.namedChannels 8).any refs.contains
  let chans := (List.range 128).all fun c =>
    let cfg := s.inForce (0x100 + c) 0 4
    let gain := s.inForce (0x100 + c) 8 4
    !Nat.testBit cfg 31 ||
      ((decide (cfg / 2 ^ 10 % 4 = 3) == decide (cfg / 2 ^ 28 % 8 = 2)) && 0x20000000 ≤ gain && gain ≤ 0x7FFFFFFF)
  let incomer := (List.range (s.phases 16)).all fun p =>
    (match s.primary 16 p with | some c => decide (s.chSrc c = 2) | none => false) && (s.reference 16 p).isSome
  slots && !both && chans && incomer

/-! ### Commits (R121, R122) -/

/-- The head bindings of a proposed set: serial and body CRC read at the last enumeration. -/
def bindHeads (s : State) (set : SMap (List Byte)) : SMap (List Byte) :=
  let s' := { s with met := { s.met with set := set } }
  (List.range 16).foldl (fun m l =>
    match s'.headEntry l with
    | some i =>
      let x := mapGet (fun _ => ((0, 0) : Nat × Nat)) s.sys.shelfId i
      setBlock m (0x300 + l) (leBytes 8 x.1 ++ leBytes 4 x.2)
    | none => m) set

/-- The set a commit proposes, from the registers or from the METROLOGY section. -/
def State.proposal (s : State) (image : Bool) : SMap (List Byte) :=
  let set := if image then
      (List.range (s.cfg 3 0 2)).foldl (fun m i =>
        let b := s.cfg 3 (8 + 36 * i) 2
        setBlock m b (((s.sec 3).drop (12 + 36 * i)).take (blockLen b))) s.met.set
    else (blockNumbers.filter (· < 0x300)).foldl (fun m b => setBlock m b (s.blockPending b)) s.met.set
  bindHeads s set

/-- The blocks of a proposal that differ from the set in force; all of them when there is none. -/
def State.changedBlocks (s : State) (set : SMap (List Byte)) : List (Nat × List Byte) :=
  (blockNumbers.map fun b => (b, ((mapGet (fun _ => []) set b) ++ List.replicate 20 (0 : Byte)).take (blockLen b))).filter
    fun x => !s.bit Reg.LEGAL.STATUS.IN_FORCE || x.2 ≠ s.blockData x.1

/-- A write of LEGAL.COMMIT.GO = 1 (R121). -/
def commitGo (a : Agent) (image : Bool) (s : State) : State :=
  gated a 1 (fun s =>
    let set := s.proposal image
    let l := s.changedBlocks set
    let conds := [(1, s.bit Reg.MET.SEAL.OPEN), (2, decide (s.mode = 4)), (6, !s.bit Reg.LEGAL.STATUS.COMMITTING),
      (4, !l.isEmpty), (3, decide (l.length + 2 ≤ s.legalFree)),
      (5, ({ s with met := { s.met with set := set } } : State).setConsistent)]
    match conds.find? (fun x => !x.2) with
    | some (code, _) => raise 0x3C02 code (s.wr Reg.LEGAL.RESULT.CODE code)
    | none => { s with met := { s.met with commit := some (l, b2n image) } }.setB Reg.LEGAL.STATUS.COMMITTING true) s

/-- `LEGAL_COMMIT_GO`. -/
def execLegalCommitGo (a : Agent) (image : Bool) (s : State) : Out := done (commitGo a image s)

/-- The records of a commit (R116, R122): the constant records, then the commit record. -/
def commitRecords (l : List (Nat × List Byte)) (no src crc : Nat) (s : State) : State :=
  let s := l.foldl (fun s x => legalRecord 0x10 (payloadOf [(0, x.1), (2, no), (6, blockLen x.1), (8, leValue x.2)]) s) s
  legalRecord 0x11 (payloadOf [(0, no), (4, l.length), (6, src), (8, crc)]) s

/-- The CRC of the set that a commit of the blocks `l` leaves (R121): a changed block as proposed, any other as it is. -/
def State.commitCrc (s : State) (l : List (Nat × List Byte)) : Nat :=
  setCrc fun b => match l.find? (fun x => x.1 = b) with | some x => x.2 | none => s.blockData b

/-- `LEGAL_COMMIT_COMPLETE` (R122): the records are written, the pending flags clear, and the set waits for the next
quantum boundary. -/
def execLegalCommitComplete (s : State) : Out :=
  done (live (fun s =>
    match s.met.commit with
    | none => s
    | some (l, src) =>
      let no := s.rd Reg.LEGAL.COMMIT_NO.NUMBER + 1
      let crc := s.commitCrc l
      let s := commitRecords l no src crc { s with met := { s.met with commit := none, next := some (l, no, crc) } }
      let s := forEach 128 (fun c s => s.setB (Reg.MCH.STATUS.PENDING c) false) (s.setB Reg.LEGAL.STATUS.PENDING false)
      (s.setB Reg.LEGAL.STATUS.COMMITTING false).wr Reg.LEGAL.RESULT.CODE 0) s)

/-- A set comes into force: its registers, the carries of R131 clear, heads are bound anew and verified, and the AON
copies of R167. -/
def setInForce (set : SMap (List Byte)) (no crc : Nat) (s : State) : State :=
  let s := { s with met := { s.met with set := set, carry := [] } }
  let s := (((s.wr Reg.LEGAL.COMMIT_NO.NUMBER no).wr Reg.LEGAL.SET_CRC.CRC crc).setB
    Reg.LEGAL.STATUS.IN_FORCE true).setB Reg.MET.STATUS.UNCAL false
  mapDiff (battCopy (setLoad (setCause 0x5005 0 false s)))

/-- A phase whose head is bound again goes through verification (R122). -/
def rebound (x : MetPh) : MetPh :=
  let cause := putBit x.cause 2 false
  if x.src = 1 && Nat.testBit x.cause 2 && cause = 0 then { x with cause := 0, src := 2, agree := 0 }
  else { x with cause := cause }

/-- The commit that waits comes into force at a quantum boundary (R122). -/
def commitInForce (s : State) : State :=
  match s.met.next with
  | none => s
  | some (l, no, crc) =>
    let set := l.foldl (fun m x => setBlock m x.1 x.2) s.met.set
    let s := setInForce set no crc { s with met := { s.met with next := none } }
    srcFlags (forEach 16 (fun n s =>
      if (s.link n).unbound then
        let s := (setCause 0x5006 n false (s.setLink n { s.link n with unbound := false })).setB
          (Reg.SLK.STATUS.BOUND_OK n) true
        linkPhases n rebound s
      else if (s.headEntry n).isSome then s.setB (Reg.SLK.STATUS.BOUND_OK n) true else s) s)

/-! ### Selection at a start (R117, R118) -/

/-- What the walk through the legal area has found: the set of the latest complete commit with its COMMIT_NO and
SET_CRC, the constant records since as (COMMIT_NO, block, data), and whether a commit record failed its check. -/
structure LegalWalk where
  set : SMap (List Byte)
  no : Nat
  crc : Nat
  loose : List (Nat × Nat × List Byte)
  corrupt : Bool

/-- One legal slot of the walk. -/
def legalStep (w : LegalWalk) (r : Rec) : LegalWalk :=
  let p := r.payload
  let at_ := fun (off n : Nat) => p / 256 ^ off % 256 ^ n
  if r.ty = 0x10 then
    { w with loose := w.loose ++ [(at_ 2 4, at_ 0 2, leBytes (at_ 6 1) (at_ 8 (at_ 6 1)))] }
  else if r.ty = 0x11 then
    let no := at_ 0 4
    let mine := w.loose.filter fun x => x.1 = no
    let set := mine.foldl (fun m x => setBlock m x.2.1 x.2.2) w.set
    let data := fun (b : Nat) => ((mapGet (fun _ => []) set b) ++ List.replicate 20 (0 : Byte)).take (blockLen b)
    if mine.length = at_ 4 2 && setCrc data = at_ 8 4 then
      ⟨set, no, at_ 8 4, w.loose.filter fun x => x.1 ≠ no, w.corrupt⟩
    else { w with corrupt := true }
  else w

/-- The heads in use are compared with their bindings (R117). -/
def headBindings (s : State) : State :=
  forEach 16 (fun l s =>
    match s.headEntry l with
    | none => s
    | some i =>
      let x := mapGet (fun _ => ((0, 0) : Nat × Nat)) s.sys.shelfId i
      let ok := decide (s.inForce (0x300 + l) 0 8 = x.1 ∧ s.inForce (0x300 + l) 8 4 = x.2)
      let s := (s.setB (Reg.SLK.STATUS.BOUND_OK l) ok).setLink l { s.link l with unbound := !ok }
      if ok then s else raiseCause 0x5006 l s) s

/-- Step 8 of R69: the set in force is found, heads are checked, and every phase with a reference is verified (R112,
R117, R118). -/
def legalSelect (s : State) : State :=
  let w := s.evr.legal.foldl (fun w x => legalStep w x.2) ⟨[], 0, 0, [], false⟩
  let s := { s with met := { s.met with ph := [], link := [], ch := [], meter := [], fund := [], run := [] } }
  let s := if w.corrupt then raise 0xFC03 0 s else s
  let s := match w.loose with
    | [] => s
    | x :: _ => s.record 0x12 (payloadOf [(0, x.1), (4, w.loose.length)]) false
  if w.no = 0 then raiseCause 0x5005 0 (s.setB Reg.MET.STATUS.UNCAL true)
  else
    let carry := s.met.carry
    let s := setInForce w.set w.no w.crc s
    let s := headBindings { s with met := { s.met with carry := carry } }
    srcFlags (forEach 17 (fun m s => forEach 3 (fun p s =>
      if p < s.phases m && (s.reference m p).isSome then s.setPhase m p { MetPh.init with src := 2 } else s) s) s)

/-! ### The metrology seal (R119, R120) -/

/-- A SEAL record (R509). -/
def sealRecord (st : Nat) (dorm : Bool) (s : State) : State :=
  legalRecord 0x13 (payloadOf [(0, st), (1, b2n dorm), (2, s.rd Reg.MET.SEAL.OPENS), (4, s.wall % 2 ^ 32)]) s

/-- The seal has changed to `st`: 0 closed, 1 open, 2 invalid. -/
def sealSeen (st : Nat) (dorm : Bool) (s : State) : State :=
  let s := (s.setB Reg.MET.SEAL.OPEN (st = 1)).setB Reg.MET.SEAL.INVALID (st = 2)
  let s := if st = 1 then s.inc Reg.MET.SEAL.OPENS else s
  let s := sealRecord st dorm s
  let s := if st = 1 then s else pendingDiscard s
  let s := if st = 2 then raiseCause 0x5007 0 s else setCause 0x5007 0 false s
  if st = 2 || (st = 1 && s.mode ≠ 4) then
    let s := raiseCause 0x5402 0 (s.setB Reg.TMP.STATUS.SEAL_STK true)
    tamperApply 3 (tamperRecord 3 0 (b2n dorm) s.reading 0 true s)
  else tamperRelease (setCause 0x5402 0 false s)

/-- `SEAL_CHANGE` (R119): a change in DORMANT is latched for the next start. -/
def execSealChange (st : Fin 3) (s : State) : Out :=
  let now := if s.bit Reg.MET.SEAL.INVALID then 2 else if s.bit Reg.MET.SEAL.OPEN then 1 else 0
  done (if !s.aon then s
    else if s.mode = 0 then
      if s.met.sealLatch.getLast?.getD now = st.val then s
      else { s with met := { s.met with sealLatch := s.met.sealLatch ++ [st.val] } }
    else if now = st.val then s else sealSeen st false s)

/-- The seal changes latched in DORMANT are written at the next start. -/
def sealLatched (s : State) : State :=
  let l := s.met.sealLatch
  l.foldl (fun s st => sealSeen st true s) { s with met := { s.met with sealLatch := [] } }

end Sys2Proof.Machine
end

