-- ==== Sys2Proof/Machine/Clock.lean ====
section
/-!
DEFINITION. The clock (chapters 01 and 06): second edges, the disciplined quantum timer, clock supervision, and the
RTC's reading with its adjustments.
-/
namespace Sys2Proof.Machine

/-! ### Second edges and clock supervision (R30 to R34, R187) -/

/-- The quantum timer takes the CLK_DSP count of the second that ended, and PWR.OPSEC counts (R30, R31, R66). -/
def secondCount (n : Nat) (s : State) : State :=
  let dev : Int := (n : Int) - 300000000
  let good := decide (dev.natAbs ≤ 30000)
  let s := (s.wrI Reg.CLK.DISC.DEV dev).setB Reg.CLK.STATUS.DISC_OK good
  let s := { s with sys := { s.sys with secCycles := n, discBad := if good then 0 else min 3 (s.sys.discBad + 1) } }
  (if good then setCause 0x4103 0 false s else s).incWrap Reg.PWR.OPSEC.SECONDS

/-- An RTC second edge: a tick counts, and quantum 0 starts anew; the count of the second is taken in modes 1 to 11
(R30, R31, R66, R180). -/
def secondEdge (cycles : Nat) (s : State) : State :=
  if !s.aon then s
  else
    let s := s.incWrap Reg.RTC.TICK.SECONDS
    let s := { s with rtc := { s.rtc with k := 0, edge := true } }
    if s.mode = 0 || s.sys.resetLow then s
    else secondCount (if s.bit Reg.CLK.STATUS.RTC_OK then cycles else 300000000) s

/-- `RTC_SECOND_EDGE` (R30): `cycles` CLK_DSP cycles have passed since the last one. -/
def execRtcSecondEdge (cycles : Nat) (s : State) : Out := done (secondEdge cycles s)

/-- `CLK_DISC_RANGE` (R31). -/
def execClkDiscRange (s : State) : Out :=
  done (if s.running && 3 ≤ s.sys.discBad then raiseCause 0x4103 0 s else s)

/-- `CLK_ROOT_LOST` (R33): the Keeper opens every LSE[n] and asserts PMI_B_N, whatever the core die does. -/
def execClkRootLost (s : State) : Out :=
  done (if !s.running then s
    else
      let s := { s with saf := { s.saf with kpr := { s.saf.kpr with lse := 0, pmi := false } } }
      raise 0x8102 0 s)

/-- `CLK_PLL_UNLOCK` (R34). -/
def execClkPllUnlock (s : State) : Out :=
  done (if s.running then raise 0x8101 0 (s.setB Reg.CLK.STATUS.PLL_LOCK false) else s)

/-- The ticks come from CLK_DSP, or from the oscillator again (R32, R187). -/
def freeRun (on : Bool) (s : State) : State :=
  let s := (s.setB Reg.CLK.STATUS.RTC_OK (!on)).setB Reg.RTC.STATUS.FREE on
  { s with sys := { s.sys with freeRun := on } }

/-- `RTC_OSC_FAIL` (R32, R187): ticks come from CLK_DSP. -/
def execRtcOscFail (s : State) : Out := done (live (fun s => raiseCause 0x4E02 0 (freeRun true s)) s)

/-- `RTC_OSC_RESTORED` (R187). -/
def execRtcOscRestored (s : State) : Out := done (live (fun s => setCause 0x4E02 0 false (freeRun false s)) s)

/-! ### The reading and its adjustments (R180 to R186) -/

/-- The reading in 1/32,768 s, `frac` 1/32,768 s after the last second edge (R180). -/
def State.readingAt (s : State) (frac : Nat) : Int := (s.rd Reg.RTC.TICK.SECONDS * 32768 + frac : Nat) + s.rtc.corr

/-- The part of a slew that boundary `k` has reached, from an adjustment of `d` (R184). -/
def slewAt (d : Int) (k : Nat) : Int := roundHalfAway ((k * d : Int) / 64)

/-- A number of 1/32,768 s in ms (log entry 7), saturating at a signed field of `w` bits. -/
def msField (w : Nat) (d : Int) : Nat :=
  ofInt w (max (-(2 ^ (w - 1) : Int)) (min (2 ^ (w - 1) - 1 : Int) (Config.rounded ((d : Rat) * 1000 / 32768))))

/-- RTC.SLEW and SLEWING follow the running slew. -/
def slewShow (s : State) : State :=
  match s.rtc.slew with
  | none => ((s.wr Reg.RTC.SLEW.QUANTA 0).wr Reg.RTC.SLEW.REMAIN_MS 0).setB Reg.RTC.STATUS.SLEWING false
  | some (d, k) => ((s.wr Reg.RTC.SLEW.QUANTA (64 - k)).wr Reg.RTC.SLEW.REMAIN_MS (msField 24 (d - slewAt d k))).setB
      Reg.RTC.STATUS.SLEWING true

/-- The remainder of a slew and a step that waits are discarded, and hold off no source (R183). -/
def adjDiscard (s : State) : State :=
  if s.rtc.slew.isNone && s.rtc.step.isNone then s
  else
    let src := s.rd Reg.RTC.ADJ.SRC
    slewShow { s with rtc := { s.rtc with
      slew := none, step := none, hold := mapSet (fun _ => 0) s.rtc.hold src 0 } }

/-- Whether a source of higher priority than `src` holds it off (R182); `hold` keeps TICK + 1. -/
def State.heldOff (s : State) (src : Nat) : Bool :=
  s.rtc.hold.any fun x => x.1 < src && s.rd Reg.RTC.TICK.SECONDS < x.2 - 1 + 3600

/-- SYNCED: a request was accepted within the last 3,600 s. -/
def State.synced (s : State) : Bool :=
  match s.rtc.lastOk with | some t => decide (s.rd Reg.RTC.TICK.SECONDS < t + 3600) | none => false

/-- RTC.ADJ is written. -/
def adjShow (src kind : Nat) (d : Int) (s : State) : State :=
  ((s.wr Reg.RTC.ADJ.SRC src).wr Reg.RTC.ADJ.KIND kind).wr Reg.RTC.ADJ.DELTA_MS (msField 28 d)

/-- A request of source `src` is accepted: it holds off lower sources and keeps SYNCED (R182, R186). -/
def timeAccept (src : Nat) (s : State) : State :=
  let tick := s.rd Reg.RTC.TICK.SECONDS
  let s := { s with rtc := { s.rtc with hold := mapSet (fun _ => 0) s.rtc.hold src (tick + 1), lastOk := some tick } }
  s.wr Reg.RTC.STATUS.LAST_SRC src

/-- An accepted adjustment starts as a slew (R183, R184). -/
def slewBegin (src : Nat) (d : Int) (s : State) : State :=
  let s := (adjShow src 1 d s).inc Reg.RTC.COUNTS.SLEWS
  slewShow { s with rtc := { s.rtc with slew := some (d, 0) } }

/-- An accepted adjustment waits as a step for the next boundary (R183, R185). -/
def stepWait (src : Nat) (d : Int) (s : State) : State :=
  let s := adjShow src 2 d s
  { s with rtc := { s.rtc with step := some (d, src) } }

/-- A request of source `src` (1 beacon, 2 back office, 3 host) to adjust by `d` 1/32,768 s (R182, R183). -/
def timeRequest (src : Nat) (d : Int) (s : State) : State :=
  let valid := s.bit Reg.RTC.STATUS.VALID
  if !s.flag Reg.RTC.CFG.SRC_EN (src - 1) || (valid && s.heldOff src) then
    raise 0x0E04 src ((adjShow src 3 d s).inc Reg.RTC.COUNTS.REFUSED)
  else if valid && decide (d.natAbs * 1000 < 32768) then timeAccept src s
  else
    let s := adjDiscard s
    if valid && decide (d.natAbs ≤ s.rd Reg.RTC.CFG.LIMIT * 32768) then slewBegin src d (timeAccept src s)
    else stepWait src d (timeAccept src s)

/-- A write of RTC.SET_CTL with GO = 1, `now` 1/32,768 s after the last second edge (R182). -/
def rtcSet (a : Agent) (frac now : Nat) (s : State) : State :=
  gated a 2 (fun s =>
    let s := s.wr Reg.RTC.SET_CTL.FRAC frac
    let d := ((s.rd Reg.RTC.SET_SEC.SEC * 32768 + frac % 32768 : Nat) : Int) - s.readingAt now
    timeRequest (if a = .host then 3 else 2) d s) s

/-- `RTC_SET_REQUEST`. -/
def execRtcSetRequest (a : Agent) (frac now : Fin 32768) (s : State) : Out := done (rtcSet a frac now s)

/-- A read of RTC.NOW_SEC, `now` 1/32,768 s after the last second edge: NOW_FRAC is latched (R180). -/
def nowRead (now : Nat) (s : State) : State :=
  let r := s.readingAt now
  (s.wr Reg.RTC.NOW_SEC.SEC ((r / 32768) % 2 ^ 32).toNat).wr Reg.RTC.NOW_FRAC.FRAC (r % 32768).toNat

/-- `RTC_NOW_READ`. -/
def execRtcNowRead (now : Fin 32768) (s : State) : Out := done (if s.running then nowRead now s else s)

/-- The reading becomes valid, or is no longer valid (R186). -/
def setValid (v : Bool) (s : State) : State :=
  let s := s.setB Reg.RTC.STATUS.VALID v
  if v then dropDegr 0x4E03 0 (setCause 0x4E03 0 false s)
  else addDegr 0x4E03 0 true (raiseCause 0x4E03 0 s)

/-- The boundary's part of a slew or a step (R184, R185), with whether a step was applied. -/
def adjApply (s : State) : Bool × State :=
  match s.rtc.step with
  | some (d, src) =>
    let was := s.reading
    let s := { s with rtc := { s.rtc with step := none, corr := s.rtc.corr + d } }
    let now := s.reading
    let s := legalRecord 0x28 (payloadOf [(0, ((was / 327680) % 2 ^ 64).toNat), (8, (was % 327680 / 10).toNat),
      (0xA, ((now / 327680) % 2 ^ 64).toNat), (0x12, (now % 327680 / 10).toNat), (0x14, src)]) s
    let s := raise 0x0E01 src ((s.inc Reg.RTC.COUNTS.STEPS).setB Reg.RTC.STATUS.STEP_STK true)
    (true, if s.bit Reg.RTC.STATUS.VALID then s else setValid true s)
  | none =>
    match s.rtc.slew with
    | some (d, k) =>
      let corr := s.rtc.corr + (slewAt d (k + 1) - slewAt d k)
      (false, slewShow { s with rtc := { s.rtc with corr := corr, slew := if 63 ≤ k then none else some (d, k + 1) } })
    | none => (false, s)

/-- The tick part of a quantum boundary: the boundary at a second edge starts quantum 0, any other the next quantum
(R30). -/
def boundaryTick (s : State) : State :=
  if s.rtc.edge then { s with rtc := { s.rtc with edge := false, k := 0 } }
  else { s with rtc := { s.rtc with k := min 9 (s.rtc.k + 1) } }

/-- The K and RTC second of the quantum that starts. -/
def quantumStarts (s : State) : State := { s with rtc := { s.rtc with qK := s.rtc.k, qSec := s.rtcSec } }

end Sys2Proof.Machine
end

