-- ==== Sys2Proof/Machine/Calendar.lean ====
section
/-!
DEFINITION. Tariff calendars (R188 to R190): civil dates, the rate for a reading, switch points and billing days
between two readings, the ends of demand intervals, and the check of a calendar. Readings are in 1/327,680 s.
-/
namespace Sys2Proof.Machine

/-! ### Civil dates -/

/-- Seconds as units of the reading. -/
def unitsOf (sec : Int) : Int := sec * 327680

/-- Whether a year is a leap year. -/
def leapYear (y : Nat) : Bool := y % 4 = 0 && (y % 100 ≠ 0 || y % 400 = 0)

/-- The days of a month. -/
def monthDays (y m : Nat) : Nat :=
  if m = 2 then (if leapYear y then 29 else 28) else if m = 4 || m = 6 || m = 9 || m = 11 then 30 else 31

/-- Year, month and day of a count of days since 1970-01-01. -/
def civil (days : Int) : Nat × Nat × Nat :=
  let z := days + 719468
  let era := z / 146097
  let doe := z % 146097
  let yoe := (doe - doe / 1460 + doe / 36524 - doe / 146096) / 365
  let doy := doe - (365 * yoe + yoe / 4 - yoe / 100)
  let mp := (5 * doy + 2) / 153
  let d := doy - (153 * mp + 2) / 5 + 1
  let m := if mp < 10 then mp + 3 else mp - 9
  ((yoe + era * 400 + (if m ≤ 2 then 1 else 0)).toNat, m.toNat, d.toNat)

/-- The weekday of a day, Monday 0. -/
def weekday (days : Int) : Nat := ((days + 3) % 7).toNat

/-! ### Fields of a calendar (R188) -/

/-- TZ_OFFSET, minutes; 0 without a calendar. -/
def calTz (c : List Byte) : Int := toInt 16 (leAt c 4 2)

/-- DEMAND_LEN, minutes; 15 without a calendar (R202). -/
def calLen (c : List Byte) : Nat := if c.isEmpty then 15 else leAt c 6 1

/-- PRICE_I and PRICE_E of a rate. -/
def calPrice (c : List Byte) (exp : Bool) (r : Nat) : Nat := leAt c ((if exp then 0x7C0 else 0x780) + 4 * r) 4

/-- The used switch points of a day type as (MINUTE, RATE_I, RATE_E). -/
def calPoints (c : List Byte) (d : Nat) : List (Nat × Nat × Nat) :=
  ((List.range 12).map fun i =>
    let o := 0x80 + 48 * d + 4 * i
    (leAt c o 2, leAt c (o + 2) 1, leAt c (o + 3) 1)).filter fun p => p.1 ≠ 0xFFFF

/-- The day type of a date: the first special day that matches, else the weekday's of the latest season that has
started, or of the last season of the year (R189). -/
def calDayType (c : List Byte) (days : Int) : Nat :=
  let (y, m, d) := civil days
  match (List.range (leAt c 0xB 1)).find? fun j =>
      (leAt c (0x380 + 8 * j) 2 = 0 || leAt c (0x380 + 8 * j) 2 = y) && leAt c (0x382 + 8 * j) 1 = m &&
        leAt c (0x383 + 8 * j) 1 = d with
  | some j => leAt c (0x384 + 8 * j) 1
  | none =>
    let l := List.range (leAt c 0xA 1)
    let started := l.filter fun i =>
      let a := 100 * leAt c (0x20 + 12 * i) 1 + leAt c (0x21 + 12 * i) 1
      a ≤ 100 * m + d
    let i := match started.getLast? with | some i => i | none => l.getLast?.getD 0
    leAt c (0x22 + 12 * i + weekday days) 1

/-- The local time of a reading, in units since the local 1970-01-01 (R181). -/
def localUnits (c : List Byte) (leap : Nat) (r : Int) : Int := r + unitsOf (calTz c * 60 - leap)

/-- The local day of a reading. -/
def localDay (c : List Byte) (leap : Nat) (r : Int) : Int := localUnits c leap r / unitsOf 86400

/-- The local minute of the day of a reading. -/
def localMinute (c : List Byte) (leap : Nat) (r : Int) : Nat :=
  (localUnits c leap r % unitsOf 86400 / unitsOf 60).toNat

/-- RATE_I and RATE_E for a reading (R189). -/
def calRates (c : List Byte) (leap : Nat) (r : Int) : Nat × Nat :=
  match ((calPoints c (calDayType c (localDay c leap r))).filter fun p => p.1 ≤ localMinute c leap r).getLast? with
  | some p => p.2
  | none => (leAt c 8 1, leAt c 9 1)

/-- The reading of a local day and minute. -/
def nominal (c : List Byte) (leap : Nat) (day : Int) (minute : Nat) : Int :=
  unitsOf (day * 86400 + minute * 60 - calTz c * 60 + leap)

/-- The local days from that of `lo` to that of `hi`. -/
def daysBetween (c : List Byte) (leap : Nat) (lo hi : Int) : List Int :=
  (List.range (localDay c leap hi - localDay c leap lo + 1).toNat).map fun i => localDay c leap lo + i

/-- The switch points with nominal time in (lo, hi], ascending. -/
def switchPoints (c : List Byte) (leap : Nat) (lo hi : Int) : List (Int × Nat × Nat) :=
  if c.isEmpty then []
  else (daysBetween c leap lo hi).flatMap fun d =>
    ((calPoints c (calDayType c d)).map fun p => (nominal c leap d p.1, p.2)).filter fun x => lo < x.1 && x.1 ≤ hi

/-- The instants in (lo, hi] that are local 00:00 of a day BILL_DAY, ascending (R196). -/
def billCloses (c : List Byte) (leap : Nat) (lo hi : Int) : List Int :=
  let b := leAt c 7 1
  if c.isEmpty || b = 0 then []
  else (((daysBetween c leap lo hi).filter fun d => (civil d).2.2 = b).map fun d => nominal c leap d 0).filter
    fun t => lo < t && t ≤ hi

/-- The nominal end of an interval that starts at a reading (R193). -/
def demandEnd (c : List Byte) (leap : Nat) (r : Int) : Int :=
  let l := unitsOf (60 * calLen c)
  let x := localUnits c leap r % unitsOf 86400
  if l = 0 then r else r + (x / l + 1) * l - x

/-! ### The check of a calendar (R190) -/

/-- Whether a list rises strictly. -/
def rising : List Nat → Bool
  | a :: b :: r => decide (a < b) && rising (b :: r)
  | _ => true

/-- A real month and day of a year. -/
def realDate (y m d : Nat) : Bool := 1 ≤ m && m ≤ 12 && 1 ≤ d && d ≤ monthDays y m

/-- Whether `n` bytes from an offset are 0. -/
def zeroAt (c : List Byte) (off n : Nat) : Bool := leAt c off n = 0

/-- The header of a calendar lies in its ranges. -/
def calHeaderOk (c : List Byte) : Bool :=
  leAt c 0 2 ≠ 0 && leAt c 2 2 ≤ 1 && decide (-720 ≤ calTz c) && decide (calTz c ≤ 840) &&
    [1, 5, 10, 15, 30, 60].contains (leAt c 6 1) && leAt c 7 1 ≤ 28 && leAt c 8 1 ≤ 15 && leAt c 9 1 ≤ 15 &&
    1 ≤ leAt c 0xA 1 && leAt c 0xA 1 ≤ 8 && leAt c 0xB 1 ≤ 128 && zeroAt c 0xC 20

/-- Seasons: real dates that ascend strictly, day types 0 to 15 (29 February counts as a real date). -/
def calSeasonsOk (c : List Byte) : Bool :=
  let l := List.range (leAt c 0xA 1)
  rising (l.map fun i => 100 * leAt c (0x20 + 12 * i) 1 + leAt c (0x21 + 12 * i) 1) && l.all fun i =>
    realDate 2000 (leAt c (0x20 + 12 * i) 1) (leAt c (0x21 + 12 * i) 1) && zeroAt c (0x29 + 12 * i) 3 &&
      (List.range 7).all fun w => leAt c (0x22 + 12 * i + w) 1 ≤ 15

/-- The day types that a season or a special day names. -/
def calNamed (c : List Byte) : List Nat :=
  ((List.range (leAt c 0xA 1)).flatMap fun i => (List.range 7).map fun w => leAt c (0x22 + 12 * i + w) 1) ++
    (List.range (leAt c 0xB 1)).map fun j => leAt c (0x384 + 8 * j) 1

/-- Day types: used minutes ascend strictly within the day, rates 0 to 15, and a named day type starts at MINUTE 0. -/
def calDaysOk (c : List Byte) : Bool :=
  (List.range 16).all fun d =>
    let p := calPoints c d
    rising (p.map (·.1)) && p.all (fun x => x.1 ≤ 1439 && x.2.1 ≤ 15 && x.2.2 ≤ 15) &&
      (!(calNamed c).contains d || p.any fun x => x.1 = 0)

/-- Special days: real dates and day types 0 to 15; 0 from SPECIALS upwards. -/
def calSpecialsOk (c : List Byte) : Bool :=
  (List.range 128).all fun j =>
    let o := 0x380 + 8 * j
    if leAt c 0xB 1 ≤ j then zeroAt c o 8
    else realDate (if leAt c o 2 = 0 then 2000 else leAt c o 2) (leAt c (o + 2) 1) (leAt c (o + 3) 1) &&
      leAt c (o + 4) 1 ≤ 15 && zeroAt c (o + 5) 3

/-- ARM_RESULT for a calendar: 0 valid, or the code of the first rule broken. -/
def calCheck (c : List Byte) : Nat :=
  if !calHeaderOk c then 2 else if !calSeasonsOk c then 3 else if !calDaysOk c then 4 else if !calSpecialsOk c then 5
  else 0

end Sys2Proof.Machine
end

