-- ==== Sys2Proof/Machine/Billing.lean ====
section
/-!
DEFINITION. Billing and tariffs (chapter 06): booking of quantum results, demand intervals, the load profile, billing
periods, and the tariff engine. Readings are in 1/327,680 s.
-/
namespace Sys2Proof.Machine

/-! ### Bind sets of the engines (R191, R482, R547) -/

/-- Bind set `k`. -/
def State.bset (s : State) (k : Nat) : BindSet := mapGet (fun _ => BindSet.empty) s.sets k

/-- Bind set `k` replaced. -/
def State.setBset (s : State) (k : Nat) (b : BindSet) : State :=
  { s with sets := mapSet (fun _ => BindSet.empty) s.sets k b }

/-- The lowest free bind set. -/
def State.freeBset (s : State) : Option Nat := (List.range 4).find? fun k => (s.bset k).st = 0

/-- An engine registers a pending set; `none` when no set is free. -/
def engineSet (owner kind arg time : Nat) (s : State) : Option State :=
  s.freeBset.map fun k =>
    { s.setBset k { BindSet.empty with st := 2, owner := owner, kind := kind, arg := arg, time := time, order := s.bindNo }
      with bindNo := s.bindNo + 1 }

/-- The sets of an owner are freed. -/
def freeOwner (owner : Nat) (s : State) : State :=
  forEach 4 (fun k s => if (s.bset k).st ≠ 0 && (s.bset k).owner = owner then s.setBset k BindSet.empty else s) s

/-! ### The tariff engine (R191, R192) -/

/-- RTC.LEAP. -/
def State.leap (s : State) : Nat := s.rd Reg.RTC.LEAP.TAI_UTC

/-- The registers that follow the tariff engine. -/
def tarShow (s : State) : State :=
  let s := (s.wr Reg.TAR.STATUS.ACTIVE_ID (leAt s.bil.active 0 2)).setB Reg.TAR.STATUS.ACTIVE (!s.bil.active.isEmpty)
  let s := (s.setB Reg.TAR.STATUS.ARMED s.tar.armed.isSome).wr Reg.TAR.ARMED_ID.CAL_ID
    (match s.tar.armed with | some x => leAt x.1 0 2 | none => 0)
  s.setB Reg.BIL.STATUS.NO_CAL s.bil.active.isEmpty

/-- The passive calendar is armed with ACT_SEC: ARM_RESULT and the new state. -/
def armPassive (s : State) : Nat × State :=
  let cal := readBytes s.tar.passive 0 2048
  let act := s.rd Reg.TAR.ACT_SEC.SEC
  if s.tar.armed.isSome then (7, s)
  else if calCheck cal ≠ 0 then (calCheck cal, s)
  else match engineSet 2 2 0 act s with
    | none => (6, s)
    | some s => (0, { s with tar := { s.tar with armed := some (cal, act), armedNv := some (cal, act) } })

/-- The end of an arming: ARM_RESULT, and TAR_ARM_REFUSED for a refusal (R191). -/
def armEnd (code : Nat) (s : State) : State :=
  let s := tarShow (s.wr Reg.TAR.STATUS.ARM_RESULT code)
  if code = 0 then s else raise 0x1601 code s

/-- A write of TAR.ACT_CTL.ARM = 1 (R191): a session below Utility level is refused with result 1. -/
def tarArm (a : Agent) (s : State) : State :=
  if !s.modeWrites then s
  else if s.level a < 2 then armEnd 1 s
  else armEnd (armPassive s).1 (armPassive s).2

/-- `TAR_ARM`. -/
def execTarArm (a : Agent) (s : State) : Out := done (tarArm a s)

/-- The arming is cancelled. -/
def disarm (s : State) : State :=
  if s.tar.armed.isNone then s
  else tarShow (freeOwner 2 { s with tar := { s.tar with armed := none, armedNv := none } })

/-- A write of TAR.ACT_CTL.DISARM = 1 (R191). -/
def tarDisarm (a : Agent) (s : State) : State := gated a 2 disarm s

/-- `TAR_DISARM`. -/
def execTarDisarm (a : Agent) (s : State) : Out := done (tarDisarm a s)

/-- A calendar becomes active with its nominal time in seconds (R192). -/
def calActivate (cal : List Byte) (sec : Nat) (s : State) : State :=
  let old := leAt s.bil.active 0 2
  let s := { s with bil := { s.bil with active := cal } }
  let s := (s.wr Reg.TAR.ACTIVATED.SEC sec).record 0x29 (payloadOf [(0, old), (2, leAt cal 0 2), (4, sec)]) false
  tarShow s

/-- The armed calendar becomes active at a reading (R192), its bind set with it (R551); its store copy stays until the
folio that activates it is committed. -/
def armedActivate (r : Int) (s : State) : State :=
  match s.tar.armed with
  | none => s
  | some (cal, act) =>
    calActivate cal (if act = 0 then (r / 327680).toNat else act)
      ((freeOwner 2 { s with tar := { s.tar with armed := none } }).setFlag Reg.HP.IRQ_STATUS.SRC 1 true)

/-- The armed calendar is due at a reading (R192). No activation is taken while VALID = 0 or in LOCKDOWN (R59, R186). -/
def State.armedDue (s : State) (r : Int) : Option (List Byte) :=
  match s.tar.armed with
  | none => none
  | some (cal, act) =>
    if s.bit Reg.RTC.STATUS.VALID && s.mode ≠ 11 && (act = 0 || decide (unitsOf act ≤ r)
        || (match s.bil.hwm with | some h => decide (unitsOf act ≤ h) | none => false)) then some cal else none

/-! ### Booking (R176 to R178) -/

/-- Every item of a hardware queue is taken by its consumer; poisoned items are dropped with Q_QUANTUM_LOST (R543). -/
def takeAll (n : Nat) (s : State) : List Item × State :=
  let q := s.q n
  let l := q.chain ++ q.annex ++ q.tail.toList
  let s := s.setQ n Queue.empty
  let s := l.foldl (fun s i =>
    if i.poison = 0 then s
    else raise 0x8603 n ((s.inc (Reg.Q.COUNTS.POISONED n)).setB (Reg.Q.STATUS.POISON_STK n) true)) s
  (l.filter fun i => i.poison = 0, s)

/-- The registers that a quantum books, as (QTY, rate or 16 for none, amount in nWh) (R176). -/
def bookings (w : List Nat) (ri re : Nat) : List (Nat × Nat × Nat) :=
  let at_ := fun (i : Nat) => w.getD i 0
  let e := fun (i : Nat) => toInt 64 (at_ i)
  let dirT := at_ 1 / 2 ^ 40 % 4
  let dirF := at_ 1 / 2 ^ 38 % 4
  let active := fun (q dir : Nat) (x : Int) =>
    if dir = 1 then [(q, ri, x.natAbs)] else if dir = 2 then [(q + 1, re, x.natAbs)] else []
  let other := fun (quad base app : Nat) (x : Int) (s : Nat) =>
    if quad = 0 then []
    else
      let imp := decide (quad = 1 ∨ quad = 4)
      let r := if imp then ri else re
      [(base + quad - 1, r, x.natAbs), (if imp then app else app + 1, r, s)]
  let phases := (List.range 3).flatMap fun p =>
    let x := e (8 + p)
    if 0 < x then [(16 + p, 16, x.natAbs)] else if x < 0 then [(19 + p, 16, x.natAbs)] else []
  active 0 dirT (e 2) ++ active 2 dirF (e 3) ++ other (at_ 1 / 2 ^ 45 % 8) 4 12 (e 4) (at_ 6) ++
    other (at_ 1 / 2 ^ 42 % 8) 8 14 (e 5) (at_ 7) ++ phases

/-- A register of the billing store. -/
def State.bilReg (s : State) (m q rate : Nat) : Nat := mapGet (fun _ => 0) s.bil.reg ((22 * m + q) * 17 + rate)

/-- A register grows by whole mWh. -/
def bilAdd (m q rate add : Nat) (s : State) : State :=
  { s with bil := { s.bil with
      reg := mapSet (fun _ => 0) s.bil.reg ((22 * m + q) * 17 + rate) ((s.bilReg m q rate + add) % 2 ^ 64) } }

/-- One booking of R177, with the whole mWh it adds. -/
def bookOne (m q rate e : Nat) (s : State) : Nat × State :=
  let t := mapGet (fun _ => 0) s.bil.res (22 * m + q) + e
  let add := t / 1000000
  let s := { s with bil := { s.bil with res := mapSet (fun _ => 0) s.bil.res (22 * m + q) (t % 1000000) } }
  let s := if rate < 16 then bilAdd m q rate add s else s
  (add, bilAdd m q 16 add s)

/-- A quantum-result item is booked at the rates in force; the mWh added by QTY. -/
def bookItem (i : Item) (s : State) : List (Nat × Nat) × State :=
  let m := i.words.getD 0 0 / 2 ^ 56 % 256
  (bookings i.words (s.rd Reg.BIL.STATUS.RATE_I) (s.rd Reg.BIL.STATUS.RATE_E)).foldl
    (fun x b => let y := bookOne m b.1 b.2.1 b.2.2 x.2; (x.1 ++ [(b.1, y.1)], y.2)) ([], s)

/-- The mWh that a list of additions holds for a QTY. -/
def addsOf (l : List (Nat × Nat)) (q : Nat) : Nat := (l.filter fun x => x.1 = q).foldl (fun a x => a + x.2) 0

/-! ### Demand intervals (R193 to R195) -/

/-- A quantum of a meter joins the running interval: its mWh and its directions (R141, R193). -/
def demandAdd (m : Nat) (w1 : Nat) (adds : List (Nat × Nat)) (v : Interval) : Interval :=
  let sum := (List.range 4).foldl (fun x j =>
    mapSet (fun _ => 0) x (4 * m + j) (mapGet (fun _ => 0) x (4 * m + j) + addsOf adds j)) v.sum
  let dt := w1 / 2 ^ 40 % 4
  let df := w1 / 2 ^ 38 % 4
  let bits := b2n (dt = 1) + 2 * b2n (dt = 2) + 4 * b2n (df = 1) + 8 * b2n (df = 2)
  { v with sum := sum, dir := mapSet (fun _ => 0) v.dir m (Nat.lor (mapGet (fun _ => 0) v.dir m) bits) }

/-- An interval starts at a boundary's reading, with its nominal start. -/
def openInterval (r start : Int) (flags : Nat) (s : State) : State :=
  let cal := s.bil.active
  let v : Interval :=
    { start := start, nomEnd := demandEnd cal s.leap r, len := calLen cal, sum := [], dir := [], flags := flags,
      quanta := 0, rateI := s.rd Reg.BIL.STATUS.RATE_I, rateE := s.rd Reg.BIL.STATUS.RATE_E }
  { s with bil := { s.bil with interval := some v } }

/-- The FLAGS of an interval of METER[16] at a reading: `extra` with SHORT, REPEAT and the reversal flags (R141,
R195). -/
def intervalFlags (hwm : Option Int) (stop : Int) (extra : Nat) (v : Interval) : Nat :=
  let d := mapGet (fun _ => 0) v.dir 16
  let short := decide (stop < v.nomEnd ∨ v.nomEnd - unitsOf (60 * v.len) < v.start)
  let rep := match hwm with | some h => decide (v.nomEnd ≤ h) | none => false
  Nat.lor (Nat.lor v.flags extra)
    (b2n short + 4 * b2n rep + 8 * b2n (decide (d % 4 = 3)) + 16 * b2n (decide (d / 4 % 4 = 3)))

/-- A record of the load profile is written (R195). -/
def profilePut (endR : Int) (flags : Nat) (sums : List Nat) (count ri re quanta : Nat) (s : State) : State :=
  let v := payloadOf [(0, ((endR / 327680) % 2 ^ 32).toNat), (4, (endR % 327680 / 10).toNat), (6, flags),
    (8, sums.getD 0 0 % 2 ^ 32), (0xC, sums.getD 1 0 % 2 ^ 32), (0x10, sums.getD 2 0 % 2 ^ 32),
    (0x14, sums.getD 3 0 % 2 ^ 32), (0x18, count % 2 ^ 16), (0x1A, ri), (0x1B, re), (0x1C, quanta % 2 ^ 32)]
  { s with bil := { s.bil with
      profile := mapSet (fun _ => 0) s.bil.profile s.bil.head v
      head := (s.bil.head + 1) % 9216
      count := min 9216 (s.bil.count + 1) } }

/-- Demand `d` of sum `j` of a meter meets a maximum (R194). -/
def maximum (m j rate d sec : Nat) (s : State) : State :=
  let k := (4 * m + j) * 17 + rate
  if (mapGet (fun _ => ((0, 0) : Nat × Nat)) s.bil.maxima k).1 < d then
    { s with bil := { s.bil with maxima := mapSet (fun _ => ((0, 0) : Nat × Nat)) s.bil.maxima k (d, sec) } }
  else s

/-- The running interval closes at a reading (R194, R195); `next` is the nominal start of the next one. -/
def demandClose (endR next : Int) (extra : Nat) (s : State) : State :=
  match s.bil.interval with
  | none => s
  | some v =>
    let l := 60 * v.len
    let sec := ((endR / 327680) % 2 ^ 32).toNat
    let s := forEach 17 (fun m s =>
      if s.meterType m = 0 then s
      else forEach 4 (fun j s =>
        let d := mapGet (fun _ => 0) v.sum (4 * m + j) * 3600 / l
        maximum m j 16 d sec (maximum m j (if j % 2 = 0 then v.rateI else v.rateE) d sec s)) s) s
    let s := if s.meterType 16 = 0 then s
      else profilePut endR (intervalFlags s.bil.hwm endR extra v)
        ((List.range 4).map fun j => mapGet (fun _ => 0) v.sum (64 + j)) 1 v.rateI v.rateE v.quanta s
    { s with bil := { s.bil with interval := none }, tar := { s.tar with demandClosed := true, nextStart := next } }

/-! ### Billing periods (R196, R197) -/

/-- The open period closes at a reading (R197). -/
def periodClose (r : Int) (flags : Nat) (s : State) : State :=
  let b := s.bil
  let p : Period :=
    { number := b.period, opened := b.opened, closed := r, flags := flags, qserial := s.per.qserial, reg := b.reg,
      maxima := b.maxima }
  let s := { s with bil := { b with
      history := (p :: b.history).take 24, maxima := [], period := b.period + 1, opened := r } }
  let s := legalRecord 0x2A (payloadOf [(0, b.period % 2 ^ 32), (4, flags), (8, s.bilReg 16 0 16), (0x10, s.bilReg 16 1 16)]) s
  { s with tar := { s.tar with periodClosed := true } }

/-- A write of BIL.CLOSE.GO = 1 (R196). -/
def bilClose (a : Agent) (s : State) : State := gated a 2 (fun s => { s with tar := { s.tar with closeGo := true } }) s

/-- `BIL_CLOSE_GO`. -/
def execBilCloseGo (a : Agent) (s : State) : Out := done (bilClose a s)

/-! ### Steps 2 to 4 of R198 -/

/-- RATE_I and RATE_E in force. -/
def setRates (x : Nat × Nat) (s : State) : State :=
  (s.wr Reg.BIL.STATUS.RATE_I x.1).wr Reg.BIL.STATUS.RATE_E x.2

/-- The rates for a reading: rate 0 without a calendar, the default rates while VALID = 0 (R186, R202). -/
def State.ratesAt (s : State) (r : Int) : Nat × Nat :=
  let c := s.bil.active
  if c.isEmpty then (0, 0)
  else if !s.bit Reg.RTC.STATUS.VALID then (leAt c 8 1, leAt c 9 1)
  else calRates c s.leap r

/-- Step 2: the demand interval closes when its end has come, at a step, or when an activation changes DEMAND_LEN or
TZ_OFFSET (R185, R192, R193). -/
def stepDemand (stepped : Bool) (coming : Option (List Byte)) (r : Int) (s : State) : State :=
  match s.bil.interval with
  | none => s
  | some v =>
    let change := match coming with
      | some c => decide (calLen c ≠ calLen s.bil.active ∨ calTz c ≠ calTz s.bil.active)
      | none => false
    let ended := decide (v.nomEnd ≤ r)
    if stepped then demandClose r r 0x81 s
    else if change then demandClose r r (if ended then 0 else 1) s
    else if ended then demandClose r v.nomEnd 0 s
    else s

/-- Step 3: the closes whose nominal time lies in (HWM, r], a commanded close and one that an activation demands; one
close for causes that coincide (R196, R199). None while VALID = 0 (R186). -/
def stepPeriod (coming : Option (List Byte)) (r : Int) (s : State) : State :=
  if !s.bit Reg.RTC.STATUS.VALID then s
  else
    let n := (billCloses s.bil.active s.leap (s.bil.hwm.getD r) r).length
    let act := match coming with | some c => decide (leAt c 2 2 % 2 = 1) | none => false
    let last := 2 * b2n s.tar.closeGo + 4 * b2n act
    let k := max n (b2n (s.tar.closeGo || act))
    let s := forEach k (fun i s => periodClose r (if i + 1 = k then last else 0) s) s
    { s with tar := { s.tar with closeGo := false } }

/-- Step 4: the activation, then the rate switch; a boundary at or before the HWM switches nothing (R192, R199). -/
def stepTariff (coming : Option (List Byte)) (r : Int) (s : State) : State :=
  let lo := s.bil.hwm.getD r
  let s := if coming.isSome then armedActivate r s else s
  let valid := s.bit Reg.RTC.STATUS.VALID
  let s := s.setB Reg.BIL.STATUS.DEFAULT (!valid)
  let s := if !valid || s.bil.active.isEmpty || coming.isSome || !s.tar.wasValid then setRates (s.ratesAt r) s
    else match (switchPoints s.bil.active s.leap lo r).getLast? with
      | some x => setRates x.2 s
      | none => s
  let s := { s with tar := { s.tar with wasValid := valid } }
  if s.bil.interval.isNone then openInterval r s.tar.nextStart 0 s else s

/-- The high-water mark advances after step 4 while VALID = 1 (R186, R199). -/
def hwmAdvance (r : Int) (s : State) : State :=
  if s.bit Reg.RTC.STATUS.VALID then
    { s with bil := { s.bil with hwm := some (match s.bil.hwm with | some h => max h r | none => r) } }
  else s

/-- The BIL registers and RTC.HWM_SEC follow the billing store. -/
def bilShow (s : State) : State :=
  let b := s.bil
  let sec := fun (r : Int) => ((r / 327680) % 2 ^ 32).toNat
  let s := (s.wr Reg.BIL.PERIOD.NUMBER b.period).wr Reg.BIL.PERIOD_START.SEC (sec b.opened)
  let s := (s.wr Reg.BIL.PROFILE.HEAD b.head).wr Reg.BIL.PROFILE.COUNT b.count
  let s := s.wr Reg.RTC.HWM_SEC.SEC (match b.hwm with | some h => sec h | none => 0)
  match b.interval with
  | none => s
  | some v =>
    let f := intervalFlags b.hwm v.nomEnd 0 v
    (((s.wr Reg.BIL.INTERVAL.ELAPSED_Q (min 65535 v.quanta)).wr Reg.BIL.INTERVAL.FLAGS (f % 64)).wr
      Reg.BIL.INTERVAL.LEN_MIN v.len).wr Reg.BIL.INT_END.SEC (sec v.nomEnd)

/-! ### BIL.SEL (R176) -/

/-- The value and stamp that a selection names; `none` when it names no register. -/
def State.bilValue (s : State) (hist m q rate : Nat) : Option (Nat × Nat) :=
  if 16 < m || (21 < q && (q < 24 || 27 < q)) || (16 < rate && (q < 16 || 21 < q)) then none
  else
    let from_ := fun (reg : SMap Nat) (mx : SMap (Nat × Nat)) (qs : Nat) =>
      if 24 ≤ q then mapGet (fun _ => ((0, 0) : Nat × Nat)) mx ((4 * m + (q - 24)) * 17 + rate)
      else (mapGet (fun _ => 0) reg ((22 * m + q) * 17 + (if 16 ≤ q then 16 else rate)), qs % 2 ^ 32)
    if hist = 0 then if s.meterType m = 0 then none else some (from_ s.bil.reg s.bil.maxima s.per.qserial)
    else if m < 16 && (rate ≠ 16 || 24 ≤ q) then none
    else (s.bil.history[hist - 1]?).map fun p => from_ p.reg p.maxima p.qserial

/-- A write of BIL.SEL: the value and its stamp are latched in one cycle. -/
def bilSel (a : Agent) (hist m q rate : Nat) (s : State) : State :=
  gated a 0 (fun s =>
    let s := (((s.wr Reg.BIL.SEL.HIST hist).wr Reg.BIL.SEL.METER m).wr Reg.BIL.SEL.QTY q).wr Reg.BIL.SEL.RATE rate
    let v := s.bilValue hist m q rate
    let x := v.getD (0, 0)
    (((s.setB Reg.BIL.STATUS.SEL_ERR v.isNone).wr Reg.BIL.VAL_LO.VALUE x.1).wr Reg.BIL.VAL_HI.VALUE (x.1 / 2 ^ 32)).wr
      Reg.BIL.VAL_STAMP.STAMP x.2) s

/-- `BIL_SEL_WRITE`. -/
def execBilSelWrite (a : Agent) (hist meter : Fin 32) (qty : Fin 64) (rate : Fin 32) (s : State) : Out :=
  done (bilSel a hist meter qty rate s)

end Sys2Proof.Machine
end

