-- ==== Sys2Proof/Machine/Credit.lean ====
section
/-!
DEFINITION. Prepayment credit and vouchers (chapter 07): the charges of a quantum, site and session stops, emergency
credit, and the submission, verification and application of vouchers and short codes.
-/
namespace Sys2Proof.Machine

/-! ### Helpers -/

/-- A field of the CREDIT section (R232). -/
def State.crdCfg (s : State) (off n : Nat) : Nat := s.cfg 5 off n

/-- A bit of FLAGS: 0 AUTO_EMERG, 1 EXPORT_CREDIT, 2 SHORT_CODE_EN. -/
def State.crdFlag (s : State) (b : Nat) : Bool := Nat.testBit (s.crdCfg 2 1) b

/-- The committed part of the credit engine replaced. -/
def setCrd (x : CrdNv) (s : State) : State := { s with crd := { s.crd with nv := x } }

/-- A charge with its residue: whole micro-units toward minus infinity, and the rest (R207). -/
def chargeOf (res : Nat) (raw : Int) : Int × Nat := (((res : Int) + raw) / 1000000, (((res : Int) + raw) % 1000000).toNat)

/-- The mWh added in the quantum, as (meter, additions by QTY). -/
abbrev Adds := List (Nat × List (Nat × Nat))

/-- The mWh added to a QTY of a meter. -/
def Adds.of (l : Adds) (m q : Nat) : Nat := ((l.filter fun x => x.1 = m).map fun x => addsOf x.2 q).foldl (· + ·) 0

/-! ### Charging (R207 to R210) -/

/-- Step 1 of R206: the site charge at the rates of the quantum. -/
def siteCharge (adds : Adds) (s : State) : State :=
  let cal := s.bil.active
  let pi := if cal.isEmpty then s.crdCfg 0x30 4 else calPrice cal false (s.rd Reg.BIL.STATUS.RATE_I)
  let pe := if cal.isEmpty then 0 else calPrice cal true (s.rd Reg.BIL.STATUS.RATE_E)
  let raw : Int := (adds.of 16 0 * pi : Nat) - (if s.crdFlag 1 then ((adds.of 16 1 * pe : Nat) : Int) else 0)
  let x := s.crd.nv
  let (chg, res) := chargeOf x.res raw
  let c := if chg < 0 then min (x.c - chg) (s.crdCfg 0x20 8) else x.c - chg
  setCrd { x with c := c, res := res, lastChg := chg } (s.setB Reg.CRD.STATUS.FALLBACK cal.isEmpty)

/-- The event of a session credit that is low (R221, R266). -/
def postLow (c : Nat) (r : Carrel) (s : State) : State :=
  if 16 ≤ r.outlet then s
  else hwPost 4 [r.outlet * 2 ^ 56 + 11 * 2 ^ 48 + c * 2 ^ 32 + s.rtcSec % 2 ^ 32, ofInt 64 r.balance] s

/-- Step 2 of R206 for carrel `c`: energy, START_FEE, time and idle charges of a quantum of `d` µs (R208, R209, R270,
R280); the sum charged. -/
def carrelCharge (adds : Adds) (d : Rat) (c : Nat) (s : State) : Int × State :=
  let r := s.car c
  let ai := if r.outlet < 16 then adds.of r.outlet 0 else 0
  let ae := if r.outlet < 16 then adds.of r.outlet 1 else 0
  let fee : Int := if s.crl.feeDue.contains c then r.startFee else 0
  let (inC, resIn) := chargeOf r.resIn (ai * r.priceIn : Nat)
  let (outC, resOut) := chargeOf r.resOut (ae * r.priceOut : Nat)
  let per := fun (p : Nat) => ((p : Rat) * d / 3600).floor
  let on := decide (r.st = 3)
  let susp := decide (r.st = 4)
  let q := if susp then r.qSusp + 1 else r.qSusp
  let (timeC, resTime) := if on then chargeOf r.resTime (per r.timePrice) else (0, r.resTime)
  let (idleC, resIdle) := if susp && decide (600 * r.idleGrace < q) && r.reason ≠ 7 then chargeOf r.resIdle (per r.idlePrice)
    else (0, r.resIdle)
  let total := fee + inC - outC + timeC + idleC
  let bal := r.balance - total
  let low := decide (bal < s.crdCfg 0x3C 4) && !r.lowPosted
  let r := { r with
    eIn := (r.eIn + ai) % 2 ^ 48, eOut := (r.eOut + ae) % 2 ^ 48, resIn := resIn, resOut := resOut, resTime := resTime,
    resIdle := resIdle, balance := bal, qOn := if on then min (2 ^ 32 - 1) (r.qOn + 1) else r.qOn,
    qSusp := min (2 ^ 32 - 1) q, lowPosted := r.lowPosted || low }
  let s := { s with crl := { s.crl with feeDue := s.crl.feeDue.filter (· ≠ c) } }
  let s := s.setCar c r
  (total, if low then postLow c r s else s)

/-! ### Replay windows (R226, R227) -/

/-- The window of an issuer; one that returns with a retired mark has every bit set. -/
def State.window (s : State) (id : Nat) : Option Window :=
  match s.crd.nv.windows.find? fun x => x.1 = id with
  | some x => some x.2
  | none => (s.crd.nv.retired.find? fun x => x.1 = id).map fun x => ⟨x.2, 2 ^ 1024 - 1⟩

/-- The pending serials of an issuer. -/
def State.pendSerials (s : State) (id : Nat) : List Nat := (s.crd.pend.filter fun v => v.issuer = id).map (·.serial)

/-- H: the highest applied or pending serial; `none` without a window. -/
def State.windowHigh (s : State) (id : Nat) : Option Nat :=
  match s.window id, s.pendSerials id with
  | none, [] => none
  | w, l => some (l.foldl max (match w with | some w => w.high | none => 0))

/-- The code of R226 for a serial: 0 accepted, 8 replay, 9 below the window. -/
def State.replayCode (s : State) (id serial : Nat) : Nat :=
  match s.windowHigh id with
  | none => 0
  | some h =>
    if h < serial then 0
    else if serial + 1023 < h then 9
    else
      let applied := match s.window id with
        | some w => decide (serial ≤ w.high) && Nat.testBit w.bits (w.high - serial)
        | none => false
      if applied || (s.pendSerials id).contains serial then 8 else 0

/-- Issuer ids that the CREDIT section lists. -/
def State.listed (s : State) : List Nat := (List.range (min 8 (s.crdCfg 0x39 1))).map fun i => s.crdCfg (0x80 + 16 * i) 4

/-- The seventeenth window displaces that of an issuer that is no longer listed, which leaves a retired mark; of more
than 240 marks the oldest goes (log entry 29). -/
def windowRoom (id : Nat) (s : State) : State :=
  let x := s.crd.nv
  if (x.windows.any fun w => w.1 = id) || x.windows.length < 16 then s
  else match x.windows.find? fun w => !s.listed.contains w.1 with
    | none => s
    | some w =>
      let marks := x.retired ++ [(w.1, w.2.high)]
      setCrd { x with windows := mapDel x.windows w.1, retired := marks.drop (marks.length - 240) } s

/-- An applied serial is marked. -/
def windowMark (id serial : Nat) (s : State) : State :=
  let w := match s.window id with
    | none => ⟨serial, 1⟩
    | some w =>
      if w.high < serial then
        ⟨serial, if 1024 ≤ serial - w.high then 1 else (w.bits * 2 ^ (serial - w.high) + 1) % 2 ^ 1024⟩
      else { w with bits := putBit w.bits (w.high - serial) true }
  let s := windowRoom id s
  let x := s.crd.nv
  setCrd { x with
    windows := mapSet (fun _ => ⟨0, 0⟩) x.windows id w, retired := x.retired.filter fun m => m.1 ≠ id } s

/-! ### Results (R223, R225) -/

/-- A submitter hears a code: the host in VCH.RESULT, the runtime through Q[10], whose item layout is not stated. -/
def voucherReport (src tag code : Nat) (s : State) : State :=
  if src = 0 then (s.wr Reg.VCH.RESULT.TAG tag).wr Reg.VCH.RESULT.CODE code
  else
    let (a, s) := s.fresh
    let (b, s) := s.fresh
    hwPost 10 [a % 2 ^ 64, b % 2 ^ 64] s

/-- A refused submission: its result, record and fault (R224). -/
def voucherRefuse (x : Submission) (issuer serial carrel code : Nat) (s : State) : State :=
  let s := (voucherReport x.src x.tag code s).inc Reg.VCH.COUNTS.REFUSED
  let s := s.record 0x30 (payloadOf [(0, issuer), (4, serial % 2 ^ 32), (8, code), (9, x.src), (0xA, carrel)]) false
  raise 0x1901 code s

/-! ### Applying vouchers (R217, R225, R235) -/

/-- A journal entry of R235. -/
def journalPut (v : Voucher) (repaid : Nat) (balance : Int) (s : State) : State :=
  let e := payloadOf [(0, s.per.qserial), (8, v.issuer), (0xC, v.serial), (0x10, v.amount), (0x18, repaid),
    (0x20, ofInt 64 balance), (0x28, v.target), (0x30, s.wall % 2 ^ 32), (0x34, v.kind), (0x35, v.src),
    (0x36, if v.kind = 2 then v.carrel else 0xFF), (0x37, b2n v.short + 2 * b2n v.unchecked)]
  let x := s.crd.nv
  setCrd { x with journal := mapSet (fun _ => 0) x.journal x.jHead e, jHead := (x.jHead + 1) % 4096 } s

/-- A pending voucher is applied, or dropped when its carrel is gone. -/
def voucherApply (v : Voucher) (s : State) : State :=
  let applied := fun (s : State) =>
    let s := windowMark v.issuer v.serial s
    { s with crd := { s.crd with applied := s.crd.applied ++ [(s.per.qserial, v)] } }
  if v.kind = 1 then
    let x := s.crd.nv
    let r := min x.owed v.amount
    let s := setCrd { x with c := x.c + v.amount - r, owed := x.owed - r } s
    applied (journalPut v r s.crd.nv.c s)
  else
    let k := s.car v.carrel
    if 1 ≤ k.st && k.st ≤ 4 then
      let bal := k.balance + v.amount
      applied (journalPut v 0 bal (s.setCar v.carrel { k with balance := bal }))
    else voucherReport v.src v.tag 13 s

/-- Step 3 of R206. -/
def vouchersApply (s : State) : State :=
  let l := s.crd.pend
  l.foldl (fun s v => voucherApply v s) { s with crd := { s.crd with pend := [] } }

/-- APPLIED is reported for the vouchers of boundaries up to a committed QSERIAL (R225). -/
def appliedReport (qserial : Nat) (s : State) : State :=
  let l := s.crd.applied.filter fun x => x.1 ≤ qserial
  let s := { s with crd := { s.crd with applied := s.crd.applied.filter fun x => qserial < x.1 } }
  l.foldl (fun s x => voucherReport x.2.src x.2.tag 0 (s.inc Reg.VCH.COUNTS.APPLIED)) s

/-! ### Stops and emergency credit (R211 to R216, R220) -/

/-- Whether a friendly window is active at a reading (R214). -/
def State.friendly (s : State) (r : Int) : Bool :=
  let day := localDay s.bil.active s.leap r
  let now := localUnits s.bil.active s.leap r % unitsOf 86400
  s.bit Reg.RTC.STATUS.VALID && (List.range 8).any fun f =>
    let days := s.crdCfg (0x40 + 8 * f) 1
    let a := unitsOf (60 * s.crdCfg (0x42 + 8 * f) 2)
    let b := unitsOf (60 * s.crdCfg (0x44 + 8 * f) 2)
    if a < b then Nat.testBit days (weekday day) && decide (a ≤ now) && decide (now < b)
    else (Nat.testBit days (weekday day) && decide (a ≤ now)) ||
      (Nat.testBit days (weekday (day - 1)) && decide (now < b))

/-- The site stop rule (R211). -/
def State.stopRule (s : State) : Bool :=
  let x := s.crd.nv
  if s.bit Reg.CRD.STATUS.FRIENDLY then decide (x.c ≤ -((s.crdCfg 0x28 8 : Nat) : Int))
  else decide (x.c ≤ s.crdCfg 3 1 * max x.lastChg 0)

/-- Whether a grant is possible: credit is available and C < EMERG_THRESH (R216). -/
def State.canGrant (s : State) : Bool :=
  s.crdCfg 0x18 8 ≠ 0 && s.crd.nv.owed = 0 && decide (s.crd.nv.c < s.crdCfg 0x10 8)

/-- A grant (R216). -/
def emergGrant (s : State) : State :=
  let a := s.crdCfg 0x18 8
  let x := s.crd.nv
  raise 0x1803 0 ((setCrd { x with c := x.c + a, owed := a } s).inc Reg.CRD.COUNTS.GRANTS)

/-- Requests are judged one by one. -/
def emergRequests : Nat → Bool × State → Bool × State
  | 0, x => x
  | n + 1, (g, s) =>
    if s.canGrant then emergRequests n (true, emergGrant s) else emergRequests n (g, s.inc Reg.CRD.COUNTS.REFUSED)

/-- Step 4 of R206, with whether a grant was made. -/
def emergStep (s : State) : Bool × State :=
  let n := s.crd.asked
  let (g, s) := emergRequests n (false, { s with crd := { s.crd with asked := 0 } })
  if !g && s.crdFlag 0 && s.canGrant && (s.crd.nv.stopped || s.stopRule) then (true, emergGrant s) else (g, s)

/-- A session stop (R220): Closing with reason 8; the outlet stops through the ramp path. -/
def sessionStop (c : Nat) (s : State) : State :=
  let s := raise 0x1804 c s
  let r := s.car c
  if r.st = 3 then
    let s := if r.outlet < 16 && s.bound r.outlet = some c then outRamp r.outlet 8 s else s
    if (s.car c).st = 3 then crlClosing c 8 s else s
  else crlClosing c 8 s

/-- The session stop rule for a carrel with the sum of its charges of the quantum. -/
def sessionRule (x : Nat × Int) (s : State) : State :=
  let r := s.car x.1
  if (r.st = 3 || r.st = 4) && !r.unlimited && decide (r.balance ≤ s.crdCfg 3 1 * x.2) then sessionStop x.1 s else s

/-- The HS channel named by DISC_HS is acted on. -/
def discHs (f : Nat → State → State) (s : State) : State :=
  if s.crdCfg 0x38 1 < 40 then f (s.crdCfg 0x38 1) s else s

/-- The site stop begins or ends (R211 to R213). -/
def siteStop (granted : Bool) (s : State) : State :=
  let x := s.crd.nv
  if x.stopped then
    if granted || decide ((s.crdCfg 8 8 : Int) < x.c) then
      let s := setCause 0x5802 0 false ((setCrd { x with stopped := false } s).setB Reg.CRD.STATUS.STOPPED false)
      discHs hsAuto s
    else s
  else if granted || !s.stopRule then s
  else
    let s := ((setCrd { x with stopped := true } s).setB Reg.CRD.STATUS.STOPPED true).setB Reg.CRD.STATUS.STOP_STK true
    discHs hsForce (suspendAll 7 (raiseCause 0x5802 0 (s.inc Reg.CRD.COUNTS.STOPS)))

/-- CRD_SITE_LOW (R215). -/
def siteLow (s : State) : State :=
  let x := s.crd.nv
  if x.c < s.crdCfg 8 8 then
    if x.lowSeen then s
    else raiseCause 0x5801 0 ((setCrd { x with lowSeen := true } s).setB Reg.CRD.STATUS.LOW_STK true)
  else if x.lowSeen then setCause 0x5801 0 false (setCrd { x with lowSeen := false } s) else s

/-- The CRD registers follow the credit engine. -/
def crdShow (s : State) : State :=
  let x := s.crd.nv
  let s := (s.setB Reg.CRD.STATUS.DEBT (decide (x.c < 0))).setB Reg.CRD.STATUS.LOW (decide (x.c < s.crdCfg 8 8))
  let s := s.wr Reg.CRD.STATUS.EMERG (if x.owed ≠ 0 then 2 else if s.crdCfg 0x18 8 = 0 then 0 else 1)
  let s := (s.wr Reg.CRD.SITE_LO.VALUE (ofInt 64 x.c)).wr Reg.CRD.OWED_LO.VALUE x.owed
  s.wr Reg.CRD.LAST_CHG.CHG (ofInt 32 (max (-(2 ^ 31)) (min (2 ^ 31 - 1) x.lastChg)))

/-- The credit engine's steps for a quantum of `d` µs (R206). A partial quantum applies no voucher (R225). -/
def creditStep (part : Bool) (adds : Adds) (d : Rat) (r : Int) (s : State) : State :=
  let s := (s.setB Reg.CRD.STATUS.RUN true).setB Reg.CRD.STATUS.FRIENDLY (s.friendly r)
  let s := siteCharge adds s
  let (sums, s) := (s.carrelsWhere fun k => 3 ≤ k.st && k.st ≤ 5).foldl
    (fun (x : List (Nat × Int) × State) c => let y := carrelCharge adds d c x.2; (x.1 ++ [(c, y.1)], y.2)) ([], s)
  let s := if part then s else vouchersApply s
  let (g, s) := emergStep s
  let s := sums.foldl (fun s x => sessionRule x s) s
  crdShow (siteLow (siteStop g s))

/-! ### Requests and reads -/

/-- A write of CRD.CTL.EMERG = 1 (R216). -/
def emergencyRequest (a : Agent) (s : State) : State :=
  gated a 1 (fun s => { s with crd := { s.crd with asked := s.crd.asked + 1 } }) s

/-- `EMERGENCY_REQUEST`. -/
def execEmergencyRequest (a : Agent) (s : State) : Out := done (emergencyRequest a s)

/-- A read of CRD.SITE_LO, or of CRD.OWED_LO: the high word is latched. -/
def balanceRead (owed : Bool) (s : State) : State :=
  let x := s.crd.nv
  if owed then (s.wr Reg.CRD.OWED_LO.VALUE x.owed).wr Reg.CRD.OWED_HI.VALUE (x.owed / 2 ^ 32)
  else (s.wr Reg.CRD.SITE_LO.VALUE (ofInt 64 x.c)).wr Reg.CRD.SITE_HI.VALUE (ofInt 64 x.c / 2 ^ 32)

/-- `CRD_BALANCE_READ`. -/
def execCrdBalanceRead (owed : Bool) (s : State) : Out := done (if s.running then balanceRead owed s else s)

/-! ### Submission (R223) -/

/-- A submission enters the FIFO, or is refused with code 11. -/
def submit (x : Submission) (s : State) : State :=
  if 16 ≤ s.crd.fifo.length then voucherRefuse x 0 0 (if x.short then 0xFF else x.carrel) 11 s
  else { s with crd := { s.crd with fifo := s.crd.fifo ++ [x] } }

/-- The 96 bytes of VCH.IN. -/
def State.vchIn (s : State) : List Byte := (List.range 24).flatMap fun k => leBytes 4 (s.rd (Reg.VCH.IN.BYTES k))

/-- The 24 digits of VCH.DIGITS, first digit first. -/
def State.vchDigits (s : State) : List Byte :=
  [2, 1, 0].flatMap fun k => (List.range 8).map fun i =>
    BitVec.ofNat 8 (s.rd (Reg.VCH.DIGITS.BCD k) / 16 ^ (7 - i) % 16)

/-- VCH.SUBMIT with FORM 0. -/
def voucherSubmit (a : Agent) (carrel tag : Nat) (s : State) : State :=
  gated a 1 (fun s => submit ⟨0, tag, carrel, false, s.vchIn⟩ s) s

/-- VCH.SUBMIT with FORM 1. -/
def shortCodeSubmit (a : Agent) (tag : Nat) (s : State) : State :=
  gated a 1 (fun s => submit ⟨0, tag, 0xFF, true, s.vchDigits⟩ s) s

/-- `VOUCHER_SUBMIT`. -/
def execVoucherSubmit (a : Agent) (carrel tag : Fin 256) (s : State) : Out := done (voucherSubmit a carrel tag s)

/-- `SHORT_CODE_SUBMIT`. -/
def execShortCodeSubmit (a : Agent) (tag : Fin 256) (s : State) : Out := done (shortCodeSubmit a tag s)

/-- `VOUCHER_QUEUE_SUBMISSION` (R223): the credit engine takes the item of Q[9] that carries a submission of source
`src` (1 backbone, 2 card, 3 keypad); the item's layout is not stated, so its content is the operands. -/
def execVoucherQueueSubmission (src : Fin 4) (tag carrel : Fin 256) (short : Bool) (data : List Byte) (s : State) : Out :=
  done (if s.mode < 3 || !s.running then s
    else
      match takeHead 9 s with
      | none => s
      | some (_, s) => submit ⟨if src = 0 then 1 else src, tag, carrel, short, data⟩ s)

/-! ### Verification (R224, R229 to R231) -/

/-- The index of a listed issuer. -/
def State.issuerIdx (s : State) (id : Nat) : Option Nat :=
  (List.range (min 8 (s.crdCfg 0x39 1))).find? fun i => s.crdCfg (0x80 + 16 * i) 4 = id

/-- The code of check 2 for issuer `i`: listed, usable, and its LAYERS bit for the kind. -/
def State.issuerCode (s : State) (i : Option Nat) (kind : Nat) : Nat :=
  match i with
  | none => 3
  | some i => if s.crd.badIssuers.contains i then 14
    else if Nat.testBit (s.crdCfg (0x86 + 16 * i) 1) (kind - 1) then 0 else 3

/-- Check 8: the balance after R217 with every pending voucher of the same balance. -/
def State.ceilingOk (s : State) (kind carrel amount : Nat) : Bool :=
  let same := s.crd.pend.filter fun v => v.kind = kind && (kind = 1 || v.carrel = carrel)
  let sum := same.foldl (fun a v => a + v.amount) amount
  let bal : Int := if kind = 1 then s.crd.nv.c + sum - min s.crd.nv.owed sum else (s.car carrel).balance + sum
  decide (bal ≤ s.crdCfg 0x20 8)

/-- The first of a list of (code, holds) pairs that fails; 0 when all hold. -/
def firstFail (l : List (Nat × Bool)) : Nat := match l.find? (fun x => !x.2) with | some x => x.1 | none => 0

/-- The UTC date of the reading in days since 2000-01-01. -/
def State.utcDay (s : State) : Int := (s.reading / 327680 - s.leap) / 86400 - 10957

/-- The checks of R224 on a voucher, and the voucher. -/
def voucherCheck (x : Submission) (s : State) : Nat × Voucher :=
  let b := x.data
  let kind := leAt b 0 1 % 16
  let id := leAt b 4 4
  let serial := leAt b 8 4
  let target := leAt b 0xC 8
  let amount := leAt b 0x14 6
  let expiry := leAt b 0x1A 2
  let valid := s.bit Reg.RTC.STATUS.VALID
  let i := s.issuerIdx id
  let k := s.car x.carrel
  let ic := s.issuerCode i kind
  let unit := unitLo + 2 ^ 32 * unitHi
  let key := s.crdCfg (0x84 + 16 * i.getD 0) 1
  let code := firstFail
    [(2, leAt b 0 1 / 16 = 1 && (kind = 1 || kind = 2) && leAt b 1 1 = 0 && amount ≠ 0), (ic, ic = 0),
     (4, leAt b 2 2 = s.crdCfg 0 2 && leAt b 0x1C 4 = s.crdCfg 0x34 4),
     (5, if kind = 1 then target = unit else 1 ≤ k.st && k.st ≤ 4 && (target = 0 || target = k.cred)),
     (6, expiry = 0 || !valid || decide (s.utcDay ≤ expiry)),
     (7, s.slotHas key 8 && s.slotVerify key (b.take 32) ((b.drop 32).take 64)),
     (s.replayCode id serial, s.replayCode id serial = 0), (10, s.ceilingOk kind x.carrel amount)]
  (code, ⟨x.src, x.tag, x.carrel, false, kind, id, serial, amount, target, expiry ≠ 0 && !valid⟩)

/-- The smallest value not below H − 1,023 that is congruent to a serial modulo 2^20 (R230). -/
def fullSerial (high s20 : Nat) : Nat :=
  let lo := high - 1023
  lo + (s20 + 2 ^ 20 - lo % 2 ^ 20) % 2 ^ 20

/-- The checks of R229 and R230 on a short code: the code, whether the MAC was at fault, and the voucher. -/
def shortCheck (x : Submission) (s : State) : Nat × Voucher :=
  let n := x.data.foldl (fun a d => 10 * a + d.toNat) 0
  let i := n / 2 ^ 76 % 8
  let idx := if i < min 8 (s.crdCfg 0x39 1) then some i else none
  let id := s.crdCfg (0x80 + 16 * i) 4
  let serial := fullSerial ((s.windowHigh id).getD 0) (n / 2 ^ 56 % 2 ^ 20)
  let amount := n / 2 ^ 32 % 2 ^ 24 * s.crdCfg 4 4
  let slot := s.crdCfg (0x85 + 16 * i) 1
  let ic := s.issuerCode idx 1
  let mac := s.slotMac slot (s.unitBytes ++ leBytes 4 id ++ beBytes 6 (n / 2 ^ 32)) / 2 ^ 224
  let code := firstFail
    [(2, x.data.length = 24 && x.data.all (fun d => decide (d.toNat ≤ 9)) && n < 2 ^ 79 && n / 2 ^ 32 % 2 ^ 24 ≠ 0),
     (12, s.crdFlag 2 && s.crd.lockEnd.isNone), (ic, ic = 0), (12, slot ≠ 0xFF),
     (7, s.slotHas slot 8 && mac = n % 2 ^ 32),
     (s.replayCode id serial, s.replayCode id serial = 0), (10, s.ceilingOk 1 0 amount)]
  (code, ⟨x.src, x.tag, 0xFF, true, 1, id, serial, amount, 0, false⟩)

/-- A MAC failure: the fifth within 3,600 operating seconds locks short-code entry (R231). -/
def macFailure (s : State) : State :=
  let now := s.rd Reg.PWR.OPSEC.SECONDS
  let l := (s.crd.macFails.filter fun t => now < t + 3600) ++ [now]
  let s := { s with crd := { s.crd with macFails := l } }
  if 5 ≤ l.length then raiseCause 0x5902 0 { s with crd := { s.crd with lockEnd := some (now + 3600) } } else s

/-- The submission at the head of the FIFO is verified (R224). -/
def voucherVerify (s : State) : State :=
  match s.crd.fifo with
  | [] => s
  | x :: r =>
    let s := { s with crd := { s.crd with fifo := r } }
    let (code, v) := if x.short then shortCheck x s else voucherCheck x s
    if code = 0 then
      let s := { s with crd := { s.crd with pend := s.crd.pend ++ [v] } }
      voucherReport x.src x.tag 1 s
    else
      let s := voucherRefuse x v.issuer v.serial (if v.kind = 2 then x.carrel else 0xFF) code s
      if x.short && code = 7 then macFailure s else s

/-- `VOUCHER_VERIFY`: verification ends. -/
def execVoucherVerify (s : State) : Out := done (if s.running && 3 ≤ s.mode then voucherVerify s else s)

/-- `SHORT_CODE_LOCKOUT_END` (R231). -/
def execShortCodeLockoutEnd (s : State) : Out :=
  done (live (fun s =>
    match s.crd.lockEnd with
    | some t => if t ≤ s.rd Reg.PWR.OPSEC.SECONDS then
        setCause 0x5902 0 false { s with crd := { s.crd with lockEnd := none, macFails := [] } } else s
    | none => s) s)

/-- At load, every listed issuer's slots are checked (R233). -/
def issuersCheck (s : State) : State :=
  let n := min 8 (s.crdCfg 0x39 1)
  let bad := (List.range n).filter fun i =>
    let k := s.crdCfg (0x84 + 16 * i) 1
    let m := s.crdCfg (0x85 + 16 * i) 1
    !((s.slot k).kind = 5 && s.slotHas k 8) || !(m = 0xFF || ((s.slot m).kind = 3 && s.slotHas m 8))
  bad.foldl (fun s i => raiseCause 0x5903 i s) { s with crd := { s.crd with badIssuers := bad } }

end Sys2Proof.Machine
end

