-- ==== Sys2Proof/Machine/Persist.lean ====
section
/-!
DEFINITION. Booking a closed quantum, and what each boundary persists (chapters 05, 06 and 09): step 1 of R198, the
carrel copies, the folio and its commit word.
-/
namespace Sys2Proof.Machine

/-! ### Step 1 of R198 -/

/-- The items of the closed quantum are booked; demand sums and credit take a meter's additions when their own queue
holds the same item. The additions that the credit engine sees. -/
def bookItems (s : State) : Adds × State :=
  let (q0, s) := takeAll 0 s
  let (q1, s) := takeAll 1 s
  let (q2, s) := takeAll 2 s
  q0.foldl (fun (x : Adds × State) i =>
    let (adds, s) := bookItem i x.2
    let m := i.words.getD 0 0 / 2 ^ 56 % 256
    let s := if q1.contains i then
        { s with bil := { s.bil with interval := s.bil.interval.map (demandAdd m (i.words.getD 1 0) adds) } }
      else s
    (if q2.contains i then x.1 ++ [(m, adds)] else x.1, s)) ([], s)

/-- The duration of the closed quantum in µs: 100,000, or NQ × Ts of a partial one (R209). -/
def State.quantumUs (s : State) : Rat := if s.met.partLast then (s.met.nqLast : Rat) * s.ts * 1000000 else 100000

/-- A closed quantum is booked at the rates in force: registers, interval sums and credit (R177, R178, R206). -/
def bookQuantum (flush : Bool) (r : Int) (s : State) : State :=
  let s := { s with per := { s.per with qserial := (s.per.qserial + 1) % 2 ^ 48 } }
  let (adds, s) := bookItems s
  let tinv := !s.bit Reg.RTC.STATUS.VALID
  let ri := s.rd Reg.BIL.STATUS.RATE_I
  let re := s.rd Reg.BIL.STATUS.RATE_E
  let s := { s with bil := { s.bil with interval := s.bil.interval.map fun v => { v with
    quanta := v.quanta + 1, rateI := ri, rateE := re, flags := Nat.lor v.flags (32 * b2n tinv) } } }
  creditStep flush adds s.quantumUs r s

/-! ### Persistence (R155, R156, R283) -/

/-- The copies of one carrel: the older of the two is written. -/
def carrelCopy (c : Nat) (s : State) : State :=
  let a := mapGet (fun _ => CarrelCopy.blank) s.crl.copies (2 * c)
  let b := mapGet (fun _ => CarrelCopy.blank) s.crl.copies (2 * c + 1)
  let k := if !a.valid then 2 * c else if !b.valid then 2 * c + 1 else if a.qserial ≤ b.qserial then 2 * c else 2 * c + 1
  { s with crl := { s.crl with
      copies := mapSet (fun _ => CarrelCopy.blank) s.crl.copies k ⟨s.car c, s.per.qserial, true⟩ } }

/-- STAMP is written in every record that changed; carrels in states 1 to 6, and those that entered 0 or 7, are copied
to the carrel store, and the session counter with them (R280, R283). -/
def carrelPersist (s : State) : State :=
  let l := s.crl.changed
  let s := { s with crl := { s.crl with
      recs := s.crl.recs.map fun x => if l.contains x.1 then (x.1, { x.2 with stamp := s.per.qserial % 2 ^ 16 }) else x } }
  let live := s.carrelsWhere fun r => 1 ≤ r.st && r.st ≤ 6
  let gone := l.filter fun c => (s.car c).st = 0 || (s.car c).st = 7
  let s := (live ++ gone).foldl (fun s c => carrelCopy c s) s
  { s with crl := { s.crl with changed := [], sessCopy := some (s.rd Reg.CRL.NEXT_SESSION.SESSION) } }

/-- The folio of the boundary (R155). -/
def State.makeFolio (s : State) (flush : Bool) : Folio :=
  let ps := (List.range 17).filterMap fun m =>
    let p := s.rdI (Reg.MET.MQ.PSUM.VALUE m)
    if s.meterType m = 0 || p = 0 then none else some (m, p)
  { qserial := s.per.qserial, bil := s.bil, crd := s.crd.nv, carry := s.met.carry, reading := s.reading,
    opsec := s.rd Reg.PWR.OPSEC.SECONDS, psum := ps, flush := flush }

/-- Step 5 of R198: carrel copies, and the folio, which waits for its commit word. -/
def persist (flush : Bool) (s : State) : State :=
  let s := carrelPersist s
  { s with per := { s.per with waiting := s.per.waiting ++ [(s.makeFolio flush, false)] } }

/-- A commit word not written before the next boundary raises PWR_PERSIST_LATE, once (R156). -/
def persistLate (s : State) : State :=
  let late := s.per.waiting.any fun x => !x.2 && !x.1.flush
  let s := { s with per := { s.per with waiting := s.per.waiting.map fun x => (x.1, true) } }
  if late then raise 0x8205 0 s else s

/-- A folio is committed: it is in force, vouchers of its boundary report APPLIED, and an activation it holds frees the
store's armed copy (R155, R191, R225). -/
def folioCommit1 (f : Folio) (s : State) : State :=
  let s := { s with
    per := { s.per with folio := some f, marker := f.flush }
    tar := { s.tar with armedNv :=
      if s.tar.armed.isNone && s.tar.armedNv.map (fun (x : List Byte × Nat) => x.1) = some f.bil.active then none else s.tar.armedNv } }
  appliedReport f.qserial (s.wr Reg.TMP.QSERIAL.LOW f.qserial)

/-- The oldest waiting folio's commit word is written. -/
def folioCommit (s : State) : State :=
  match s.per.waiting with
  | [] => s
  | (f, _) :: r => folioCommit1 f { s with per := { s.per with waiting := r } }

/-- `FOLIO_COMMIT` (R155, R156). The folios of a flush are committed with the flush. -/
def execFolioCommit (s : State) : Out :=
  done (match s.per.waiting with
    | (f, _) :: _ => if f.flush || s.sys.unpowered || s.mode = 0 then s else folioCommit s
    | [] => s)

end Sys2Proof.Machine
end

