-- ==== Sys2Proof/Machine/Vehicle.lean ====
section
/-!
DEFINITION. The vehicle link on the pilot line (chapter 10): the Green PHY instances with SLAC in hardware, and the
shared FFT engines.
-/
namespace Sys2Proof.Machine

/-! ### Life cycle (R295 to R298) -/

/-- A SLAC failure is posted (R297, R310). -/
def vplFail (n k : Nat) (s : State) : State :=
  raise (0x3140 + n) k (vplEvent n 3 k 0 (s.wr (Reg.VPL.STATUS.LAST_FAIL n) k))

/-- A write of VPL[n].CTL (R290, R295, R296). -/
def vplCtl (a : Agent) (n : Nat) (en : Bool) (atten : Nat) (s : State) : State :=
  gated a 1 (fun s =>
    let s := (s.setB (Reg.VPL.CTL.EN n) en).wr (Reg.VPL.CTL.TX_ATTEN n) atten
    let s := if en then s
      else setCause (0x7120 + n) n false (s.setVpl n { s.vplAt n with txFault := false })
    vplFollow n s) s

/-- `VPL_CTL_WRITE`. -/
def execVplCtlWrite (a : Agent) (n : Fin 16) (en : Bool) (atten : Fin 64) (s : State) : Out := done (vplCtl a n en atten s)

/-- `CONVERTER_CHECK_PASSED` (R297): the SLAC_INIT timer starts. -/
def execConverterCheckPassed (n : Fin 16) (s : State) : Out :=
  done (live (fun s => if s.rd (Reg.VPL.STATUS.STATE n) = 1 then vplEnter n 2 s else s) s)

/-- `VPL_TX_FAULT` (R296). -/
def execVplTxFault (n : Fin 16) (s : State) : Out :=
  done (if !s.running then s
    else
      let s := s.setVpl n { s.vplAt n with txFault := true }
      vplForce n (raiseCause (0x7120 + n) n s))

/-! ### SLAC (R297 to R300) -/

/-- A sounding starts for a RunID: the profile clears and CM_SLAC_PARM.CNF is sent. -/
def slacSounding (n runId : Nat) (s : State) : State :=
  let x := s.vplAt n
  vplEnter n 3 (s.setVpl n { x with
    runId := some runId, numSounds := 0, window := false, heard := 0, good := 0, sums := [], profile := [], answer := 1 })

/-- CM_SLAC_PARM.REQ. -/
def slacParm (n runId : Nat) (s : State) : State :=
  let st := s.rd (Reg.VPL.STATUS.STATE n)
  let x := s.vplAt n
  if st = 2 then slacSounding n runId s
  else if st = 3 || st = 4 then
    if x.runId = some runId then s.setVpl n { x with answer := 1 } else slacSounding n runId s
  else s

/-- `CM_SLAC_PARM_REQ` (R298). -/
def execCmSlacParmReq (n : Fin 16) (runId : Nat) (s : State) : Out := done (live (slacParm n runId) s)

/-- `CM_START_ATTEN_CHAR_IND` (R300): the sounding window opens for the RunID held. -/
def execCmStartAttenCharInd (n : Fin 16) (runId : Nat) (numSounds : Fin 256) (s : State) : Out :=
  done (live (fun s =>
    let x := s.vplAt n
    if s.rd (Reg.VPL.STATUS.STATE n) = 3 && x.runId = some runId then
      s.setVpl n { x with numSounds := numSounds, window := true } else s) s)

/-- The mean of a sum of dB over a count, rounded to the nearest whole dB with halves up (R299). -/
def meanDb (x : Nat × Nat) : Nat := if x.2 = 0 then 0 else (2 * x.1 + x.2) / (2 * x.2)

/-- The profile of the sounds received is formed and CM_ATTEN_CHAR.IND is sent (R297, R299). -/
def slacMatching (n : Nat) (s : State) : State :=
  let x := s.vplAt n
  let prof := x.sums.map meanDb
  let s := (s.wr (Reg.VPL.STATUS.SOUNDS n) x.good).wr (Reg.VPL.STATUS.ATTEN n)
    (Config.rounded ((prof.foldl (· + ·) 0 : Nat) / (58 : Rat))).toNat
  vplEnter n 4 (s.setVpl n { x with profile := prof, window := false, answer := 2 })

/-- The attenuations that each group's carriers showed join the sums of the 58 groups. -/
def slacSums (sums : List (Nat × Nat)) (att : List (List Nat)) : List (Nat × Nat) :=
  (List.range 58).map fun g =>
    let x := sums.getD g (0, 0)
    let l := att.getD g []
    (x.1 + l.foldl (· + ·) 0, x.2 + l.length)

/-- A sound: `ok` when received without error, with the attenuation of each carrier of each group, dB. -/
def slacSound (n : Nat) (ok : Bool) (att : List (List Nat)) (s : State) : State :=
  let x := s.vplAt n
  if s.rd (Reg.VPL.STATUS.STATE n) ≠ 3 || !x.window then s
  else
    let x := { x with heard := x.heard + 1 }
    let x := if ok then { x with good := x.good + 1, sums := slacSums x.sums att } else x
    let s := s.setVpl n x
    if x.numSounds ≤ x.heard && 1 ≤ x.good then slacMatching n s else s

/-- `SOUND_RECEIVED` (R299). -/
def execSoundReceived (n : Fin 16) (ok : Bool) (att : List (List Nat)) (s : State) : Out :=
  done (live (slacSound n ok att) s)

/-- `MNBC_ELAPSED` (R297). -/
def execMnbcElapsed (n : Fin 16) (s : State) : Out :=
  done (live (fun s =>
    let x := s.vplAt n
    if s.rd (Reg.VPL.STATUS.STATE n) ≠ 3 || !x.window then s
    else if 1 ≤ x.good then slacMatching n s
    else vplFail n 2 (vplEnter n 2 (s.setVpl n { x with window := false, runId := none }))) s)

/-- `CM_SLAC_MATCH_REQ` (R297): `evMac` is the vehicle's address, byte 0 highest. -/
def execCmSlacMatchReq (n : Fin 16) (runId evMac : Nat) (s : State) : Out :=
  done (live (fun s =>
    let x := s.vplAt n
    if s.rd (Reg.VPL.STATUS.STATE n) = 4 && x.runId = some runId then
      let s := vplEnter n 5 (s.setVpl n { x with answer := 3 })
      (s.wr (Reg.VPL.EV_MAC_LO.BYTES n) evMac).wr (Reg.VPL.EV_MAC_HI.BYTES n) (evMac / 2 ^ 32)
    else s) s)

/-- `CM_VALIDATE_REQ` (R299): answered that validation is not required. -/
def execCmValidateReq (n : Fin 16) (s : State) : Out :=
  done (live (fun s =>
    let st := s.rd (Reg.VPL.STATUS.STATE n)
    if 2 ≤ st && st ≤ 6 then s.setVpl n { s.vplAt n with answer := 4 } else s) s)

/-- `CM_AMP_MAP_REQ` (R299): ignored. -/
def execCmAmpMapReq (_n : Fin 16) (s : State) : Out := done (live (fun s => s) s)

/-- `SLAC_INIT_ELAPSED` (R297): the timer starts anew. -/
def execSlacInitElapsed (n : Fin 16) (s : State) : Out :=
  done (live (fun s => if s.rd (Reg.VPL.STATUS.STATE n) = 2 then vplFail n 1 s else s) s)

/-- `MATCH_T_ELAPSED` (R297). -/
def execMatchTElapsed (n : Fin 16) (s : State) : Out :=
  done (live (fun s =>
    if s.rd (Reg.VPL.STATUS.STATE n) = 4 then
      vplFail n 3 (vplEnter n 2 (s.setVpl n { s.vplAt n with runId := none })) else s) s)

/-- `JOIN_T_ELAPSED` (R297): a fresh NMK without an off-time. -/
def execJoinTElapsed (n : Fin 16) (s : State) : Out :=
  done (live (fun s => if s.rd (Reg.VPL.STATUS.STATE n) = 5 then vplFail n 4 (vplStarting n s) else s) s)

/-! ### Linked traffic (R297, R301 to R303) -/

/-- The matched station's address as the registers show it. -/
def State.evMac (s : State) (n : Nat) : Nat := s.rd (Reg.VPL.EV_MAC_HI.BYTES n) * 2 ^ 32 + s.rd (Reg.VPL.EV_MAC_LO.BYTES n)

/-- `MATCHED_STATION_FRAME` (R297). -/
def execMatchedStationFrame (n : Fin 16) (s : State) : Out :=
  done (live (fun s =>
    let st := s.rd (Reg.VPL.STATUS.STATE n)
    if st = 5 then
      let s := s.inc (Reg.VPL.RX_FRAMES.COUNT n)
      vplEvent n 2 (s.vplAt n).good (s.evMac n) (vplEnter n 6 s)
    else if st = 6 then s.inc (Reg.VPL.RX_FRAMES.COUNT n)
    else s) s)

/-- `VPL_LINK_LOST` (R297): `ms` have passed since the last valid frame, at least LINK_T. -/
def execVplLinkLost (n : Fin 16) (ms : Nat) (s : State) : Out :=
  done (live (fun s =>
    if s.rd (Reg.VPL.STATUS.STATE n) = 6 && 100 * s.rd Reg.VPL.CFG2.LINK_T ≤ ms then
      raise (0x3160 + n) n (vplStarting n (vplEvent n 4 0 ms s)) else s) s)

/-- A frame for the runtime: delivered, or buffered in WARM_THROUGH and RIDE_THROUGH (R303). -/
def gpFrame (n : Nat) (bytes : List Byte) (s : State) : State :=
  if s.rd (Reg.VPL.STATUS.STATE n) ≠ 6 then s
  else
    let s := s.inc (Reg.VPL.RX_FRAMES.COUNT n)
    let x := s.vplAt n
    if s.mode ≠ 8 && s.mode ≠ 9 then s
    else if x.buf.length < 32 then s.setVpl n { x with buf := x.buf ++ [bytes] }
    else
      let s := s.inc (Reg.VPL.DROPS.COUNT n)
      vplEvent n 5 0 (s.rd (Reg.VPL.DROPS.COUNT n)) s

/-- `GP_FRAME_RECEIVED`. -/
def execGpFrameReceived (n : Fin 16) (bytes : List Byte) (s : State) : Out := done (live (gpFrame n bytes) s)

/-- The buffered frames go to the runtime when it is back. -/
def vplDeliver (s : State) : State := forEach 16 (fun n s => s.setVpl n { s.vplAt n with buf := [] }) s

/-- A selective acknowledgement marks physical blocks of the frame as failed: they are sent again; a block that fails
RETRY times fails the frame (R301). -/
def selAck (n : Nat) (failed : List Nat) (s : State) : State :=
  let x := s.vplAt n
  let st := s.rd (Reg.VPL.STATUS.STATE n)
  if st < 2 || 6 < st then s
  else
    let b := failed.foldl (fun m k => mapSet (fun _ => 0) m k (mapGet (fun _ => 0) m k + 1)) x.blocks
    if failed.isEmpty then s.setVpl n { x with blocks := [] }
    else if failed.any (fun k => s.rd Reg.VPL.CFG2.RETRY ≤ mapGet (fun _ => 0) b k) then
      (s.setVpl n { x with blocks := [] }).inc (Reg.VPL.PB_STAT.FAILED n)
    else
      let s := s.setVpl n { x with blocks := b }
      s.wr (Reg.VPL.PB_STAT.RETX n) (min 65535 (s.rd (Reg.VPL.PB_STAT.RETX n) + failed.length))

/-- `SELECTIVE_ACK_RECEIVED`. -/
def execSelectiveAckReceived (n : Fin 16) (failed : List Nat) (s : State) : Out := done (live (selAck n failed) s)

/-! ### The FFT engines (R293, R294) -/

/-- A transform waits behind those with an earlier symbol end, a tie going to the lower requester. -/
def fftInsert (x : Nat × Nat) : List (Nat × Nat) → List (Nat × Nat)
  | [] => [x]
  | y :: r => if x.1 < y.1 || (x.1 = y.1 && x.2 < y.2) then x :: y :: r else y :: fftInsert x r

/-- The engines in service. -/
def State.fftEngines (s : State) : Nat := b2n (s.bit Reg.VPL.STATUS.ENG0_OK) + b2n (s.bit Reg.VPL.STATUS.ENG1_OK)

/-- Free engines take waiting transforms at `now`; MAX_WAIT holds the longest wait, 0.1 µs. -/
def fftGrant : Nat → Nat → State → State
  | 0, _, s => s
  | k + 1, now, s =>
    match s.fft.waiting with
    | [] => s
    | x :: r =>
      if s.fft.busy.length < s.fftEngines then
        let s := { s with fft := ⟨r, s.fft.busy ++ [x]⟩ }
        fftGrant k now (s.wr Reg.VPL.STATUS.MAX_WAIT (max (s.rd Reg.VPL.STATUS.MAX_WAIT) (min 255 (now - x.1))))
      else s

/-- A requester's symbol ends at `now` (0.1 µs); it has at most one transform outstanding. -/
def fftRequest (req now : Nat) (s : State) : State :=
  if !s.running || (s.fft.waiting ++ s.fft.busy).any (fun x => x.2 = req) then s
  else fftGrant 2 now { s with fft := { s.fft with waiting := fftInsert (now, req) s.fft.waiting } }

/-- `FFT_REQUEST` (R293). -/
def execFftRequest (req : Fin 17) (now : Nat) (s : State) : Out := done (fftRequest req now s)

/-- A transform leaves the engines or their queue. -/
def fftDrop (req now : Nat) (s : State) : State :=
  fftGrant 2 now { s with fft :=
    ⟨s.fft.waiting.filter fun x => x.2 ≠ req, s.fft.busy.filter fun x => x.2 ≠ req⟩ }

/-- `FFT_COMPLETE` (R293): the result returns to the requester. -/
def execFftComplete (req : Fin 17) (now : Nat) (s : State) : Out :=
  done (live (fun s => if s.fft.busy.any (fun x => x.2 = req.val) then fftDrop req now s else s) s)

/-- `VPL_FFT_OVERRUN` (R294): the symbol is discarded. -/
def execVplFftOverrun (req : Fin 17) (now : Nat) (s : State) : Out :=
  done (live (fun s =>
    if (s.fft.waiting ++ s.fft.busy).any (fun x => x.2 = req.val && x.1 + 234 < now) then
      raise 0x7101 req ((fftDrop req now s).inc Reg.VPL.STATUS.OVERRUNS) else s) s)

end Sys2Proof.Machine
end

