-- ==== Sys2Proof/Machine/Update.lean ====
section
/-!
DEFINITION. The update engine (chapter 16, second part): colophons and their checks, staging, arming and abandoning,
trial and confirmation, and what a start does with the two banks. The activation itself is with the modes.
-/
namespace Sys2Proof.Machine

/-! ### Banks (R480, R488) -/

/-- Bank 0 (A) or 1 (B). -/
def State.bank (s : State) (k : Nat) : Bank := if k = 0 then s.upd.a else s.upd.b

/-- Bank 0 or 1 replaced. -/
def State.setBank (s : State) (k : Nat) (b : Bank) : State :=
  { s with upd := if k = 0 then { s.upd with a := b } else { s.upd with b := b } }

/-- The active bank's number. -/
def State.active (s : State) : Nat := s.rd Reg.UPD.STATUS.BANK

/-- The idle bank's number. -/
def State.idle (s : State) : Nat := 1 - s.active

/-- BANK_WORD of a bank (R488). -/
def Bank.word (b : Bank) : Nat := b.st * 2 ^ 60 + b.cyc % 2 ^ 28 * 2 ^ 32 + b.gen % 2 ^ 32

/-- The update state changes; bit 6 of HP.IRQ_STATUS is set at a change (R537). -/
def updEnter (st : Nat) (s : State) : State :=
  if s.rd Reg.UPD.STATUS.STATE = st then s
  else (s.wr Reg.UPD.STATUS.STATE st).setFlag Reg.HP.IRQ_STATUS.SRC 3 true

/-! ### The colophon (R479) -/

/-- The bytes of the header, part entries and unit list: the signed region. -/
def signedLen (c : List Byte) : Nat := 64 + 64 * leAt c 0x14 1 + 8 * leAt c 0x15 1

/-- The signed region. -/
def signedRegion (c : List Byte) : List Byte := c.take (signedLen c)

/-- COUNTERSIGNED. -/
def countersigned (c : List Byte) : Bool := leAt c 0x17 1 % 2 = 1

/-- The signed region with its signature block. -/
def colophonHead (c : List Byte) : List Byte := c.take (signedLen c + 96 + (if countersigned c then 64 else 0))

/-- The colophon hash, byte 0 highest. -/
def colophonHash (c : List Byte) : Nat := Config.sha384 (signedRegion c)

/-- A part entry as the colophon lists it: the part, its OFFSET and its LENGTH. -/
structure PartEntry where
  part : Part
  offset : Nat
  length : Nat
  deriving DecidableEq, Repr

/-- Part entry i. -/
def partEntry (c : List Byte) (i : Nat) : PartEntry :=
  let o := 64 + 64 * i
  ⟨⟨leAt c o 1, leAt c (o + 4) 4, beAt c (o + 0x10) 48⟩, leAt c (o + 8) 4, leAt c (o + 0xC) 4⟩

/-- The part entries. -/
def partEntries (c : List Byte) : List PartEntry := (List.range (leAt c 0x14 1)).map (partEntry c)

/-- The size of a part's region of a bank (R480); 0 for a kind that R479 does not define. -/
def partRoom (kind : Nat) : Nat :=
  if kind = 1 then 192 * 1024 else if kind = 2 then 4096 * 1024 else if kind = 3 then 512 * 1024
  else if kind = 4 then 256 * 1024 else if kind = 5 then 1024 * 1024 else if kind = 6 then 2048 * 1024 else 0

/-- The hash of the part of a kind; `none` when it is not listed. -/
def partHash (l : List Part) (kind : Nat) : Option Nat := (l.find? fun p => p.kind = kind).map (·.hash)

/-- Whether a colophon's part of a kind differs from the active bank's. -/
def State.partDiffers (s : State) (c : List Byte) (kind : Nat) : Bool :=
  match partHash ((partEntries c).map (·.part)) kind with
  | none => false
  | some h => partHash (s.bank s.active).parts kind ≠ some h

/-- Check `n` of R481 on the colophon `c`; `room` says whether TOTAL_LEN lies within the staging region and `hashes`
whether every part hash matches. -/
def updCheck (s : State) (c : List Byte) (room hashes : Bool) (n : Nat) : Bool :=
  if n = 1 then s.rd Reg.UPD.STATUS.STATE = 0 && !s.bit Reg.UPD.STATUS.TRIAL
  else if n = 2 then leAt c 0 4 = 0x4F4C4F43 && leAt c 4 2 = 1 && leAt c 6 2 = 0x40 &&
    leAt c 8 4 = s.rd Reg.SYS.HW_TYPE.TYPE && room
  else if n = 3 then Nat.testBit (leAt c 0x20 1) s.lc
  else if n = 4 then leAt c 0x15 1 = 0 || (List.range (leAt c 0x15 1)).any fun i =>
    (c.drop (64 + 64 * leAt c 0x14 1 + 8 * i)).take 8 = s.unitBytes
  else if n = 5 then s.slotVerify 0 (signedRegion c) ((c.drop (signedLen c)).take 96)
  else if n = 6 then s.lc ≠ 3 || (countersigned c &&
    s.slotVerify 1 (c.take (signedLen c + 96)) ((c.drop (signedLen c + 96)).take 64))
  else if n = 7 then decide (s.rd Reg.UPD.SVN.MIN_SVN ≤ leAt c 0x24 4)
  else if n = 8 then
    ((partEntries c).map (·.part.kind)).Nodup && (partEntries c).all fun p => 1 ≤ p.part.kind && p.part.kind ≤ 6 &&
      p.length ≤ partRoom p.part.kind
  else if n = 9 then hashes
  else if n = 10 then colophonHash c ≠ colophonHash (s.bank s.active).region
  else if n = 11 then !s.partDiffers c 4 || (s.bit Reg.MET.SEAL.OPEN && !s.bit Reg.LEGAL.STATUS.FULL)
  else !s.partDiffers c 3 || s.mode = 4

/-- The first failing check of a list, 0 when all pass. -/
def updChecks (s : State) (c : List Byte) (room hashes : Bool) (l : List Nat) : Nat :=
  (l.find? fun n => !updCheck s c room hashes n).getD 0

/-- Whether every part hash of a whole colophon matches (check 9). -/
def partsMatch (c : List Byte) : Bool :=
  (partEntries c).all fun p => Config.sha384 ((c.drop p.offset).take p.length) = p.part.hash

/-! ### Commands (R481, R482) -/

/-- A refusal: the check's number and UPD_REFUSED. -/
def updRefuse (n : Nat) (s : State) : State := raise 0x0D01 n (s.wr Reg.UPD.RESULT.CHECK n)

/-- The parts of the idle bank: those the colophon lists, and the active bank's for the kinds it does not. -/
def State.stagedParts (s : State) (c : List Byte) : List Part :=
  let l := (partEntries c).map (·.part)
  l ++ (s.bank s.active).parts.filter fun p => !l.any fun q => q.kind = p.kind

/-- UPD.CMD VERIFY: `c` is what the octal SPI memory holds from UPD.STAGE_ADDR to its end. -/
def updVerify (a : Agent) (c : List Byte) (s : State) : State :=
  gated a 2 (fun s =>
    let room := decide (leAt c 0xC 4 ≤ c.length ∧ 0x800000 ≤ s.rd Reg.UPD.STAGE_ADDR.ADDR)
    let n := updChecks s c room (partsMatch c) [1, 2, 3, 4, 5, 6, 7, 8, 9, 10, 11, 12]
    if n = 1 then updRefuse 1 s
    else
      let s := updEnter 1 s
      if n ≠ 0 then updRefuse n (updEnter 0 s)
      else
        let s := (s.wr Reg.UPD.RESULT.CHECK 0).wr Reg.UPD.STATUS.POLICY (leAt c 0x16 1)
        let s := s.setBank s.idle { Bank.empty with region := colophonHead c, parts := s.stagedParts c }
        updEnter 2 s) s

/-- `VERIFY`. -/
def execUpdVerify (a : Agent) (colophon : List Byte) (s : State) : Out := done (updVerify a colophon s)

/-- `STAGING_COMPLETE` (R482): the parts have been copied, read back and hashed. -/
def execStagingComplete (hashesOk : Bool) (s : State) : Out :=
  done (live (fun s =>
    if s.rd Reg.UPD.STATUS.STATE ≠ 2 then s
    else
      let c := (s.bank s.idle).region
      let s := (s.wr Reg.UPD.PROGRESS.PART (leAt c 0x14 1 - 1)).wr Reg.UPD.PROGRESS.KIB
        (((partEntries c).foldl (fun n p => n + p.length) 0) / 1024)
      if hashesOk then updEnter 3 (s.setBank s.idle { s.bank s.idle with st := 1 })
      else updRefuse 9 (updEnter 0 (s.setBank s.idle Bank.empty))) s)

/-- ARMED with its policy and time: the arming record and the bind set of R484. When no bind set is free the state
stays READY (log entry 30). -/
def updArmAs (policy act : Nat) (s : State) : State :=
  let kind := if policy = 0 then 1 else if policy = 1 then 2 else 3
  match engineSet 3 kind 0 (if policy = 1 then (act + 999999999) / 1000000000 else act) s with
  | none => s
  | some s =>
    let s := (s.wr Reg.UPD.ACT_LO.NS (act % 2 ^ 32)).wr Reg.UPD.ACT_HI.NS (act / 2 ^ 32)
    updEnter 4 (s.setBank s.idle { s.bank s.idle with armed := some (policy, act) })

/-- UPD.CMD ARM. -/
def updArm (a : Agent) (s : State) : State :=
  gated a 2 (fun s =>
    let p := s.rd Reg.UPD.STATUS.POLICY
    if s.rd Reg.UPD.STATUS.STATE = 3 && p < 2 then updArmAs p (leAt (s.bank s.idle).region 0x18 8) s else s) s

/-- `ARM`. -/
def execUpdArm (a : Agent) (s : State) : Out := done (updArm a s)

/-- The first 16 bytes of the staged colophon's hash. -/
def State.stagedHash16 (s : State) : Nat := colophonHash (s.bank s.idle).region / 2 ^ 256

/-- Whether a vote for the colophon whose hash begins with `hash` is answered READY (R482). -/
def State.voteReady (s : State) (hash : Nat) : Bool :=
  s.rd Reg.UPD.STATUS.STATE = 3 && s.rd Reg.UPD.STATUS.POLICY = 2 && s.stagedHash16 = hash

/-- A vote for this colophon has committed (R348, R482). -/
def updVoteArm (hash act : Nat) (s : State) : State := if s.voteReady hash then updArmAs 2 act s else s

/-- UPD.CMD ABANDON. -/
def updAbandon (a : Agent) (s : State) : State :=
  gated a 2 (fun s =>
    let st := s.rd Reg.UPD.STATUS.STATE
    if st = 3 || st = 4 then
      updEnter 0 (((freeOwner 3 (s.setBank s.idle Bank.empty)).wr Reg.UPD.ACT_LO.NS 0).wr Reg.UPD.ACT_HI.NS 0)
    else s) s

/-- `ABANDON`. -/
def execUpdAbandon (a : Agent) (s : State) : Out := done (updAbandon a s)

/-! ### Trial and confirmation (R483, R485) -/

/-- The active bank is confirmed: the other bank is superseded and MIN_SVN rises. -/
def updConfirmed (s : State) : State :=
  if !s.bit Reg.UPD.STATUS.TRIAL then s
  else
    let x := s.bank s.active
    let s := s.setBank s.idle { s.bank s.idle with st := 3, gen := x.gen }
    let s := s.wr Reg.UPD.SVN.MIN_SVN (max (s.rd Reg.UPD.SVN.MIN_SVN) (leAt x.region 0x24 4))
    s.setB Reg.UPD.STATUS.TRIAL false

/-- UPD.CMD CONFIRM: only the runtime confirms. -/
def updConfirm (a : Agent) (s : State) : State := if a = .runtime then gated a 0 updConfirmed s else deny a s

/-- `CONFIRM`. -/
def execUpdConfirm (a : Agent) (s : State) : Out := done (updConfirm a s)

/-- `UPD_TRIAL_CONFIRM` (R485): 600 operating seconds have passed in these modes without a Major or Grave fault. -/
def execUpdTrialConfirm (s : State) : Out :=
  done (live (fun s => if (s.mode = 4 || s.mode = 5 || s.mode = 6) && !s.flt.table.any (fun e => 2 ≤ e.cls) then updConfirmed s else s) s)

/-! ### A start (R484, R488) -/

/-- The registers that follow the active bank. -/
def updShow (s : State) : State :=
  let c := (s.bank s.active).region
  let h := beBytes 48 (colophonHash c)
  forEach 12 (fun k s => s.wr (Reg.UPD.HASH.BYTES k) (beAt h (4 * k) 4)) (s.wr Reg.UPD.SEQ.SEQ (leAt c 0x10 4))

/-- The bank with state 2 and the highest generation. -/
def State.newestBank (s : State) : Option Nat :=
  if s.upd.a.st = 2 && s.upd.b.st = 2 then some (if s.upd.a.gen < s.upd.b.gen then 1 else 0)
  else if s.upd.a.st = 2 then some 0
  else if s.upd.b.st = 2 then some 1
  else none

/-- The bank to start from (R488): `bltBad` are the banks whose boot loader fails its hash or signature. -/
def bankChoose (bltBad : List Nat) (s : State) : State :=
  match s.newestBank with
  | none => raiseCause 0xCD04 0 s
  | some x =>
    let other := s.bank (1 - x)
    let confirmed := other.st = 3 && other.gen = (s.bank x).gen
    let failed := !confirmed && (s.bank x).cyc + 2 < s.rd Reg.PWR.CYCLES.COUNT % 2 ^ 28
    let s := if failed then raise 0x4D02 x (s.setBank x { s.bank x with st := 4 }) else s
    let x := if failed then 1 - x else x
    if !bltBad.contains x then
      updShow ((s.wr Reg.UPD.STATUS.BANK x).setB Reg.UPD.STATUS.TRIAL (!confirmed && !failed))
    else
      let y := 1 - x
      if (s.bank y).st = 2 && !bltBad.contains y then
        updShow ((raise 0x4D03 x s).wr Reg.UPD.STATUS.BANK y)
      else raiseCause 0xCD04 x (raise 0x4D03 x s)

/-- A staged bank is verified again (R484): `bad` are the banks whose parts no longer match their hashes. -/
def updRestart (bad : List Nat) (s : State) : State :=
  let k := s.idle
  let b := s.bank k
  if b.st ≠ 1 then s
  else
    let n := updChecks s b.region true (!bad.contains k) [2, 3, 4, 5, 6, 7, 8, 9, 11, 12]
    if n ≠ 0 then s.setBank k Bank.empty
    else
      let s := s.wr Reg.UPD.STATUS.POLICY (leAt b.region 0x16 1)
      match b.armed with
      | some (0, act) => updArmAs 0 act (updEnter 3 s)
      | some (1, act) => updArmAs 1 act (updEnter 3 s)
      | _ => updEnter 3 (s.setBank k { b with armed := none })

end Sys2Proof.Machine
end

