-- ==== Sys2Proof/Machine/Rosash.lean ====
section
/-!
DEFINITION. Rosash frames (chapter 11): carriers and their order, the coding of blocks, frame control, blocks and MAC
frames, the protection of R343, durations, effective rates and costs, and the choice of tone maps.
-/
namespace Sys2Proof.Machine

/-! ### Carriers (R314, R315, R318) -/

/-- Whether the notch group of carrier `k` (62 to 955) is removed. -/
def State.notched (s : State) (k : Nat) : Bool :=
  let g := (k - 62) / 8
  Nat.testBit (s.rd (Reg.BBN.NOTCH.GROUP (g / 32))) (g % 32)

/-- Which of the 894 carriers are used, from 62 on. -/
def State.usedCarriers (s : State) : List Bool := (List.range 894).map fun i => !s.notched (62 + i)

/-- N of R315. -/
def State.bbnN (s : State) : Nat := s.usedCarriers.countP (· = true)

/-- The carrier that is filled i-th, of n used ones (R318). -/
def carrierOrder (n i : Nat) : Nat := i * (if n % 127 = 0 then 131 else 127) % n

/-! ### Coding (R319, R325) -/

/-- The bits of bytes, most significant first. -/
def bitsOfBytes (l : List Byte) : List Bool := l.flatMap fun b => (List.range 8).map fun i => Nat.testBit b.toNat (7 - i)

/-- The scrambler x^10 + x^3 + 1 from a state of ten bits: n output bits. -/
def scramble : Nat → Nat → List Bool
  | 0, _ => []
  | n + 1, st =>
    let b := Nat.testBit st 9 != Nat.testBit st 2
    b :: scramble n (st * 2 % 1024 + b2n b)

/-- A product in GF(256) with field polynomial x^8 + x^4 + x^3 + x^2 + 1. -/
def gfMul (a : Nat) : Nat → Nat → Nat
  | 0, _ => 0
  | n + 1, b =>
    let r := gfMul a n (b / 2)
    let r2 := if 128 ≤ r then Nat.xor (r * 2 % 256) 0x1D else r * 2
    if b % 2 = 1 then Nat.xor r2 a else r2

/-- α to the power n. -/
def gfPow : Nat → Nat
  | 0 => 1
  | n + 1 => gfMul (gfPow n) 8 2

/-- A polynomial, highest power first, times (x + c). -/
def gfTimes (p : List Nat) (c : Nat) : List Nat :=
  List.zipWith Nat.xor (p ++ [0]) (0 :: p.map fun a => gfMul a 8 c)

/-- The generator of RS(255,239), roots α^0 to α^15, without its leading 1. -/
def rsGenerator : List Nat := ((List.range 16).foldl (fun p i => gfTimes p (gfPow i)) [1]).drop 1

/-- The 16 parity bytes of RS(255,239). -/
def rsParity (l : List Nat) : List Nat :=
  l.foldl (fun (r : List Nat) b =>
    let f := Nat.xor b (r.headD 0)
    List.zipWith Nat.xor (r.drop 1 ++ [0]) (rsGenerator.map fun g => gfMul g 8 f)) (List.replicate 16 0)

/-- The parity of the bits of a number below 128. -/
def parity7 (v : Nat) : Bool := (List.range 7).foldl (fun p i => p != Nat.testBit v i) false

/-- The convolutional code from the zero state: pairs (G0, G1) per input bit, with 6 tail bits; the newest bit is the
highest of the register. -/
def convPairs (l : List Bool) : List (Bool × Bool) :=
  ((l ++ List.replicate 6 false).foldl (fun (x : Nat × List (Bool × Bool)) b =>
    let r := x.1 + 64 * b2n b
    (r / 2, x.2 ++ [(parity7 (Nat.land r 0o133), parity7 (Nat.land r 0o171))])) (0, [])).2

/-- The puncturing pattern of a rate code (0 to 3: 1/2, 2/3, 3/4, 5/6). -/
def puncture (rate : Nat) : List (Bool × Bool) :=
  if rate = 0 then [(true, true)]
  else if rate = 1 then [(true, true), (true, false)]
  else if rate = 2 then [(true, true), (true, false), (false, true)]
  else [(true, true), (true, false), (false, true), (true, false), (false, true)]

/-- The coded bits of the pairs, punctured. -/
def convBits (rate : Nat) (l : List (Bool × Bool)) : List Bool :=
  let p := puncture rate
  (l.zip (List.range l.length)).flatMap fun x =>
    let k := p.getD (x.2 % p.length) (true, true)
    (if k.1 then [x.1.1] else []) ++ (if k.2 then [x.1.2] else [])

/-- The interleaver: written row by row into 16 rows, read column by column, empty cells skipped. -/
def interleave (l : List Bool) : List Bool :=
  let cols := (l.length + 15) / 16
  (List.range cols).flatMap fun c => (List.range 16).filterMap fun r => l[r * cols + c]?

/-- The coded bits of one block of 239 bytes (R325, steps 1 to 5). -/
def blockCoded (rate : Nat) (block : List Byte) : List Bool :=
  let scr := List.zipWith (fun a b => a != b) (bitsOfBytes block) (scramble 1912 1023)
  let bytes := (List.range 239).map fun i => (List.range 8).foldl (fun v j => 2 * v + b2n (scr.getD (8 * i + j) false)) 0
  let all := bytes ++ rsParity bytes
  interleave (convBits rate (convPairs (bitsOfBytes (all.map fun v => BitVec.ofNat 8 v))))

/-- Coded bits over `n` used carriers and `syms` symbols in QPSK (R319). -/
def diversity (n syms : Nat) (coded : List Bool) : List Bool :=
  (List.range (2 * n * syms)).map fun q => coded.getD (q % coded.length) false

/-! ### Frame control (R322) -/

/-- The bits [95:16] of a frame control with the node's DOMAIN. -/
def fcBody (domain ft src dst tmi nblk fseq : Nat) (retx more : Bool) (info : Nat) : Nat :=
  info % 2 ^ 16 + b2n more * 2 ^ 22 + b2n retx * 2 ^ 23 + fseq % 4096 * 2 ^ 24 + nblk % 32 * 2 ^ 36 + tmi % 8 * 2 ^ 41 +
    dst % 4096 * 2 ^ 44 + src % 4096 * 2 ^ 56 + domain % 256 * 2 ^ 68 + ft % 16 * 2 ^ 76

/-- A frame control with its CRC. -/
def fcWord (body : Nat) : Nat := body * 2 ^ 16 + crc16 (beBytes 10 body)

/-- DOMAIN of the node (R349). -/
def State.domain (s : State) : Nat := s.cfg 10 0 1

/-- A frame control that the node does not ignore: its CRC holds, the domain is the node's own, and FT is `ft`. -/
def State.fcOk (s : State) (ft fc : Nat) : Bool :=
  fc < 2 ^ 96 && crc16 (beBytes 10 (fc / 2 ^ 16)) = fc % 2 ^ 16 && bitsOf fc 91 84 = s.domain && bitsOf fc 95 92 = ft

/-- SRC. -/
def fcSrc (fc : Nat) : Nat := bitsOf fc 83 72

/-- DST. -/
def fcDst (fc : Nat) : Nat := bitsOf fc 71 60

/-! ### Blocks (R324) and MAC frames (R345) -/

/-- A block: LAST, BSN, data. -/
def mkBlock (last : Bool) (bsn : Nat) (d : List Byte) : List Byte :=
  let b := beBytes 2 (b2n last * 2 ^ 15 + bsn % 4096) ++ beBytes 2 d.length ++ (d ++ List.replicate 233 0).take 233
  b ++ beBytes 2 (crc16 b)

/-- A MAC frame cut into blocks of 233 data bytes from number `bsn` on; `n` bounds the blocks. -/
def cutBlocks : Nat → Nat → List Byte → List (List Byte)
  | 0, _, _ => []
  | n + 1, bsn, l =>
    if l.length ≤ 233 then [mkBlock true bsn l] else mkBlock false bsn (l.take 233) :: cutBlocks n (bsn + 1) (l.drop 233)

/-- The blocks of a MAC frame. -/
def macBlocks (frame : List Byte) : List (List Byte) := cutBlocks 17 0 frame

/-- A block received without failure: its CRC matches. -/
def blockOk (b : List Byte) : Bool := b.length = 239 && crc16 (b.take 237) = beAt b 237 2

/-- LAST of a block. -/
def blockLast (b : List Byte) : Bool := 128 ≤ leAt b 0 1

/-- BSN of a block. -/
def blockBsn (b : List Byte) : Nat := beAt b 0 2 % 4096

/-- The valid data of a block. -/
def blockData (b : List Byte) : List Byte := (b.drop 4).take (min 233 (beAt b 2 2))

/-- The whole MAC frame at the front of held blocks, an empty one still missing: its blocks, and those behind it. -/
def frontFrame : List (List Byte) → Option (List (List Byte) × List (List Byte))
  | [] => none
  | b :: r =>
    if b.isEmpty then none
    else if blockLast b then some ([b], r)
    else (frontFrame r).map fun x => (b :: x.1, x.2)

/-- Every whole MAC frame at the front of held blocks; `n` bounds their number. -/
def takeFrames : Nat → List (List Byte) → List (List (List Byte)) × List (List Byte)
  | 0, l => ([], l)
  | n + 1, l =>
    match frontFrame l with
    | none => ([], l)
    | some (f, r) => (f :: (takeFrames n r).1, (takeFrames n r).2)

/-- The bytes of a MAC frame from its blocks. -/
def frameBytes (l : List (List Byte)) : List Byte := l.flatMap blockData

/-- The own long identifier (R349): 06, UNIT_ID_LO, 50. -/
def State.ownLong (_ : State) : Nat := 0x06 * 2 ^ 40 + unitLo * 256 + 0x50

/-- The own node identifier. -/
def State.bbnNode (s : State) : Nat := s.rd Reg.BBN.NODE.NODE

/-- The role code. -/
def State.role (s : State) : Nat := s.rd Reg.BBN.STATUS.ROLE

/-- The NEK of an index. -/
def State.nek (s : State) (i : Nat) : List Byte := mapGet (fun _ => []) s.bbn.neks i

/-- Whether a NEK index is accepted now: that in force, and the other for 64 cycles around NEK_SWITCH (R344). -/
def State.nekAccepted (s : State) (i : Nat) : Bool :=
  i < 2 && s.nek i ≠ [] &&
    (i = s.bbn.nekIdx || (s.bbn.nekSwitch ≠ 0 && s.bbn.cycle ≤ s.bbn.nekSwitch + 32 && s.bbn.nekSwitch ≤ s.bbn.cycle + 32))

/-- The nonce of a MAC frame. -/
def macNonce (long fcnt : Nat) : List Byte := beBytes 6 long ++ beBytes 4 fcnt ++ [0, 0, 0]

/-- The nonce of a central beacon. -/
def beaconNonce (long cycle : Nat) : List Byte := macNonce long cycle

/-- The nonce of a relay or safety frame. -/
def State.slotNonce (s : State) (src cycle slot : Nat) : List Byte :=
  beBytes 1 s.domain ++ beBytes 2 src ++ beBytes 4 cycle ++ beBytes 2 slot ++ [0, 0, 0, 0]

/-- The header of a MAC frame. -/
def macHeader (esrc edst len proto keyIdx fcnt : Nat) : List Byte :=
  beBytes 2 esrc ++ beBytes 2 edst ++ beBytes 2 len ++ beBytes 1 proto ++ beBytes 1 keyIdx ++ beBytes 4 fcnt

/-- A MAC frame of this node under the NEK in force, cut into blocks; none once FCNT would wrap (R343). -/
def sealFrame (edst proto : Nat) (payload : List Byte) (s : State) : List (List Byte) × State :=
  if 2 ^ 32 - 1 ≤ s.bbn.fcnt || 3708 < payload.length then ([], s)
  else
    let h := macHeader s.bbnNode edst payload.length proto s.bbn.nekIdx s.bbn.fcnt
    let c := Config.ccmSeal 8 (s.nek s.bbn.nekIdx) (macNonce s.ownLong s.bbn.fcnt) h payload
    (macBlocks (h ++ c), { s with bbn := { s.bbn with fcnt := s.bbn.fcnt + 1 } })

/-- An admission message: unencrypted, KEYIDX 0xFF; the spec gives its tag no value (log entry 33). -/
def openFrame (edst : Nat) (payload : List Byte) (s : State) : List (List Byte) × State :=
  let (t, s) := s.fresh
  (macBlocks (macHeader s.bbnNode edst payload.length 0 0xFF 0 ++ payload ++ beBytes 8 t), s)

/-! ### Rates, costs and durations (R321, R326, R335) -/

/-- A rate by its code. -/
def rateOf (code : Nat) : Rat := if code = 0 then 1 / 2 else if code = 1 then 2 / 3 else if code = 2 then 3 / 4 else 5 / 6

/-- Coded bits of a block by rate code. -/
def codedBits (code : Nat) : Nat := if code = 0 then 4092 else if code = 1 then 3069 else if code = 2 then 2728 else 2456

/-- The guard interval by its code, samples. -/
def giOf (code : Nat) : Nat := if code = 0 then 256 else if code = 1 then 512 else 1024

/-- The bits of a symbol under a tone map. -/
def mapSum (t : ToneMap) : Nat := t.bits.foldl (· + ·) 0

/-- The symbol duration under a tone map, samples of 60 MS/s. -/
def mapSym (t : ToneMap) : Nat := 2048 + giOf t.gi

/-- The effective rate of a tone map over the whole half-cycle, Mbit/s. -/
def mapRate (t : ToneMap) : Rat := (mapSum t : Rat) * rateOf t.rate * 239 / 255 * 60 / (mapSym t : Rat)

/-- The ROBO-4 rate, Mbit/s. -/
def State.roboE (s : State) : Rat := ((s.bbnN / 2 : Nat) : Rat) * 1 / 2 * 239 / 255 * 60 / 3072

/-- E of a link from its tone maps. -/
def State.linkE (s : State) (maps : List ToneMap) : Rat :=
  if maps.isEmpty then s.roboE
  else maps.foldl (fun a t => a + ((t.stop : Rat) - (t.start : Rat)) / 256 * mapRate t) 0

/-- F of a link, percent. -/
def BbnLink.f (l : BbnLink) : Rat :=
  if l.errs.isEmpty then 0 else (l.errs.countP (· = true) : Rat) * 100 / (l.errs.length : Rat)

/-- The cost of an incoming link (R335). -/
def State.linkCost (s : State) (l : BbnLink) : Nat :=
  let e := s.linkE l.maps
  let base := if e = 0 then Config.deadCost else (1000 / e).ceil.toNat
  base + (if 2 < l.f then 10 * (l.f - 2).ceil.toNat else 0)

/-- The payload of n blocks under a tone map, samples. -/
def mapTime (t : ToneMap) (n : Nat) : Nat := if mapSum t = 0 then 0 else (n * codedBits t.rate + mapSum t - 1) / mapSum t * mapSym t

/-- The payload of n blocks in ROBO-4, samples. -/
def State.roboTime (s : State) (n : Nat) : Nat :=
  let b := s.bbnN / 2
  if b = 0 then 0 else (n * 4092 + b - 1) / b * 3072

/-- FC-only frame, POLL, inter-frame space and the wait for an absent frame, samples. -/
def fcTime : Nat := 5632

/-- A POLL. -/
def pollTime : Nat := 11776

/-- IFS. -/
def ifsTime : Nat := 1500

/-- IFS + 120 µs. -/
def absentTime : Nat := 8700

/-- The duration D_B of the central beacon and T_B in 0.1 ms (R329). -/
def State.beaconSlots (s : State) : Nat := (fcTime + s.roboTime 1 + 1500 + 5999) / 6000

/-- The length of the polled period of a join cycle in samples; negative when there is none (R329). -/
def State.polledPeriod (s : State) (cycleMs nr ns : Nat) : Int :=
  ((cycleMs * 60000 : Nat) : Int) - 6000 - ((s.beaconSlots * 6000 + 7500 * (nr + ns + 8) : Nat) : Int)

/-- How many of `want` blocks a frame carries, and its TMI (R327): `pos` is the half-cycle position of the start of the
payload in 1/256, `zcOk` whether the beacon gives a valid zero crossing, `half` HALF in units of 200 ns. -/
def frameFit (maps : List ToneMap) (zcOk : Bool) (half pos want : Nat) : Nat × Nat :=
  match (if zcOk then maps.find? fun t => t.start ≤ pos && pos < t.stop else none) with
  | none => (want, 1)
  | some t =>
    match ((List.range want).map (want - ·)).find? fun n =>
        mapSum t ≠ 0 && decide (pos * (half * 12) + mapTime t n * 256 ≤ t.stop * (half * 12)) with
    | some n => (n, 2 + t.idx)
    | none => (want, 1)

/-! ### The choice of a tone map (R328) -/

/-- T(b) in 0.1 dB. -/
def snrNeed (b : Nat) : Int := ([0, 40, 70, 105, 135, 165, 195, 225, 255, 285, 315] : List Int).getD b 0

/-- What a lower rate takes off T(b), 0.1 dB. -/
def snrLess (rate : Nat) : Int := if rate = 0 then 40 else if rate = 1 then 25 else if rate = 2 then 15 else 0

/-- The median of figures; of an even number, the mean of the middle two, rounded down (log entry 34). -/
def median (l : List Int) : Int :=
  let l := l.mergeSort (· ≤ ·)
  let n := l.length
  (l.getD ((n - 1) / 2) 0 + l.getD (n / 2) 0) / 2

/-- b(k) from a median SNR, 0.1 dB. -/
def bitsFor (rate : Nat) (margin snr : Int) : Nat :=
  (((List.range 10).map (10 - ·)).find? fun b => decide (snrNeed b - snrLess rate + margin ≤ snr)).getD 0

/-- The bits of every carrier at a rate. -/
def State.bitsAt (s : State) (rate : Nat) (meds : List Int) : List Nat :=
  (meds.zip s.usedCarriers).map fun x => if x.2 then bitsFor rate (5 * s.rd Reg.BBN.CFG.TM_MARGIN : Nat) x.1 else 0

/-- The tone map that the last 16 measurements of an interval give. -/
def State.chooseMap (s : State) (idx start stop : Nat) (m : List RxMeas) : ToneMap :=
  let meds := (List.range 894).map fun k => median (m.map fun x => x.snr.getD k 0)
  let cand := (List.range 4).map fun r => (r, s.bitsAt r meds)
  let score := fun (x : Nat × List Nat) => ((x.2.foldl (· + ·) 0 : Nat) : Rat) * rateOf x.1
  let best := cand.foldl (fun b x => if score b < score x then x else b) (cand.headD (0, []))
  let spread := median (m.map fun x => (x.spread : Int))
  ⟨idx, start, stop, (if spread + 64 < 256 then 0 else if spread + 64 < 512 then 1 else 2), best.1, best.2⟩

end Sys2Proof.Machine
end

