-- ==== Sys2Proof/Machine/Backbone.lean ====
section
/-!
DEFINITION. The Rosash backbone (chapter 11): roles and coordinators, beacons, safety slots, admission, polls, links and
paths, key replacement, votes, and the comparison of network time. What a command sends stands in `BbnSt.sent`.
-/
namespace Sys2Proof.Machine

/-! ### The node -/

/-- The backbone state changed. -/
def State.mapBbn (s : State) (f : BbnSt → BbnSt) : State := { s with bbn := f s.bbn }

/-- A backbone command begins: nothing sent yet. -/
def bbnBegin (s : State) : State := s.mapBbn fun b => { b with sent := [] }

/-- COORD_PRI (R349). -/
def State.coordPri (s : State) : Nat := s.cfg 10 1 1

/-- The paths that can transmit (R313, R315). -/
def State.bbnPaths (s : State) : Nat :=
  let p := s.rd Reg.BBN.TX.PATHS
  let c := s.rd Reg.BBN.TX.COUPLE
  maskOf 3 fun i => Nat.testBit p i && !s.flag Reg.BBN.STATUS.PATH_FAULT i && (c = 3 || c = i)

/-- Whether the node may transmit: from step 8 of R69 on, while not silent, on at least one path (R340). -/
def State.bbnSends (s : State) : Bool := s.role ≠ 0 && !s.bbn.silent && s.bbnPaths ≠ 0

/-- A frame is sent. -/
def emit (f : BbnTx) (s : State) : State := if s.bbnSends then s.mapBbn fun b => { b with sent := b.sent ++ [f] } else s

/-- A frame of the poll under way is sent and remembered for a repetition. -/
def emitPoll (f : BbnTx) (s : State) : State :=
  (emit f s).mapBbn fun b => { b with poll := b.poll.map fun p => { p with last := some f, repeated := false } }

/-- The next frame number of this node. -/
def nextFseq (s : State) : Nat × State := (s.bbn.fseq, s.mapBbn fun b => { b with fseq := (b.fseq + 1) % 4096 })

/-- The link with a neighbour. -/
def State.bbnLink (s : State) (n : Nat) : BbnLink := mapGet (fun _ => BbnLink.init) s.bbn.links n

/-- The link with a neighbour replaced. -/
def setBbnLink (n : Nat) (l : BbnLink) (s : State) : State :=
  s.mapBbn fun b => { b with links := mapSet (fun _ => BbnLink.init) b.links n l }

/-- The node listens (R337): it has no identifier; link figures, former identifiers and frame numbers stay. -/
def bbnListen (s : State) : State :=
  let b := s.bbn
  let s := { s with bbn := { BbnSt.init with
    cycle := b.cycle, epoch := b.epoch, ntime := b.ntime, clk := b.clk, half := b.half, zc := b.zc, links := b.links,
    ids := b.ids, fseq := b.fseq, vote := b.vote, silent := false } }
  let s := (((s.wr Reg.BBN.STATUS.ROLE 1).setB Reg.BBN.STATUS.SYNC false).wr Reg.BBN.NODE.NODE 0).wr Reg.BBN.NODE.DEPTH 0
  let s := (s.wr Reg.BBN.NODE.DOMAIN s.domain).wr Reg.BBN.COORD.MEMBERS 0
  (s.wr Reg.BBN.LONG_LO.VALUE (s.ownLong % 2 ^ 32)).wr Reg.BBN.LONG_HI.VALUE (s.ownLong / 2 ^ 32)

/-- The node after step 8 of R69 (R337). -/
def bbnStart (s : State) : State := bbnListen { s with bbn := BbnSt.init }

/-- The PHY is silent during steps 5 and 6 of R85 (R340). -/
def bbnSilence (s : State) : State := (s.mapBbn fun b => { b with silent := true }).setB Reg.BBN.STATUS.SYNC false

/-- Joined: member or coordinator. -/
def State.joined (s : State) : Bool := s.role = 3 || s.role = 4

/-- A frame's tag has failed (R343). -/
def micFail (s : State) : State :=
  let n := s.bbn.micFails + 1
  let s := (s.inc Reg.BBN.FRAMES.MIC_FAIL).mapBbn fun b => { b with micFails := n }
  if n = 16 then raise 0x3205 0 s else s

/-! ### Network time (R346, R347) -/

/-- Network time at a CLK_BBN count, ns. -/
def State.netTime (s : State) (clk : Nat) : Nat := s.bbn.ntime + (clk - s.bbn.clk) * 50 / 3

/-- The RTC reading in ns, `now` 1/32,768 s after the last second edge. -/
def State.rtcNs (s : State) (now : Nat) : Nat := (s.readingAt now * 1000000000 / 32768).toNat

/-- Network time is set at a CLK_BBN count. -/
def setNetTime (t clk : Nat) (s : State) : State :=
  let s := s.mapBbn fun b => { b with ntime := t, clk := clk }
  (s.wr Reg.BBN.NTIME_LO.NS t).wr Reg.BBN.NTIME_HI.NS (t / 2 ^ 32)

/-- `BEACON_TIME_COMPARE` (R347): `clk` and `now` give both clocks at the comparison. -/
def execBeaconTimeCompare (clk : Nat) (now : Fin 32768) (s : State) : Out :=
  done (if s.running && s.bit Reg.BBN.STATUS.SYNC && s.role = 3 && !s.bit Reg.BBN.STATUS.TIME_INVALID &&
      s.flag Reg.RTC.CFG.SRC_EN 0 then
      let t := s.netTime clk
      let d := Config.rounded ((t : Rat) * 32768 / 1000000000) - s.readingAt now
      timeRequest 1 d s
    else s)

/-! ### Cycles and beacons (R329 to R331, R338, R346) -/

/-- The node's cycle is `n`, the cycle within the epoch `e`: links age, and a new epoch starts its own counts. -/
def bbnCycle (n e : Nat) (s : State) : State :=
  let adv := n - s.bbn.cycle
  let fresh := decide (e < s.bbn.epoch ∨ 64 ≤ adv)
  s.mapBbn fun b => { b with
    cycle := n
    epoch := e
    links := b.links.map fun x => (x.1, { x.2 with age := min 65535 (x.2.age + adv) })
    micFails := if fresh then 0 else b.micFails
    admFails := if fresh then [] else b.admFails
    linksDue := b.linksDue || fresh }

/-- 12-bit identifiers packed into bytes, `n` of them. -/
def pack12 (n : Nat) (l : List Nat) : List Byte :=
  beBytes (n * 12 / 8) ((List.range n).foldl (fun v i => v * 4096 + l.getD i 0 % 4096) 0)

/-- Identifier i of packed ones. -/
def unpack12 (l : List Byte) (i : Nat) : Nat := beValue l / 2 ^ (8 * l.length - 12 * (i + 1)) % 4096

/-- The node identifier of a long identifier that is joined, 0 otherwise. -/
def State.nodeOf (s : State) (long : Nat) : Nat :=
  if long = s.ownLong then s.bbnNode
  else match s.bbn.members.find? fun x => x.2.longId = long with | some x => x.1 | none => 0

/-- The depth of a node by its path. -/
def State.depthOf (s : State) (n : Nat) : Nat := (mapGet (fun _ => []) s.bbn.paths n).length

/-- The relays that the coordinator names: the repeaters of the paths in force in ascending depth (log entry 35). -/
def State.relayChoice (s : State) : List Nat :=
  let l := (s.bbn.paths.flatMap fun p => p.2.dropLast).eraseDups
  ((List.range 15).flatMap fun d => l.filter fun n => s.depthOf n = d + 1).take (s.cfg 10 0x1A 1)

/-- The safety list: the entries of SAFE_MEMBER (R332, R349). -/
def State.safetyChoice (s : State) : List Nat :=
  (List.range (s.cfg 10 0x19 1)).map fun i => s.nodeOf (beAt (s.sec 10) (0x20 + 6 * i) 6)

/-- HALF: the mains half-cycle of METER[16] in units of 200 ns. -/
def State.halfUnits (s : State) : Nat :=
  let f := (s.meter 16).fPub
  if f = 0 then 0 else ((2500000 : Rat) / f).floor.toNat % 65536

/-- The bytes 0x00 to 0xE0 of the central beacon (R330). -/
def State.beaconData (s : State) (nt zcAge flags : Nat) : List Byte :=
  let b := s.bbn
  let (vid, act) := match b.vote with
    | some v => if v.outcome = 1 || v.outcome = 2 then (v.id, v.act) else (0, 0)
    | none => (0, 0)
  beBytes 8 nt ++ beBytes 4 b.cycle ++ beBytes 6 s.ownLong ++ beBytes 1 s.coordPri ++
    beBytes 1 (s.rd Reg.BBN.CFG.CYCLE) ++ beBytes 1 flags ++ beBytes 1 b.relays.length ++ beBytes 1 b.safety.length ++
    beBytes 1 b.epoch ++ beBytes 4 zcAge ++ beBytes 2 s.halfUnits ++ beBytes 4 b.nekSwitch ++ beBytes 1 b.nekIdx ++ [0] ++
    beBytes 2 vid ++ beBytes 8 act ++ pack12 16 b.relays ++ pack12 64 b.safety ++ List.replicate 59 0

/-- The switch to the announced key at NEK_SWITCH (R344). -/
def nekSwitchAt (s : State) : State :=
  let b := s.bbn
  if b.nekSwitch ≠ 0 && b.nekSwitch = b.cycle then
    s.mapBbn fun b => { b with nekIdx := 1 - b.nekIdx, fcnt := 0 }
  else s

/-- FLAGS of the central beacon. -/
def State.beaconFlags (s : State) (nt : Nat) : Nat :=
  let b := s.bbn
  let live := fun (o : Nat) => match b.vote with
    | some v => decide (v.outcome = o ∧ v.deadline ≤ nt ∧ nt < v.act)
    | none => false
  b2n (decide (b.cycle % max 1 (s.cfg 10 0x18 1) = 0)) + 2 * b2n (!s.bit Reg.RTC.STATUS.VALID) +
    4 * b2n (decide (b.cycle < b.nekSwitch)) + 8 * b2n (live 1) + 16 * b2n (live 2) +
    32 * b2n (!s.bit (Reg.MET.MQ.FREQ.LOCKED 16))

/-- A coordinator starts a cycle (R329, R330): `now` after the last second edge, `clk` the CLK_BBN count, `zcAge` ns
since the last rising zero crossing. -/
def cycleStart (now clk zcAge : Nat) (s : State) : State :=
  if s.role ≠ 4 || s.bbn.silent then s
  else
    let nt := s.rtcNs now
    let s := setNetTime nt clk (bbnCycle ((s.bbn.cycle + 1) % 2 ^ 32) ((s.bbn.epoch + 1) % 64) s)
    let s := nekSwitchAt s
    let fl := s.beaconFlags nt
    let s := (s.setB Reg.BBN.STATUS.TIME_INVALID (Nat.testBit fl 1)).mapBbn fun b => { b with
      flags := fl, relays := s.relayChoice, safety := s.safetyChoice, half := s.halfUnits, zc := nt - zcAge, unheard := 0 }
    let d := s.beaconData nt zcAge fl
    let tag := Config.ccmSeal 8 (s.nek s.bbn.nekIdx) (beaconNonce s.ownLong s.bbn.cycle) d []
    let (q, s) := nextFseq s
    emit ⟨0, 1, 0xFFF, 1, q, false, false, 0, [d ++ tag]⟩ s

/-- `CYCLE_START`. -/
def execCycleStart (now : Fin 32768) (clk zcAge : Nat) (s : State) : Out :=
  done (if s.running then cycleStart now clk zcAge (bbnBegin s) else s)

/-- The vote fields of a valid beacon at a member (R348, steps 4 and 5). -/
def voteBeacon (flags id act long nt : Nat) (s : State) : State :=
  match s.bbn.vote with
  | none => s
  | some v =>
    if v.coord ≠ long then
      if v.outcome = 1 || (v.outcome = 0 && v.deadline ≤ nt) then
        (s.mapBbn fun b => { b with vote := some { v with outcome := 3 } }).wr Reg.BBN.VOTE.STATE 7
      else s
    else if id ≠ v.id then s
    else if Nat.testBit flags 3 && (v.outcome = 0 || v.outcome = 1) then
      let first := v.outcome = 0
      let s := (s.mapBbn fun b => { b with vote := some { v with outcome := 1, act := act, seen := some b.cycle } }).wr
        Reg.BBN.VOTE.STATE 4
      if first && v.mine = some true then updVoteArm v.hash act s else s
    else if Nat.testBit flags 4 && v.outcome = 0 then
      (s.mapBbn fun b => { b with vote := some { v with outcome := 2 } }).wr Reg.BBN.VOTE.STATE 5
    else s

/-- A duel is lost (R338): the node becomes a listening node. -/
def duelLost (long pri : Nat) (s : State) : State :=
  let own := s.coordPri
  let s := (bbnListen s).setB Reg.BBN.STATUS.DUEL_STK true
  let s := (s.inc Reg.BBN.ELECT.LOST).record 0x40 (payloadOf [(0, leValue (beBytes 6 long)), (6, pri), (7, own)]) false
  raise 0x3201 0 s

/-- A beacon synchronises the node: network time, role, and the coordinator's figures. -/
def beaconTake (d : List Byte) (clk src : Nat) (s : State) : State :=
  let long := beAt d 0xC 6
  let fl := leAt d 0x14 1
  let nt := beAt d 0 8
  let s := bbnCycle (beAt d 8 4) (leAt d 0x17 1) s
  let s := setNetTime (nt + 34133) clk s
  let s := s.mapBbn fun b => { b with
    unheard := 0, coordLong := some long, flags := fl, half := beAt d 0x1C 2, zc := nt - beAt d 0x18 4,
    takeover := none
    relays := (List.range (leAt d 0x15 1)).map (unpack12 ((d.drop 0x2E).take 24))
    safety := (List.range (leAt d 0x16 1)).map (unpack12 ((d.drop 0x46).take 96)) }
  let s := (s.wr Reg.BBN.COORD.PRI (leAt d 0x12 1)).setB Reg.BBN.STATUS.TIME_INVALID (Nat.testBit fl 1)
  let s := (s.wr Reg.BBN.COORD_LO.VALUE (long % 2 ^ 32)).wr Reg.BBN.COORD_HI.VALUE (long / 2 ^ 32)
  let s := s.wr Reg.BBN.NODE.DEPTH 1
  if s.role = 3 then
    let s := s.mapBbn fun b => { b with
      nekSwitch := beAt d 0x1E 4
      fcnt := if b.nekIdx = leAt d 0x22 1 then b.fcnt else 0
      nekIdx := leAt d 0x22 1 }
    let s := s.setB Reg.BBN.STATUS.SYNC true
    voteBeacon fl (beAt d 0x24 2) (beAt d 0x26 8) long nt s
  else
    (s.wr Reg.BBN.STATUS.ROLE 2).mapBbn fun b => { b with join := some (match b.join with
      | some j => if j.asked then j else { j with via := src }
      | none => ⟨src, false, 0, 0, [], 0, [], []⟩) }

/-- A central beacon is received (R330): `d` is the data of its block, `none` when the block failed; `clk` the CLK_BBN
count of the preamble's boundary. -/
def beaconRx (fc : Nat) (d : Option (List Byte)) (clk : Nat) (s : State) : State :=
  if s.role = 0 || s.bbn.silent || !s.fcOk 0 fc then s
  else match d with
    | none => s
    | some d =>
      if d.length ≠ 233 then s
      else
        let long := beAt d 0xC 6
        let pri := leAt d 0x12 1
        if s.role = 4 then
          if long = s.ownLong then s
          else if s.coordPri < pri || (s.coordPri = pri && long < s.ownLong) then duelLost long pri s
          else s.inc Reg.BBN.ELECT.WON
        else if s.role = 3 then
          let key := s.nek (leAt d 0x22 1)
          let ok := !key.isEmpty && (Config.ccmOpen 8 key (beaconNonce long (beAt d 8 4)) (d.take 0xE1) (d.drop 0xE1)).isSome
          if ok then beaconTake d clk (fcSrc fc) s else micFail s
        else beaconTake d clk (fcSrc fc) s

/-- `BEACON`. -/
def execBeacon (fc : Nat) (d : Option (List Byte)) (clk : Nat) (s : State) : Out :=
  done (if s.running then beaconRx fc d clk (bbnBegin s) else s)

/-- A compact frame (R323) of this node: type, DATA and the nonce's slot index, encrypted under R343. -/
def State.compact (s : State) (ctype cycle slot : Nat) (d : List Byte) : List Byte :=
  let h := beBytes 2 (ctype * 4096 + s.bbnNode)
  h ++ Config.ccmSeal 4 (s.nek s.bbn.nekIdx) (s.slotNonce s.bbnNode cycle slot) h d

/-- DATA of a compact frame received in a slot, tried under every accepted key; `none` when its tag fails. -/
def State.compactOpen (s : State) (cycle slot : Nat) (f : List Byte) : Option (List Byte) :=
  let src := beAt f 0 2 % 4096
  ([0, 1].filter fun i => s.nekAccepted i).findSome? fun i =>
    Config.ccmOpen 4 (s.nek i) (s.slotNonce src cycle slot) (f.take 2) (f.drop 2)

/-- A named relay sends its relay beacon (R331). -/
def relaySlot (clk : Nat) (s : State) : State :=
  match s.bbn.relays.findIdx? fun n => n = s.bbnNode with
  | none => s
  | some r =>
    if s.role ≠ 3 || !s.bit Reg.BBN.STATUS.SYNC then s
    else
      let nt := s.netTime clk
      let d := beBytes 8 nt ++ beBytes 2 s.bbn.cycle ++ beBytes 1 (s.rd Reg.BBN.NODE.DEPTH) ++ beBytes 1 s.bbn.flags ++
        beBytes 4 (nt - s.bbn.zc) ++ beBytes 2 s.bbn.half
      emit ⟨5, s.bbnNode, 0xFFF, 0, 0, false, false, 0, [s.compact 1 s.bbn.cycle r d]⟩ s

/-- `RELAY_BEACON_SLOT`. -/
def execRelayBeaconSlot (clk : Nat) (s : State) : Out :=
  done (if s.running then relaySlot clk (bbnBegin s) else s)

/-- A relay beacon is heard in slot r (R331, R346): a joined node follows it when no central beacon and no relay of
less depth gave this cycle; a node that has not joined uses it for timing only. -/
def relayRx (r : Nat) (f : List Byte) (clk : Nat) (s : State) : State :=
  if s.bbn.silent || f.length ≠ 24 || beAt f 0 2 / 4096 ≠ 1 then s
  else if s.role = 1 || s.role = 2 then
    let src := beAt f 0 2 % 4096
    if s.bbn.coordLong.isSome then s
    else
      let (dep, s) := s.fresh
      ((s.wr Reg.BBN.STATUS.ROLE 2).wr Reg.BBN.NODE.DEPTH dep).mapBbn fun b => { b with join := some (match b.join with
        | some j => if j.asked then j else { j with via := src }
        | none => ⟨src, false, 0, 0, [], 0, [], []⟩) }
  else if s.role ≠ 3 then s
  else
    let tryAt := fun (c : Nat) => (s.compactOpen c r f).map fun d => (c, d)
    match [s.bbn.cycle, s.bbn.cycle + 1].findSome? tryAt with
    | none => micFail s
    | some (c, d) =>
      let dep := leAt d 10 1
      if c = s.bbn.cycle && s.rd Reg.BBN.NODE.DEPTH ≤ dep + 1 then s
      else
        let nt := beAt d 0 8
        let s := setNetTime (nt + 17066) clk (bbnCycle c (if c = s.bbn.cycle then s.bbn.epoch else (s.bbn.epoch + 1) % 64) s)
        let s := nekSwitchAt s
        let fl := leAt d 11 1
        let s := s.mapBbn fun b => { b with flags := fl, zc := nt - beAt d 12 4, half := beAt d 16 2 }
        ((s.wr Reg.BBN.NODE.DEPTH (dep + 1)).setB Reg.BBN.STATUS.TIME_INVALID (Nat.testBit fl 1)).setB
          Reg.BBN.STATUS.SYNC true

/-- `RELAY_BEACON`. -/
def execRelayBeacon (r : Fin 16) (f : List Byte) (clk : Nat) (s : State) : Out :=
  done (if s.running then relayRx r f clk (bbnBegin s) else s)

/-! ### Safety slots (R332, R381 to R383) -/

/-- The ETH[1] frame of R383 with the message `m` and the sender's cycle. -/
def State.ethSafety (s : State) (cycle : Nat) (m : List Byte) : List Byte :=
  let k := s.cfg 7 0x10 1
  let p := [0x5A] ++ beBytes 1 s.domain ++ beBytes 4 cycle ++ m
  let tag := (beBytes 32 (s.slotMac k p)).take 8
  [0x03, 0, 0, 0, 0] ++ beBytes 1 s.domain ++ [0x06] ++ beBytes 4 unitLo ++ [0x51, 0x88, 0xB5] ++
    p ++ tag ++ List.replicate 14 0

/-- The unit's safety message goes out on its two channels (R381). -/
def safetySlot (s : State) : State :=
  let g := s.cfg 7 0x11 1
  if (s.sec 7).isEmpty || g = 0xFF || !s.bit Reg.SAF.STATUS.RUN then s
  else
    let cyc := s.bbn.cycle + s.bbn.unheard
    let onBbn := s.joined && s.bbnSends && s.bbn.unheard < 2 && s.bbn.safety.getD g 0 = s.bbnNode
    let s := if onBbn then { s with saf := { s.saf with pause := false } } else s
    let m := s.safMessage
    let s := if onBbn then emit ⟨5, s.bbnNode, 0xFFF, 0, 0, false, false, 0, [s.compact 2 cyc (16 + g) m]⟩ s else s
    let s := if s.cfg 7 3 1 % 2 = 1 && s.slotHas (s.cfg 7 0x10 1) 1 then
        s.mapBbn fun b => { b with sent := b.sent ++ [⟨6, 0, 0, 0, 0, false, false, 0, [s.ethSafety cyc m]⟩] }
      else s
    { s with
      saf := { s.saf with msgSeq := (s.saf.msgSeq + 1) % 65536, lastCycle := some cyc }
      bbn := { s.bbn with unheard := if s.role = 4 then 0 else s.bbn.unheard + 1 } }

/-- `SAFETY_SLOT`. -/
def execSafetySlot (s : State) : Out := done (if s.running then safetySlot (bbnBegin s) else s)

/-- A safety slot passes at a member of the group: `f` is the frame heard in it (R332). -/
def safetyRx (slot : Nat) (f : Option (List Byte)) (s : State) : State :=
  let own := s.bbnNode
  if !s.joined || s.bbn.silent || !s.bbn.safety.contains own || s.bbn.safety.length ≤ slot ||
      s.bbn.safety.getD slot 0 = own then s
  else
    let miss := fun (s : State) => raise 0x7206 slot (s.inc Reg.BBN.FRAMES.SAFE_MISS)
    match f with
    | none => miss s
    | some f =>
      if f.length ≠ 24 || beAt f 0 2 / 4096 ≠ 2 then miss s
      else match s.compactOpen s.bbn.cycle (16 + slot) f with
        | none => miss (micFail s)
        | some m => safCopy true m s

/-- `SAFETY_FRAME`. -/
def execSafetyFrame (slot : Fin 64) (f : Option (List Byte)) (s : State) : Out :=
  done (if s.running then safetyRx slot f (bbnBegin s) else s)

/-- `SAFETY_ETH_FRAME` (R383, R384): the payload of a frame received on ETH[1]. -/
def execSafetyEthFrame (payload : List Byte) (s : State) : Out :=
  let k := s.cfg 7 0x10 1
  let ok := payload.length = 46 && leAt payload 0 1 = 0x5A && leAt payload 1 1 = s.domain && s.slotHas k 1 &&
    (beBytes 32 (s.slotMac k (payload.take 24))).take 8 = (payload.drop 24).take 8
  done (if s.running && ok then safCopy false ((payload.drop 6).take 18) s else s)

/-! ### Admission (R341, R342) -/

/-- DAK: the key in DAK_SLOT when it carries the backbone-link attribute. -/
def State.dak (s : State) : Option (List Byte) :=
  let k := s.cfg 10 7 1
  if s.slotHas k 6 then some (s.slot k).material else none

/-- The TAG of a join request over bytes 0 to 19. -/
def joinTag (dak d : List Byte) : List Byte :=
  (beBytes 32 (Config.hmacSha256 (kdf dak (ascii "RSJK") [] 256) d)).take 4

/-- The computation of Tc and Tj. -/
def admTag (dak : List Byte) (label : String) (qj qc : List Byte) (joiner coord : Nat) : List Byte :=
  (beBytes 32 (Config.hmacSha256 dak (ascii label ++ qj ++ qc ++ beBytes 6 joiner ++ beBytes 6 coord))).take 16

/-- KEK from the shared x-coordinate. -/
def admKek (priv pub : List Byte) : List Byte := kdf (Config.ecdh 256 priv pub) (ascii "RSWK") [] 128

/-- A join window at a joining node (R341). -/
def joinSlot (s : State) : State :=
  match s.bbn.join, s.dak with
  | some j, some dak =>
    if s.role ≠ 2 || s.bbn.silent then s
    else if j.wait ≠ 0 then s.mapBbn fun b => { b with join := some { j with wait := j.wait - 1 } }
    else if j.asked && j.windows < 4 then s.mapBbn fun b => { b with join := some { j with windows := j.windows + 1 } }
    else if j.asked then
      let (v, s) := s.draw 3
      s.mapBbn fun b => { b with join := some { j with asked := false, windows := 0, wait := v } }
    else
      let (_, s) := s.draw 3
      let d := beBytes 2 (3 * 4096) ++ beBytes 6 s.ownLong ++ beBytes 1 (s.rd Reg.BBN.NODE.DEPTH) ++ beBytes 2 j.via ++
        beBytes 4 s.bbn.cycle ++ List.replicate 5 0
      let s := s.mapBbn fun b => { b with join := some { j with asked := true, windows := 1 } }
      emit ⟨5, 0, 0xFFF, 0, 0, false, false, 0, [d ++ joinTag dak d]⟩ s
  | _, _ => s

/-- `JOIN_MINI_SLOT`. -/
def execJoinMiniSlot (s : State) : Out := done (if s.running then joinSlot (bbnBegin s) else s)

/-- A join request arrives: heard in its mini-slot (`via` 0), or passed on by member `via` (R341, R342). -/
def joinRequestRx (via : Nat) (f : List Byte) (s : State) : State :=
  if f.length ≠ 24 || beAt f 0 2 ≠ 3 * 4096 || s.bbn.silent then s
  else
    let long := beAt f 2 6
    let sender := beAt f 9 2
    if s.role = 3 then
      if via = 0 && sender = s.bbnNode then s.mapBbn fun b => { b with passOn := b.passOn ++ [f] } else s
    else if s.role ≠ 4 then s
    else
      let now := s.rd Reg.PWR.OPSEC.SECONDS
      let off := s.bbn.ignored.any fun x => x.1 = long && now < x.2
      match s.dak with
      | none => s
      | some dak =>
        if joinTag dak (f.take 20) ≠ f.drop 20 then micFail s
        else if off || (via = 0 && sender ≠ 1) || (via ≠ 0 && sender ≠ via) || s.bbn.requests.any (fun x => x.1 = long) then s
        else s.mapBbn fun b => { b with requests := b.requests ++ [(long, if via = 0 then 1 else via)] }

/-- `JOIN_REQUEST`. -/
def execJoinRequest (via : Fin 4096) (f : List Byte) (s : State) : Out :=
  done (if s.running then joinRequestRx via f (bbnBegin s) else s)

/-- An exchange ends with BBN_ADMIT_FAIL; the coordinator ignores an identifier after four failures (R342). -/
def admitFail (s : State) : State :=
  let s := match s.bbn.adm with
    | none => s
    | some a =>
      let n := (s.bbn.admFails.find? fun x => x.1 = a.longId).elim 1 fun x => x.2 + 1
      let s := s.mapBbn fun b => { b with
        adm := none, admFails := (a.longId, n) :: b.admFails.filter (fun x => x.1 ≠ a.longId), down := mapSet (fun _ => []) b.down 0 [] }
      if n < 4 then s
      else
        let rest := s.bbn.ignored.filter fun x => x.1 ≠ a.longId
        s.mapBbn fun b => { b with ignored := (a.longId, s.rd Reg.PWR.OPSEC.SECONDS + 3600) :: rest }
  raise 0x3204 0 s

/-- Downlink blocks for a node; 0 is the joiner. -/
def addDown (n : Nat) (l : List (List Byte)) (s : State) : State :=
  s.mapBbn fun b => { b with down := mapSet (fun _ => []) b.down n (mapGet (fun _ => []) b.down n ++ l) }

/-- ADMIT_A at the coordinator: ADMIT_B is sent. -/
def admitA (long : Nat) (qj : List Byte) (s : State) : State :=
  match s.bbn.adm, s.dak with
  | some a, some dak =>
    if s.role ≠ 4 || a.longId ≠ long then s
    else
      let (priv, s) := drawBytes 32 s
      let qc := Config.ecPublic 256 priv
      let s := s.mapBbn fun b => { b with adm := some { a with qj := qj, priv := priv } }
      let m := beBytes 1 4 ++ beBytes 6 s.ownLong ++ qc ++ admTag dak "RSB1" qj qc long s.ownLong
      let (l, s) := openFrame 0 m s
      addDown 0 l s
  | _, _ => s

/-- `ADMIT_A`. -/
def execAdmitA (long : Nat) (qj : List Byte) (s : State) : Out :=
  done (if s.running then admitA long qj (bbnBegin s) else s)

/-- ADMIT_B at the joiner: Tc is checked, and ADMIT_C waits for the next poll. -/
def admitB (coord : Nat) (qc tc : List Byte) (s : State) : State :=
  match s.bbn.join, s.dak with
  | some j, some dak =>
    if s.role ≠ 2 || j.priv.isEmpty then s
    else
      let qj := Config.ecPublic 256 j.priv
      if admTag dak "RSB1" qj qc s.ownLong coord ≠ tc then
        raise 0x3204 0 (s.mapBbn fun b => { b with join := some ⟨j.via, false, 0, 0, [], 0, [], []⟩, up := [] })
      else
        let s := s.mapBbn fun b => { b with join := some { j with coord := coord, qc := qc, kek := admKek j.priv qc } }
        let (l, s) := openFrame 1 (beBytes 1 5 ++ admTag dak "RSB2" qj qc s.ownLong coord) s
        s.mapBbn fun b => { b with up := b.up ++ l }
  | _, _ => s

/-- `ADMIT_B`. -/
def execAdmitB (coord : Nat) (qc tc : List Byte) (s : State) : Out :=
  done (if s.running then admitB coord qc tc (bbnBegin s) else s)

/-- The identifier for a long identifier: its former one, or the lowest of 2 to 2,048 that none has had. -/
def State.nodeFor (s : State) (long : Nat) : Nat :=
  match s.bbn.ids.find? fun x => x.1 = long with
  | some x => x.2
  | none => ((List.range 2047).map (· + 2)).find? (fun n => !s.bbn.ids.any fun x => x.2 = n) |>.getD 0

/-- ADMIT_C at the coordinator: Tj is checked, the member admitted, and ADMIT_D is sent. -/
def admitC (tj : List Byte) (s : State) : State :=
  match s.bbn.adm, s.dak with
  | some a, some dak =>
    if s.role ≠ 4 || a.priv.isEmpty then s
    else
      let qc := Config.ecPublic 256 a.priv
      let n := s.nodeFor a.longId
      if admTag dak "RSB2" a.qj qc a.longId s.ownLong ≠ tj then admitFail s
      else if n = 0 then s.mapBbn fun b => { b with adm := none }
      else
        let kek := admKek a.priv a.qj
        let wrapped := Config.ccmSeal 8 kek Config.wrapNonce [] (s.nek s.bbn.nekIdx)
        let (l, s) := openFrame 0 (beBytes 1 6 ++ beBytes 2 n ++ beBytes 1 s.bbn.nekIdx ++ wrapped) s
        let via := mapGet (fun _ => []) s.bbn.paths a.via
        let s := addDown 0 l (s.mapBbn fun b => { b with
          adm := some { a with kek := kek }
          ids := if b.ids.any (fun x => x.1 = a.longId) then b.ids else b.ids ++ [(a.longId, n)]
          members := mapIns b.members n ⟨a.longId, kek, false, false⟩
          paths := mapIns b.paths n (via ++ [n])
          requests := b.requests.filter fun x => x.1 ≠ a.longId })
        s.wr Reg.BBN.COORD.MEMBERS s.bbn.members.length
  | _, _ => s

/-- `ADMIT_C`. -/
def execAdmitC (tj : List Byte) (s : State) : Out := done (if s.running then admitC tj (bbnBegin s) else s)

/-- ADMIT_D at the joiner: the node is a member. -/
def admitD (n idx : Nat) (wrapped : List Byte) (s : State) : State :=
  match s.bbn.join with
  | none => s
  | some j =>
    if s.role ≠ 2 || j.kek.isEmpty then s
    else match Config.ccmOpen 8 j.kek Config.wrapNonce [] wrapped with
      | none => micFail s
      | some nek =>
        let s := s.mapBbn fun b => { b with
          join := none, kek := j.kek, neks := mapSet (fun _ => []) [] (idx % 2) nek, nekIdx := idx % 2, fcnt := 0,
          linksDue := true, coordLong := some j.coord }
        let s := ((s.wr Reg.BBN.STATUS.ROLE 3).wr Reg.BBN.NODE.NODE n).setB Reg.BBN.STATUS.SYNC true
        setCause 0x7202 0 false (setCause 0x7209 0 false s)

/-- `ADMIT_D`. -/
def execAdmitD (node : Fin 4096) (idx : Fin 2) (wrapped : List Byte) (s : State) : Out :=
  done (if s.running then admitD node idx wrapped (bbnBegin s) else s)

/-! ### Coordinators (R337 to R339) -/

/-- The node takes the coordinator role (R337); it refuses a configuration without a polled period of 2 ms in a join
cycle (R329). -/
def becomeCoord (s : State) : State :=
  let room := s.polledPeriod (s.rd Reg.BBN.CFG.CYCLE) (s.cfg 10 0x1A 1) (s.cfg 10 0x19 1)
  if room < 120000 || s.coordPri = 0 then s
  else
    let (nek, s) := drawBytes 16 s
    let b := s.bbn
    let s := { s with bbn := { BbnSt.init with
      cycle := b.cycle, links := b.links, ids := b.ids, fseq := b.fseq, coordLong := some s.ownLong, vote := b.vote,
      neks := mapSet (fun _ => []) [] 0 nek, silent := b.silent } }
    let s := ((s.wr Reg.BBN.STATUS.ROLE 4).wr Reg.BBN.NODE.NODE 1).wr Reg.BBN.NODE.DEPTH 0
    let s := ((s.wr Reg.BBN.COORD.PRI s.coordPri).wr Reg.BBN.COORD.MEMBERS 0).setB Reg.BBN.STATUS.SYNC true
    let s := (s.wr Reg.BBN.COORD_LO.VALUE (s.ownLong % 2 ^ 32)).wr Reg.BBN.COORD_HI.VALUE (s.ownLong / 2 ^ 32)
    setCause 0x7202 0 false (setCause 0x7209 0 false s)

/-- `LISTEN_T_ELAPSED` (R337). -/
def execListenTElapsed (s : State) : Out :=
  done (if s.running && s.role = 1 && s.bbn.takeover.isNone && !s.bbn.silent then becomeCoord (bbnBegin s) else s)

/-- `BBN_UNJOINED` (R337). -/
def execBbnUnjoined (s : State) : Out :=
  done (if s.running && (s.role = 1 || s.role = 2) then raiseCause 0x7209 0 s else s)

/-- `BBN_COORD_LOST` (R339): the takeover wait is (256 − COORD_PRI) × 2 cycles and a random 0 to 15. -/
def execBbnCoordLost (s : State) : Out :=
  done (if !(s.running && s.role = 3) then s
    else
      let s := ((bbnListen s).setB Reg.BBN.STATUS.LOST_STK true).inc Reg.BBN.ELECT.LOSSES
      let s := if s.coordPri = 0 then s
        else
          let (v, s) := s.draw 4
          s.mapBbn fun b => { b with takeover := some ((256 - s.coordPri) * 2 + v) }
      raiseCause 0x7202 0 s)

/-- `COORD_TAKEOVER` (R339): the takeover wait ends without a beacon. -/
def execCoordTakeover (s : State) : Out :=
  done (if s.running && s.role = 1 && s.bbn.takeover.isSome && !s.bbn.silent then becomeCoord (bbnBegin s) else s)

/-- `BBN_TX_FAULT` (R315): path p is disabled until the next start. -/
def execBbnTxFault (p : Fin 3) (s : State) : Out :=
  done (if s.running then raiseCause 0x7207 p (s.setFlag Reg.BBN.STATUS.PATH_FAULT p true) else s)

/-! ### Key replacement (R344) -/

/-- The coordinator draws a new NEK, sends it to each member and announces the switch, 64 cycles ahead (log entry 36). -/
def nekReplace (s : State) : State :=
  if s.role ≠ 4 then s
  else
    let (nek, s) := drawBytes 16 s
    let idx := 1 - s.bbn.nekIdx
    let s := s.bbn.members.foldl (fun s x =>
      let m := beBytes 1 7 ++ beBytes 1 idx ++ Config.ccmSeal 8 x.2.kek Config.wrapNonce [] nek
      let (l, s) := sealFrame x.1 0 m s
      addDown x.1 l s) s
    s.mapBbn fun b => { b with neks := mapSet (fun _ => []) b.neks idx nek, nekSwitch := (b.cycle + 64) % 2 ^ 32 }

/-- `NEK_REPLACE`. -/
def execNekReplace (s : State) : Out := done (if s.running then nekReplace (bbnBegin s) else s)

/-- `NEK_UPDATE` at a member. -/
def execNekUpdate (idx : Fin 2) (wrapped : List Byte) (s : State) : Out :=
  done (if !(s.running && s.role = 3) then s
    else match Config.ccmOpen 8 s.bbn.kek Config.wrapNonce [] wrapped with
      | none => micFail (bbnBegin s)
      | some nek => (bbnBegin s).mapBbn fun b => { b with neks := mapSet (fun _ => []) b.neks idx nek })

end Sys2Proof.Machine
end

