-- ==== Sys2Proof/Machine/LoadSwitch.lean ====
section
/-!
DEFINITION. The protected load switch channels (chapter 13): requests, output modes, protection and the heater rule.
-/
namespace Sys2Proof.Machine

/-- The applied duty of HS[c] while it is in ON (R402), with V the group supply in mV; COIL is in pull-in or hold. -/
def hsDuty (c : Nat) (s : State) : Nat :=
  let mode := s.rd (Reg.LSW.CH.CFG.MODE c)
  let v := s.rd (Reg.LSW.VLS.MV (c / 8))
  let nom := 1000 * s.rd (Reg.LSW.VLS.V_NOM (c / 8))
  let upTo := fun (x y : Nat) => if y = 0 then 1000 else min 1000 (x / y)
  if mode = 1 then 1000
  else if mode = 2 then s.rd (Reg.LSW.CH.DUTY.DUTY c)
  else if mode = 3 then upTo (s.rd (Reg.LSW.CH.DUTY.DUTY c) * nom ^ 2) (v ^ 2)
  else if mode = 4 then
    if s.bit (Reg.LSW.CH.STATUS.PULL c) then 1000 else upTo (s.rd (Reg.LSW.CH.COIL.HOLD c) * nom) v
  else if mode = 5 then
    match (List.range 8).find? fun h => s.rd (Reg.LSW.HEAT.CFG.CHANNEL h) = c with
    | some h =>
      if s.bit (Reg.LSW.HEAT.STATE.FALLBACK h) then s.rd (Reg.LSW.HEAT.DUTY.FB_DUTY h)
      else s.rd (Reg.LSW.HEAT.DUTY.HEAT_DUTY h)
    | none => 0
  else 0

/-- The applied duty follows the output mode while the channel is in ON. -/
def hsApply (c : Nat) (s : State) : State :=
  if s.rd (hsUnit c).st = 2 then s.wr (Reg.LSW.CH.STATUS.APPLIED c) (hsDuty c s) else s

/-- The start of HS[c] is complete (R398): ON, with pull-in in MODE 4. -/
def hsStarted (c : Nat) (s : State) : State :=
  if s.rd (hsUnit c).st = 1 then
    let s := unitStarted (hsUnit c) s
    hsApply c (s.setB (Reg.LSW.CH.STATUS.PULL c) (s.rd (Reg.LSW.CH.CFG.MODE c) = 4))
  else s

/-- The off-timer of HS[c] expires (R55): a pending enable starts, or the channel is OFF and R399 may enable it. -/
def hsRested (c : Nat) (s : State) : State :=
  if s.rd (hsUnit c).st = 4 then
    let s := unitRested (hsUnit c) s
    if s.rd (hsUnit c).st = 1 then hsTurnOn c s else hsAuto c s
  else s

/-- The result code with which a request is refused before R55 judges it (R397, R400, R402). -/
def lswRefusal (c : Nat) (s : State) : Option Nat :=
  if s.bit (Reg.LSW.CH.CFG.OWNER c) then some 4
  else if s.mode = 8 || s.mode = 9 then some 5
  else if s.rd (Reg.LSW.CH.CFG.MODE c) = 0 || s.rd (Reg.LSW.CH.CFG.MODE c) = 5 then some 6
  else none

/-- The result of the last request is shown. -/
def lswResult (c code : Nat) (s : State) : State := s.wr (Reg.LSW.CH.HIST.RESULT c) code

/-- LSW.CH[c].CTL with REQ = 1 (R398). -/
def lswEnable (c : Nat) (s : State) : State :=
  match lswRefusal c s with
  | some r => lswResult c r s
  | none =>
    let (t, s) := hsEnable c s
    lswResult c (match t with | .accepted => 0 | .latched => 1 | .discarded => 2 | .refused => 3) s

/-- LSW.CH[c].CTL with REQ = 2 (R398). -/
def lswDisable (c : Nat) (s : State) : State :=
  match lswRefusal c s with
  | some r => lswResult c r s
  | none => lswResult c 0 (hsDisable c s)

/-- LSW.CH[c].CTL with CLR = 1 (R406): the latch clears and the request level is 0. -/
def lswClear (c : Nat) (s : State) : State :=
  let s := setCause (0x7540 + c) c false (setCause (0x7580 + c) c false s)
  ((s.setB (Reg.LSW.CH.STATUS.LATCHED c) false).setB (Reg.LSW.CH.STATUS.REQ_ON c) false).wr
    (Reg.LSW.CH.STATUS.RESTARTS c) 0

/-- A channel latches with its fault (R406, R409): a forcing condition, and the request level 0. -/
def hsLatch (c code : Nat) (s : State) : State :=
  let s := (s.setB (Reg.LSW.CH.STATUS.LATCHED c) true).setB (Reg.LSW.CH.STATUS.REQ_ON c) false
  raiseCause code c (hsForce c s)

/-- A thermal shutdown (R406): the heat is a forcing condition; with RESTARTS = 8 the channel latches. -/
def hsThermal (c : Nat) (s : State) : State :=
  let s := (s.inc (Reg.LSW.CH.HIST.THERMALS c)).setB (Reg.LSW.CH.STATUS.THERMAL c) true
  if s.rd (Reg.LSW.CH.STATUS.RESTARTS c) = 8 then hsLatch c (0x7540 + c) s else hsForce c s

/-- A junction temperature is shown, in 0.1 °C. -/
def hsTj (c : Nat) (tj : Int) (s : State) : State := s.wrI (Reg.LSW.CH.MEAS.TJ c) tj

/-- The channels of group `g`. -/
def groupChannels (g : Nat) : List Nat := (List.range 8).map fun j => 8 * g + j

/-- A channel of a restored group restarts (R407): fold-back at the switch-off counts one thermal restart. -/
def hsGroupRestart (c : Nat) (s : State) : State :=
  if s.hsForced c || !s.bit (Reg.LSW.CH.STATUS.REQ_ON c) then s
  else
    let h := s.hs c
    let s := if h.foldAtUv then
        (s.wr (Reg.LSW.CH.STATUS.RESTARTS c) (min 8 (s.rd (Reg.LSW.CH.STATUS.RESTARTS c) + 1))).setHs c
          { h with foldAtUv := false }
      else s
    (hsEnable c s).2

/-- Whether HS[c] fills a role whose low end floats while LSE[n] is open (R408): COIL0, COIL1, MOVE_DN or MOVE_UP of
an outlet whose LSE[n] is not closed. -/
def State.floats (s : State) (c : Nat) : Bool :=
  (List.range 16).any fun n =>
    (s.rd (Reg.OUT.HS_MAP.COIL0 n) = c || s.rd (Reg.OUT.HS_MAP.COIL1 n) = c ||
      s.rd (Reg.OUT.HS_MAP2.MOVE_DN n) = c || s.rd (Reg.OUT.HS_MAP2.MOVE_UP n) = c) && !s.lse n

/-- The shelfmark body of the sensor that heater `h` names (R411). -/
def State.sensorBody (s : State) (h : Nat) : List Byte :=
  mapGet (fun _ => []) s.sys.shelfBody (s.rd (Reg.LSW.HEAT.CFG.SENSOR h))

/-- The heater rule of R413 after a reading; it holds its output in WARM_THROUGH and RIDE_THROUGH. -/
def heaterRule (h : Nat) (s : State) : State :=
  let fb := s.bit (Reg.LSW.HEAT.STATE.FALLBACK h)
  let t := s.rdI (Reg.LSW.HEAT.READING.TEMP h)
  let spread := t - s.rdI (Reg.LSW.HEAT.STATE.DEW h)
  let was := s.bit (Reg.LSW.HEAT.STATE.WANT h)
  let want := if fb then true
    else if spread < 10 * s.rd (Reg.LSW.HEAT.CFG.ON_SPREAD h) then true
    else if spread > 10 * s.rd (Reg.LSW.HEAT.CFG.OFF_SPREAD h) then false
    else was
  if s.mode = 8 || s.mode = 9 then s
  else
    let c := s.rd (Reg.LSW.HEAT.CFG.CHANNEL h)
    let s := s.setB (Reg.LSW.HEAT.STATE.WANT h) want
    let s := if want = was then s else hsDrive c want s
    if c < 40 then hsApply c s else s

/-- A heater goes on fallback with its fault (R412). -/
def heaterFallback (h : Nat) (s : State) : State :=
  if s.bit (Reg.LSW.HEAT.STATE.FALLBACK h) then s
  else raiseCause (0x75B0 + h) h (s.setB (Reg.LSW.HEAT.STATE.FALLBACK h) true)

/-- A heater's sensor is read (R412), offsets added; three unusable readings in a row put it on fallback. -/
def heaterRead (h : Nat) (r : Option (Int × Nat)) (s : State) : State :=
  let b := s.sensorBody h
  let usable := match r with
    | some (t, rh) =>
      let t := t + toInt 16 (leAt b 6 2)
      let rh := (rh : Int) + toInt 16 (leAt b 4 2)
      if b.isEmpty || rh < 0 || 10000 < rh || t < -4500 || 12500 < t then none else some (t, rh.toNat)
    | none => none
  let setBad := fun (n : Nat) (s : State) =>
    { s with lsw := { s.lsw with bad := mapSet (fun _ => 0) s.lsw.bad h n } }
  match usable with
  | some (t, rh) =>
    let s := setBad 0 s
    let s := if s.bit (Reg.LSW.HEAT.STATE.FALLBACK h) then
        setCause (0x75B0 + h) h false (s.setB (Reg.LSW.HEAT.STATE.FALLBACK h) false) else s
    let s := (s.wrI (Reg.LSW.HEAT.READING.TEMP h) t).wr (Reg.LSW.HEAT.READING.RH h) rh
    heaterRule h (s.wrI (Reg.LSW.HEAT.STATE.DEW h) (Config.dewPoint t (max 100 rh)))
  | none =>
    let n := min 3 (mapGet (fun _ => 0) s.lsw.bad h + 1)
    let s := setBad n s
    heaterRule h (if 3 ≤ n || b.isEmpty then heaterFallback h s else s)

/-! ### Meanings -/

/-- `LSW_ENABLE_REQUEST` (R398). -/
def execLswEnableRequest (a : Agent) (c : Fin 40) (s : State) : Out := done (gated a 1 (lswEnable c) s)

/-- `LSW_DISABLE_REQUEST` (R398). -/
def execLswDisableRequest (a : Agent) (c : Fin 40) (s : State) : Out := done (gated a 1 (lswDisable c) s)

/-- `LSW_CLR` (R406). -/
def execLswClr (a : Agent) (c : Fin 40) (s : State) : Out := done (gated a 1 (lswClear c) s)

/-- `START_ON_ENABLE` (R401): in the first mode after START_TEST. -/
def execStartOnEnable (c : Fin 40) (s : State) : Out :=
  done (if s.running && 3 ≤ s.mode && (s.hs c).startOn then (hsEnable c s).2 else s)

/-- `LSW_NO_DISCHARGE` (R398). -/
def execLswNoDischarge (c : Fin 40) (s : State) : Out :=
  done (live (fun s => if s.rd (hsUnit c).st = 3 then raise (0x3540 + c) c (unitStopped (hsUnit c) s) else s) s)

/-- `COIL_PULL_END` (R402). -/
def execCoilPullEnd (c : Fin 40) (vlsMv : Nat) (s : State) : Out :=
  done (live (fun s =>
    let s := s.wr (Reg.LSW.VLS.MV (c / 8)) vlsMv
    hsApply c (s.setB (Reg.LSW.CH.STATUS.PULL c) false)) s)

/-- `INRUSH_END` (R405). -/
def execInrushEnd (c : Fin 40) (s : State) : Out := done (live (fun s => s.setB (Reg.LSW.CH.STATUS.INRUSH c) false) s)

/-- `FOLDBACK_ENTRY` (R405): outside the inrush window, while the channel is on. -/
def execFoldbackEntry (c : Fin 40) (s : State) : Out :=
  done (live (fun s =>
    let st := s.rd (hsUnit c).st
    if (st = 1 || st = 2) && !s.bit (Reg.LSW.CH.STATUS.INRUSH c) && !s.bit (Reg.LSW.CH.STATUS.FOLDBACK c) then
      (s.setB (Reg.LSW.CH.STATUS.FOLDBACK c) true).inc (Reg.LSW.CH.HIST.FOLDBACKS c)
    else s) s)

/-- `FOLDBACK_TIMEOUT` (R405): the switch-off counts as a thermal shutdown. -/
def execFoldbackTimeout (c : Fin 40) (s : State) : Out :=
  done (live (fun s => if s.bit (Reg.LSW.CH.STATUS.FOLDBACK c) then hsThermal c s else s) s)

/-- `THERMAL_SHUTDOWN` (R406). -/
def execThermalShutdown (c : Fin 40) (tj : Int) (s : State) : Out :=
  done (live (fun s => hsThermal c (hsTj c tj s)) s)

/-- `THERMAL_COOLED` (R406): the heat condition ends, and R399 restarts the channel. -/
def execThermalCooled (c : Fin 40) (tj : Int) (s : State) : Out :=
  done (live (fun s =>
    let s := hsTj c tj s
    if s.bit (Reg.LSW.CH.STATUS.THERMAL c) then
      let s := s.setB (Reg.LSW.CH.STATUS.THERMAL c) false
      hsAuto c (s.setHs c { s.hs c with heatRestart := true })
    else s) s)

/-- `RESTARTS_RESET` (R406): 60 s in ON without a thermal shutdown. -/
def execRestartsReset (c : Fin 40) (s : State) : Out :=
  done (live (fun s => if s.rd (hsUnit c).st = 2 then s.wr (Reg.LSW.CH.STATUS.RESTARTS c) 0 else s) s)

/-- The supply of group `g` fails: its channels, and the outlets whose coils they drive, are forced off; a channel in
fold-back at its eighth restart latches (R407). -/
def groupOff (g : Nat) (s : State) : State :=
  let s := ((s.setFlag Reg.LSW.STATUS.UV g true).setFlag Reg.LSW.STATUS.UV_STK g true).inc (Reg.LSW.VLS.UV_OFFS g)
  let s := (groupChannels g).foldl (fun s c =>
    let fold := s.bit (Reg.LSW.CH.STATUS.FOLDBACK c)
    if fold && s.rd (Reg.LSW.CH.STATUS.RESTARTS c) = 8 then hsLatch c (0x7540 + c) s
    else hsForce c (s.setHs c { s.hs c with foldAtUv := fold })) s
  forEach 16 (fun n s =>
    if s.rd (Reg.OUT.HS_MAP.COIL0 n) / 8 = g || s.rd (Reg.OUT.HS_MAP.COIL1 n) / 8 = g then outForce n 14 s else s) s

/-- VLS[g] below 7.5 V (R407): a forcing condition for its channels, and for the outlets whose coils they drive. -/
def groupUv (g mv : Nat) (s : State) : State :=
  let s := (s.wr (Reg.LSW.VLS.MV g) mv).setFlag Reg.PWR.STATUS.VLS_OK g false
  if s.flag Reg.LSW.STATUS.UV g then s
  else addDegr (0x7570 + g) g true (raiseCause (0x7570 + g) g (groupOff g s))

/-- `LSW_GROUP_UV` (R407). -/
def execLswGroupUv (g : Fin 5) (mv : Nat) (s : State) : Out := done (live (groupUv g mv) s)

/-- The channels of a group that wait for their restart. -/
def setRestart (g : Nat) (l : List Nat) (s : State) : State :=
  { s with lsw := { s.lsw with restart := mapSet (fun _ => []) s.lsw.restart g l } }

/-- The group's supply is good again: its first channel restarts at once, the others wait their turn (R407). -/
def groupUvEnd (g mv : Nat) (s : State) : State :=
  let s := (s.wr (Reg.LSW.VLS.MV g) mv).setFlag Reg.PWR.STATUS.VLS_OK g true
  let s := dropDegr (0x7570 + g) g (setCause (0x7570 + g) g false (s.setFlag Reg.LSW.STATUS.UV g false))
  match (groupChannels g).filter fun c =>
      s.bit (Reg.LSW.CH.STATUS.REQ_ON c) && !s.bit (Reg.LSW.CH.STATUS.LATCHED c) with
  | [] => s
  | c :: r => hsGroupRestart c (setRestart g r s)

/-- `GROUP_UV_END` (R407). -/
def execGroupUvEnd (g : Fin 5) (mv : Nat) (s : State) : Out := done (live (groupUvEnd g mv) s)

/-- The next channel of the group restarts (R407). -/
def groupRestart (g : Nat) (s : State) : State :=
  match mapGet (fun _ => []) s.lsw.restart g with
  | [] => s
  | c :: r => hsGroupRestart c (setRestart g r s)

/-- `GROUP_RESTART` (R407). -/
def execGroupRestart (g : Fin 5) (s : State) : Out := done (live (groupRestart g) s)

/-- An output above 2.0 V in OFF (R408): with OL_EN, the fault once for each verdict. -/
def openLoad (c : Nat) (s : State) : State :=
  if s.bit (Reg.LSW.CH.CFG.OL_EN c) && s.rd (hsUnit c).st = 0 && !s.floats c then
    let s := s.setB (Reg.LSW.CH.STATUS.OPEN_LOAD c) true
    if (s.hs c).openRaised then s
    else raiseCause (0x3500 + c) c (s.setHs c { s.hs c with openRaised := true })
  else s

/-- `LSW_OPEN_LOAD` (R408). -/
def execLswOpenLoad (c : Fin 40) (s : State) : Out := done (live (openLoad c) s)

/-- `LSW_CLAMP` (R409). -/
def execLswClamp (c : Fin 40) (s : State) : Out := done (live (fun s => hsLatch c (0x7580 + c) s) s)

/-- `LSW_BUDGET` (R410): no channel is switched off. -/
def execLswBudget (mw : Nat) (s : State) : Out :=
  done (live (fun s =>
    let s := (s.wr Reg.LSW.POWER.P_MW (min 65535 mw)).setB Reg.LSW.STATUS.BUDGET (4000 < mw)
    if 4000 < mw then raiseCause 0x7578 0 (s.setB Reg.LSW.STATUS.BUDGET_STK true) else s) s)

/-- `HEATER_SENSOR_READ` (R412, R413): in every mode from COMMISSIONING to SAFE_HOLD. -/
def execHeaterSensorRead (h : Fin 8) (reading : Option (Int × Nat)) (s : State) : Out :=
  done (if s.running && 4 ≤ s.mode && s.mode ≤ 10 && s.rd (Reg.LSW.HEAT.CFG.CHANNEL h) ≠ 0xFF then
      heaterRead h reading s else s)

end Sys2Proof.Machine
end

