-- ==== Sys2Proof/Machine/Polls.lean ====
section
/-!
DEFINITION. The polled period of the Rosash backbone (chapter 11): polls and their frames, link measurements and tone
maps, link costs and paths, and group activation votes.
-/
namespace Sys2Proof.Machine

/-! ### Links (R328, R335, R336) -/

/-- The figures of an entry of a LINKS message. -/
def State.linkReport (s : State) (n : Nat) : LinkReport :=
  let l := s.bbnLink n
  ⟨n, s.linkCost l, (Config.rounded (s.linkE l.maps * 10)).toNat % 65536, (Config.rounded (l.f * 10)).toNat % 65536⟩

/-- The neighbours this node has heard, at most 32. -/
def State.neighbours (s : State) : List Nat := ((s.bbn.links.filter fun x => x.2.frames ≠ 0).map (·.1)).take 32

/-- A frame with a decoded FC arrives from a neighbour. -/
def linkHeard (n : Nat) (s : State) : State :=
  let l := s.bbnLink n
  setBbnLink n { l with frames := min 65535 (l.frames + 1), age := 0 } s

/-- An offered tone map is in force once its TONEMAP message has left the queues and been acknowledged (R328). -/
def offerTaken (n : Nat) (s : State) : State :=
  let l := s.bbnLink n
  match l.offer with
  | none => s
  | some (t, bs) =>
    let waits := bs.any fun b => s.bbn.up.contains b || s.bbn.down.any fun x => x.2.contains b
    if waits then s
    else setBbnLink n { l with offer := none, maps := l.maps.filter (fun x => x.idx ≠ t.idx) ++ [t] } s

/-- The interval of an incoming link that a position lies in: the tone map's index, 0 without tone maps. -/
def BbnLink.interval (l : BbnLink) (pos : Nat) : Nat :=
  match l.maps.find? fun t => t.start ≤ pos && pos < t.stop with | some t => t.idx | none => 0

/-- The measurements of a DATA frame of `n` blocks, `bad` of which failed at their first transmission. -/
def linkMeasure (src n bad : Nat) (first : Bool) (m : RxMeas) (s : State) : State :=
  let l := s.bbnLink src
  let i := l.interval m.pos
  let c := mapGet (fun _ => (0, 0, 0)) l.since i
  setBbnLink src { l with
    meas := mapSet (fun _ => []) l.meas i ((m :: mapGet (fun _ => []) l.meas i).take 16)
    since := mapSet (fun _ => (0, 0, 0)) l.since i (c.1 + 1, c.2.1 + n, c.2.2 + bad)
    errs := if first then (decide (bad ≠ 0) :: l.errs).take 64 else l.errs } s

/-- A message of this node for another: uplink from a member, downlink from the coordinator. -/
def bbnSend (dst : Nat) (m : List Byte) (s : State) : List (List Byte) × State :=
  let (l, s) := sealFrame dst 0 m s
  (l, if s.role = 4 then addDown dst l s else s.mapBbn fun b => { b with up := b.up ++ l })

/-- A tone map as a TONEMAP message carries it: nibbles in carrier order. -/
def tonemapMsg (t : ToneMap) : List Byte :=
  [1] ++ beBytes 1 t.idx ++ beBytes 1 t.start ++ beBytes 1 (t.stop % 256) ++ beBytes 1 t.gi ++ beBytes 1 t.rate ++
    (List.range 447).flatMap fun k => beBytes 1 (t.bits.getD (2 * k) 0 * 16 + t.bits.getD (2 * k + 1) 0)

/-- After every 16th frame in an interval the receiver chooses a new tone map, and sends it when its rate differs by
more than 10 % or more than 10 % of the blocks failed (R328). -/
def toneMapChoose (nbr i : Nat) (s : State) : State :=
  let l := s.bbnLink nbr
  let c := mapGet (fun _ => (0, 0, 0)) l.since i
  if !s.joined || c.1 < 16 then s
  else
    let old := l.maps.find? fun t => t.idx = i
    let t := s.chooseMap i (old.elim 0 (·.start)) (old.elim 256 (·.stop)) (mapGet (fun _ => []) l.meas i)
    let e0 := old.elim s.roboE mapRate
    let e1 := mapRate t
    let far := decide (e0 * 11 / 10 < e1 ∨ e1 < e0 * 9 / 10)
    let s := setBbnLink nbr { l with since := mapSet (fun _ => (0, 0, 0)) l.since i (0, 0, 0) } s
    if far || c.2.1 < 10 * c.2.2 then
      let (bs, s) := bbnSend nbr (tonemapMsg t) s
      setBbnLink nbr { s.bbnLink nbr with offer := some (t, bs) } s
    else s

/-- `TONE_MAP_CHOOSE`. -/
def execToneMapChoose (nbr : Fin 4096) (i : Fin 6) (s : State) : Out :=
  done (if s.running then toneMapChoose nbr i (bbnBegin s) else s)

/-- `TONEMAP` (R326, R328): the map of an outgoing link, in force from the next frame sent. -/
def execToneMap (src : Fin 4096) (t : ToneMap) (s : State) : Out :=
  let l := s.bbnLink src
  done (if s.running && s.joined && t.idx < 6 then
      setBbnLink src { l with outMaps := l.outMaps.filter (fun x => x.idx ≠ t.idx) ++ [t] } s else s)

/-- The key of a directed link. -/
def linkKey (a b : Nat) : Nat := 4096 * a + b

/-- The directed links the coordinator knows, as (from, to, cost): those reported, and for a neighbour that has
reported none the coordinator's own incoming link (log entry 37); links marked down are left out. -/
def State.bbnEdges (s : State) : List (Nat × Nat × Nat) :=
  let known := s.bbn.costs.map fun x => (x.1 / 4096, x.1 % 4096, x.2.1)
  let own := (s.bbn.links.filter fun x => x.2.frames ≠ 0 && !s.bbn.costs.any fun y => y.1 = linkKey 1 x.1).map fun x =>
    (1, x.1, s.linkCost x.2)
  (known ++ own).filter fun x => !s.bbn.downs.contains (linkKey x.1 x.2.1)

/-- A path is better: lower cost, then fewer hops, then the lower first repeater (R336). -/
def betterPath (a b : Nat × List Nat) : Bool :=
  a.1 < b.1 || (a.1 = b.1 && (a.2.length < b.2.length || (a.2.length = b.2.length && a.2.headD 0 < b.2.headD 0)))

/-- One more hop: every known path grown by every link. -/
def growPaths (edges : List (Nat × Nat × Nat)) (p : SMap (Nat × List Nat)) : SMap (Nat × List Nat) :=
  edges.foldl (fun q (e : Nat × Nat × Nat) =>
    let (a, b, c) := e
    match p.find? fun x => x.1 = a with
    | none => q
    | some x =>
      let cand := (x.2.1 + c, x.2.2 ++ [b])
      if b = 1 || x.2.2.contains b then q
      else match q.find? fun y => y.1 = b with
        | none => mapIns q b cand
        | some y => if betterPath cand y.2 then mapIns q b cand else q) p

/-- The paths of least cost with at most 15 hops. -/
def State.bestPaths (s : State) : SMap (Nat × List Nat) :=
  let e := s.bbnEdges
  let first := e.foldl (fun q (x : Nat × Nat × Nat) =>
    if x.1 = 1 && x.2.1 ≠ 1 then mapIns q x.2.1 (x.2.2, [x.2.1]) else q) ([] : SMap (Nat × List Nat))
  (List.range 14).foldl (fun p _ => growPaths e p) first

/-- Every member's path is computed anew; a member that no path reaches keeps its former one. -/
def routesCompute (s : State) : State :=
  let best := s.bestPaths
  s.mapBbn fun b => { b with paths := b.members.map fun (x : Nat × BbnMember) =>
    (x.1, match best.find? fun y => y.1 = x.1 with
      | some y => y.2.2
      | none => mapGet (fun _ => [x.1]) b.paths x.1) }

/-- An epoch starts (R334, R336): SLOW, and paths of least cost. -/
def epochStart (s : State) : State :=
  if s.role ≠ 4 then s
  else
    let slow := s.bbn.members.any fun x => !x.2.polled
    let s := (s.setB Reg.BBN.STATUS.SLOW slow).mapBbn fun b => { b with
      members := b.members.map fun (x : Nat × BbnMember) => (x.1, { x.2 with polled := false }) }
    routesCompute s

/-- `EPOCH_START`. -/
def execEpochStart (s : State) : Out := done (if s.running then epochStart (bbnBegin s) else s)

/-- `LINKS` (R336): a member reports its incoming links; a reported link comes back up. -/
def execLinks (src : Fin 4096) (l : List LinkReport) (s : State) : Out :=
  done (if !(s.running && s.role = 4) then s
    else s.mapBbn fun b => { b with
      costs := (l.take 32).foldl (fun m r => mapIns m (linkKey r.nbr src) (r.cost, r.e)) b.costs
      downs := b.downs.filter fun k => !l.any fun r => linkKey r.nbr src = k })

/-! ### Polls (R333, R334) -/

/-- The node at place `i` of a route: 0 is the coordinator. -/
def BbnPoll.at (p : BbnPoll) (i : Nat) : Nat := if i = 0 then 1 else p.route.getD (i - 1) 0

/-- The poll under way changed. -/
def mapPoll (f : BbnPoll → BbnPoll) (s : State) : State := s.mapBbn fun b => { b with poll := b.poll.map f }

/-- The blocks a node has to send in a poll: downlink at the coordinator, uplink at the target, else those held to
forward. -/
def State.pollQueue (s : State) (p : BbnPoll) : List (List Byte) :=
  if p.pos = 0 then mapGet (fun _ => []) s.bbn.down (p.at p.route.length)
  else if p.pos = p.route.length then s.bbn.up else p.fwd

/-- Those blocks replaced. -/
def setPollQueue (p : BbnPoll) (l : List (List Byte)) (s : State) : State :=
  if p.pos = 0 then s.mapBbn fun b => { b with down := mapSet (fun _ => []) b.down (p.at p.route.length) l }
  else if p.pos = p.route.length then s.mapBbn fun b => { b with up := l }
  else mapPoll (fun p => { p with fwd := l }) s

/-- A poll ends at this node. -/
def pollEnd (s : State) : State := s.mapBbn fun b => { b with poll := none }

/-- A DATA frame with up to `grant` of the waiting blocks goes to place `to` of the route (R327, R333). -/
def sendData (to_ grant pos : Nat) (s : State) : State :=
  match s.bbn.poll with
  | none => s
  | some p =>
    let q := s.pollQueue p
    let dst := p.at to_
    let (n, tmi) := frameFit (s.bbnLink dst).outMaps (!Nat.testBit s.bbn.flags 5) s.bbn.half pos (min (min grant 16) q.length)
    let (f, s) := nextFseq s
    let bs := q.take n
    let s := mapPoll (fun p => { p with
      awaitSeq := some f, awaitFrom := dst, tries := 0, out := (List.range bs.length).zip bs }) s
    emitPoll ⟨2, s.bbnNode, dst, tmi, f, false, n < q.length, 0, bs⟩ s

/-- The failed blocks go out again in the next frame of the same poll. -/
def resendData (pos : Nat) (s : State) : State :=
  match s.bbn.poll with
  | none => s
  | some p =>
    let (_, tmi) := frameFit (s.bbnLink p.awaitFrom).outMaps (!Nat.testBit s.bbn.flags 5) s.bbn.half pos p.out.length
    let (f, s) := nextFseq s
    let info := p.out.foldl (fun v x => v + 2 ^ x.1) 0
    let s := s.wr Reg.BBN.FRAMES.RETX (min 65535 (s.rd Reg.BBN.FRAMES.RETX + p.out.length))
    let s := mapPoll (fun p => { p with awaitSeq := some f, tries := p.tries + 1 }) s
    emitPoll ⟨2, s.bbnNode, p.awaitFrom, tmi, f, true, p.out.length < (s.pollQueue p).length, info, p.out.map (·.2)⟩ s

/-- NULL goes to place `to` of the route. -/
def sendNull (to_ : Nat) (s : State) : State :=
  match s.bbn.poll with
  | none => s
  | some p =>
    let (f, s) := nextFseq s
    emitPoll ⟨3, s.bbnNode, p.at to_, 1, f, false, false, 0, []⟩ s

/-- The POLL of hop `idx` as its short payload. -/
def pollPayload (p : BbnPoll) (idx : Nat) : List Byte :=
  let h := beBytes 2 p.seq ++ beBytes 1 p.route.length ++ beBytes 1 idx ++
    beBytes 23 ((List.range 15).foldl (fun v i => v * 4096 + p.route.getD i 0 % 4096) 0 * 16) ++ beBytes 1 p.grant ++
    beBytes 1 (b2n p.down) ++ List.replicate 15 0
  h ++ beBytes 4 (crc32 h)

/-- POLL goes from this node to the next on the route. -/
def sendPoll (s : State) : State :=
  match s.bbn.poll with
  | none => s
  | some p =>
    let (f, s) := nextFseq s
    emitPoll ⟨1, s.bbnNode, p.at (p.pos + 1), 0, f, false, false, p.grant, [pollPayload p (p.pos + 1)]⟩ s

/-- The MAC frames that the buffers of the items of Q[8] hold join the queues (R345). -/
def loadTx (bufs : List TxBuf) (s : State) : State :=
  bufs.foldl (fun s b =>
    match takeHead 8 s with
    | none => s
    | some (_, s) =>
      let (l, s) := sealFrame b.edst b.proto b.payload s
      if s.role ≠ 4 then s.mapBbn fun x => { x with up := x.up ++ l }
      else if b.edst = 0xFFF then s.bbn.members.foldl (fun s m => addDown m.1 l s) s
      else if s.bbn.members.any fun m => m.1 = b.edst then addDown b.edst l s
      else s) s

/-- The time of n blocks over a link of E in 0.1 Mbit/s, samples. -/
def blockTime (n e : Nat) : Nat := if e = 0 then n * 30720 else n * 1912 * 600 / e + 1

/-- A bound on a poll with every retransmission allowed, samples (R333). -/
def pollBound (es : List Nat) (retx grant down : Nat) : Nat :=
  es.foldl (fun t e =>
    let data := fun (n : Nat) => if n = 0 then fcTime + ifsTime
      else (retx + 1) * (2 * (fcTime + ifsTime) + blockTime n e)
    t + 2 * (pollTime + ifsTime + absentTime) + 2 * absentTime + data grant + (if down = 0 then 0 else data down)) 0

/-- E of the links of a route. -/
def State.routeE (s : State) (route : List Nat) : List Nat :=
  ((1 :: route).zip route).map fun x => (mapGet (fun _ => (0, (Config.rounded (s.roboE * 10)).toNat)) s.bbn.costs (linkKey x.1 x.2)).2

/-- The member polled next (R334): with downlink waiting, then with MORE, then in rotation. -/
def State.nextMember (s : State) : Option Nat :=
  let ids := s.bbn.members.map (·.1)
  let rot := ids.filter (s.bbn.lastPolled < ·) ++ ids.filter (· ≤ s.bbn.lastPolled)
  let due := rot.filter fun n => !(mapGet (fun _ => []) s.bbn.down n).isEmpty
  let more := rot.filter fun n => s.bbn.members.any fun x => x.1 = n && x.2.more
  (due ++ more ++ rot).head?

/-- The target of the next poll and its route: a joiner under admission at identifier 0, else the next member. -/
def State.nextTarget (s : State) : Option (Nat × List Nat) :=
  match s.bbn.adm with
  | some a => some (0, mapGet (fun _ => []) s.bbn.paths a.via ++ [0])
  | none => s.nextMember.map fun n => (n, mapGet (fun _ => [n]) s.bbn.paths n)

/-- The first joiner that waits comes under admission when none is. -/
def admissionTake (s : State) : State :=
  match s.bbn.adm, s.bbn.requests with
  | none, r :: rest => s.mapBbn fun b => { b with adm := some ⟨r.1, r.2, [], [], []⟩, requests := rest }
  | _, _ => s

/-- The next poll starts, `left` µs before the quiet part of the cycle. -/
def pollStart (left : Nat) (bufs : List TxBuf) (s : State) : State :=
  if s.role ≠ 4 || s.bbn.silent then s
  else
    let s := admissionTake (loadTx bufs s)
    match s.nextTarget with
    | none => s
    | some (t, route) =>
      let down := min 16 (mapGet (fun _ => []) s.bbn.down t).length
      let fits := fun (g : Nat) => decide (pollBound (s.routeE route) (s.rd Reg.BBN.CFG.RETX_MAX) g down ≤ 60 * left)
      match ((List.range 17).map (16 - ·)).find? fits with
      | none => s
      | some g =>
        let p : BbnPoll := ⟨s.bbn.pollSeq, route, 0, g, decide (down ≠ 0), false, none, 0, [], 0, [], none, 0, [], none⟩
        let s := s.mapBbn fun b => { b with
          poll := some p, pollSeq := (b.pollSeq + 1) % 65536, lastPolled := if t = 0 then b.lastPolled else t
          members := b.members.map fun (x : Nat × BbnMember) => if x.1 = t then (x.1, { x.2 with polled := true }) else x }
        sendPoll s

/-- `POLL_START`. -/
def execPollStart (left : Nat) (bufs : List TxBuf) (s : State) : Out :=
  done (if s.running then pollStart left bufs (bbnBegin s) else s)

/-- The messages that a member owes at a poll: join requests to pass on, the LINKS report, and the answer to a vote
(R336, R341, R348). -/
def oweMessages (s : State) : State :=
  let s := s.bbn.passOn.foldl (fun s f => let (v, s) := s.fresh; (bbnSend 1 (beBytes 1 v ++ f) s).2) s
  let s := s.mapBbn fun b => { b with passOn := [] }
  let s := if s.bbn.linksDue then
      let l := s.neighbours.map s.linkReport
      let m := [2] ++ beBytes 1 l.length ++ l.flatMap fun r => beBytes 2 r.nbr ++ beBytes 2 r.cost ++ beBytes 2 r.e ++ beBytes 2 r.f
      (bbnSend 1 m (s.mapBbn fun b => { b with linksDue := false })).2
    else s
  match s.bbn.vote with
  | none => s
  | some v =>
    if v.mine.isSome || v.outcome ≠ 0 then s
    else
      let ok := s.voteReady v.hash
      let (why, s) := s.fresh
      let s := (s.mapBbn fun b => { b with vote := some { v with mine := some ok } }).wr Reg.BBN.VOTE.STATE (if ok then 2 else 3)
      (bbnSend 1 ([9] ++ beBytes 2 v.id ++ beBytes 1 (b2n ok) ++ beBytes 1 why) s).2

/-- The first answer of a joiner: ADMIT_A with a fresh ephemeral key (R342). -/
def joinerAnswer (s : State) : State :=
  match s.bbn.join with
  | none => s
  | some j =>
    if !j.priv.isEmpty then s
    else
      let (priv, s) := drawBytes 32 s
      let s := s.mapBbn fun b => { b with join := some { j with priv := priv } }
      let (l, s) := openFrame 1 (beBytes 1 3 ++ beBytes 6 s.ownLong ++ Config.ecPublic 256 priv) s
      s.mapBbn fun b => { b with up := b.up ++ l }

/-- Whether a POLL for identifier 0 is for this joiner: it has asked through its sender. -/
def State.joinerPolled (s : State) (src : Nat) : Bool :=
  s.role = 2 && match s.bbn.join with | some j => j.asked && j.via = src | none => false

/-- The poll that the payload of a POLL describes, at a node whose place is its HOP_IDX. -/
def pollOf (d : List Byte) : BbnPoll :=
  ⟨beAt d 0 2, (List.range (leAt d 2 1)).map fun i => beAt d 4 23 / 2 ^ (184 - 12 * (i + 1)) % 4096, leAt d 3 1,
    leAt d 27 1, leAt d 28 1 % 2 = 1, false, none, 0, [], 0, [], none, 0, [], none⟩

/-- The target of a poll answers with data, or with NULL when it has none or no grant (R333). -/
def pollAnswer (p : BbnPoll) (bufs : List TxBuf) (pos : Nat) (s : State) : State :=
  let s := if s.role = 2 then joinerAnswer s else oweMessages (loadTx bufs s)
  if s.bbn.up.isEmpty || p.grant = 0 then sendNull (p.pos - 1) s else sendData (p.pos - 1) p.grant pos s

/-- A POLL is received (R333): a repeater forwards it and keeps the route; the target answers. -/
def pollRx (fc : Nat) (d : List Byte) (bufs : List TxBuf) (pos : Nat) (s : State) : State :=
  if s.role < 2 || s.bbn.silent || !s.fcOk 1 fc || fcDst fc ≠ s.bbnNode then s
  else
    let src := fcSrc fc
    let s := linkHeard src s
    if d.length ≠ 48 || crc32 (d.take 44) ≠ beAt d 44 4 then s
    else
      let p := pollOf d
      let hops := p.route.length
      if hops = 0 || 15 < hops || p.pos = 0 || hops < p.pos || (s.bbnNode = 0 && !s.joinerPolled src) then s
      else
        let s := s.mapBbn fun b => { b with poll := some p }
        if p.pos < hops then sendPoll s else pollAnswer p bufs pos s

/-- `POLL`. -/
def execPoll (fc : Nat) (p : List Byte) (bufs : List TxBuf) (pos : Fin 256) (s : State) : Out :=
  done (if s.running then pollRx fc p bufs pos (bbnBegin s) else s)

/-- The long identifier of a frame's originator; `long` where this node does not itself know it. -/
def State.longOf (s : State) (n long : Nat) : Nat :=
  if n = s.bbnNode then s.ownLong
  else if n = 1 then s.bbn.coordLong.getD long
  else match s.bbn.members.find? fun x => x.1 = n with | some x => x.2.longId | none => long

/-- A whole MAC frame has reached this node (R343, R345): its tag is checked; the runtime's frames go to Q[7], and the
coordinator passes on what is for another member. Management messages act by their own commands. -/
def macDeliver (f : List Byte) (long : Nat) (s : State) : State :=
  let esrc := beAt f 0 2
  let edst := beAt f 2 2
  let proto := leAt f 6 1
  let key := leAt f 7 1
  if key = 0xFF || f.length < 20 then s
  else if !s.nekAccepted key then s
  else match Config.ccmOpen 8 (s.nek key) (macNonce (s.longOf esrc long) (beAt f 8 4)) (f.take 12) (f.drop 12) with
    | none => micFail s
    | some _ =>
      let s := if s.role = 4 && edst ≠ 1 then
          s.bbn.members.foldl (fun s m =>
            if (edst = m.1 || edst = 0xFFF) && m.1 ≠ esrc then addDown m.1 (macBlocks f) s else s) s
        else s
      if proto ≠ 0 && (edst = s.bbnNode || edst = 0xFFF) then
        let (a, s) := s.fresh
        let (b, s) := s.fresh
        let (c, s) := s.fresh
        let (d, s) := s.fresh
        hwPost 7 [a % 2 ^ 64, b % 2 ^ 64, c % 2 ^ 64, d % 2 ^ 64] s
      else s

/-- The blocks held from a neighbour. -/
def State.heldFrom (s : State) (n : Nat) : List (List Byte) := mapGet (fun _ => []) s.bbn.held n

/-- After the uplink part the coordinator sends the downlink, or the poll ends. -/
def downlinkOrEnd (pos : Nat) (s : State) : State :=
  match s.bbn.poll with
  | none => s
  | some p =>
    if (mapGet (fun _ => []) s.bbn.down (p.at p.route.length)).isEmpty then pollEnd s else sendData 1 16 pos s

/-- Every block of a DATA frame from place `from` is in, or its retransmissions are used up: whole MAC frames are
forwarded by a repeater and delivered at the end of their way. -/
def dataComplete (src long pos : Nat) (s : State) : State :=
  match s.bbn.poll with
  | none => s
  | some p =>
    let up := decide (p.at (p.pos + 1) = src && p.pos < p.route.length)
    let (fs, rest) := takeFrames 17 (s.heldFrom src)
    let s := s.mapBbn fun b => { b with held := mapSet (fun _ => []) b.held src rest }
    if up && p.pos = 0 then downlinkOrEnd pos (fs.foldl (fun s f => macDeliver (frameBytes f) long s) s)
    else if !up && p.pos = p.route.length then fs.foldl (fun s f => macDeliver (frameBytes f) long s) s
    else if fs.isEmpty then (if up then sendNull (p.pos - 1) s else s)
    else
      let s := mapPoll (fun p => { p with fwd := p.fwd ++ fs.flatMap id }) s
      sendData (if up then p.pos - 1 else p.pos + 1) 16 pos s

/-- The places that the blocks of a first transmission take among the held ones: missing ones first, then new ones. -/
def placesFor (held : List (List Byte)) (n : Nat) : List Nat :=
  let gaps := (List.range held.length).filter fun i => (held.getD i []).isEmpty
  (gaps ++ (List.range n).map (held.length + ·)).take n

/-- A block takes its place among held ones. -/
def placeBlock (held : List (List Byte)) (i : Nat) (b : List Byte) : List (List Byte) :=
  (held ++ List.replicate (i + 1 - held.length) []).set i b

/-- The numbers of the blocks that a DATA frame of `n` blocks carries: of a retransmission those that INFO names. -/
def dataPlaces (fc n : Nat) : List Nat :=
  if bitsOf fc 39 39 = 1 then (List.range 16).filter fun i => Nat.testBit fc (16 + i) else List.range n

/-- The blocks of a DATA frame; one that failed is empty. -/
def dataBlocks (blocks : List (Option (List Byte))) : List (List Byte) :=
  blocks.map fun b => match b with | some b => if blockOk b then b else [] | none => []

/-- The numbers of the blocks that failed. -/
def dataFails (fc : Nat) (blocks : List (Option (List Byte))) : List Nat :=
  (((dataPlaces fc blocks.length).zip (dataBlocks blocks)).filter fun x => x.2.isEmpty).map (·.1)

/-- The SACK of a DATA frame. -/
def dataSack (fc : Nat) (fails : List Nat) (s : State) : State :=
  emitPoll ⟨4, s.bbnNode, fcSrc fc, 1, bitsOf fc 51 40, false, false, fails.foldl (fun v i => v + 2 ^ i) 0, []⟩ s

/-- The blocks of a DATA frame take their places among those held from its sender; the coordinator notes MORE. -/
def dataHold (fc : Nat) (blocks : List (Option (List Byte))) (p : BbnPoll) (s : State) : State :=
  let src := fcSrc fc
  let retx := decide (bitsOf fc 39 39 = 1)
  let held := s.heldFrom src
  let rx := if retx then p.rx else placesFor held blocks.length
  let held := ((dataPlaces fc blocks.length).zip (dataBlocks blocks)).foldl (fun h x => placeBlock h (rx.getD x.1 h.length) x.2) held
  mapPoll (fun p => { p with rx := rx, rxSeq := some (bitsOf fc 51 40), rxTries := if retx then p.rxTries + 1 else 0 })
    (s.mapBbn fun b => { b with
      held := mapSet (fun _ => []) b.held src held
      members := b.members.map fun (x : Nat × BbnMember) =>
        if p.pos = 0 && x.1 = p.at p.route.length then (x.1, { x.2 with more := decide (bitsOf fc 38 38 = 1) }) else x })

/-- A DATA frame is received (R333): SACK, measurements, and what follows when the frame is complete. -/
def dataRx (fc : Nat) (blocks : List (Option (List Byte))) (m : RxMeas) (long pos : Nat) (s : State) : State :=
  match s.bbn.poll with
  | none => s
  | some p =>
    let src := fcSrc fc
    if s.bbn.silent || !s.fcOk 2 fc || fcDst fc ≠ s.bbnNode || (src ≠ p.at (p.pos + 1) && src ≠ p.at (p.pos - 1)) then s
    else
      let retx := decide (bitsOf fc 39 39 = 1)
      let fails := dataFails fc blocks
      let s := linkMeasure src blocks.length fails.length (!retx) m (offerTaken src (linkHeard src s))
      if p.rxSeq = some (bitsOf fc 51 40) && !retx then dataSack fc fails s
      else
        let s := dataSack fc fails (dataHold fc blocks p s)
        if fails.isEmpty || s.rd Reg.BBN.CFG.RETX_MAX ≤ (if retx then p.rxTries + 1 else 0) then dataComplete src long pos s else s

/-- `DATA`. -/
def execDataFrame (fc : Nat) (blocks : List (Option (List Byte))) (meas : RxMeas) (long : Nat) (pos : Fin 256) (s : State) : Out :=
  done (if s.running then dataRx fc blocks meas long pos (bbnBegin s) else s)

/-- A NULL is received: it travels back along the route, and the coordinator goes on to the downlink. -/
def nullRx (fc pos : Nat) (s : State) : State :=
  match s.bbn.poll with
  | none => s
  | some p =>
    let src := fcSrc fc
    if s.bbn.silent || !s.fcOk 3 fc || fcDst fc ≠ s.bbnNode || src ≠ p.at (p.pos + 1) then s
    else
      let s := linkHeard src s
      if p.pos = 0 then
        let more := decide (bitsOf fc 38 38 = 1)
        let t := p.at p.route.length
        let l := s.bbn.members.map fun (x : Nat × BbnMember) => if x.1 = t then (x.1, { x.2 with more := more }) else x
        downlinkOrEnd pos (s.mapBbn fun b => { b with members := l })
      else sendNull (p.pos - 1) s

/-- `NULL`. -/
def execNullFrame (fc : Nat) (pos : Fin 256) (s : State) : Out :=
  done (if s.running then nullRx fc pos (bbnBegin s) else s)

/-- A SACK is received: acknowledged blocks leave their queue; failed ones go out again, at most RETX_MAX times, and
then wait for the next poll (R333). -/
def sackRx (fc pos : Nat) (s : State) : State :=
  match s.bbn.poll with
  | none => s
  | some p =>
    let src := fcSrc fc
    if s.bbn.silent || !s.fcOk 4 fc || fcDst fc ≠ s.bbnNode || src ≠ p.awaitFrom || p.awaitSeq ≠ some (bitsOf fc 51 40) then s
    else
      let s := linkHeard src s
      let bad := p.out.filter fun x => Nat.testBit fc (16 + x.1)
      let s := setPollQueue p (bad.map (·.2) ++ (s.pollQueue p).drop p.out.length) s
      let s := mapPoll (fun p => { p with out := bad, awaitSeq := none }) s
      if !bad.isEmpty && p.tries < s.rd Reg.BBN.CFG.RETX_MAX then resendData pos s
      else if p.pos = 0 then pollEnd s
      else s

/-- `SACK`. -/
def execSackFrame (fc : Nat) (pos : Fin 256) (s : State) : Out :=
  done (if s.running then sackRx fc pos (bbnBegin s) else s)

/-- A frame of hop `hop` is absent (R333, R336): it is repeated once; a second absence ends the poll, and the
coordinator marks the link down and computes the paths anew. -/
def frameAbsent (hop : Nat) (s : State) : State :=
  match s.bbn.poll with
  | none => s
  | some p =>
    let again := if p.repeated then none else p.last
    match again with
    | some f => (emit f s).mapBbn fun b => { b with poll := b.poll.map fun p => { p with repeated := true } }
    | none =>
      let s := pollEnd s
      if s.role ≠ 4 || hop = 0 || p.route.length < hop then s
      else
        let k := linkKey (p.at (hop - 1)) (p.at hop)
        let s := s.mapBbn fun b => { b with costs := mapDel b.costs k, downs := if b.downs.contains k then b.downs else k :: b.downs }
        raise 0x3203 (p.at hop) (routesCompute s)

/-- `FRAME_ABSENT`. -/
def execFrameAbsent (hop : Nat) (s : State) : Out := done (if s.running then frameAbsent hop (bbnBegin s) else s)

/-! ### Votes (R348) -/

/-- A vote is called: a member takes the call; a coordinator that runs none starts it and sends the call to each named
member (log entry 38). -/
def voteCall (id hash act deadline : Nat) (named : List Nat) (s : State) : State :=
  let v : BbnVote := ⟨id, hash, act, deadline, named, [], none, 0, s.bbn.coordLong.getD 0, none⟩
  let show_ := fun (s : State) => (s.wr Reg.BBN.VOTE.STATE 1).wr Reg.BBN.VOTE.VOTE_ID id
  if s.role = 3 then show_ (s.mapBbn fun b => { b with vote := some v })
  else if s.role ≠ 4 then s
  else
    let busy := match s.bbn.vote with | some w => w.outcome = 0 | none => false
    if busy || act < deadline + 64 * s.rd Reg.BBN.CFG.CYCLE * 1000000 then s
    else
      let m := [8] ++ beBytes 2 id ++ beBytes 16 hash ++ beBytes 8 act ++ beBytes 8 deadline
      let s := named.foldl (fun s n => (bbnSend n m s).2) (s.mapBbn fun b => { b with vote := some v })
      show_ s

/-- `VOTE_CALL`. -/
def execVoteCall (id : Fin 65536) (hash act deadline : Nat) (named : List Nat) (s : State) : Out :=
  done (if s.running then voteCall id hash act deadline named (bbnBegin s) else s)

/-- `VOTE_ANS` at the coordinator. -/
def execVoteAns (src : Fin 4096) (id : Fin 65536) (ready : Bool) (s : State) : Out :=
  done (if !(s.running && s.role = 4) then s
    else match s.bbn.vote with
      | none => s
      | some v =>
        if decide (v.id = id.val) && v.outcome = 0 && ready && v.named.contains src.val && !v.ready.contains src.val then
          s.mapBbn fun b => { b with vote := some { v with ready := src.val :: v.ready } }
        else s)

/-- At DEADLINE the coordinator's vote commits or aborts. -/
def voteDeadline (s : State) : State :=
  match s.bbn.vote with
  | none => s
  | some v =>
    if s.role ≠ 4 || v.outcome ≠ 0 then s
    else
      let ok := v.named.all fun n => v.ready.contains n
      let s := (s.mapBbn fun b => { b with vote := some { v with outcome := if ok then 1 else 2 } }).wr
        Reg.BBN.VOTE.STATE (if ok then 4 else 5)
      if ok then s else raise 0x3208 0 s

/-- `VOTE_DEADLINE`. -/
def execVoteDeadline (s : State) : Out := done (if s.running then voteDeadline s else s)

/-- Whether a member may activate at ACT_TIME (R348, step 5). -/
def State.voteGood (s : State) : Bool :=
  match s.bbn.vote with
  | none => false
  | some v => v.mine = some true && v.outcome = 1 && s.bbn.coordLong = some v.coord &&
      match v.seen with | some c => decide (s.bbn.cycle ≤ c + 16) | none => false

end Sys2Proof.Machine
end

