-- ==== Sys2Proof/Machine/Displays.lean ====
section
/-!
DEFINITION. The displays (chapter 14): the user display as a unit with its rails, crack loop, blink units and
brightness, and the legal display with its frames, regions, balance ledger and recovery.
-/
namespace Sys2Proof.Machine

/-! ### User display (R417 to R425) -/

/-- The start is complete: every rail stands, and the layers are shown. -/
def dpyStarted (s : State) : State :=
  if s.rd dpyUnit.st = 1 then dpyShow ((unitStarted dpyUnit s).wr Reg.DPY.STATUS.RAILS 15) else s

/-- The shut-down is complete. -/
def dpyStopped (s : State) : State := dpyShow (unitStopped dpyUnit s)

/-- The off-timer expires. -/
def dpyRested (s : State) : State :=
  if s.rd dpyUnit.st = 4 then
    let s := unitRested dpyUnit s
    if s.rd dpyUnit.st = 1 then dpyTurnOn s else dpyJudge s
  else s

/-- A write of DPY.CTL with REQ = 1; in WARM_THROUGH and RIDE_THROUGH no request is taken (R398, R400). -/
def dpyEnableReq (a : Agent) (s : State) : State :=
  gated a 1 (fun s => if s.mode = 8 || s.mode = 9 then s else dpyEnable s) s

/-- A write of DPY.CTL with REQ = 2. -/
def dpyDisableReq (a : Agent) (s : State) : State :=
  gated a 1 (fun s => if s.mode = 8 || s.mode = 9 then s else dpyDisable s) s

/-- A write of DPY.CTL with CLR = 1: forcing condition 5 ends. -/
def dpyClear (a : Agent) (s : State) : State :=
  gated a 1 (fun s => dpyJudge (setCause 0x7601 0 false (s.mapDpy fun d => { d with railBad := false }))) s

/-- `DPY_ENABLE_REQUEST`. -/
def execDpyEnableRequest (a : Agent) (s : State) : Out := done (dpyEnableReq a s)

/-- `DPY_DISABLE_REQUEST`. -/
def execDpyDisableRequest (a : Agent) (s : State) : Out := done (dpyDisableReq a s)

/-- `DPY_CLR`. -/
def execDpyClr (a : Agent) (s : State) : Out := done (dpyClear a s)

/-- The crack loop is measured (R422): in STARTING one result out of range is a crack, in ON three in a row. -/
def crackMeasure (ohms : Nat) (s : State) : State :=
  let st := s.rd dpyUnit.st
  if st ≠ 1 && st ≠ 2 then s
  else
    let s := s.wr Reg.DPY.CRACK.OHMS (min 10000 ohms)
    let b := s.dpyBody.getD []
    if leAt b 0xC 2 ≤ ohms && ohms ≤ leAt b 0xE 2 then s.mapDpy fun d => { d with crackRun := 0 }
    else
      let n := s.dpy.crackRun + 1
      let s := s.mapDpy fun d => { d with crackRun := min 3 n }
      if (st = 1 || 3 ≤ n) && !s.bit Reg.DPY.CRACK.CRACKED then
        raiseCause 0x7602 0 (dpyJudge (s.setB Reg.DPY.CRACK.CRACKED true))
      else s

/-- `CRACK_MEASURE`. -/
def execCrackMeasure (ohms : Nat) (s : State) : Out := done (if s.running then crackMeasure ohms s else s)

/-- `DPY_RAIL` (R423): rail 0 ELVSS, 1 ELVDD, 2 VGL, 3 VGH; the faulted rail goes off at once. -/
def execDpyRail (rail : Fin 4) (s : State) : Out :=
  done (if s.running && s.rd dpyUnit.st = 2 then
      let s := s.setFlag Reg.DPY.STATUS.RAILS rail false
      raiseCause 0x7601 0 (dpyJudge (s.mapDpy fun d => { d with railBad := true }))
    else s)

/-- `DPY_UNDERRUN` (R422): the fault at most once per frame. -/
def execDpyUnderrun (s : State) : Out :=
  done (if !(s.running && s.rd dpyUnit.st = 2) then s
    else
      let s := s.inc Reg.DPY.ERRS.UNDERRUNS
      if s.dpy.underrun then s else raise 0x3603 0 (s.mapDpy fun d => { d with underrun := true }))

/-- A write of BLINK[b].CTL with EN = 1 (R424): the unit starts in its shown phase at the next frame. -/
def blinkEnable (a : Agent) (b layer onF offF : Nat) (s : State) : State :=
  gated a 1 (fun s =>
    let was := s.bit (Reg.BLINK.CTL.EN b)
    let s := ((s.wr (Reg.BLINK.CTL.LAYER b) layer).wr (Reg.BLINK.CTL.ON_F b) onF).wr (Reg.BLINK.CTL.OFF_F b) offF
    let s := s.setB (Reg.BLINK.CTL.EN b) true
    if was then s else s.mapDpy fun d => { d with blink := mapDel d.blink b }) s

/-- `BLINK_ENABLE`. -/
def execBlinkEnable (a : Agent) (b : Fin 8) (layer : Fin 4) (onF offF : Fin 256) (s : State) : Out :=
  done (blinkEnable a b layer onF offF s)

/-- The phase of a blink unit at the next frame. -/
def blinkNext (onF offF : Nat) (x : Option (Bool × Nat)) : Bool × Nat :=
  match x with
  | none => (true, 1)
  | some (true, k) => if k < onF then (true, k + 1) else (false, 1)
  | some (false, k) => if k < offF then (false, k + 1) else (true, 1)

/-- A user display frame starts (R423 to R425): blink phases, ELVSS by one step, layers, brightness. -/
def dpyFrame (s : State) : State :=
  let st := s.rd dpyUnit.st
  if st = 0 || st = 4 then s
  else
    let want := s.rd Reg.DPY.RAIL.ELVSS
    let lvl := s.rd Reg.DPY.BRIGHT.LEVEL
    let layers := maskOf 3 fun k => s.bit (Reg.LAYER.CTL.EN k)
    let blink := (List.range 8).filterMap fun b =>
      if s.bit (Reg.BLINK.CTL.EN b) then
        some (b, blinkNext (s.rd (Reg.BLINK.CTL.ON_F b)) (s.rd (Reg.BLINK.CTL.OFF_F b))
          ((s.dpy.blink.find? fun x => x.1 = b).map (·.2)))
      else none
    s.mapDpy fun d => { d with
      underrun := false
      blink := blink
      layers := layers
      elvss := if d.elvss < want then d.elvss + 1 else if want < d.elvss then d.elvss - 1 else want
      sent := if st = 2 then some lvl else d.sent }

/-- `DPY_FRAME_START`. -/
def execDpyFrameStart (s : State) : Out := done (if s.running then dpyFrame s else s)

/-- The level in force in manual mode (R425). -/
def dpyManual (s : State) : State :=
  if s.bit Reg.DPY.BRIGHT.MAN then s.wr Reg.DPY.BRIGHT.LEVEL (s.rd Reg.DPY.BRIGHT.MAN_LEVEL) else s

/-- The level that the ALS curve gives for a lux value: the first or the last point is held outside the curve. -/
def State.alsLevel (s : State) (lux : Rat) : Nat :=
  let pt := fun (i : Nat) => (s.cfg 9 (0x10 + 4 * i) 2, s.cfg 9 (0x12 + 4 * i) 2)
  if lux ≤ (pt 0).1 then (pt 0).2
  else match (List.range 7).find? fun i => decide (lux ≤ ((pt (i + 1)).1 : Rat)) with
    | none => (pt 7).2
    | some i =>
      let (x0, y0) := pt i
      let (x1, y1) := pt (i + 1)
      (Config.rounded ((y0 : Rat) + ((y1 : Rat) - y0) * (lux - x0) / ((x1 : Rat) - x0))).toNat

/-- The sensor is read (R425): `none` is a failed read. -/
def alsRead (r : Option Nat) (s : State) : State :=
  if s.bit Reg.DPY.BRIGHT.MAN || s.rd dpyUnit.st ≠ 2 then s
  else
    let none_ := leAt (s.dpyBody.getD []) 0xB 1 = 0xFF
    match (if none_ then none else r) with
    | some v =>
      let l := (v :: s.dpy.lux).take 8
      let mean : Rat := (l.foldl (· + ·) 0 : Nat) / (l.length : Rat)
      let t := s.alsLevel mean
      let now := s.rd Reg.DPY.BRIGHT.LEVEL
      let next := if now < t then min t (now + 80) else max t (now - 80)
      let s := s.mapDpy fun d => { d with lux := l, alsBad := 0, target := t }
      ((s.wr Reg.DPY.ERRS.LUX (Config.rounded mean).toNat).setB Reg.DPY.STATUS.ALS_FB false).wr Reg.DPY.BRIGHT.LEVEL next
    | none =>
      let n := s.dpy.alsBad + 1
      let s := s.mapDpy fun d => { d with alsBad := min 3 n }
      if (3 ≤ n || none_) && !s.bit Reg.DPY.STATUS.ALS_FB then
        raise 0x3604 0 ((s.setB Reg.DPY.STATUS.ALS_FB true).wr Reg.DPY.BRIGHT.LEVEL (s.cfg 9 6 2))
      else s

/-- `ALS_READ`. -/
def execAlsRead (reading : Option Nat) (s : State) : Out := done (if s.running then alsRead reading s else s)

/-! ### Legal display: content (R429) -/

/-- The legal display's state changed. -/
def State.mapBdy (s : State) (f : BdySt → BdySt) : State := { s with bdy := f s.bdy }

/-- A byte of REGION[r]: 0 SOURCE, 1 BASE, 2 DIGITS, 3 DECIMALS, 4 DP_SEG. -/
def State.region (s : State) (r i : Nat) : Nat := s.cfg 9 (0x30 + 8 * r + i) 1

/-- MASK[r]. -/
def State.regionMask (s : State) (r : Nat) : Nat := s.cfg 9 (0x70 + 12 * r) 12

/-- The segments a to g of a digit (bit 0 is a); the spec gives no patterns (PRESUMED, log entry 39). -/
def segments (d : Nat) : Nat := ([0x3F, 0x06, 0x5B, 0x4F, 0x66, 0x6D, 0x7D, 0x07, 0x7F, 0x6F] : List Nat).getD d 0

/-- The image of a number in a region (R429). -/
def State.numberImage (s : State) (r : Nat) (x : Int) : Nat :=
  let base := s.region r 1
  let digits := s.region r 2
  let dec := min 6 (s.region r 3)
  let neg := decide (x < 0)
  let shown := if neg then digits - 1 else digits
  let v := x.natAbs / 10 ^ (6 - dec) % 10 ^ shown
  let dp := if s.region r 3 ≠ 0 && s.region r 4 ≠ 0xFF then 2 ^ s.region r 4 else 0
  (List.range digits).foldl (fun m d =>
    let place := digits - 1 - d
    let seg := if neg && d = 0 then 0x40
      else if place ≤ dec || 10 ^ place ≤ v then segments (v / 10 ^ place % 10) else 0
    m + seg * 2 ^ (base + 7 * d)) dp

/-- The status bits of SOURCE 4. -/
def State.statusBit (s : State) (i : Nat) : Bool :=
  if i = 0 then s.bit Reg.MET.SEAL.OPEN
  else if i = 1 then !s.tmp.acts.isEmpty
  else if i = 2 then s.bit Reg.CRD.STATUS.LOW
  else if i = 3 then s.bit Reg.CRD.STATUS.STOPPED
  else if i = 4 then s.rd (Reg.MET.MQ.STATUS.DIR_T 16) = 2
  else if i = 5 then !s.bit Reg.RTC.STATUS.VALID
  else if i = 6 then s.mode = 10 || s.mode = 11
  else if i = 7 then s.bit Reg.BBN.STATUS.SYNC
  else false

/-- The image of the status icons: the i-th set bit of MASK shows status bit i. -/
def State.statusImage (s : State) (mask : Nat) : Nat :=
  let segs := (List.range 96).filter fun j => Nat.testBit mask j
  (segs.zip (List.range segs.length)).foldl (fun m x => m + b2n (s.statusBit x.2) * 2 ^ x.1) 0

/-- The content of region r as it is now, within its MASK. -/
def State.regionContent (s : State) (r : Nat) : Nat :=
  let mask := s.regionMask r
  let src := s.region r 0
  let img := if src = 1 then s.numberImage r (s.bilReg 16 0 16)
    else if src = 2 then s.numberImage r (s.bilReg 16 1 16)
    else if src = 3 then s.numberImage r s.crd.nv.c
    else if src = 4 then s.statusImage mask
    else if src = 5 then s.rd (Reg.BDY.REG.BITS.DARK r 0) + s.rd (Reg.BDY.REG.BITS.DARK r 1) * 2 ^ 32 +
      s.rd (Reg.BDY.REG.BITS.DARK r 2) * 2 ^ 64
    else 0
  Nat.land img mask

/-- The running update of a region. -/
def State.bdyRun (s : State) (r : Nat) : Option BdyRun := mapGet (fun _ => none) s.bdy.run r

/-- The request in a region's pending slot. -/
def State.bdyWait (s : State) (r : Nat) : Option Nat := mapGet (fun _ => none) s.bdy.wait r

/-- A region asks for an update with its present content: the newest request takes the pending slot (R431). -/
def bdyRequest (r : Nat) (s : State) : State :=
  if s.region r 0 = 0 || s.cfg 9 0 1 / 2 % 2 = 0 then s
  else
    let s := if (s.bdyWait r).isSome then s.inc (Reg.BDY.REG.STATUS.REPLACED r) else s
    let c := s.regionContent r
    (s.setB (Reg.BDY.REG.STATUS.PENDING r) true).mapBdy fun b => { b with wait := mapSet (fun _ => none) b.wait r (some c) }

/-- The content that a region shows or will show: its pending request's, else what is committed. -/
def State.regionDue (s : State) (r : Nat) : Nat := (s.bdyWait r).getD (Nat.land s.bdy.image (s.regionMask r))

/-- The requests of R430 at a boundary. -/
def bdyRequests (s : State) : State :=
  forEach 8 (fun r s =>
    let src := s.region r 0
    let diff := decide (s.regionContent r ≠ s.regionDue r)
    let aged := decide (mapGet (fun _ => 0) s.bdy.started r + s.cfg 9 8 2 ≤ s.rd Reg.PWR.OPSEC.SECONDS) ||
      mapGet (fun _ => 0) s.bdy.started r = 0
    if ((1 ≤ src && src ≤ 3) && diff && aged) || (src = 4 && diff) then bdyRequest r s else s) s

/-- Every region asks at step 4 of R85. -/
def bdyAll (s : State) : State := forEach 8 bdyRequest s

/-- A write of BDY.REG[r].CTL.GO = 1 (R430). -/
def bdyGo (a : Agent) (r : Nat) (s : State) : State :=
  gated a 1 (fun s => if s.region r 0 = 5 then bdyRequest r s else s) s

/-- `BDY_REG_GO`. -/
def execBdyRegGo (a : Agent) (r : Fin 8) (s : State) : Out := done (bdyGo a r s)

/-! ### Legal display: updates (R426 to R428, R431 to R434) -/

/-- The temperature of TSRC in 0.1 °C: the power die's `die`, or heater h's last usable reading (R428). -/
def State.bdyTemp (s : State) (die : Int) : Int :=
  let t := s.cfg 9 2 1
  if t = 0 || 8 < t then die
  else if s.bit (Reg.LSW.HEAT.STATE.FALLBACK (t - 1)) then die
  else s.rdI (Reg.LSW.HEAT.READING.TEMP (t - 1)) / 10

/-- N for a temperature in 0.1 °C: the table's T_MIN descend. -/
def State.bdyN (s : State) (temp : Int) : Nat :=
  let tmin := fun (k : Nat) => toInt 8 (s.cfg 9 (0xD0 + 2 * k) 1)
  let k := ((List.range 8).find? fun k => decide (tmin k * 10 ≤ temp)).getD 7
  s.cfg 9 (0xD1 + 2 * k) 1

/-- Whether updates start in this mode (R432). -/
def State.bdyStarts (s : State) : Bool := 4 ≤ s.mode && s.mode ≤ 11 && s.mode ≠ 9

/-- Region `r` starts an update to the content `c`, with the temperature `t` and its N (R427, R428). -/
def bdyBegin (r c : Nat) (t : Int) (s : State) : State :=
  let n := s.bdyN t
  let old := Nat.land s.bdy.image (s.regionMask r)
  let s := (s.wrI Reg.BDY.TEMP.TEMP t).wr Reg.BDY.TEMP.N n
  let s := ((s.setB (Reg.BDY.REG.STATUS.PENDING r) false).wr (Reg.BDY.REG.STATUS.FRAME r) 0).setFlag
    Reg.BDY.STATUS.RUNNING r true
  s.mapBdy fun b => { b with
    image := b.image - old + c
    wait := mapSet (fun _ => none) b.wait r none
    run := mapSet (fun _ => none) b.run r (some ⟨old, c, 0, n⟩)
    started := mapSet (fun _ => 0) b.started r (s.rd Reg.PWR.OPSEC.SECONDS) }

/-- `LEGAL_UPDATE_START` (R427, R431): at a positive frame; `die` is the power die's temperature in 0.1 °C. -/
def execLegalUpdateStart (r : Fin 8) (die : Int) (s : State) : Out :=
  done (match s.bdyWait r with
    | none => s
    | some c =>
      if !s.running || !s.bdyStarts || s.bdy.phase ≠ 0 || s.bit Reg.BDY.STATUS.RAIL_FAULT || (s.bdyRun r).isSome ||
          s.bit Reg.BDY.STATUS.POSITIVE then s
      else bdyBegin r c (s.bdyTemp die) s)

/-- Whether a segment is driven in frame `f` of an update of 4 × n frames: the frames whose polarity sets its old state
in phase A and its new state in phase B; even frames are positive and darken. -/
def drives (n f : Nat) (old new : Bool) : Bool :=
  old ≠ new && (f % 2 = 0) = (if f < 2 * n then old else new)

/-- The ledger after frame `f` of an update. -/
def driveFrame (x : BdyRun) (l : SMap Int) : SMap Int :=
  (List.range 96).foldl (fun l j =>
    if drives x.n x.frame (Nat.testBit x.old j) (Nat.testBit x.new j) then
      mapSet (fun _ => 0) l j (mapGet (fun _ => 0) l j + (if x.frame % 2 = 0 then 1 else -1))
    else l) l

/-- A frame of phase 1 of the recovery: negative entries are driven in positive frames, positive ones in negative
frames. -/
def balanceFrame (positive : Bool) (l : SMap Int) : SMap Int :=
  l.foldl (fun m (x : Nat × Int) =>
    if positive && x.2 < 0 then mapSet (fun _ => 0) m x.1 (x.2 + 1)
    else if !positive && 0 < x.2 then mapSet (fun _ => 0) m x.1 (x.2 - 1)
    else m) l

/-- The recovery of R434 begins when an entry of the ledger is not 0. -/
def bdyRecover (s : State) : State :=
  if s.bdy.ledger.isEmpty then s
  else (s.setB Reg.BDY.STATUS.RECOVERING true).mapBdy fun b => { b with phase := 1, frame := 0, run := [] }

/-- The run that the full refresh stands for: every segment from the opposite of its committed state. -/
def BdySt.refresh (b : BdySt) : BdyRun := ⟨2 ^ 96 - 1 - b.image, b.image, b.frame, b.n⟩

/-- A frame of the recovery. -/
def recoveryFrame (positive : Bool) (die : Int) (s : State) : State :=
  let b := s.bdy
  if b.phase = 1 then
    if !b.ledger.isEmpty then s.mapBdy fun b => { b with ledger := balanceFrame positive b.ledger }
    else if !positive then s
    else
      let t := s.bdyTemp die
      let n := s.bdyN t
      let b := { b with phase := 2, frame := 0, n := n }
      let s := (s.wrI Reg.BDY.TEMP.TEMP t).wr Reg.BDY.TEMP.N n
      { s with bdy := { b with ledger := driveFrame b.refresh b.ledger, frame := 1 } }
  else if b.frame < 4 * b.n then
    { s with bdy := { b with ledger := driveFrame b.refresh b.ledger, frame := b.frame + 1 } }
  else
    raise 0x3702 0 (((s.mapBdy fun b => { b with phase := 0, frame := 0 }).setB Reg.BDY.STATUS.RECOVERING false).inc
      Reg.BDY.STATUS.RECOVERIES)

/-- Region `r` drives its next frame when it has that frame's polarity (R427). -/
def bdyDrive (positive : Bool) (r : Nat) (s : State) : State :=
  match s.bdyRun r with
  | none => s
  | some x =>
    if 4 * x.n ≤ x.frame || (x.frame % 2 = 0) ≠ positive then s
    else
      (s.wr (Reg.BDY.REG.STATUS.FRAME r) x.frame).mapBdy fun b => { b with
        ledger := driveFrame x b.ledger
        run := mapSet (fun _ => none) b.run r (some { x with frame := x.frame + 1 }) }

/-- A frame of 20 ms (R426, R433): the polarity alternates, and every running update drives its next frame. -/
def bdyFrame (die : Int) (s : State) : State :=
  let pos := !s.bit Reg.BDY.STATUS.POSITIVE
  let s := s.setB Reg.BDY.STATUS.POSITIVE pos
  if s.bit Reg.BDY.STATUS.RAIL_FAULT then s
  else if s.bdy.phase ≠ 0 then recoveryFrame pos die s
  else forEach 8 (bdyDrive pos) s

/-- `BDY_FRAME`. -/
def execBdyFrame (die : Int) (s : State) : Out := done (if s.running then bdyFrame die s else s)

/-- `LEGAL_UPDATE_END` (R431): the last frame of a region's update has been driven. -/
def execLegalUpdateEnd (r : Fin 8) (s : State) : Out :=
  done (live (fun s =>
    match s.bdyRun r with
    | none => s
    | some x =>
      if x.frame < 4 * x.n then s
      else ((s.setFlag Reg.BDY.STATUS.RUNNING r false).wr (Reg.BDY.REG.STATUS.FRAME r) 0).mapBdy fun b =>
        { b with run := mapSet (fun _ => none) b.run r none }) s)

/-- `BDY_RAIL` (R434): a rail out of tolerance at a frame start is handled like a loss of power. -/
def execBdyRail (s : State) : Out :=
  done (if !s.running || s.bit Reg.BDY.STATUS.RAIL_FAULT then s
    else
      let s := ((s.setB Reg.BDY.STATUS.RAIL_FAULT true).setB Reg.BDY.STATUS.RECOVERING false).wr Reg.BDY.STATUS.RUNNING 0
      raiseCause 0x7701 0 (s.mapBdy fun b => { b with run := [], phase := 0, frame := 0 }))

/-- `BDY_RAILS_GOOD` (R434). -/
def execBdyRailsGood (s : State) : Out :=
  done (if !s.running || !s.bit Reg.BDY.STATUS.RAIL_FAULT then s
    else bdyRecover (setCause 0x7701 0 false (s.setB Reg.BDY.STATUS.RAIL_FAULT false)))

end Sys2Proof.Machine
end

