-- ==== Sys2Proof/Machine/Contactless.lean ====
section
/-!
DEFINITION. The card reader and the embedded tag (chapter 15).
-/
namespace Sys2Proof.Machine

/-- The contactless state changed. -/
def State.mapNfc (s : State) (f : NfcSt → NfcSt) : State := { s with nfc := f s.nfc }

/-! ### Unit identifier on the air (R447) -/

/-- The tag's UID: the manufacturer code and SYS.UNIT_ID[47:0], most significant byte first. -/
def tagUid : List Byte := Config.icCode :: beBytes 6 (Config.unitId % 2 ^ 48)

/-! ### The reader (R439 to R446) -/

/-- The absolute value of an exact figure. -/
def ratAbs (x : Rat) : Rat := if x < 0 then -x else x

/-- A ping (R439, R440): `amp` in 0.1 % and `ph` in 0.1°. -/
def nfcPing (amp ph : Int) (s : State) : State :=
  if !(s.nfcRuns && s.rd Reg.NFC.STATUS.STATE = 1) then s
  else
    match s.nfc.base with
    | none => ((s.wr Reg.NFC.DET_MEAS.AMP_DEV 0).wr Reg.NFC.DET_MEAS.PH_DEV 0).mapNfc fun x =>
        { x with base := some ((amp : Rat), (ph : Rat)) }
    | some (ba, bp) =>
      let a := (amp : Rat) - ba
      let p := (ph : Rat) - bp
      let s := (s.wrI Reg.NFC.DET_MEAS.AMP_DEV (Config.rounded a)).wrI Reg.NFC.DET_MEAS.PH_DEV (Config.rounded p)
      if (s.rd Reg.NFC.DET_CFG.WAKE_AMP : Rat) ≤ ratAbs a || (s.rd Reg.NFC.DET_CFG.WAKE_PH : Rat) ≤ ratAbs p then
        if s.nfc.wakes = 0 then s.mapNfc fun x => { x with wakes := 1 }
        else (s.wr Reg.NFC.STATUS.STATE 2).mapNfc fun x => { x with wakes := 0 }
      else
        let t : Rat := 2 ^ s.rd Reg.NFC.DET_CFG.TRACK
        s.mapNfc fun x => { x with wakes := 0, base := some (ba + a / t, bp + p / t) }

/-- `NFC_PING`. -/
def execNfcPing (amp ph : Int) (s : State) : Out := done (nfcPing amp ph s)

/-- The bits of a Type A UID in the order in which its cascade levels send them: levels before the last open with the
cascade tag 0x88, and each byte goes least significant bit first. -/
def uidBits (uid : List Byte) : List Bool :=
  let sent : List Byte :=
    if uid.length = 7 then 0x88 :: uid
    else if uid.length = 10 then 0x88 :: (uid.take 3 ++ 0x88 :: uid.drop 3)
    else uid
  sent.flatMap fun b => (List.range 8).map fun i => Nat.testBit b.toNat i

/-- Whether the tree walk of R442 reaches the first card before the second: at the first collision it takes the 1
branch. -/
def walksFirst : List Bool → List Bool → Bool
  | [], _ => true
  | _ :: _, [] => true
  | x :: xs, y :: ys => if x = y then walksFirst xs ys else x

/-- A card placed among the others in the order of the tree walk. -/
def walkInsert (u : List Byte) : List (List Byte) → List (List Byte)
  | [] => [u]
  | v :: r => if walksFirst (uidBits u) (uidBits v) then u :: v :: r else v :: walkInsert u r

/-- The Type A cards in the order in which the tree walk lists them. -/
def treeWalk (l : List (List Byte)) : List (List Byte) := l.foldr walkInsert []

/-- The cards that a round lists, Type A first (R441 to R444): at most 8, never the own tag. -/
def State.pollList (s : State) (r : PollRound) : List (Bool × List Byte) :=
  let fl := s.cfg 0xB 0 1
  let a := if Nat.testBit fl 1 then (treeWalk (r.uids.filter fun u => u ≠ tagUid)).map fun u => (false, u) else []
  let b := if Nat.testBit fl 2 then r.pupis.map fun u => (true, u) else []
  let l := (a ++ b).take 8
  match r.cut with
  | some n => l.take n
  | none => l

/-- The poll of R441: the first of at most three rounds that lists a card, or a false wake. -/
def nfcPoll (rounds : List PollRound) (s : State) : State :=
  if !(s.nfcRuns && s.rd Reg.NFC.STATUS.STATE = 2) then s
  else
    match ((rounds.take 3).map s.pollList).find? (fun l => !l.isEmpty) with
    | some l => ((s.wr Reg.NFC.STATUS.CARDS l.length).wr Reg.NFC.STATUS.STATE 3).mapNfc fun x => { x with cards := l }
    | none =>
      let now := s.rd Reg.PWR.OPSEC.SECONDS
      let at_ := now :: s.nfc.falseAt.filter fun t => now < t + 60
      let s := nfcDetect (((s.wr Reg.NFC.STATUS.CARDS 0).inc Reg.NFC.STATUS.FALSE_WAKES).mapNfc fun x => { x with cards := [] })
      if 10 ≤ at_.length then raise 0x3802 0 (s.mapNfc fun x => { x with falseAt := [] })
      else s.mapNfc fun x => { x with falseAt := at_ }

/-- `NFC_POLL`. -/
def execNfcPoll (rounds : List PollRound) (s : State) : Out := done (nfcPoll rounds s)

/-- An antenna fault (R446): the carrier is off until the next start. -/
def nfcAntenna (s : State) : State := raise 0x7801 0 (nfcJudge (s.setB Reg.NFC.STATUS.ANT_FAULT true))

/-- `NFC_ANTENNA`. -/
def execNfcAntenna (s : State) : Out := done (if s.running then nfcAntenna s else s)

/-- ACTIVE ends (R445). -/
def nfcEnd (s : State) : State := if s.rd Reg.NFC.STATUS.STATE = 3 then nfcDetect s else s

/-- A write of NFC.CTL.DONE = 1. -/
def nfcDone (a : Agent) (s : State) : State := gated a 1 nfcEnd s

/-- `NFC_DONE`. -/
def execNfcDone (a : Agent) (s : State) : Out := done (nfcDone a s)

/-- `NFC_ACTIVE_TIMEOUT`: 30 s without a frame exchanged. -/
def execNfcActiveTimeout (s : State) : Out := done (live nfcEnd s)

/-- `CONTACTLESS_COMMAND` (R438, R445): in ACTIVE the reader takes the item at the head of Q[11] and posts the card's
response to Q[12]; the runtime may end the exchange with it. -/
def execContactlessCommand (response : List Nat) (ends : Bool) (s : State) : Out :=
  done (if !(s.nfcRuns && s.rd Reg.NFC.STATUS.STATE = 3) then s
    else match takeHead 11 s with
      | none => s
      | some (_, s) =>
        let s := hwPost 12 ((List.range 16).map fun w => response.getD w 0 % 2 ^ 64) s
        if ends then nfcEnd s else s)

/-! ### The tag on the air (R447 to R451, R455) -/

/-- The tag answers (R448): TAG_EN, and either supply good or a VBAT of 2.2 V and more. -/
def State.tagLive (s : State) : Bool :=
  s.aon && s.bit Reg.TAG.STATUS.EN && (!s.dormant || !s.tmp.vbatLow)

/-- The state of the tag's state machine. -/
def State.tagSt (s : State) : Nat := s.rd Reg.TAG.STATUS.STATE

/-- OPEN or SECURED. -/
def State.tagOpen (s : State) : Bool := s.tagSt = 3 || s.tagSt = 4

/-- The tag takes a state; a new state ends the stay in which a CHALLENGE was given. -/
def tagEnter (st : Nat) (s : State) : State :=
  let s := if s.tagSt = st then s else s.mapNfc fun x => { x with chal := none }
  s.wr Reg.TAG.STATUS.STATE st

/-- The tag's answer; the bytes stand without their CRC_A. -/
def tagAnswer (l : List Byte) (s : State) : State := s.mapNfc fun x => { x with answer := l }

/-- A field is present and the tag may run: it is IDLE with LEVEL 0 (R449). -/
def tagJudge (s : State) : State :=
  let s := s.setB Reg.TAG.STATUS.BATT (s.bit Reg.TAG.STATUS.EN && s.dormant)
  if s.tagLive && s.bit Reg.TAG.STATUS.FIELD && s.tagSt = 0 then
    tagEnter 1 (s.wr Reg.TAG.STATUS.LEVEL 0)
  else s

/-- `TAG_FIELD_ON`. -/
def execTagFieldOn (s : State) : Out :=
  done (if s.aon then tagJudge (s.setB Reg.TAG.STATUS.FIELD true) else s)

/-- `TAG_FIELD_LOST` (R449): no field for 5 ms. -/
def execTagFieldLost (s : State) : Out :=
  done (if s.aon then
      tagAnswer [] (tagEnter 0 ((s.setB Reg.TAG.STATUS.FIELD false).setB Reg.TAG.STATUS.MAPPED false))
    else s)

/-- A frame error, or a command that the state does not know (R449). -/
def tagError (s : State) : State :=
  let s := tagAnswer [] s
  if s.tagSt = 2 || s.tagOpen then
    tagEnter 1 ((s.wr Reg.TAG.STATUS.LEVEL 0).setB Reg.TAG.STATUS.MAPPED false)
  else s

/-- A frame reaches a tag that runs and has a field. -/
def tagFrame (f : State → State) (s : State) : State :=
  if s.tagLive && s.bit Reg.TAG.STATUS.FIELD then f s else s

/-- A command of R450: known in OPEN and SECURED only. -/
def tagCommand (f : State → State) (s : State) : State :=
  tagFrame (fun s => if s.tagOpen then f s else tagError s) s

/-- `REQA`: REQA or WUPA (R449); the answer is ATQA 0x0048. -/
def execReqa (wupa : Bool) (s : State) : Out :=
  done (tagFrame (fun s =>
    if s.tagSt = 1 || (s.tagSt = 5 && wupa) then tagAnswer (leBytes 2 0x0048) (tagEnter 2 s) else tagError s) s)

/-- `SELECT` at both cascade levels (R449): with the tag's UID it opens, the answers being SAK 0x04 and 0x00. -/
def execTagSelect (uid : List Byte) (s : State) : Out :=
  done (tagFrame (fun s =>
    if s.tagSt = 2 then
      if uid = tagUid then tagAnswer [0x04, 0x00] ((tagEnter 3 s).inc Reg.TAG.COUNTS.OPENS) else tagAnswer [] s
    else tagError s) s)

/-- A status byte of R450. -/
def tagStatus (b : Nat) (s : State) : State := tagAnswer [BitVec.ofNat 8 b] s

/-! ### Tag memory (R452 to R454) -/

/-- One page of the tag memory. -/
def State.tagPage (s : State) (p : Nat) : List Byte := readBytes s.nfc.tagMem (256 * p) 256

/-- Bytes written to a page from an offset. -/
def tagWrite (p off : Nat) (l : List Byte) (s : State) : State :=
  s.mapNfc fun x => { x with tagMem := writeBytes x.tagMem (256 * p + off) l }

/-- The level that a field read, or a field write, of a page needs (R452); 15 is never permitted. -/
def State.pageLevel (s : State) (p : Nat) (write : Bool) : Nat :=
  if p = 255 then 15
  else if 16 ≤ p then s.nfc.tagAccess.getD (p / 16 - 1) 15 / (if write then 16 else 1) % 16
  else if write then 15
  else if p = 0 || p = 3 then 0
  else if p ≤ 2 then 15
  else 1

/-- Whether the field may read, or write, the page at the present LEVEL. -/
def State.pageOk (s : State) (p : Nat) (write : Bool) : Bool :=
  let l := s.pageLevel p write
  l ≠ 15 && l ≤ s.rd Reg.TAG.STATUS.LEVEL

/-- VERSION of snapshot copy `k` (page 1 + k) when it is valid, else 0 (R454). -/
def State.snapVersion (s : State) (k : Nat) : Nat :=
  let v := leValue (readBytes s.nfc.tagMem (256 * (1 + k)) 4)
  if v = leValue (readBytes s.nfc.tagMem (256 * (1 + k) + 0xFC) 4) then v else 0

/-- The valid copy with the higher VERSION. -/
def State.snapNewest (s : State) : Option Nat :=
  if s.snapVersion 0 = 0 && s.snapVersion 1 = 0 then none
  else some (if s.snapVersion 0 < s.snapVersion 1 then 1 else 0)

/-- Page 3 is mapped for a FOLIO_READ (R455), unless it is mapped already or no copy is valid. -/
def tagMap (s : State) : State :=
  if s.bit Reg.TAG.STATUS.MAPPED then s
  else
    match s.snapNewest with
    | some k => (s.setB Reg.TAG.STATUS.MAPPED true).wr Reg.TAG.STATUS.MAP_COPY k
    | none => s

/-- FOLIO_READ (R450, R455); page 3 without a valid copy gives a status that the spec does not state. -/
def folioRead (page chunk : Nat) (s : State) : State :=
  if 8 ≤ chunk then tagStatus 0xE1 s
  else if !s.pageOk page false then tagStatus 0xE2 s
  else if page = 3 then
    let s := tagMap s
    if s.bit Reg.TAG.STATUS.MAPPED then
      tagAnswer (0 :: ((s.tagPage (1 + s.rd Reg.TAG.STATUS.MAP_COPY)).drop (32 * chunk)).take 32) s
    else
      let (v, s) := s.fresh
      tagStatus v s
  else tagAnswer (0 :: ((s.tagPage page).drop (32 * chunk)).take 32) s

/-- `FOLIO_READ`. -/
def execFolioRead (page chunk : Fin 256) (s : State) : Out := done (tagCommand (folioRead page chunk) s)

/-- FOLIO_WRITE (R450). -/
def folioWrite (page chunk : Nat) (data : List Byte) (s : State) : State :=
  if 8 ≤ chunk || data.length ≠ 32 then tagStatus 0xE1 s
  else if !s.pageOk page true then tagStatus 0xE2 s
  else tagStatus 0 (tagWrite page (32 * chunk) data s)

/-- `FOLIO_WRITE`. -/
def execFolioWrite (page chunk : Fin 256) (data : List Byte) (s : State) : Out :=
  done (tagCommand (folioWrite page chunk data) s)

/-! ### Authentication (R450, R451) -/

/-- An authentication fails: OPEN, LEVEL 0, and the count; at the eighth in a row the lockout and its fault, which waits
for the next start in DORMANT. -/
def tagFail (s : State) : State :=
  let n := min 8 (s.rd Reg.TAG.STATUS.AUTH_FAILS + 1)
  let s := tagStatus 0xE3 (tagEnter 3 ((s.wr Reg.TAG.STATUS.LEVEL 0).wr Reg.TAG.STATUS.AUTH_FAILS n))
  if n < 8 then s
  else
    let s := s.setB Reg.TAG.STATUS.LOCKED true
    if s.dormant then s.mapNfc fun x => { x with lockPend := true } else raise 0x3901 0 s

/-- An authentication succeeds with its level. -/
def tagGrant (level : Nat) (s : State) : State :=
  let s := ((s.wr Reg.TAG.STATUS.AUTH_FAILS 0).inc Reg.TAG.COUNTS.AUTHS).wr Reg.TAG.STATUS.LEVEL level
  tagStatus 0 (tagEnter 4 s)

/-- PASS (R449, R450): a PWD of 0 disables it. -/
def tagPassword (pwd : Nat) (s : State) : State :=
  if s.bit Reg.TAG.STATUS.LOCKED then tagStatus 0xE4 s
  else if s.nfc.tagPwd = 0 then tagStatus 0xE2 s
  else if pwd ≠ s.nfc.tagPwd then tagFail s
  else if s.tagSt = 4 then tagGrant (s.rd Reg.TAG.STATUS.LEVEL) s
  else tagGrant 1 s

/-- `PASS`. -/
def execTagPass (pwd : Word) (s : State) : Out := done (tagCommand (tagPassword pwd.toNat) s)

/-- The first 8 bytes of AES-CMAC over a leading byte, two random numbers and the UID (R450). -/
def tagMac (k : List Byte) (lead : Byte) (a b : List Byte) : List Byte :=
  (beBytes 16 (Config.aesCmac k (lead :: (a ++ b ++ tagUid)))).take 8

/-- The tag's copy of key 0 or 1; empty when it is absent. -/
def State.tagKey (s : State) (k : Nat) : List Byte := mapGet (fun _ => []) s.nfc.tagKeys k

/-- CHALLENGE (R450): NT is drawn, and MT proves the key. -/
def tagChal (key : Nat) (nr : List Byte) (s : State) : State :=
  if 2 ≤ key || nr.length ≠ 16 then tagStatus 0xE1 s
  else if (s.tagKey key).isEmpty then tagStatus 0xE2 s
  else
    let (v, s) := s.draw 128
    let nt := beBytes 16 v
    (tagAnswer (0 :: (nt ++ tagMac (s.tagKey key) 0x54 nr nt)) s).mapNfc fun x => { x with chal := some (key, nr, nt) }

/-- `CHALLENGE`. -/
def execTagChallenge (key : Fin 256) (nr : List Byte) (s : State) : Out := done (tagCommand (tagChal key nr) s)

/-- PROVE (R449, R450). -/
def tagProof (mr : List Byte) (s : State) : State :=
  match s.nfc.chal with
  | none => tagStatus 0xE1 s
  | some (key, nr, nt) =>
    if s.bit Reg.TAG.STATUS.LOCKED then tagStatus 0xE4 s
    else if mr = tagMac (s.tagKey key) 0x52 nt nr then tagGrant (2 + key) s
    else tagFail s

/-- `PROVE`. -/
def execTagProve (mr : List Byte) (s : State) : Out := done (tagCommand (tagProof mr) s)

/-- `HLTA` (R449): no answer. -/
def execHlta (s : State) : Out :=
  done (tagFrame (fun s =>
    if s.tagOpen then
      tagAnswer [] (tagEnter 5 ((s.wr Reg.TAG.STATUS.LEVEL 0).setB Reg.TAG.STATUS.MAPPED false))
    else tagError s) s)

/-- `TAG_FRAME_ERROR`. -/
def execTagFrameError (s : State) : Out := done (tagFrame tagError s)

/-- `TAG_LOCKOUT_END` (R451): after 60 s of RTC time. -/
def execTagLockoutEnd (s : State) : Out := done (if s.aon then s.setB Reg.TAG.STATUS.LOCKED false else s)

/-- `TAG_MAPPING_END` (R455): after 10 s. -/
def execTagMappingEnd (s : State) : Out := done (if s.aon then s.setB Reg.TAG.STATUS.MAPPED false else s)

/-- `TAG_COMMAND_TIMEOUT` (R456): a field command not complete within 5 ms is abandoned without an answer. -/
def execTagCommandTimeout (s : State) : Out := done (tagFrame (tagAnswer []) s)

/-! ### Snapshots and wired transfers (R453 to R457) -/

/-- The 64 bytes of an event record (R501). -/
def Rec.bytes (r : Rec) : List Byte :=
  let mid := leBytes 1 r.ty ++ leBytes 1 r.flags ++ leBytes 2 r.ms ++ leBytes 4 r.cycle ++ leBytes 4 r.opsec ++ leBytes 40 r.payload
  leBytes 4 r.rno ++ mid ++ leBytes 4 (crc32 mid) ++ leBytes 4 r.rno

/-- The circulation records from the highest RNO down. -/
def newestFirst (l : List Rec) : List Rec :=
  l.foldr (fun (r : Rec) acc => acc.takeWhile (fun x => r.rno < x.rno) ++ (r :: acc.dropWhile (fun x => r.rno < x.rno))) []

/-- The digest of R452: the 48 newest records of the circulation area. -/
def State.digest (s : State) : List Byte :=
  ((newestFirst (s.evr.circ.map (·.2))).take 48).flatMap Rec.bytes

/-- Bytes 0x04 to 0xFB of a snapshot (R454). -/
def State.snapBody (s : State) : List Byte :=
  let status := (List.range 8).foldl (fun m i => m + b2n (s.statusBit i) * 2 ^ i) 0
  let outs := (List.range 16).foldl (fun m n => m + s.outSt n % 16 * 16 ^ n) 0
  leBytes 4 s.wall ++ leBytes 8 (s.bilReg 16 0 16) ++ leBytes 8 (s.bilReg 16 1 16) ++ leBytes 8 (ofInt 64 s.crd.nv.c) ++
    leBytes 8 s.crd.nv.owed ++ leBytes 1 s.mode ++ leBytes 1 s.lc ++ leBytes 2 status ++
    leBytes 4 (s.rd Reg.PWR.CYCLES.COUNT) ++ leBytes 4 (s.rd Reg.PWR.OPSEC.SECONDS) ++ leBytes 2 (s.rd Reg.FLT.LAST.CODE) ++
    leBytes 2 (leAt s.bil.active 0 2) ++ leBytes 1 (s.rd Reg.BIL.STATUS.RATE_I) ++ leBytes 1 (s.rd Reg.BIL.STATUS.RATE_E) ++
    leBytes 2 (s.carrelsWhere fun r => r.st = 6).length ++ leBytes 8 outs ++
    (s.nfc.runtimeBytes ++ List.replicate 184 0).take 184

/-- The copy that the next snapshot goes to (R454): the one that is not mapped, else an invalid one or the lower
VERSION. -/
def State.snapTarget (s : State) : Nat :=
  if s.bit Reg.TAG.STATUS.MAPPED then 1 - s.rd Reg.TAG.STATUS.MAP_COPY
  else if s.snapVersion 0 ≤ s.snapVersion 1 then 0 else 1

/-- A snapshot and the digest are written (R452, R454). -/
def tagSnapshot (s : State) : State :=
  let v := (max (s.snapVersion 0) (s.snapVersion 1) + 1) % 2 ^ 32
  let k := s.snapTarget
  let s := tagWrite (1 + k) 0 (leBytes 4 v ++ s.snapBody ++ leBytes 4 v) s
  tagWrite 4 0 s.digest s

/-- `TAG_SNAPSHOT`: every SNAP_PERIOD. -/
def execTagSnapshot (s : State) : Out := done (if s.running && 3 ≤ s.mode then tagSnapshot s else s)

/-- The bytes of TAG.BUF. -/
def State.tagBuf (s : State) : List Byte := (List.range 64).flatMap fun k => leBytes 4 (s.rd (Reg.TAG.BUF.BYTES k))

/-- `SNAP`: a write of TAG.CTL.SNAP = 1 takes new runtime bytes (R454). -/
def tagSnap (a : Agent) (s : State) : State :=
  gated a 1 (fun s => tagSnapshot (s.mapNfc fun x => { x with runtimeBytes := (s.tagBuf.drop 0x44).take 184 })) s

/-- `SNAP`. -/
def execTagSnap (a : Agent) (s : State) : Out := done (tagSnap a s)

/-- A wired transfer requested over TAG.CTL (R457): permitted to the runtime and to a session at Operator level or above
on the pages given, RESULT 2 otherwise. -/
def tagWired (a : Agent) (lo hi : Nat) (f : Nat → State → State) (s : State) : State :=
  if !s.modeWrites then s
  else
    let p := s.rd Reg.TAG.PAGE.PAGE
    if s.level a < 1 || p < lo || hi < p then s.wr Reg.TAG.WSTAT.RESULT 2 else (f p s).wr Reg.TAG.WSTAT.RESULT 0

/-- TAG.CTL.LOAD: the page is copied to TAG.BUF. -/
def tagLoad (a : Agent) (s : State) : State :=
  tagWired a 0 254 (fun p s => forEach 64 (fun k s => s.wr (Reg.TAG.BUF.BYTES k) (leAt (s.tagPage p) (4 * k) 4)) s) s

/-- `LOAD`. -/
def execTagLoad (a : Agent) (s : State) : Out := done (tagLoad a s)

/-- TAG.CTL.STORE: TAG.BUF is copied to the page. -/
def tagStore (a : Agent) (s : State) : State := tagWired a 16 254 (fun p s => tagWrite p 0 s.tagBuf s) s

/-- `STORE`. -/
def execTagStore (a : Agent) (s : State) : Out := done (tagStore a s)

/-- `TAG_WIRED_BUSY` (R456): a wired transfer did not get its page within 5 ms. -/
def execTagWiredBusy (s : State) : Out :=
  done (if s.running then raise 0x3902 0 ((s.wr Reg.TAG.WSTAT.RESULT 1).inc Reg.TAG.WSTAT.BUSY_COUNT) else s)

/-! ### Step 8 of R69 -/

/-- The tag's copy of the key in slot KSLOT0 or KSLOT1 (R450). -/
def State.tagKeyFrom (s : State) (slot : Nat) : List Byte :=
  if slot < 64 && s.slotHas slot 10 then (s.slot slot).material else []

/-- Page 0 (R453). -/
def State.identityPage (s : State) : List Byte :=
  leBytes 2 1 ++ leBytes 1 s.lc ++ [0] ++ leBytes 4 (s.rd Reg.SYS.HW_TYPE.TYPE) ++ leBytes 8 Config.unitId ++ tagUid ++
    [0] ++ leBytes 4 (s.cfg 5 0x34 4) ++ leBytes 4 (s.rd Reg.MODE.IMG_SEQ.SEQ) ++
    beBytes 16 (colophonHash (s.bank s.active).region / 2 ^ 256) ++ List.replicate 208 0

/-- At step 8 the tag takes its keys, password and access map, page 0 is written, and a TAG_AUTH_LOCK that waits is
raised (R450 to R453, R458). -/
def tagStart (s : State) : State :=
  let s := s.mapNfc fun x => { x with
    tagKeys := mapSet (fun _ => []) (mapSet (fun _ => []) [] 0 (s.tagKeyFrom (s.cfg 0xB 9 1))) 1 (s.tagKeyFrom (s.cfg 0xB 0xA 1))
    tagPwd := s.cfg 0xB 0xC 4
    tagAccess := (List.range 15).map fun g => s.cfg 0xB (0x10 + g) 1 }
  let s := tagJudge (tagWrite 0 0 s.identityPage s)
  if s.nfc.lockPend then raise 0x3901 0 (s.mapNfc fun x => { x with lockPend := false }) else s

end Sys2Proof.Machine
end

