-- ==== Sys2Proof/Machine/Units.lean ====
section
/-!
DEFINITION. The steps that the units of R50 share: a forcing condition, the ends of a start and of a shut-down, the
off-timer, and the discard counter.
-/
namespace Sys2Proof.Machine

/-- The unit's registers. -/
def UnitId.ref : UnitId → UnitRef
  | .hs c => hsUnit c
  | .out n => ⟨Reg.OUT.STATUS.STATE n, Reg.OUT.PEND.PEND n, Reg.OUT.PEND.DISCARDS n, 0, 4, 7, 9, 1⟩
  | .vpl n => vplUnit n
  | .dpy => dpyUnit

/-- A write of 1 to DISC_CLR (R56). -/
def discClr (a : Agent) (u : UnitId) (s : State) : State := gated a 1 (fun s => s.wr (UnitId.ref u).disc 0) s

/-- `DISC_CLR`. -/
def execDiscClr (a : Agent) (u : UnitId) (s : State) : Out := done (discClr a u s)

/-- A forcing condition begins for a unit (R53, R55); an outlet records stop reason 14 (R255). -/
def unitForced : UnitId → State → State
  | .hs c, s => hsForce c s
  | .out n, s => outForce n 14 s
  | .vpl n, s => vplForce n s
  | .dpy, s => dpyShow (unitForce dpyUnit s)

/-- `FORCING_CONDITION_BEGINS`. -/
def execForcingConditionBegins (u : UnitId) (s : State) : Out := done (if s.running then unitForced u s else s)

/-- A unit's start is complete (R55); an outlet's start ends by CLOSURE_VERIFIED, PRECHARGE and DELIVER, a Green PHY
instance's by its converter check. -/
def unitStartEnds (vlsMv : Nat) : UnitId → State → State
  | .hs c, s => hsStarted c (s.wr (Reg.LSW.VLS.MV (c / 8)) vlsMv)
  | .out _, s => s
  | .vpl _, s => s
  | .dpy, s => dpyStarted s

/-- `UNIT_START_COMPLETE`. -/
def execUnitStartComplete (u : UnitId) (vlsMv : Nat) (s : State) : Out :=
  done (if s.running then unitStartEnds vlsMv u s else s)

/-- A unit's shut-down is complete: its off-timer starts (R50, R55); an outlet's shut-down ends with its weld verdict
(R258) and has no off-time. -/
def unitStopEnds : UnitId → State → State
  | .hs c, s => unitStopped (hsUnit c) s
  | .out _, s => s
  | .vpl n, s => if s.rd (vplUnit n).st = 7 then vplEnter n 8 (unitStopped (vplUnit n) s) else s
  | .dpy, s => dpyStopped s

/-- `UNIT_SHUTDOWN_COMPLETE`. -/
def execUnitShutdownComplete (u : UnitId) (s : State) : Out := done (if s.running then unitStopEnds u s else s)

/-- The off-timer of a Green PHY instance expires: a pending enable starts it, else it is OFF. -/
def vplRested (n : Nat) (s : State) : State :=
  if s.rd (vplUnit n).st = 8 then
    let s := unitRested (vplUnit n) s
    if s.rd (vplUnit n).st = 1 then vplStarting n s else vplEnter n 0 s
  else s

/-- A unit's off-timer expires (R55). -/
def unitRestEnds : UnitId → State → State
  | .hs c, s => hsRested c s
  | .out _, s => s
  | .vpl n, s => vplRested n s
  | .dpy, s => dpyRested s

/-- `OFF_TIMER_EXPIRED`. -/
def execOffTimerExpired (u : UnitId) (s : State) : Out := done (if s.running then unitRestEnds u s else s)

end Sys2Proof.Machine
end

