-- ==== Sys2Proof/Machine/Bindery.lean ====
section
/-!
DEFINITION. The bindery (R547 to R553): bind sets, staged writes, the check of their ranges and rules, and their binding
instants.
-/
namespace Sys2Proof.Machine

/-! ### What the check asks of a register (R549) -/

/-- The range of a field that exists in `n` copies. -/
structure FldRange where
  f : Nat → Fld
  n : Nat
  ok : Nat → Bool

/-- A field that stands between two values. -/
def between (f : Nat → Fld) (n lo hi : Nat) : FldRange := ⟨f, n, fun v => decide (lo ≤ v) && decide (v ≤ hi)⟩

/-- A field that names one of the first `top + 1` things, or none by 0xFF. -/
def names (f : Nat → Fld) (n top : Nat) : FldRange := ⟨f, n, fun v => decide (v ≤ top) || v == 0xFF⟩

/-- The ranges of the staged fields, from the limits and section tables of the chapters; a field without an entry takes
every value. -/
def fldRanges : List FldRange :=
  [between (fun _ => Reg.MET.PQ_V.DIP) 1 50 98, between (fun _ => Reg.MET.PQ_V.SWELL) 1 102 150,
   between (fun _ => Reg.MET.PQ_V.INTR) 1 1 20, between (fun _ => Reg.MET.PQ_V.HYS) 1 5 50,
   between (fun _ => Reg.MET.PQ_L.FDEV) 1 10 200, between (fun _ => Reg.MET.PQ_L.UNB) 1 5 100,
   between (fun _ => Reg.MET.PQ_L.THD) 1 10 250, between (fun _ => Reg.RTC.CFG.LIMIT) 1 1 60,
   between Reg.OUT.CFG.KIND 16 0 4, between Reg.OUT.CFG.DROP_T 16 10 200, between Reg.OUT.CFG.CLOSE_T 16 20 250,
   between Reg.OUT.CFG.SP_PERIOD 16 5 50] ++
  [names Reg.OUT.HS_MAP.COIL0 16 39, names Reg.OUT.HS_MAP.COIL1 16 39, names Reg.OUT.HS_MAP.LOCK 16 39,
   names Reg.OUT.HS_MAP.TRIP 16 39, names Reg.OUT.HS_MAP2.COOL 16 39, names Reg.OUT.HS_MAP2.MOVE_DN 16 39,
   names Reg.OUT.HS_MAP2.MOVE_UP 16 39, names Reg.OUT.HS_MAP2.ACD_SAF 16 23, between Reg.CAN.CFG.NOM 2 0 2] ++
  [between (fun _ => Reg.CRL.CFG.RES_T) 1 1 60, between (fun _ => Reg.CRL.CFG.AUTH_T) 1 1 60,
   between (fun _ => Reg.CRL.CFG.LOW_WM) 1 1 128, between (fun _ => Reg.VPL.CFG.SLAC_INIT) 1 20 50,
   between (fun _ => Reg.VPL.CFG.MNBC) 1 20 100, between (fun _ => Reg.VPL.CFG.MATCH_T) 1 1 20,
   between (fun _ => Reg.VPL.CFG.JOIN_T) 1 1 30, between (fun _ => Reg.VPL.CFG2.LINK_T) 1 10 100,
   between (fun _ => Reg.VPL.CFG2.RETRY) 1 1 15, between (fun _ => Reg.VPL.CFG2.PROTO0) 1 0 3,
   between (fun _ => Reg.VPL.CFG2.PROTO1) 1 0 3, between (fun _ => Reg.VPL.CFG2.PROTO2) 1 0 3,
   between (fun _ => Reg.BBN.CFG.CYCLE) 1 8 18, between (fun _ => Reg.BBN.CFG.LOST_CYC) 1 4 64,
   between (fun _ => Reg.BBN.CFG.TM_MARGIN) 1 0 20, between (fun _ => Reg.BBN.CFG.RETX_MAX) 1 0 3,
   between (fun _ => Reg.BBN.TX.PATHS) 1 1 7] ++
  [between Reg.LSW.VLS.V_NOM 5 9 32, between Reg.LSW.CH.CFG.MODE 40 0 5, between Reg.LSW.CH.CFG.FREQ 40 0 5,
   between Reg.LSW.CH.CFG.LIMIT 40 2 24, between Reg.LSW.CH.CFG.INRUSH_T 40 0 100, between Reg.LSW.CH.CFG.SLEW 40 1 20,
   between Reg.LSW.CH.COIL.PULL_T 40 10 250, between Reg.LSW.CH.COIL.HOLD 40 0 1000, names Reg.LSW.HEAT.CFG.CHANNEL 8 39,
   between Reg.LSW.HEAT.CFG.ON_SPREAD 8 10 100, between Reg.LSW.HEAT.CFG.OFF_SPREAD 8 10 100,
   between Reg.LSW.HEAT.DUTY.FB_DUTY 8 0 1000, between Reg.LSW.HEAT.DUTY.HEAT_DUTY 8 0 1000] ++
  [between (fun _ => Reg.DPY.RAIL.ELVSS) 1 14 54, between (fun _ => Reg.NFC.DET_CFG.PING_PERIOD) 1 50 1000,
   between (fun _ => Reg.NFC.DET_CFG.TRACK) 1 4 10, between (fun _ => Reg.NFC.DET_CFG.WAKE_AMP) 1 5 100,
   between (fun _ => Reg.NFC.DET_CFG.WAKE_PH) 1 5 100]

/-- The copy of a field's register that lies at an address. -/
def copyAt (f : Nat → Fld) (n a : Nat) : Option Nat := (List.range n).find? fun i => (f i).addr = a

/-- The staged fields of a register keep their ranges. -/
def rangesOk (a mask v : Nat) : Bool :=
  fldRanges.all fun r =>
    match copyAt r.f r.n a with
    | none => true
    | some i => !Nat.testBit mask (r.f i).lo || r.ok (v / 2 ^ (r.f i).lo % 2 ^ (r.f i).w)

/-- The PWM frequencies of R403, Hz. -/
def pwmHz (f : Nat) : Nat := ([100, 200, 500, 1000, 2000, 5000] : List Nat).getD f 5000

/-- The PWM period of HS[c] is at least 10 × 32 V / SLEW (R403). -/
def State.slewOk (s : State) (c : Nat) : Bool :=
  decide (3200 * pwmHz (s.rd (Reg.LSW.CH.CFG.FREQ c)) ≤ 1000000 * s.rd (Reg.LSW.CH.CFG.SLEW c))

/-- The outlet whose configuration a register belongs to (R239). -/
def outletConfig (a : Nat) : Option Nat :=
  (List.range 16).find? fun n =>
    (Reg.OUT.CFG.KIND n).addr = a || (Reg.OUT.HS_MAP.COIL0 n).addr = a || (Reg.OUT.HS_MAP2.COOL n).addr = a ||
      (List.range 2).any fun k => (Reg.OUT.MOD_CFG.VALID_H n k).addr = a

/-- OUT[n] is DISABLED, IDLE, or CONNECTED with no carrel bound. -/
def State.outAtRest (s : State) (n : Nat) : Bool :=
  s.outSt n = 0 || s.outSt n = 1 || (s.outSt n = 2 && (s.bound n).isNone)

/-- The rules that name BND.CHECK, for one register of a set: `was` is the state before the set binds and `s` the state
it would leave (R239, R315, R329, R403, R541). -/
def rulesOk (was s : State) (a : Nat) : Bool :=
  (match outletConfig a with
   | some n => s.word a == was.word a || was.outAtRest n
   | none => true) &&
  (match copyAt Reg.LSW.CH.CFG.SLEW 40 a with | some c => s.slewOk c | none => true) &&
  (match copyAt Reg.LSW.HEAT.CFG.CHANNEL 8 a with
   | some h => decide (s.rd (Reg.LSW.HEAT.CFG.ON_SPREAD h) < s.rd (Reg.LSW.HEAT.CFG.OFF_SPREAD h)) | none => true) &&
  (match copyAt Reg.BBN.NOTCH.GROUP 4 a with | some _ => decide (256 ≤ s.bbnN) | none => true) &&
  (if Reg.BBN.CFG.CYCLE.addr = a || (copyAt Reg.BBN.NOTCH.GROUP 4 a).isSome then
     decide (120000 ≤ s.polledPeriod (s.rd Reg.BBN.CFG.CYCLE) (s.cfg 10 0x1A 1) (s.cfg 10 0x19 1)) else true) &&
  (match copyAt Reg.Q.WM.WM 32 a with | some q => decide (s.rd (Reg.Q.WM.WM q) ≤ s.qCap q) | none => true)

/-! ### Staged values -/

/-- The mask of a register's RWS fields. -/
def rwsMask (a : Nat) : Nat :=
  match findReg a with
  | none => 0
  | some d => d.fields.foldl (fun m (f : FldDesc) => if f.acc = .rws then m + (2 ^ (f.hi - f.lo + 1) - 1) * 2 ^ f.lo else m) 0

/-- A staged value takes effect in its register. -/
def putStaged (x : Nat × Nat × Nat) (s : State) : State :=
  match findReg x.1 with
  | none => s
  | some d => d.fields.foldl (fun s (f : FldDesc) =>
      if f.acc = .rws && Nat.testBit x.2.1 f.lo then s.wr ⟨x.1, f.lo, f.hi - f.lo + 1⟩ (x.2.2 / 2 ^ f.lo) else s) s

/-- Every staged value of a set takes effect. -/
def putAll (l : List (Nat × Nat × Nat)) (s : State) : State := l.foldl (fun s x => putStaged x s) s

/-- The first register of a set that fails the check, the registers standing as in `s`. -/
def checkFails (s : State) (l : List (Nat × Nat × Nat)) : Option Nat :=
  let t := putAll l s
  (l.find? fun x => !(rangesOk x.1 x.2.1 x.2.2 && rulesOk s t x.1)).map (·.1)

/-- The pending sets of the runtime and the host, in the order of their BIND commands. -/
def State.pendingSets (s : State) : List Nat :=
  ((List.range 4).filter fun k => (s.bset k).st = 2 && (s.bset k).owner ≤ 1).mergeSort fun i j =>
    decide ((s.bset i).order ≤ (s.bset j).order)

/-- The registers as they would stand once every pending set had bound (R549). -/
def State.ahead (s : State) : State := s.pendingSets.foldl (fun t k => putAll (s.bset k).staged t) s

/-! ### Binding (R551, R59) -/

/-- Whether a set writes a register of the OUT[n], LSW, SAF or CAN blocks (R59). -/
def BindSet.heldBack (b : BindSet) : Bool :=
  b.staged.any fun x => decide (0x20000 ≤ x.1 && x.1 < 0x30000) || decide (0x34000 ≤ x.1 && x.1 < 0x36000) ||
    decide (0x3A000 ≤ x.1 && x.1 < 0x3C000)

/-- What follows a set that has bound: outlets, channels, backbone and reader take their new configuration. -/
def bindFollow (was : State) (l : List (Nat × Nat × Nat)) (s : State) : State :=
  let touched := fun (f : Nat → Fld) (i : Nat) => l.any fun x => x.1 = (f i).addr
  let s := forEach 16 (fun n s => if l.any fun x => outletConfig x.1 = some n then outRebound n s else s) s
  let s := forEach 40 (fun c s =>
    if touched Reg.LSW.CH.CFG.MODE c || touched Reg.LSW.CH.COIL.HOLD c || touched Reg.LSW.VLS.V_NOM (c / 8) ||
        (List.range 8).any fun h => touched Reg.LSW.HEAT.DUTY.HEAT_DUTY h || touched Reg.LSW.HEAT.CFG.CHANNEL h
    then hsApply c s else s) s
  let s := if was.rd Reg.BBN.CFG.CYCLE ≠ s.rd Reg.BBN.CFG.CYCLE ||
      ((List.range 4).any fun k => was.rd (Reg.BBN.NOTCH.GROUP k) ≠ s.rd (Reg.BBN.NOTCH.GROUP k)) then
      if s.rd Reg.BBN.STATUS.ROLE = 0 then s else bbnListen s
    else s
  nfcJudge s

/-- The result of a command, with the set concerned. -/
def bndResult (k cmd code : Nat) (s : State) : State :=
  ((s.wr Reg.BND.RESULT.SET k).wr Reg.BND.RESULT.CMD cmd).wr Reg.BND.RESULT.CODE code

/-- A set is refused at its instant (R551). -/
def bindRefuse (k : Nat) (s : State) : State :=
  raise 0x0401 k ((bndResult k 3 7 (s.setBset k BindSet.empty)).setFlag Reg.HP.IRQ_STATUS.SRC 1 true)

/-- A pending set of the runtime or the host reaches its binding instant. -/
def bindNow (k : Nat) (s : State) : State :=
  let b := s.bset k
  if b.st ≠ 2 || 2 ≤ b.owner || !s.running || s.mode = 11 then s
  else if b.heldBack && (s.mode = 8 || s.mode = 9) then s.setBset k { b with deferred := true }
  else if b.heldBack && s.mode = 10 then bindRefuse k s
  else
    match checkFails s b.staged with
    | some a => bindRefuse k (s.wr Reg.BND.FAIL_ADDR.VALUE a)
    | none =>
      bindFollow s b.staged ((putAll b.staged (s.setBset k BindSet.empty)).setFlag Reg.HP.IRQ_STATUS.SRC 1 true)

/-- Whether a pending set binds at the quantum boundary of reading `r` (R550, R551, R59). -/
def BindSet.atBoundary (b : BindSet) (r : Int) (period demand : Bool) : Bool :=
  b.deferred || b.kind = 1 || (b.kind = 2 && decide (unitsOf b.time ≤ r)) ||
    (b.kind = 4 && ((b.arg = 2 && period) || (b.arg = 3 && demand)))

/-- The sets whose instant is this quantum boundary bind in the order of their BIND commands (R550, R551). -/
def bindBoundary (r : Int) (period demand : Bool) (s : State) : State :=
  (s.pendingSets.filter fun k => (s.bset k).atBoundary r period demand).foldl (fun s k => bindNow k s) s

/-- Whether what the state shows allows that the instant of a set has come (R550). -/
def State.instantOk (s : State) (b : BindSet) : Bool :=
  if b.deferred then false
  else if b.kind = 3 then s.bit Reg.BBN.STATUS.SYNC
  else if b.kind = 4 && b.arg = 1 then s.mode = 5
  else if b.kind = 4 && b.arg = 4 then s.outAtRest b.arg2
  else true

/-- `BIND_INSTANT`: the instant of a pending set has come. -/
def execBindInstant (k : Fin 4) (s : State) : Out :=
  done (if s.instantOk (s.bset k) then bindNow k s else s)

/-! ### Commands (R547 to R552) -/

/-- The owner code of an agent. -/
def ownerOf : Agent → Nat
  | .runtime => 0
  | .host => 1

/-- The agent's open set. -/
def State.openSet (s : State) (a : Agent) : Option Nat :=
  (List.range 4).find? fun k => (s.bset k).st = 1 && (s.bset k).owner = ownerOf a

/-- OPEN. -/
def bndOpen (a : Agent) (s : State) : State :=
  gated a 1 (fun s =>
    match s.openSet a, s.freeBset with
    | some k, _ => bndResult k 1 2 s
    | none, none => bndResult 0 1 1 s
    | none, some k => bndResult k 1 0 (s.setBset k { BindSet.empty with st := 1, owner := ownerOf a })) s

/-- `OPEN`. -/
def execBndOpen (a : Agent) (s : State) : Out := done (bndOpen a s)

/-- The code that CHECK gives for an open set, and the first failing register. -/
def State.bndCode (s : State) (k : Nat) : Nat × Option Nat :=
  if (s.bset k).overflow then (5, none)
  else
    match checkFails s.ahead (s.bset k).staged with
    | some a => (4, some a)
    | none => (0, none)

/-- The check of an open set with its result shown under a command; `f` follows when it passes. -/
def bndJudge (k cmd : Nat) (f : State → State) (s : State) : State :=
  match s.bndCode k with
  | (0, _) => f (bndResult k cmd 0 s)
  | (c, none) => bndResult k cmd c s
  | (c, some a) => bndResult k cmd c (s.wr Reg.BND.FAIL_ADDR.VALUE a)

/-- CHECK. -/
def bndCheck (a : Agent) (s : State) : State :=
  gated a 1 (fun s =>
    match s.openSet a with
    | none => bndResult 0 2 3 s
    | some k => bndJudge k 2 (fun s => s) s) s

/-- `CHECK`. -/
def execBndCheck (a : Agent) (s : State) : Out := done (bndCheck a s)

/-- A set whose check has passed is pending; one whose instant is the next cycle, or event 4 that holds, binds now. -/
def bndClose (k kind arg arg2 : Nat) (s : State) : State :=
  let b := s.bset k
  let time := s.rd Reg.BND.TIME_LO.VALUE + s.rd Reg.BND.TIME_HI.VALUE * 2 ^ 32
  let s := { s.setBset k { b with st := 2, kind := kind, arg := arg, arg2 := arg2, time := time, order := s.bindNo }
    with bindNo := s.bindNo + 1 }
  if kind = 0 || (kind = 4 && arg = 4 && s.outAtRest arg2) then bindNow k s else s

/-- BIND. -/
def bndBind (a : Agent) (kind arg arg2 : Nat) (s : State) : State :=
  gated a 1 (fun s =>
    match s.openSet a with
    | none => bndResult 0 3 3 s
    | some k => if 5 ≤ kind then bndResult k 3 8 s else bndJudge k 3 (bndClose k kind arg arg2) s) s

/-- `BIND`. -/
def execBndBind (a : Agent) (kind arg arg2 : Fin 16) (s : State) : Out := done (bndBind a kind arg arg2 s)

/-- CANCEL (R552). -/
def bndCancel (a : Agent) (k : Nat) (s : State) : State :=
  gated a 1 (fun s =>
    if (s.bset k).st = 0 then bndResult k 4 3 s
    else if (s.bset k).owner ≠ ownerOf a then bndResult k 4 6 s
    else bndResult k 4 0 (s.setBset k BindSet.empty)) s

/-- `CANCEL`. -/
def execBndCancel (a : Agent) (k : Fin 4) (s : State) : Out := done (bndCancel a k s)

/-- A write staged in a set: it replaces what the same register holds there, and a 257th register marks the set as
overflowed (R547). -/
def BindSet.stage (b : BindSet) (a mask v : Nat) : BindSet :=
  if b.staged.any fun x => x.1 = a then
    { b with staged := b.staged.map fun x =>
        if x.1 = a then (a, Nat.lor x.2.1 mask, Nat.lor (Nat.land x.2.2 (2 ^ 32 - 1 - mask)) (Nat.land v mask)) else x }
  else if 256 ≤ b.staged.length then { b with overflow := true }
  else { b with staged := b.staged ++ [(a, mask, Nat.land v mask)] }

/-- The least level at which a register is written (R575): Observer for the selection registers and the host port's own;
Utility where the owning rule says so (R168, R181, R182, R191, R528); Operator for every other. -/
def writeLevel (addr : Nat) : Nat :=
  if decide (0x5400 ≤ addr ∧ addr < 0x5600) || decide (0x5020 ≤ addr ∧ addr < 0x5030) ||
      [Reg.HP.AUTH.GO.addr, Reg.MET.HSEL.METER.addr, Reg.BIL.SEL.QTY.addr, Reg.VCH.ISSUER_SEL.INDEX.addr,
        Reg.CRL.SLIP_SEL.CARREL.addr, Reg.BBN.NBR_SEL.NODE.addr, Reg.NFC.LIST.SEL.addr, Reg.KEY.SLOT_SEL.SLOT.addr,
        Reg.FLT.SEL.ENTRY.addr, Reg.BIST.RET_SEL.INDEX.addr, Reg.BND.PEEK_ADDR.ADDR.addr].contains addr then 0
  else if decide (0xB000 ≤ addr ∧ addr < 0xC000) || decide (0x16000 ≤ addr ∧ addr < 0x18000) ||
      [Reg.TMP.CFG.EN.addr, Reg.RTC.LEAP.TAI_UTC.addr, Reg.RTC.SET_SEC.SEC.addr, Reg.RTC.SET_CTL.FRAC.addr].contains addr then 2
  else 1

/-- A write of RWS fields (R547). -/
def rwsWrite (a : Agent) (addr mask v : Nat) (s : State) : State :=
  if mask = 0 then s
  else gated a (writeLevel addr) (fun s =>
    match s.openSet a with
    | none => s.inc Reg.BND.STATUS.NOSET
    | some k => s.setBset k ((s.bset k).stage addr mask v)) s

/-- `RWS_WRITE`. -/
def execRwsWrite (a : Agent) (addr value : Nat) (s : State) : Out := done (rwsWrite a addr (rwsMask addr) value s)

/-- `ELVSS_WRITE` (R423): a staged write of DPY.RAIL.ELVSS; once bound, the rail moves by a step at each frame. -/
def execElvssWrite (a : Agent) (v : Fin 64) (s : State) : Out :=
  done (rwsWrite a Reg.DPY.RAIL.ELVSS.addr ((2 ^ Reg.DPY.RAIL.ELVSS.w - 1) * 2 ^ Reg.DPY.RAIL.ELVSS.lo)
    (v * 2 ^ Reg.DPY.RAIL.ELVSS.lo) s)

/-! ### PRESET (R553) -/

/-- The entries of the PRESET section. -/
def State.presets (s : State) : List (Nat × Nat × Nat) :=
  (List.range (s.cfg 0xC 0 2)).map fun i => (s.cfg 0xC (0x10 + 12 * i) 4, s.cfg 0xC (0x18 + 12 * i) 4, s.cfg 0xC (0x14 + 12 * i) 4)

/-- At step 6 the PRESET entries bind as one immediate set; when the check fails nothing is applied. -/
def presetApply (s : State) : State :=
  match checkFails s s.presets with
  | some _ => raise 0x4402 0 s
  | none => putAll s.presets s

end Sys2Proof.Machine
end

