-- ==== Sys2Proof/Machine/Carrels.lean ====
section
/-!
DEFINITION. Carrels (chapter 09): the commands of R274, the changes of R272, and retirement.
-/
namespace Sys2Proof.Machine

/-- CRL.RESULT is written. -/
def crlResult (c cmd code : Nat) (s : State) : State :=
  ((s.wr Reg.CRL.RESULT.CARREL c).wr Reg.CRL.RESULT.CMD cmd).wr Reg.CRL.RESULT.CODE code

/-- A refused command (R274). -/
def crlRefuse (c cmd code : Nat) (s : State) : State :=
  raise 0x3004 c ((crlResult c cmd code s).inc Reg.CRL.COUNTS.REFUSED)

/-- The modes of a command: RESERVE and AUTHORISE in 5, 6, 8 and 9; the others in 4 to 10 (R274). -/
def crlModeOk (cmd : Nat) (s : State) : Bool :=
  let m := s.mode
  if cmd ≤ 2 then m = 5 || m = 6 || m = 8 || m = 9 else 4 ≤ m && m ≤ 10

/-- A command in the order of R274: privilege, mode, then `conds` as (code, holds) pairs in their order. -/
def crlJudge (a : Agent) (c cmd : Nat) (conds : List (Nat × Bool)) (act : State → State) (s : State) : State :=
  if !s.modeWrites then s
  else if s.level a < 1 then crlRefuse c cmd 2 s
  else if !crlModeOk cmd s then crlRefuse c cmd 1 s
  else match conds.find? (fun x => !x.2) with
    | some (code, _) =>
      let s := crlRefuse c cmd code s
      if code = 4 && 256 ≤ s.usedCarrels then
        raise 0x7001 0 (s.setB Reg.CRL.STATUS.FULL_STK true) else s
    | none => crlWatch (act s)

/-- New carrels are permitted (R275). -/
def State.newCarrels (s : State) : Bool :=
  !s.bit Reg.CRD.STATUS.STOPPED && !s.tamperAction && !s.bit Reg.MODE.STATUS.SHUT

/-- The lowest-numbered free carrel. -/
def State.freeCarrel (s : State) : Option Nat := (List.range 256).find? fun c => (s.car c).st = 0

/-- Carrels in states 1 to 5 assigned to an outlet, `except` left out. -/
def State.outletCarrels (s : State) (n : Nat) (except : Option Nat) : Nat :=
  ((s.carrelsWhere fun r => r.outlet = n && 1 ≤ r.st && r.st ≤ 5).filter fun c => some c ≠ except).length

/-- The next session number is taken (R276); the counter stops after 0xFFFF_FFFF. -/
def takeSession (s : State) : Nat × State :=
  let n := s.rd Reg.CRL.NEXT_SESSION.SESSION
  let next := if n = 0xFFFFFFFF then 0 else n + 1
  (n, { s.wr Reg.CRL.NEXT_SESSION.SESSION next with crl := { s.crl with sessCopy := some next } })

/-- Word `k` of the authorisation form. -/
def State.form (s : State) (k : Nat) : Nat := s.rd (Reg.CRL.ARG.BYTES k)

/-- The form lies in its ranges (R273). -/
def State.formOk (s : State) : Bool :=
  s.form 2 + 2 ^ 32 * s.form 3 ≤ s.cfg 5 0x20 8 && s.form 5 % 256 < 4 && s.form 5 / 256 % 256 ≤ 5 &&
    s.form 5 / 2 ^ 24 = 0 && (List.range 5).all fun j => s.form (11 + j) = 0

/-- The record and slip that AUTHORISE writes (R272, R273). -/
def authorised (s : State) (n session : Nat) : Carrel :=
  { Carrel.free with
    st := 2, outlet := n, session := session, tAuth := s.rtcSec
    cred := s.form 0 + 2 ^ 32 * s.form 1
    balance := ((s.form 2 + 2 ^ 32 * s.form 3 : Nat) : Int)
    iLim := s.form 4 % 65536, pLim := s.form 4 / 65536
    unlimited := Nat.testBit (s.form 5) 0, rev := Nat.testBit (s.form 5) 1
    credKind := s.form 5 / 256 % 256, idleGrace := s.form 5 / 65536 % 256
    startFee := s.form 6, priceIn := s.form 7, priceOut := s.form 8, timePrice := s.form 9, idlePrice := s.form 10 }

/-- Conditions of RESERVE in the order of R274. -/
def reserveConds (s : State) (n : Nat) (needsFree : Bool) (except : Option Nat) : List (Nat × Bool) :=
  [(5, s.newCarrels),
   (4, !needsFree || (s.freeCarrel.isSome && s.rd Reg.CRL.NEXT_SESSION.SESSION ≠ 0)),
   (6, s.rd (Reg.OUT.CFG.KIND n) ≠ 0 && s.outSt n ≠ 0),
   (7, decide (s.outletCarrels n except < 4))]

/-- `RESERVE` (R274). -/
def crlReserveCmd (a : Agent) (carrel : Fin 256) (outlet : Fin 16) (s : State) : State :=
  let bad := (s.car carrel).st
  crlJudge a carrel 1
    (reserveConds s outlet true none ++ [(if bad = 7 then 10 else 3, decide (carrel.val = 0xFF))])
    (fun s =>
      let c := s.freeCarrel.getD 0
      let (k, s) := takeSession s
      crlResult c 1 0 (s.setCar c { Carrel.free with st := 1, session := k, outlet := outlet, tAuth := s.rtcSec })) s

/-- The meaning of the command. -/
def execCrlReserve (a : Agent) (carrel : Fin 256) (outlet : Fin 16) (s : State) : Out := done (crlReserveCmd a carrel outlet s)

/-- `AUTHORISE` (R274): from Free with CARREL = 0xFF, or of a carrel Reserved for the same outlet. -/
def crlAuthoriseCmd (a : Agent) (carrel : Fin 256) (outlet : Fin 16) (s : State) : State :=
  let r := s.car carrel
  let fresh := carrel.val = 0xFF && r.st ≠ 1
  crlJudge a carrel 2
    (reserveConds s outlet fresh (if fresh then none else some carrel.val) ++
      [(if r.st = 7 then 10 else 3, fresh || (r.st = 1 && r.outlet = outlet.val)), (9, s.formOk)])
    (fun s =>
      if fresh then
        let c := s.freeCarrel.getD 0
        let (k, s) := takeSession s
        crlResult c 2 0 (s.setCar c (authorised s outlet k))
      else crlResult carrel 2 0 (s.setCar carrel (authorised s outlet r.session))) s

/-- The meaning of the command. -/
def execCrlAuthorise (a : Agent) (carrel : Fin 256) (outlet : Fin 16) (s : State) : Out := done (crlAuthoriseCmd a carrel outlet s)

/-- The code for a carrel that is in no state of the command. -/
def wrongState (r : Carrel) : Nat := if r.st = 7 then 10 else 3

/-- `CANCEL` (R272, R274). -/
def crlCancelCmd (a : Agent) (carrel : Fin 256) (s : State) : State :=
  let r := s.car carrel
  crlJudge a carrel 3 [(wrongState r, r.st = 1 || r.st = 2)]
    (fun s => crlResult carrel 3 0
      (if r.st = 1 then s.setCar carrel Carrel.free else crlClosed carrel (some 33) s)) s

/-- The meaning of the command. -/
def execCrlCancel (a : Agent) (carrel : Fin 256) (s : State) : Out := done (crlCancelCmd a carrel s)

/-- `CLOSE` (R272, R274): an Energising carrel enters Closing and its outlet stops. -/
def crlCloseCmd (a : Agent) (carrel : Fin 256) (s : State) : State :=
  let r := s.car carrel
  crlJudge a carrel 4 [(wrongState r, 2 ≤ r.st && r.st ≤ 4)]
    (fun s =>
      let s := if r.st = 2 then crlClosed carrel (some 32) s
        else if r.st = 3 then outRamp r.outlet 1 (s.setCar carrel { r with st := 5, reason := 32 })
        else crlClosing carrel 32 s
      crlResult carrel 4 0 s) s

/-- The meaning of the command. -/
def execCrlClose (a : Agent) (carrel : Fin 256) (s : State) : Out := done (crlCloseCmd a carrel s)

/-- `ACK` (R272, R282). -/
def crlAckCmd (a : Agent) (carrel : Fin 256) (s : State) : State :=
  let r := s.car carrel
  crlJudge a carrel 5 [(wrongState r, r.st = 6), (8, r.session = s.rd Reg.CRL.ACK_SESSION.SESSION)]
    (fun s => crlResult carrel 5 0 (s.setCar carrel Carrel.free)) s

/-- The meaning of the command. -/
def execCrlAck (a : Agent) (carrel : Fin 256) (s : State) : Out := done (crlAckCmd a carrel s)

/-- `LIMIT` (R274, R279): only I_LIM and P_LIM are copied. -/
def crlLimitCmd (a : Agent) (carrel : Fin 256) (s : State) : State :=
  let r := s.car carrel
  crlJudge a carrel 6 [(wrongState r, 2 ≤ r.st && r.st ≤ 4)]
    (fun s =>
      let s := s.setCar carrel { r with iLim := s.form 4 % 65536, pLim := s.form 4 / 65536 }
      let s := if r.outlet < 16 && s.bound r.outlet = some carrel.val then outRecap r.outlet s else s
      crlResult carrel 6 0 s) s

/-- The meaning of the command. -/
def execCrlLimit (a : Agent) (carrel : Fin 256) (s : State) : Out := done (crlLimitCmd a carrel s)

/-- `CRL_CMD_UNDEFINED` (R274): a code of 7 to 255; CMD = 0 is no command. -/
def crlUndefined (_ : Agent) (carrel cmd : Nat) (s : State) : State :=
  if s.modeWrites && 7 ≤ cmd then crlRefuse carrel cmd 11 s else s

/-- `CRL_CMD_UNDEFINED`. -/
def execCrlCmdUndefined (a : Agent) (carrel cmd : Fin 256) (s : State) : Out := done (crlUndefined a carrel cmd s)

/-- RES_T has elapsed since T_AUTH (R272). -/
def State.resExpired (s : State) (r : Carrel) : Bool := r.tAuth + 60 * s.rd Reg.CRL.CFG.RES_T ≤ s.rtcSec

/-- AUTH_T has elapsed since T_AUTH (R272). -/
def State.authExpired (s : State) (r : Carrel) : Bool := r.tAuth + 60 * s.rd Reg.CRL.CFG.AUTH_T ≤ s.rtcSec

/-- The suspension has lasted longer than SUSP_MAX; 0 sets no limit (R272, R288). -/
def State.suspExpired (s : State) (r : Carrel) : Bool :=
  s.rd Reg.CRL.CFG.SUSP_MAX ≠ 0 && 600 * s.rd Reg.CRL.CFG.SUSP_MAX < r.qSusp

/-- The shut-down of the carrel's outlet is complete: it no longer serves the carrel in CLOSING to OPENING. -/
def State.shutDone (s : State) (c : Nat) (r : Carrel) : Bool :=
  16 ≤ r.outlet || s.bound r.outlet ≠ some c || s.outSt r.outlet < 4 || 9 < s.outSt r.outlet

/-- The change that carrel `c` takes at a boundary (R272); `closing` are the carrels that were already Closing. -/
def carrelStepOne (closing : List Nat) (c : Nat) (s : State) : State :=
  let r := s.car c
  if r.st = 1 && s.resExpired r then s.setCar c Carrel.free
  else if r.st = 2 && s.authExpired r then crlClosed c (some 35) s
  else if r.st = 4 && s.suspExpired r then crlClosing c 36 s
  else if r.st = 5 && closing.contains c && s.shutDone c r then crlClosed c none s
  else s

/-- The carrel step (R280), in ascending carrel index; afterwards an outlet that waited under R278 may close. -/
def carrelStep (closing : List Nat) (s : State) : State :=
  let s := (s.carrelsWhere fun r => 1 ≤ r.st && r.st ≤ 5).foldl (fun s c => carrelStepOne closing c s) s
  crlWatch (forEach 16 tryClose s)

/-- `RESERVATION_EXPIRED` (R272). -/
def execReservationExpired (carrel : Fin 256) (s : State) : Out :=
  done (live (fun s =>
    let r := s.car carrel
    if r.st = 1 && s.resExpired r then crlWatch (s.setCar carrel Carrel.free) else s) s)

/-- `AUTHORISATION_EXPIRED` (R272). -/
def execAuthorisationExpired (carrel : Fin 256) (s : State) : Out :=
  done (live (fun s =>
    let r := s.car carrel
    if r.st = 2 && s.authExpired r then crlClosed carrel (some 35) s else s) s)

/-- `SUSPENSION_EXPIRED` (R272). -/
def execSuspensionExpired (carrel : Fin 256) (s : State) : Out :=
  done (live (fun s =>
    let r := s.car carrel
    if r.st = 4 && s.suspExpired r then crlClosing carrel 36 s else s) s)

/-- The last committed copy of a carrel (R283). -/
def State.lastCopy (s : State) (c : Nat) : Option Carrel :=
  let a := mapGet (fun _ => CarrelCopy.blank) s.crl.copies (2 * c)
  let b := mapGet (fun _ => CarrelCopy.blank) s.crl.copies (2 * c + 1)
  if a.valid && (!b.valid || b.qserial ≤ a.qserial) then some a.car
  else if b.valid then some b.car else none

/-- A carrel is retired (R286). -/
def crlRetire (c : Nat) (s : State) : State :=
  let r := s.car c
  let s := if 1 ≤ r.st && r.st ≤ 5 then
      let s := if r.outlet < 16 && s.bound r.outlet = some c then outForce r.outlet 14 s else s
      match s.lastCopy c with
      | some k =>
        let k := { k with st := 6, reason := 39, noAck := true }
        closeRecord c k (postClose k s)
      | none => s
    else if r.st = 6 then postClose { r with noAck := true } s
    else s
  let s := s.setCar c { Carrel.free with st := 7, outlet := 0 }
  let s := if r.outlet < 16 && s.bound r.outlet = some c then unbind r.outlet s else s
  let s := s.inc Reg.CRL.COUNTS.RETIRED
  crlWatch (raise 0x7003 c s)

end Sys2Proof.Machine
end

