-- ==== Sys2Proof/Machine/Selftest.lean ====
section
/-!
DEFINITION. Self-test and performance counters (chapter 18): the start test's groups, repair and retirement, periodic
slices, and the counters.
-/
namespace Sys2Proof.Machine

/-- The BIST controller's state changed. -/
def State.mapBist (s : State) (f : BistSt → BistSt) : State := { s with bist := f s.bist }

/-! ### Retirement (R519, R520) -/

/-- KIND of R524 and the unit of a failing address; `none` for a memory without units. -/
def memKind : BistMem → Option Nat
  | .appSram => some 1
  | .annex => some 2
  | .rroom => some 3
  | .carrel => some 4
  | .circ => some 5
  | .acc => some 5
  | .appMram => some 6
  | .other => none
  | .legal => none

/-- The group whose test covers units of a KIND (R513). -/
def kindGroup (kind : Nat) : Nat := if kind = 1 then 2 else if kind = 4 then 5 else 6

/-- The retired units of a KIND. -/
def State.retired (s : State) (kind : Nat) : List Nat :=
  ((s.bist.map.filter fun x => x.kind = kind).map (·.unit)) ++ (s.bist.now.filter fun x => x.1 = kind).map (·.2)

/-- The SYS capacity registers, and the slots and pages that retired units take away. Recorder blocks count 0 to 1,023
in the circulation area and from 1,024 on in the accession area (log entry 42). -/
def capShow (s : State) : State :=
  let blocks := (s.retired 5).filter fun u => u < 1024
  let s := { s with
    evr := { s.evr with retired := blocks.flatMap fun b => (List.range 64).map fun i => 64 * b + i }
    hp := { s.hp with retiredPages := s.retired 3 } }
  let s := (s.wr Reg.SYS.CAP_CARREL.CARRELS (256 - (s.retired 4).length)).wr Reg.SYS.CAP_APP_SRAM.TILES (128 - (s.retired 1).length)
  let s := (s.wr Reg.SYS.CAP_ANNEX.SEG (maskOf 32 fun n => !(s.retired 2).contains n)).wr
    Reg.SYS.CAP_RROOM.PAGES (256 - (s.retired 3).length)
  let s := (s.wr Reg.SYS.CAP_EVR.BLOCKS (1024 - blocks.length)).wr Reg.SYS.CAP_APP_MRAM.BLOCKS (1500 - (s.retired 6).length)
  (s.wr Reg.SYS.CAP_RETIRED.ENTRIES s.bist.map.length).wr Reg.EVR.CIRC_CAP.SLOTS (65536 - 64 * blocks.length)

/-- The RETIRE record (R524). -/
def retireRecord (kind action good unit loc : Nat) (s : State) : State :=
  s.record 0x49 (payloadOf [(0, kind), (1, action), (2, good), (4, unit), (8, loc)]) false

/-- A unit is retired: with a map entry, or for the present start when the map is full (R519). -/
def retireUnit (kind unit loc : Nat) (s : State) : State :=
  if (s.retired kind).contains unit then s
  else
    let full := 256 ≤ s.bist.map.length
    let s := s.mapBist fun b =>
      if full then { b with now := b.now ++ [(kind, unit)] } else { b with map := b.map ++ [⟨kind, unit, 0, loc⟩] }
    let s := addDegr 0x4A02 (65536 * kind + unit) false (retireRecord kind 0 0 unit loc (capShow s))
    let s := if full then raise 0x4A06 unit s else s
    if kind = 4 then crlRetire unit s else if full then s else raise 0x4A02 unit s

/-- A failure that no spare repairs (R519). -/
def unrepairable (x : BistFail) (s : State) : State :=
  match x.mem with
  | .other => raise1 0x8A03 x.loc 0 false s
  | .legal => raise1 0xCA04 x.loc 0 false s
  | .acc =>
    let left := s.rd Reg.SYS.CAP_EVR.RESERVE
    if left ≠ 0 then raise 0x4A02 (1024 + x.units.headD 0) (s.wr Reg.SYS.CAP_EVR.RESERVE (left - 1))
    else x.units.foldl (fun s u => retireUnit 5 (1024 + u) x.loc s) s
  | m => x.units.foldl (fun s u => retireUnit ((memKind m).getD 0) u x.loc s) s

/-! ### Repair (R518) -/

/-- The spares of a macro: 4 rows and 2 columns, or 16 and 8 of an MRAM array. -/
def failRoom (x : BistFail) : Nat := if x.mram then 24 else 6

/-- The key of a macro's spares. -/
def failKey (x : BistFail) : Nat := 2 * x.macroNo + b2n x.mram

/-- A free spare takes a failing address; `none` when the macro has none left. -/
def repair (x : BistFail) (s : State) : Option State :=
  let used := mapGet (fun _ => 0) s.bist.spares (failKey x)
  if failRoom x ≤ used then none
  else
    let s := (s.mapBist fun b => { b with spares := mapSet (fun _ => 0) b.spares (failKey x) (used + 1) }).inc Reg.BIST.REPAIR.SOFT
    some (if used + 1 = failRoom x then s.inc Reg.BIST.REPAIR.EXHAUSTED else s)

/-- The failing addresses of a test are repaired as far as spares go: the state, the spares used, and what is left. -/
def repairAll (l : List BistFail) (s : State) : State × Nat × List BistFail :=
  l.foldl (fun (acc : State × Nat × List BistFail) x =>
    match repair x acc.1 with
    | some s => (s, acc.2.1 + 1, acc.2.2)
    | none => (acc.1, acc.2.1, acc.2.2 ++ [x])) (s, 0, [])

/-- A retired unit whose memory group `g` has tested is counted, and returns at the third passing start in a row
(R520). -/
def goodCount (g : Nat) (left : List BistFail) (s : State) : State :=
  s.bist.map.foldl (fun s (x : Retired) =>
    if kindGroup x.kind ≠ g then s
    else
      let bad := left.any fun y => memKind y.mem = some x.kind &&
        y.units.any fun u => (if y.mem = .acc then 1024 + u else u) = x.unit
      let put := fun (f : Retired → Option Retired) (s : State) => s.mapBist fun b =>
        { b with map := b.map.filterMap fun y => if y.kind = x.kind && y.unit = x.unit then f y else some y }
      if bad then put (fun y => some { y with good := 0 }) s
      else if x.good < 2 then
        retireRecord x.kind 2 (x.good + 1) x.unit x.loc (put (fun y => some { y with good := y.good + 1 }) s)
      else retireRecord x.kind 1 3 x.unit x.loc (put (fun _ => none) s)) s

/-- The BIST record (R524). -/
def bistRecord (cls g verdict spares : Nat) (r : BistResult) (s : State) : State :=
  s.record 0x48 (payloadOf [(0, cls), (1, g), (2, verdict), (3, spares), (4, r.misr % 2 ^ 64), (0xC, r.expected % 2 ^ 64),
    (0x14, match r.fails with | x :: _ => x.loc % 2 ^ 64 | [] => 0), (0x1C, r.ms % 2 ^ 16)]) false

/-- VERDICT of a group test. -/
def bistVerdict (ok : Bool) (spares : Nat) (left : List BistFail) : Nat :=
  if !ok || left.any (fun x => (memKind x.mem).isNone) then 3
  else if !left.isEmpty then 2 else if spares ≠ 0 then 1 else 0

/-! ### The start test (R513 to R517) -/

/-- RUN shows the groups on the lanes. -/
def runShow (s : State) : State :=
  s.wr Reg.BIST.STATUS.RUN (maskOf 8 fun g => s.bist.lane0 = some g || s.bist.lane1 = some g)

/-- The next groups start on the lanes that are free, lane 0 first (R515). -/
def lanesFill (s : State) : State :=
  let fill := fun (b : BistSt) =>
    match b.lane0, b.todo with
    | none, g :: r => { b with lane0 := some g, todo := r }
    | _, _ => b
  let fill1 := fun (b : BistSt) =>
    match b.lane1, b.todo with
    | none, g :: r => { b with lane1 := some g, todo := r }
    | _, _ => b
  runShow (s.mapBist fun b => fill1 (fill b))

/-- Key slots are locked, and the working registers, the DRBG and the keys held in K/PLC are erased (R517). -/
def secretsClear (s : State) : State :=
  let s := forEach 16 (fun n s => s.setVpl n { s.vplAt n with nmk := 0, nid := 0 }) s
  { s.mapBbn (fun b => { b with neks := [], kek := [], join := none, adm := none }) with key := { s.key with locked := true } }

/-- The start test begins: `quick` omits groups 0 to 3 (R80, R515). -/
def bistBegin (quick : Bool) (s : State) : State :=
  let s := (secretsClear s).mapBist fun b => { b with
    lane0 := none, lane1 := none, todo := if quick then [6, 5, 4, 7] else [6, 5, 2, 3, 0, 1, 4, 7], spares := [], now := [] }
  let s := ((s.wr Reg.BIST.STATUS.FAIL 0).wr Reg.BIST.STATUS.TESTED 0).wr Reg.BIST.REPAIR.SOFT 0
  lanesFill (s.wr Reg.BIST.REPAIR.EXHAUSTED 0)

/-- Step 7 of R69 ends: soft repair is in force, the retired units of earlier starts are degradation causes, the slots
are unlocked, and the recorder starts (R508, R517 to R519). -/
def bistEnd (s : State) : State :=
  let s := s.mapBist fun b => { b with history := b.spares }
  let s := s.bist.map.foldl (fun s (x : Retired) => addDegr 0x4A02 (65536 * x.kind + x.unit) false s) (capShow s)
  let s := { s with key := { s.key with locked := s.bist.scan }, sys := { s.sys with startStep := if s.bit Reg.MET.STATUS.RUN then 8 else 7 } }
  let s := recorderStart s
  if s.rd Reg.BIST.REPAIR.SOFT = 0 then s else raise 0x0A01 0 s

/-- A group of the start test is done. -/
def bistGroup (g : Nat) (r : BistResult) (s : State) : State :=
  if !(s.running && s.mode = 2 && (s.bist.lane0 = some g || s.bist.lane1 = some g)) then s
  else
    let s := s.mapBist fun b => { b with
      lane0 := if b.lane0 = some g then none else b.lane0
      lane1 := if b.lane1 = some g then none else b.lane1 }
    let s := s.setFlag Reg.BIST.STATUS.TESTED g true
    let ok := r.misr = r.expected && r.mbistOk
    let (s, used, left) := repairAll r.fails s
    let s := goodCount g left (bistRecord 0 g (bistVerdict ok used left) used r s)
    let s := left.foldl (fun s x => unrepairable x s) s
    let s := if ok then s else raise 0x8A11 g (s.setFlag Reg.BIST.STATUS.FAIL g true)
    if s.mode ≠ 2 then runShow (s.mapBist fun b => { b with lane0 := none, lane1 := none, todo := [] })
    else
      let s := lanesFill s
      if s.bist.lane0.isNone && s.bist.lane1.isNone then bistEnd s else s

/-- `BIST_GROUP_DONE`. -/
def execBistGroupDone (g : Fin 8) (r : BistResult) (s : State) : Out := done (bistGroup g r s)

/-! ### Periodic slices (R521, R522) -/

/-- Slices run: from step 8 on, in modes 4 to 10 but RIDE_THROUGH, outside the shut-down test. -/
def State.slicesRun (s : State) : Bool :=
  s.running && s.bit Reg.MET.STATUS.RUN && decide (4 ≤ s.mode) && decide (s.mode ≤ 10) && s.mode ≠ 9 && s.sys.shutStep ≠ 5

/-- `SLICE_START`: the next slice asks for its P5 grant. -/
def execSliceStart (s : State) : Out :=
  done (live (fun s =>
    let on := s.slicesRun
    let s := s.setB Reg.BIST.STATUS.SLICES on
    if on then s.mapBist fun b => { b with sliceDue := true } else s) s)

/-- The group to which a slice of the pass belongs: 512 slices of the Curator SRAM, then the metrology engine and carrel
SRAM (R521). -/
def sliceGroup (pos : Nat) : Nat := if pos < 512 then 4 else 5

/-- A slice runs on its grant: a word corrected on the way, an uncorrectable word with its location, and a failing
cell. -/
def sliceRun (corrected : Bool) (bad : Option Nat) (fail : Option BistFail) (s : State) : State :=
  if !(s.slicesRun && s.bist.sliceDue) then s
  else
    let s := s.mapBist fun b => { b with sliceDue := false }
    let pos := s.rd Reg.BIST.SLICE.POS
    let s := if pos + 1 < 1296 then s.wr Reg.BIST.SLICE.POS (pos + 1)
      else (s.wr Reg.BIST.SLICE.POS 0).inc Reg.BIST.SLICE.PASSES
    match bad with
    | some loc => raise1 (eccCode .critical) loc 0 false s
    | none =>
      let s := if corrected then raise 0x0801 0 s else s
      match fail with
      | none => s
      | some x =>
        let (s, used, left) := repairAll [x] s
        let s := bistRecord 1 (sliceGroup pos) (bistVerdict true used left) used ⟨0, 0, true, [x], 0⟩ s
        if left.isEmpty then raise1 0x0A01 x.loc 0 false s else unrepairable x s

/-- `SLICE_RUN`. -/
def execSliceRun (corrected : Bool) (bad : Option Nat) (fail : Option BistFail) (s : State) : Out :=
  done (live (sliceRun corrected bad fail) s)

/-! ### Performance counters (R525 to R528) -/

/-- PMC[k] counts. -/
def State.pmcOn (s : State) (k : Nat) : Bool := s.running && s.bit Reg.PMC.CTL.EN && s.bit (Reg.PMC.CFG.EN k)

/-- A counter wraps (R525, R526): its sample item names the counter, the core, the event and the tick. -/
def pmcWrap (k tick loc : Nat) (s : State) : State :=
  if !s.pmcOn k then s
  else
    let s := if k < 32 then s.setFlag Reg.PMC.OVF_LO.OVF k true else s.setFlag Reg.PMC.OVF_HI.OVF (k - 32) true
    if !s.bit (Reg.PMC.CFG.SAMPLE k) then s.wr (Reg.PMC.CNT_LO.COUNT k) 0
    else
      let p := s.rd (Reg.PMC.PERIOD.PERIOD k)
      let s := s.wr (Reg.PMC.CNT_LO.COUNT k) (2 ^ 48 - (if p = 0 then 2 ^ 32 else p))
      let evt := s.rd (Reg.PMC.CFG.EVT k)
      let core := if evt < 40 then evt / 10 else s.rd (Reg.PMC.CFG.CORE k)
      let s := if s.qRefuses 16 then s.inc Reg.PMC.SAMPLES.DROPPED else s.inc Reg.PMC.SAMPLES.POSTED
      hwPost 16 [k * 2 ^ 58 + core * 2 ^ 56 + evt * 2 ^ 48 + tick % 2 ^ 32, loc % 2 ^ 64] s

/-- `PMC_WRAP`. -/
def execPmcWrap (k : Fin 48) (tick loc : Nat) (s : State) : Out := done (live (pmcWrap k tick loc) s)

/-- A write of PMC[k].CFG.CLR = 1; only Utility and above configure counters (R528). -/
def pmcClr (a : Agent) (k : Nat) (s : State) : State := gated a 2 (fun s => s.wr (Reg.PMC.CNT_LO.COUNT k) 0) s

/-- `PMC_CLR`. -/
def execPmcClr (a : Agent) (k : Fin 48) (s : State) : Out := done (pmcClr a k s)

/-- Who may read the counters (R528). -/
def State.pmcReads (s : State) (a : Agent) : Bool :=
  decide (2 ≤ s.level a) || (s.level a = 1 && s.bit Reg.PMC.CTL.OPERATOR)

/-- A read of PMC[k].CNT_LO: the count it finds is shown, with CNT_HI and the fabric tick latched (R527). -/
def pmcRead (a : Agent) (k count tick : Nat) (s : State) : State :=
  if !s.running || !s.pmcReads a then s
  else ((s.wr (Reg.PMC.CNT_LO.COUNT k) count).wr (Reg.PMC.CNT_HI.COUNT k) (count / 2 ^ 32)).wr Reg.PMC.TICK.TICK tick

/-- `PMC_COUNT_READ`. -/
def execPmcCountRead (a : Agent) (k : Fin 48) (count tick : Nat) (s : State) : Out := done (pmcRead a k count tick s)

end Sys2Proof.Machine
end

