-- ==== Sys2Proof/Machine/Image.lean ====
section
/-!
DEFINITION. The Dweold image (R71 to R74): its header, directory and trailer, the eight checks of a copy, and the field
ranges that check 7 asks of each section.
-/
namespace Sys2Proof.Machine

/-! ### Layout (R72, R73) -/

/-- A directory entry. -/
structure DirEntry where
  ty : Nat
  off : Nat
  len : Nat
  crc : Nat
  deriving DecidableEq, Repr

/-- IMAGE_LEN. -/
def imgLen (c : List Byte) : Nat := leAt c 0xC 4

/-- The directory. -/
def imgDir (c : List Byte) : List DirEntry :=
  (List.range (leAt c 0x14 2)).map fun i =>
    ⟨leAt c (0x40 + 16 * i) 2, leAt c (0x44 + 16 * i) 4, leAt c (0x48 + 16 * i) 4, leAt c (0x4C + 16 * i) 4⟩

/-- The bytes of a section. -/
def DirEntry.bytes (e : DirEntry) (c : List Byte) : List Byte := (c.drop e.off).take e.len

/-- The sections of an image by type. -/
def imgSections (c : List Byte) : SMap (List Byte) :=
  (imgDir c).foldl (fun m e => mapSet (fun _ => []) m e.ty (e.bytes c)) []

/-! ### Field ranges (check 7) -/

/-- The field of `n` bytes at `off` lies between two values. -/
def within (b : List Byte) (off n lo hi : Nat) : Bool := decide (lo ≤ leAt b off n) && decide (leAt b off n ≤ hi)

/-- The byte at `off` is at most `top`, or 0xFF for none. -/
def orNone (b : List Byte) (off top : Nat) : Bool := decide (leAt b off 1 ≤ top) || leAt b off 1 = 0xFF

/-- SYSTEM (R73). -/
def systemOk (b : List Byte) : Bool :=
  b.length = 16 && within b 0 1 5 50 && within b 1 1 1 3 && within b 2 1 1 240 && within b 3 1 0 1 && zeroAt b 4 12

/-- SHELF (R76). -/
def shelfOk (b : List Byte) : Bool :=
  b.length % 16 = 0 && b.length ≤ 96 * 16 && (List.range (b.length / 16)).all fun i =>
    let e := b.drop (16 * i)
    (within e 0 1 0 3 || within e 0 1 0x10 0x11) && within e 1 1 0 127 && within e 2 1 1 6 && within e 3 1 0 3 &&
      orNone e 4 16 && zeroAt e 5 3

/-- METROLOGY (R124). -/
def metrologyOk (b : List Byte) : Bool :=
  let n := leAt b 0 2
  n ≤ 146 && b.length = 8 + 36 * n && (within b 2 2 0 1439 || leAt b 2 2 = 0xFFFF) && zeroAt b 4 4 &&
    (List.range n).all fun i =>
      let e := b.drop (8 + 36 * i)
      let k := leAt e 0 2
      let len := leAt e 2 1
      (k ≤ 0x10 || (0x100 ≤ k && k ≤ 0x17F) || k = 0x200) && len = blockLen k && zeroAt e 3 1 &&
        zeroAt e (4 + len) (32 - len)

/-- TARIFF (R202, R188). -/
def tariffOk (b : List Byte) : Bool :=
  b.length = 2064 && leAt b 8 2 = leAt b 16 2 && within b 0xA 1 0 1 && within b 0xB 1 1 60 && zeroAt b 0xC 4 &&
    calCheck (b.drop 16) = 0

/-- CREDIT (R232). -/
def creditOk (b : List Byte) : Bool :=
  let top := leAt b 0x20 8
  b.length = 256 && within b 2 1 0 7 && within b 3 1 1 20 && within b 4 4 1 1000000 && leAt b 8 8 ≤ top &&
    leAt b 0x10 8 ≤ top && within b 0x20 8 1 (2 ^ 62) && within b 0x28 8 0 (2 ^ 62) && leAt b 0x34 4 ≠ 0 &&
    orNone b 0x38 39 && within b 0x39 1 1 8 && zeroAt b 0x3A 2 && leAt b 0x10 8 + leAt b 0x18 8 ≤ top &&
    ((List.range 8).all fun f =>
      let e := b.drop (0x40 + 8 * f)
      within e 0 1 0 127 && zeroAt e 1 1 && within e 2 2 0 1439 && within e 4 2 0 1439 && zeroAt e 6 2) &&
    (List.range (leAt b 0x39 1)).all fun i =>
      let e := b.drop (0x80 + 16 * i)
      within e 4 1 0 63 && orNone e 5 63 && within e 6 1 0 3 && zeroAt e 7 9

/-- Entry n of OUTLETS. -/
def outEntry (b : List Byte) (n : Nat) : List Byte := (b.drop (64 * n)).take 64

/-- An entry of OUTLETS (R237); an unused outlet's fields are not judged. -/
def outletOk (e : List Byte) : Bool :=
  let k := leAt e 0 1
  if k = 0 then true
  else
    let dc := k = 3 || k = 4
    k ≤ 4 && within e 1 1 0 15 && within e 2 2 1 500 && (k = 2 || zeroAt e 4 2) && (dc || zeroAt e 6 2) &&
      within e 0xA 1 10 200 && within e 0xB 1 20 250 && within e 0xC 1 5 50 && within e 0xD 1 1 60 &&
      within e 0xE 1 1 60 && orNone e 0xF 23 && ((List.range 7).all fun i => orNone e (0x10 + i) 39) && zeroAt e 0x17 1 &&
      ((List.range 3).all fun i => orNone e (0x18 + i) 127) && zeroAt e 0x1D 1 && zeroAt e 0x26 2 && zeroAt e 0x30 16 &&
      (!dc || (orNone e 0x1B 127 && orNone e 0x1C 127 && within e 0x1E 2 50 2000 && within e 0x20 2 100 1000 &&
        within e 0x22 2 50 500 && leAt e 0x22 2 < leAt e 0x20 2 && within e 0x24 2 100 5000)) &&
      (List.range 4).all fun i =>
        leAt e (0x28 + 2 * i) 1 = 0xFF || (within e (0x28 + 2 * i) 1 0 1 && within e (0x29 + 2 * i) 1 1 127)

/-- OUTLETS. -/
def outletsOk (b : List Byte) : Bool := b.length = 1024 && (List.range 16).all fun n => outletOk (outEntry b n)

/-- KIND of OUT[n] in an OUTLETS section. -/
def kindIn (b : List Byte) (n : Nat) : Nat := leAt (outEntry b n) 0 1

/-- The SI inputs that function `f` of a safety parameter block reads (R368, R374). -/
def spbInputs (b : List Byte) (f : Nat) : List Nat :=
  let e := b.drop (0xA0 + 16 * f)
  let n := if leAt e 0 1 = 0 || leAt e 0 1 = 5 then 0 else if leAt e 0 1 = 4 then 4 else if leAt e 1 1 = 0 then 1 else 2
  (List.range n).map fun i => leAt e (2 + i) 1

/-- The reset input of function `f`; none for 0xFF. -/
def spbReset (b : List Byte) (f : Nat) : Option Nat :=
  let e := b.drop (0xA0 + 16 * f)
  if leAt e 0 1 = 0 || leAt e 6 1 = 0xFF then none else some (leAt e 6 1)

/-- TPO of SI[k], 15 for none. -/
def spbTpo (b : List Byte) (k : Nat) : Nat := leAt b (0x40 + 2 * k) 1 / 16

/-- One function of the block (R374, R388). -/
def spbFnOk (b : List Byte) (kinds : Nat → Nat) (f : Nat) : Bool :=
  let e := b.drop (0xA0 + 16 * f)
  let ty := leAt e 0 1
  let form := leAt e 1 1
  let fl := leAt e 7 1
  let ins := spbInputs b f
  let pairs := [(ins.getD 0 0, ins.getD 1 0)] ++ if ty = 4 then [(ins.getD 2 0, ins.getD 3 0)] else []
  if ty = 0 then true
  else
    ty ≤ 5 && (if ty ≤ 2 then form ≤ 2 else if ty = 3 then form = 3 else if ty = 4 then form = 2 else form = 0) &&
      ins.all (fun k => k < 48) && orNone e 6 47 && fl < 32 && (ty ≠ 1 || Nat.testBit fl 0) &&
      (!Nat.testBit fl 2 || Nat.testBit fl 3) && within e 8 2 1 200 && zeroAt e 0xD 3 &&
      (if ty = 5 then within e 0xC 1 0 15 && (List.range 4).all fun i => leAt e (2 + i) 1 = 0xFF else orNone e 0xC 15) &&
      (ty = 5 || form = 0 || pairs.all fun p =>
        spbTpo b p.1 = 15 || spbTpo b p.2 = 15 || spbTpo b p.1 ≠ spbTpo b p.2) &&
      (form ≠ 3 || ins.all fun k => spbTpo b k = 15 && 2 ≤ leAt b (0x40 + 2 * k) 1 % 16) &&
      (ty ≠ 4 || (List.range 16).all fun n => !Nat.testBit (leAt e 0xA 2) n || kinds n = 4)

/-- SPB_CRC of a block: CRC-32C with the field taken as 0. -/
def spbCrc (b : List Byte) : Nat := crc32c (b.take 0x3C ++ [0, 0, 0, 0] ++ b.drop 0x40)

/-- SAFETY (R387, R388): `kinds` are the kinds of the OUTLETS section and `cycle` CYCLE of the NETWORK section. -/
def safetyOk (b : List Byte) (kinds : Nat → Nat) (cycle : Nat) : Bool :=
  let ins := (List.range 24).flatMap (spbInputs b)
  let resets := (List.range 24).filterMap (spbReset b)
  b.length = 672 && leAt b 0 2 = 1 && within b 3 1 0 1 && within b 8 2 10 1000 && within b 0xA 2 200 1000 &&
    leAt b 0xA 2 % 50 = 0 && within b 0xC 2 200 1000 && within b 0xE 1 2 20 && within b 0xF 1 1 60 &&
    within b 0x10 1 0 63 && orNone b 0x11 63 && zeroAt b 0x14 40 && 2 * cycle + 10 ≤ 10 * leAt b 0xE 1 &&
    leAt b 0x12 2 = maskOf 16 (fun n => kinds n = 3 || kinds n = 4) &&
    ((List.range 48).all fun k => (spbTpo b k ≤ 7 || spbTpo b k = 15) && zeroAt b (0x41 + 2 * k) 1) &&
    ins.Nodup && !ins.any resets.contains && ((List.range 24).all (spbFnOk b kinds)) &&
    ((List.range 16).all fun r =>
      let e := b.drop (0x220 + 8 * r)
      within e 1 1 0 23 && zeroAt e 6 2) &&
    spbCrc b = leAt b 0x3C 4

/-- The roles of OUT[n] in an OUTLETS section as (channel, needed MODE) (R402). -/
def rolesIn (b : List Byte) : List (Nat × Nat) :=
  (List.range 16).flatMap fun n => if kindIn b n = 0 then [] else (List.range 7).filterMap fun i =>
    let c := leAt (outEntry b n) (0x10 + i) 1
    if c = 0xFF then none else some (c, if i < 2 then 4 else 1)

/-- LOADSW (R414, R415): `outs` is the OUTLETS section, `shelf` the SHELF section and `disc` DISC_HS. -/
def loadswOk (b outs shelf : List Byte) (disc : Nat) : Bool :=
  let ch := fun (c : Nat) => b.drop (8 + 16 * c)
  b.length = 712 && ((List.range 5).all fun g => within b g 1 9 32) && zeroAt b 5 3 &&
    ((List.range 40).all fun c =>
      let e := ch c
      within e 0 1 0 1 && within e 1 1 0 5 && (leAt e 1 1 = 0 || (
        within e 2 1 0 7 && (leAt e 0 1 = 0 || leAt e 2 1 = 0 || leAt e 2 1 = 2) && within e 3 1 2 24 &&
          within e 4 1 0 100 && within e 5 1 1 20 && within e 6 1 0 5 && within e 7 1 10 250 && within e 8 2 0 1000 &&
          within e 0xA 2 0 1000 && zeroAt e 0xC 4 && 3200 * pwmHz (leAt e 6 1) ≤ 1000000 * leAt e 5 1))) &&
    ((rolesIn outs).all fun x =>
      let e := ch x.1
      (leAt e 0 1 = 0 && leAt e 1 1 ≠ 0) || leAt e 1 1 = x.2) &&
    ((List.range 8).all fun h =>
      let e := b.drop (0x288 + 8 * h)
      leAt e 0 1 = 0xFF || (within e 0 1 0 39 && leAt (ch (leAt e 0 1)) 0 1 = 0 && leAt (ch (leAt e 0 1)) 1 1 = 5 &&
        leAt shelf (16 * leAt e 1 1 + 2) 1 = 5 && within e 2 1 10 100 && within e 3 1 10 100 &&
        leAt e 2 1 < leAt e 3 1 && within e 4 2 0 1000 && within e 6 2 0 1000)) &&
    (disc = 0xFF || leAt (ch disc) 0 1 = 0)

/-- The segments that a digit region of DISPLAY lights (R429). -/
def digitSegments (e : List Byte) : Nat :=
  let dp := leAt e 4 1
  maskOf 96 fun j => (leAt e 1 1 ≤ j && j < leAt e 1 1 + 7 * leAt e 2 1) || j = dp

/-- DISPLAY (R435). -/
def displayOk (b : List Byte) : Bool :=
  let mask := fun (r : Nat) => leAt b (0x70 + 12 * r) 12
  b.length = 320 && within b 0 1 0 15 && (leAt b 1 1 = 0 || within b 1 1 14 54) && within b 2 1 0 8 && zeroAt b 3 1 &&
    within b 4 2 0 1023 && within b 6 2 0 1023 && within b 8 2 10 3600 && zeroAt b 0xA 6 &&
    ((List.range 8).all fun i => within b (0x12 + 4 * i) 2 0 1023 &&
      (i = 0 || leAt b (0x10 + 4 * (i - 1)) 2 < leAt b (0x10 + 4 * i) 2)) &&
    ((List.range 8).all fun r =>
      let e := b.drop (0x30 + 8 * r)
      let src := leAt e 0 1
      src ≤ 5 && zeroAt e 5 3 && (src = 0 || src > 3 || (within e 2 1 1 8 && within e 3 1 0 6 && orNone e 4 95 &&
        mask r = digitSegments e)) &&
      (List.range r).all fun q => Nat.land (mask q) (mask r) = 0) &&
    (List.range 8).all fun k => within b (0xD1 + 2 * k) 1 2 40 &&
      (k = 0 || toInt 8 (leAt b (0xD0 + 2 * k) 1) < toInt 8 (leAt b (0xD0 + 2 * (k - 1)) 1))

/-- NETWORK (R349). -/
def networkOk (b : List Byte) : Bool :=
  b.length = 416 && within b 2 1 8 18 && within b 3 1 1 7 && ((List.range 3).all fun p => within b (4 + p) 1 0 63) &&
    within b 7 1 0 63 && within b 0x16 1 0 20 && within b 0x17 1 4 64 && within b 0x18 1 1 64 && within b 0x19 1 0 64 &&
    within b 0x1A 1 0 16 && within b 0x1B 1 0 3 && within b 0x1C 1 5 100 && within b 0x1D 1 0 3 && zeroAt b 0x1E 2 &&
    (List.range 64).all fun i => i < leAt b 0x19 1 || zeroAt b (0x20 + 6 * i) 6

/-- CONTACTLESS (R458). -/
def contactlessOk (b : List Byte) : Bool :=
  let nibble := fun (x : Nat) => x ≤ 3 || x = 15
  b.length = 48 && within b 0 1 0 15 && within b 1 1 1 10 && within b 2 1 0 3 && within b 3 1 4 10 &&
    within b 4 2 50 1000 && within b 6 1 5 100 && within b 7 1 5 100 && within b 8 1 1 60 && orNone b 9 63 &&
    orNone b 0xA 63 && zeroAt b 0xB 1 && zeroAt b 0x1F 17 &&
    (List.range 15).all fun i => nibble (leAt b (0x10 + i) 1 % 16) && nibble (leAt b (0x10 + i) 1 / 16)

/-- A register that another section loads, or that lies in a block no PRESET entry may name (R553). -/
def presetBarred (a : Nat) : Bool :=
  a = Reg.RTC.CFG.LIMIT.addr || (0x20000 ≤ a && a < 0x30000) || (0x32000 ≤ a && a < 0x33000) ||
    (0x34000 ≤ a && a < 0x37000) || (0x38000 ≤ a && a < 0x39000) || (0x3A000 ≤ a && a < 0x3B000)

/-- PRESET (R553). -/
def presetOk (b : List Byte) : Bool :=
  let n := leAt b 0 2
  n ≤ 512 && b.length = 16 + 12 * n && orNone b 2 63 && orNone b 3 63 && within b 4 1 1 60 && within b 5 1 0 127 &&
    zeroAt b 6 10 && (List.range n).all fun i =>
      let e := b.drop (16 + 12 * i)
      let a := leAt e 0 4
      let m := leAt e 8 4
      a % 4 = 0 && Nat.land m (rwsMask a) = m && !presetBarred a

/-- Check 7: every section present keeps its ranges and rules. -/
def sectionsOk (m : SMap (List Byte)) : Bool :=
  let sec := mapGet (fun _ => []) m
  let has := fun (t : Nat) => m.any fun x => x.1 = t
  let outs := sec 6
  let disc := if has 5 then leAt (sec 5) 0x38 1 else 0xFF
  let cycle := if has 0xA then leAt (sec 0xA) 2 1 else 16
  (!has 1 || systemOk (sec 1)) && (!has 2 || shelfOk (sec 2)) && (!has 3 || metrologyOk (sec 3)) &&
    (!has 4 || tariffOk (sec 4)) && (!has 5 || creditOk (sec 5)) && (!has 6 || outletsOk outs) &&
    (!has 7 || safetyOk (sec 7) (kindIn outs) cycle) && (!has 8 || loadswOk (sec 8) outs (sec 2) disc) &&
    (!has 9 || displayOk (sec 9)) && (!has 0xA || networkOk (sec 0xA)) && (!has 0xB || contactlessOk (sec 0xB)) &&
    (!has 0xC || presetOk (sec 0xC))

/-! ### The checks of a copy (R74) -/

/-- The directory bounds: entries within the image, sections 8-byte aligned between the directory and the trailer,
disjoint, each type once and defined; SAFETY at most 4,096 bytes. -/
def directoryOk (c : List Byte) : Bool :=
  let d := imgDir c
  let lo := 0x40 + 16 * leAt c 0x14 2
  within c 0x14 2 1 32 && (leAt c 0x16 1 = 0 || leAt c 0x16 1 = 3 || leAt c 0x16 1 = 4) &&
    (d.all fun e => ((1 ≤ e.ty && e.ty ≤ 0xC) || 0x8000 ≤ e.ty) && e.off % 8 = 0 && lo ≤ e.off &&
      e.off + e.len + 72 ≤ imgLen c && (e.ty ≠ 7 || e.len ≤ 4096)) &&
    (d.map DirEntry.ty).Nodup &&
    d.all fun e => d.all fun x => x.ty = e.ty || x.len = 0 || e.len = 0 || e.off + e.len ≤ x.off || x.off + x.len ≤ e.off

/-- The signature of an image under slot 2; r and s are little-endian like every field of the image (log entry 44). An
unsigned image has an empty trailer. -/
def signatureOk (s : State) (c : List Byte) : Bool :=
  let t := c.drop (imgLen c - 72)
  if leAt c 0x17 1 = 0 then zeroAt t 0 72
  else leAt t 0 4 = (s.slot 2).keyId && (s.slot 2).kind ≠ 0 && zeroAt t 4 4 &&
    s.slotVerify 2 (c.take (imgLen c - 72)) (((t.drop 8).take 32).reverse ++ ((t.drop 0x28).take 32).reverse)

/-- The first check of R74 that a copy fails, 0 when it passes all. -/
def imageCheck (s : State) (c : List Byte) : Nat :=
  if !(leAt c 0 4 = 0x444C5744 && leAt c 4 2 = 1 && leAt c 6 2 = 0x40 &&
      leAt c 8 4 / 65536 = s.rd Reg.SYS.HW_TYPE.TYPE / 65536 && leAt c 9 1 = 0 &&
      (leAt c 8 1 = 0 || leAt c 8 1 = s.rd Reg.SYS.HW_TYPE.TYPE % 256)) then 1
  else if !(imgLen c % 8 = 0 && 0x88 ≤ imgLen c && imgLen c ≤ 0x400000 && imgLen c ≤ c.length &&
      (leAt c 0x18 8 = 0 || leAt c 0x18 8 = unitLo + 2 ^ 32 * unitHi)) then 2
  else if !(leAt c 0x17 1 = 1 || (leAt c 0x17 1 = 0 && s.lc ≠ 3)) then 3
  else if !signatureOk s c then 4
  else if !directoryOk c then 5
  else if !((imgDir c).all fun e => crc32 (e.bytes c) = e.crc) then 6
  else if !sectionsOk (imgSections c) then 7
  else if s.lc = 3 && leAt c 0x10 4 < s.cat.seqLc3 then 8
  else 0

end Sys2Proof.Machine
end

