-- ==== Sys2Proof/Machine/Start.lean ====
section
/-!
DEFINITION. Power, RESET_N and the start up to START_TEST (chapter 02, R60 and R67 to R80): what the supply and the reset
pin do, entry into LOADING, the image, and the enumeration of shelfmarks.
-/
namespace Sys2Proof.Machine

/-! ### What a reset of the core keeps -/

/-- The registers that show what P/AON, the catalogue, the fuses or the closed stacks hold. -/
def keptAddr (a : Nat) : Bool :=
  decide (0x2000 ≤ a ∧ a < 0x3000) || decide (0xE000 ≤ a ∧ a < 0xF000) || decide (0x14000 ≤ a ∧ a < 0x15000) ||
    [Reg.MET.SEAL.OPEN.addr, Reg.TAG.STATUS.EN.addr, Reg.TAG.COUNTS.OPENS.addr, Reg.CLK.STATUS.RTC_OK.addr,
      Reg.CLK.DISC.DEV.addr].contains a

/-- The single fields that such stores hold. -/
def keptFields : List Fld :=
  [Reg.FLT.LAST.CODE, Reg.UPD.SVN.MIN_SVN, Reg.BDY.STATUS.RECOVERIES, Reg.SYS.CAP_EVR.RESERVE, Reg.SAF.STATUS.SEAL_OPEN,
    Reg.SAF.STATUS.SEAL_INVALID, Reg.HP.STATUS.FAILS, Reg.HP.STATUS.LOCKED, Reg.KEY.STATUS.LC_PEND, Reg.MODE.STATUS.MODE]

/-- The fields that only the core supply holds: the Keeper latch and its mark (R64, R496), and the power-fail warning; the
descriptors at HP + 0x400 stay too, handed back (R539). -/
def heldFields : List Fld := [Reg.FLT.STATUS.LATCH, Reg.SAF.STATUS.LATCHED, Reg.MODE.STATUS.PF]

/-- Whether the register field with key `k` keeps its value; `held` says that the core supply holds. -/
def keptReg (held : Bool) (k : Nat) : Bool :=
  keptAddr (k / 32) || keptFields.any (fun f => f.key = k) ||
    (held && (heldFields.any (fun f => f.key = k) ||
      decide (0x5400 ≤ k / 32 ∧ k / 32 < 0x5600)))

/-- A descriptor that the A16 owned is handed back with RESULT 5 (R539). -/
def descBack (d : Nat) (s : State) : State :=
  let (v, s) := s.fresh
  ((s.setB (Reg.HP.DESC0.OWN d) false).wr (Reg.HP.DESC0.RESULT d) 5).wr (Reg.HP.DESC3.LENGTH d) v

/-- The core die is reset: sessions, bind sets, waiting folios and everything the core holds are lost; P/AON, the
non-volatile stores and the fuses keep what they hold. `queue` keeps the recorder-input queue (R576).
TMP.STATUS.VBAT_LOST clears once a start has taken it. -/
def coreBase (held queue : Bool) (s : State) : State :=
  let z := State.reset
  let seen := decide (8 ≤ s.sys.startStep)
  { z with
    regs := s.regs.filter fun x => keptReg held x.1 && !(seen && x.1 = Reg.TMP.STATUS.VBAT_LOST.key)
    free := s.free
    pending := s.pending
    sys := { SysSt.init with
      unpowered := s.sys.unpowered, resetLow := s.sys.resetLow, freeRun := s.sys.freeRun, secCycles := s.sys.secCycles
      discBad := s.sys.discBad, startStep := 0, pgOut := false, clkMod := false }
    cat := s.cat
    evr := { s.evr with lostSince := if held then s.evr.lostSince else 0 }
    qs := if queue then mapSet (fun _ => Queue.empty) [] 15 (s.q 15) else []
    hp := { z.hp with ospi := s.hp.ospi }
    crl := { z.crl with copies := s.crl.copies, sessCopy := s.crl.sessCopy }
    bdy := { BdySt.init with image := s.bdy.image, ledger := s.bdy.ledger }
    nfc := { s.nfc with base := none, wakes := 0, falseAt := [], cards := [] }
    tmp := s.tmp
    met := { z.met with sealLatch := s.met.sealLatch }
    per := { s.per with waiting := [] }
    rtc := s.rtc
    tar := { z.tar with armedNv := s.tar.armedNv }
    key := s.key
    upd := s.upd
    bist := { BistSt.init with map := s.bist.map, history := s.bist.history } }

/-- The core die is reset; the descriptors that the A16 owned are handed back while the core supply holds (R539). -/
def coreReset (held queue : Bool) (s : State) : State :=
  let t := coreBase held queue s
  let owned := s.hp.active.toList ++ s.hp.handed
  if held && !owned.isEmpty then
    (owned.foldl (fun t d => descBack d t) t).setFlag Reg.HP.IRQ_STATUS.SRC 0 true
  else t

/-! ### Entry into LOADING (R60, R69, R576) -/

/-- Steps 1 to 4 of R69: a pending life-cycle transition is carried out, the slots are restored, the bank is chosen and
a staged update is verified again. -/
def startLoading (f : StartFacts) (s : State) : State :=
  let s := if s.rd Reg.KEY.STATUS.LC_PEND ≠ 15 && !f.fuseOk then raise 0xCC04 0 s else lcCarryOut s
  let s := (s.wr Reg.MODE.STATUS.LC s.key.lc).wr Reg.KEY.STATUS.LC s.key.lc
  let s := ((s.setB Reg.CLK.STATUS.PLL_LOCK true).setB Reg.CLK.STATUS.KRC_OK true).setB Reg.CLK.STATUS.DISC_OK true
  let s := (s.setB Reg.CLK.STATUS.RTC_OK (!s.sys.freeRun)).setB Reg.KEY.STATUS.ENTROPY_OK true
  let s := updRestart f.partsBad (bankChoose f.bltBad (slotsRestore f.badSlots (s.setB Reg.KEY.STATUS.DRBG_OK true)))
  { s with sys := { s.sys with pgOut := true, clkMod := true, startStep := if s.mode = 1 then 4 else s.sys.startStep } }

/-- LOADING begins: PWR.CYCLES counts it (R66), PWR.CAUSE names its cause, and the start sequence runs. -/
def beginLoading (cause : Fld) (trigger : Nat) (f : StartFacts) (s : State) : State :=
  let s := ((s.setWord Reg.PWR.CAUSE.POR.addr 0).setB cause true).incWrap Reg.PWR.CYCLES.COUNT
  startLoading f (errUpdate (setMode 1 trigger 0 s))

/-- The recorder's work before LOADING with the supply held (R493, R576). -/
def recorderFinish (s : State) : State :=
  let s := closeWhere (fun _ => true) 3 s
  if s.bit Reg.EVR.STATUS.RUN then drainAll s.startDrain else s

/-- LOADING is entered with the supply held and RESET_N high. -/
def enterLoading (cause : Fld) (trigger : Nat) (f : StartFacts) (s : State) : State :=
  beginLoading cause trigger f (coreReset true true (adjDiscard (recorderFinish s)))

/-! ### Supply and RESET_N (R60, R64, R67, R68, R186) -/

/-- P/AON stops and loses its data (R186): the RTC, tamper and battery state, and the tag's state and keys; the tag's
folio and its failures stay in FeRAM. -/
def aonLost (s : State) : State :=
  let gone := fun (a : Nat) => decide (0xE000 ≤ a ∧ a < 0xF000) || decide (0x14000 ≤ a ∧ a < 0x15000)
  let z := State.reset
  let s := { s with
    regs := s.regs.filter fun x => !gone (x.1 / 32)
    rtc := z.rtc
    tmp := z.tmp
    nfc := { s.nfc with tagKeys := [], chal := none, answer := [] }
    sys := { s.sys with unpowered := true } }
  let s := (((s.wr Reg.TAG.STATUS.STATE 0).wr Reg.TAG.STATUS.LEVEL 0).setB Reg.TAG.STATUS.FIELD false).setB
    Reg.TAG.STATUS.LOCKED false
  s.setB Reg.TMP.STATUS.VBAT_LOST true

/-- `VBAT_APPLIED` (R60): an unpowered device is DORMANT. -/
def execVbatApplied (s : State) : Out :=
  done (if s.sys.unpowered then
      ({ s with sys := { s.sys with unpowered := false } }.wr Reg.MODE.STATUS.MODE 0).setB Reg.PWR.STATUS.VBAT_OK true
    else s)

/-- `VBAT_REMOVED` (R186): with the main supplies absent. -/
def execVbatRemoved (s : State) : Out :=
  done (if s.dormant then aonLost (s.setB Reg.PWR.STATUS.VBAT_OK false) else s)

/-- Supply good (R67): LOADING from DORMANT or from no supply, unless RESET_N is low. -/
def supplyGood (f : StartFacts) (s : State) : State :=
  if (s.mode ≠ 0 && !s.sys.unpowered) || s.sys.resetLow then s
  else
    let s := { s with sys := { s.sys with unpowered := false } }.wr Reg.MODE.STATUS.MODE 0
    let s := ((s.setB Reg.PWR.STATUS.V08_OK true).setB Reg.PWR.STATUS.V18_OK true).setB Reg.PWR.STATUS.V33_OK true
    beginLoading Reg.PWR.CAUSE.POR 2 f (adjDiscard s)

/-- `SUPPLY_GOOD`. -/
def execSupplyGood (facts : StartFacts) (s : State) : Out := done (supplyGood facts s)

/-- A flush under way is cut (R165). -/
def flushCut (s : State) : State := { s with per := { s.per with cut := s.per.cut || s.sys.flushing } }

/-- Core under-voltage (R60, R163): the AON domain stamps it, every output is safe, and the device is DORMANT, or
unpowered when VBAT is absent too. -/
def coreUnderVoltage (now : Nat) (s : State) : State :=
  if s.sys.unpowered || s.mode = 0 then s
  else
    let stamp := s.readingAt now * 10
    let s := adjDiscard (flushCut s)
    let s := coreReset false false { s with tmp := { s.tmp with uvStamp := some stamp, dormFrom := stamp } }
    let s := ((s.setB Reg.PWR.STATUS.V08_OK false).setB Reg.PWR.STATUS.V18_OK false).setB Reg.PWR.STATUS.V33_OK false
    let s := s.wr Reg.MODE.STATUS.MODE 0
    if s.bit Reg.PWR.STATUS.VBAT_OK then s else aonLost s

/-- `CORE_UNDER_VOLTAGE`. -/
def execCoreUnderVoltage (now : Fin 32768) (s : State) : Out := done (coreUnderVoltage now s)

/-- RESET_N is taken low (R64, R68): the core die is held in reset; the Keeper latch stands. -/
def resetLow (s : State) : State :=
  let s := if s.sys.unpowered || s.mode = 0 then s else coreReset true false (adjDiscard (flushCut s))
  { s with sys := { s.sys with resetLow := true } }

/-- `RESET_N_LOW`. -/
def execResetNLow (s : State) : Out := done (resetLow s)

/-- RESET_N is released (R60, R64). -/
def resetRelease (f : StartFacts) (s : State) : State :=
  if !s.sys.resetLow then s
  else
    let s := { s with sys := { s.sys with resetLow := false } }
    if s.sys.unpowered || s.mode = 0 then s else beginLoading Reg.PWR.CAUSE.RESET_PIN 3 f s

/-- `RESET_N_RELEASE`. -/
def execResetNRelease (facts : StartFacts) (s : State) : Out := done (resetRelease facts s)

/-! ### The image (R60, R74, R497) -/

/-- A Grave fault that the end of LOADING brings: the MODE record names the start sequence (R509). -/
def lockdownAtStart (code : Nat) (s : State) : State :=
  (reactTo code 3 (enterLockdown 5 code (collect code 0 0 false s))).drainAt256

/-- The IMAGE_CHECK record of a copy that fails a check (R74, R509). -/
def imageRecord (copy check : Nat) (c : List Byte) (s : State) : State :=
  if check = 0 then s else s.record 0x06 (payloadOf [(0, copy), (1, check), (4, leAt c 0x10 4)]) false

/-- An image is accepted (R60, R74): it is in force, and its issuers' slots are checked (R233). -/
def imageAccept (copy : Nat) (c : List Byte) (s : State) : State :=
  let seq := leAt c 0x10 4
  let secs := imgSections c
  let preset := mapGet (fun _ => []) secs 12
  let s := { s with
    sys := { s.sys with
      sections := secs, imgValid := true, startMode := leAt c 0x16 1, imgSigKind := leAt c 0x17 1
      imgSigOk := leAt c 0x17 1 = 1 && signatureOk s c }
    cat := { s.cat with
      seqLc3 := if s.lc = 3 then max s.cat.seqLc3 seq else s.cat.seqLc3
      operSlot := if preset.isEmpty then s.cat.operSlot else leAt preset 2 1
      utilSlot := if preset.isEmpty then s.cat.utilSlot else leAt preset 3 1 } }
  issuersCheck ((s.wr Reg.MODE.START.COPY copy).wr Reg.MODE.IMG_SEQ.SEQ seq)

/-- Both copies have been read (an empty list stands for one that cannot be read). -/
def imageLoaded (a b : List Byte) (s : State) : State :=
  if !(s.running && s.mode = 1 && s.sys.startStep = 4) then s
  else
    let s := { s with sys := { s.sys with startStep := 5 } }
    if s.bit Reg.FLT.STATUS.LATCH then lockdownAtStart 0xC805 s
    else if s.lc = 5 then lockdownAtStart 0xC307 s
    else if s.lc = 0 then s
    else
      let ca := imageCheck s a
      let cb := imageCheck s b
      let s := imageRecord 1 cb b (imageRecord 0 ca a s)
      let s := (s.setB Reg.MODE.START.COPY_A_BAD (ca ≠ 0)).setB Reg.MODE.START.COPY_B_BAD (cb ≠ 0)
      if ca = 0 && cb = 0 then
        if leAt a 0x10 4 < leAt b 0x10 4 then imageAccept 1 b s else imageAccept 0 a s
      else if ca = 0 then raise 0x4301 1 (imageAccept 0 a s)
      else if cb = 0 then raise 0x4301 0 (imageAccept 1 b s)
      else raiseCause 0x8302 0 s

/-- `IMAGE_LOAD_COMPLETE`. -/
def execImageLoadComplete (copyA copyB : List Byte) (s : State) : Out := done (imageLoaded copyA copyB s)

/-! ### Shelfmarks (R75 to R77, R101, R240) -/

/-- A SHELF frame (R263): byte 0 names the segment, and the bytes that follow are kept until the enumeration. -/
def shelfFrame (bus node : Nat) (bytes : List Byte) (s : State) : State :=
  if !s.running then s
  else
    let k := 128 * bus + node
    let off := 63 * leAt bytes 0 1
    let old := mapGet (fun _ => []) s.sys.unmatched k
    let new := (old ++ List.replicate (off - old.length) 0).take off ++ bytes.drop 1 ++ old.drop (off + (bytes.length - 1))
    { s with sys := { s.sys with unmatched := mapSet (fun _ => []) s.sys.unmatched k new } }

/-- `SHELF`. -/
def execShelfFrame (bus : Fin 2) (node : Fin 128) (bytes : List Byte) (s : State) : Out := done (shelfFrame bus node bytes s)

/-- The body of a shelfmark record. -/
def shelfmarkBody (b : List Byte) : List Byte := (b.drop 32).take (leAt b 0xC 2)

/-- The length of the body of a module kind (R100, R240, R411 and the user display's body under R421). -/
def bodyLen (kind : Nat) : Nat := if kind = 1 then 420 else if kind = 4 then 32 else 16

/-- What R101 asks of a sensor head's body, and R421 of a user display's. -/
def bodyRules (kind : Nat) (b : List Byte) : Bool :=
  let f := leAt b
  if kind = 1 then decide (1 ≤ f 0 1) && decide (f 0 1 ≤ 4) && f 1 1 = 8 && decide (f 4 2 ≤ 20000)
  else if kind = 4 then
    let w := f 0 2 + f 4 1 + f 5 1 + f 6 1
    let h := f 2 2 + f 7 1 + f 8 1 + f 9 1
    decide (w * h * 60 * 24 ≤ 1600000000) && decide (f 0 2 ≤ 800) && decide (f 2 2 ≤ 480)
  else true

/-- Whether MAGIC, FORMAT, CRC and the body are right (R75, R77, R101). -/
def shelfmarkOk (b : List Byte) : Bool :=
  let body := shelfmarkBody b
  let kind := leAt b 3 1
  leAt b 0 2 = 0x5346 && leAt b 2 1 = 1 && leAt b 0xC 2 = bodyLen kind && body.length = bodyLen kind &&
    leAt b 0x1C 4 = crc32 (b.take 0x1C ++ body) && bodyRules kind body

/-- The outcome of entry `i` for the bytes that its module answered (R77). A serial that differs counts only for a
serial-bound entry (DEDUCED, log entry 45). -/
def State.shelfOutcome (s : State) (i : Nat) (answer : Option (List Byte)) : ShelfOutcome :=
  let flags := s.shelfAt i 3 1
  match answer with
  | none => if flags % 2 = 1 then .absent else .optionalAbsent
  | some b =>
    if !shelfmarkOk b then .corrupt
    else if leAt b 3 1 ≠ s.shelfAt i 2 1 then .wrongKind
    else if Nat.testBit flags 1 && s.shelfAt i 8 8 ≠ 0 && leAt b 4 8 ≠ s.shelfAt i 8 8 then .replaced
    else .matched

/-- What the module of entry `i` answered: over I²C, the answer given; over CAN FD, what its SHELF frames brought. -/
def State.shelfAnswer (s : State) (answers : List (Option (List Byte))) (i : Nat) : Option (List Byte) :=
  let bus := s.shelfAt i 0 1
  if bus = 0x10 || bus = 0x11 then
    let b := mapGet (fun _ => []) s.sys.unmatched (128 * (bus - 0x10) + s.shelfAt i 1 1)
    if b.isEmpty then none else some b
  else (answers[i]?).join

/-- Entry `i` takes its outcome, with its reaction. -/
def shelfEntry (answers : List (Option (List Byte))) (i : Nat) (s : State) : State :=
  let ans := s.shelfAnswer answers i
  let o := s.shelfOutcome i ans
  let s := { s with sys := { s.sys with shelf := s.sys.shelf ++ [o] } }
  match o with
  | .matched =>
    let b := ans.getD []
    { s with sys := { s.sys with
        shelfBody := mapSet (fun _ => []) s.sys.shelfBody i (shelfmarkBody b)
        shelfId := mapSet (fun _ => (0, 0)) s.sys.shelfId i (leAt b 4 8, crc32 (shelfmarkBody b)) } }
  | .optionalAbsent => s
  | _ =>
    let kind := s.shelfAt i 2 1
    let n := s.shelfAt i 4 1
    let s := if (kind = 2 || kind = 3 || kind = 6) && n < 16 then s.setFlag Reg.MODE.SHELF.OUT_DIS n true else s
    addDegr 0x4303 i false (raise 0x4303 i (s.inc Reg.MODE.SHELF.MISMATCH))

/-! ### Step 6 of R69: the sections load their registers -/

/-- Fields written one after the other. -/
def loadFields (l : List (Fld × Nat)) (s : State) : State := l.foldl (fun s x => s.wr x.1 x.2) s

/-- SYSTEM and TARIFF (R73, R202). -/
def loadSystem (s : State) : State :=
  let s := s.wr Reg.MODE.WARM.WARM_MAX (if (s.sec 1).isEmpty then 30 else s.cfg 1 0 1)
  if (s.sec 4).isEmpty then s else s.wr Reg.RTC.CFG.LIMIT (s.cfg 4 0xB 1)

/-- OUTLETS (R237). -/
def loadOutlet (n : Nat) (s : State) : State :=
  let e := s.outCfg n
  let bus := fun (k : Nat) => e (0x28 + 2 * k) 1
  let node := fun (k : Nat) => e (0x29 + 2 * k) 1
  let valid := fun (k : Nat) => b2n (bus k ≠ 0xFF)
  loadFields
    ([(Reg.OUT.CFG.KIND n, e 0 1), (Reg.OUT.CFG.FLAGS n, e 1 1), (Reg.OUT.CFG.DROP_T n, e 0xA 1),
      (Reg.OUT.CFG.CLOSE_T n, e 0xB 1), (Reg.OUT.CFG.SP_PERIOD n, e 0xC 1), (Reg.OUT.HS_MAP.COIL0 n, e 0x10 1),
      (Reg.OUT.HS_MAP.COIL1 n, e 0x11 1), (Reg.OUT.HS_MAP.LOCK n, e 0x12 1), (Reg.OUT.HS_MAP.TRIP n, e 0x13 1),
      (Reg.OUT.HS_MAP2.COOL n, e 0x14 1), (Reg.OUT.HS_MAP2.MOVE_DN n, e 0x15 1), (Reg.OUT.HS_MAP2.MOVE_UP n, e 0x16 1),
      (Reg.OUT.HS_MAP2.ACD_SAF n, e 0xF 1)] ++
     ((List.range 2).flatMap fun j =>
      [(Reg.OUT.MOD_CFG.VALID_L n j, valid (2 * j)), (Reg.OUT.MOD_CFG.BUS_L n j, bus (2 * j) % 2),
       (Reg.OUT.MOD_CFG.NODE_L n j, node (2 * j)), (Reg.OUT.MOD_CFG.VALID_H n j, valid (2 * j + 1)),
       (Reg.OUT.MOD_CFG.BUS_H n j, bus (2 * j + 1) % 2), (Reg.OUT.MOD_CFG.NODE_H n j, node (2 * j + 1))])) s

/-- An entry of LOADSW (R414). -/
def loadChannel (c : Nat) (s : State) : State :=
  let e := fun (off n : Nat) => s.cfg 8 (8 + 16 * c + off) n
  let s := s.setHs c { s.hs c with startOn := e 0 1 = 0 && Nat.testBit (e 2 1) 2 }
  loadFields
    [(Reg.LSW.CH.CFG.OWNER c, e 0 1), (Reg.LSW.CH.CFG.MODE c, e 1 1), (Reg.LSW.CH.CFG.SAFE_KEEP c, e 2 1),
     (Reg.LSW.CH.CFG.OL_EN c, e 2 1 / 2), (Reg.LSW.CH.CFG.LIMIT c, e 3 1), (Reg.LSW.CH.CFG.INRUSH_T c, e 4 1),
     (Reg.LSW.CH.CFG.SLEW c, e 5 1), (Reg.LSW.CH.CFG.FREQ c, e 6 1), (Reg.LSW.CH.COIL.PULL_T c, e 7 1),
     (Reg.LSW.CH.DUTY.DUTY c, e 8 2), (Reg.LSW.CH.COIL.HOLD c, e 0xA 2)] s

/-- A heater of LOADSW (R414). -/
def loadHeater (h : Nat) (s : State) : State :=
  let e := fun (off n : Nat) => s.cfg 8 (0x288 + 8 * h + off) n
  loadFields
    [(Reg.LSW.HEAT.CFG.CHANNEL h, e 0 1), (Reg.LSW.HEAT.CFG.SENSOR h, e 1 1), (Reg.LSW.HEAT.CFG.ON_SPREAD h, e 2 1),
     (Reg.LSW.HEAT.CFG.OFF_SPREAD h, e 3 1), (Reg.LSW.HEAT.DUTY.HEAT_DUTY h, e 4 2), (Reg.LSW.HEAT.DUTY.FB_DUTY h, e 6 2)] s

/-- LOADSW (R414). -/
def loadSwitches (s : State) : State :=
  if (s.sec 8).isEmpty then s
  else
    let s := forEach 5 (fun g s => s.wr (Reg.LSW.VLS.V_NOM g) (s.cfg 8 g 1)) s
    forEach 8 loadHeater (forEach 40 loadChannel s)

/-- DISPLAY (R435): ELVSS 0 takes ELVSS_DEF of the display's shelfmark body. -/
def loadDisplay (s : State) : State :=
  if (s.sec 9).isEmpty then s
  else
    let v := s.cfg 9 1 1
    let v := if v ≠ 0 then v else match s.dpyBody with | some b => leAt b 0xA 1 | none => s.rd Reg.DPY.RAIL.ELVSS
    loadFields [(Reg.DPY.RAIL.ELVSS, v), (Reg.DPY.BRIGHT.MAN, s.cfg 9 0 1 / 8), (Reg.DPY.BRIGHT.MAN_LEVEL, s.cfg 9 4 2)] s

/-- NETWORK (R349). -/
def loadNetwork (s : State) : State :=
  if (s.sec 10).isEmpty then s
  else
    let notch := s.cfg 10 8 14
    loadFields
      ([(Reg.BBN.CFG.CYCLE, s.cfg 10 2 1), (Reg.BBN.CFG.LOST_CYC, s.cfg 10 0x17 1), (Reg.BBN.CFG.TM_MARGIN, s.cfg 10 0x16 1),
        (Reg.BBN.CFG.RETX_MAX, s.cfg 10 0x1B 1), (Reg.BBN.TX.PATHS, s.cfg 10 3 1), (Reg.BBN.TX.ATT0, s.cfg 10 4 1),
        (Reg.BBN.TX.ATT1, s.cfg 10 5 1), (Reg.BBN.TX.ATT2, s.cfg 10 6 1), (Reg.BBN.TX.COUPLE, s.cfg 10 0x1D 1)] ++
       (List.range 4).map fun k => (Reg.BBN.NOTCH.GROUP k, notch / 2 ^ (32 * k))) s

/-- CONTACTLESS (R458). -/
def loadContactless (s : State) : State :=
  if (s.sec 11).isEmpty then s
  else loadFields
    [(Reg.NFC.CTL.EN, s.cfg 11 0 1), (Reg.TAG.STATUS.EN, s.cfg 11 0 1 / 8), (Reg.NFC.DET_CFG.PING_PERIOD, s.cfg 11 4 2),
     (Reg.NFC.DET_CFG.TRACK, s.cfg 11 3 1), (Reg.NFC.DET_CFG.WAKE_AMP, s.cfg 11 6 1), (Reg.NFC.DET_CFG.WAKE_PH, s.cfg 11 7 1)] s

/-- SAFETY (R389): the Keeper checks the block's CRC and SAFE_SEL; a commissioning record of another block raises
SAF_UNCONFIRMED (R391). Without the section there is no block to pass (log entry 46). -/
def loadSafety (safeSel : Nat) (s : State) : State :=
  if (s.sec 7).isEmpty then s
  else
    let crc := s.cfg 7 0x3C 4
    let crcOk := spbCrc (s.sec 7) = crc
    let selOk := s.cfg 7 2 1 = safeSel
    let s := loadFields [(Reg.SAF.SPB_ID.VALUE, s.cfg 7 4 4), (Reg.SAF.SPB_CRC.VALUE, crc), (Reg.SAF.SEL.EXPECTED, s.cfg 7 2 1),
      (Reg.SAF.SEL.SWITCHES, safeSel), (Reg.SAF.STATUS.SPB_OK, b2n crcOk), (Reg.SAF.STATUS.SEL_OK, b2n selOk)] s
    let s := match s.cat.commission with
      | some (held, _) => if held = crc then s else raise 0x3404 0 s
      | none => s
    if crcOk && selOk then s else raiseCause 0xB403 0 s

/-- PRESET (R553), after every other section. -/
def loadPreset (s : State) : State :=
  if (s.sec 12).isEmpty then s
  else presetApply { s.wr Reg.HP.IRQ_EN.EN (s.cfg 12 5 1) with hp := { s.hp with idleT := s.cfg 12 4 1 } }

/-- Every section loads its registers. -/
def loadSections (safeSel : Nat) (s : State) : State :=
  let s := if (s.sec 6).isEmpty then s else forEach 16 loadOutlet s
  let s := loadContactless (loadNetwork (loadDisplay (loadSwitches (loadSystem s))))
  forEach 16 outRecap (loadPreset (loadSafety safeSel s))

/-! ### START_TEST (R60, R78 to R80) -/

/-- Whether the test credit is valid (R79). -/
def State.creditValid (s : State) : Bool :=
  match s.cat.credit with
  | none => false
  | some c =>
    ((s.sec 1).isEmpty || s.cfg 1 3 1 = 1) && decide (s.rd Reg.PWR.OPSEC.SECONDS - c.opsec ≤ 259200) &&
      c.hash = colophonHash (s.bank s.active).region && c.lc = s.lc && !c.spoiled && !c.used

/-- START_TEST begins, by a quick start when the credit is valid (R80). -/
def startTest (s : State) : State :=
  let quick := s.creditValid
  let credit := s.cat.credit.map fun (c : Credit) => { c with used := c.used || quick }
  let s := { s with cat := { s.cat with credit := credit }, sys := { s.sys with startStep := 6 } }
  bistBegin quick ((s.setB Reg.MODE.STATUS.QUICK quick).setB Reg.MODE.STATUS.APP_DOWN true)

/-- The listed modules have been read (R77), the sections load, and START_TEST is entered (R60). -/
def shelfComplete (answers : List (Option (List Byte))) (safeSel : Nat) (s : State) : State :=
  if !(s.running && s.mode = 1 && s.sys.startStep = 5 && s.sys.imgValid) then s
  else
    let s := (List.range s.shelfCount).foldl (fun s i => shelfEntry answers i s) s
    startTest (setMode 2 5 0 (loadSections safeSel s))

/-- `SHELF_ENUMERATION_COMPLETE`. -/
def execShelfEnumerationComplete (answers : List (Option (List Byte))) (safeSel : Fin 256) (s : State) : Out :=
  done (shelfComplete answers safeSel s)

end Sys2Proof.Machine
end

