-- ==== Sys2Proof/Machine/Boundary.lean ====
section
/-!
DEFINITION. Quantum boundaries: the fixed order of work at every boundary (R198), and what the first boundary of step 8
of R69 restores, records and catches up (R112, R117, R157, R163 to R166, R171, R201, R202, R251, R284).
-/
namespace Sys2Proof.Machine

/-! ### Every boundary (R198) -/

/-- DEGRADED becomes OPERATIONAL when no degradation cause is left (R60). -/
def degradedEnds (s : State) : State := if s.mode = 6 && s.sys.degr.isEmpty then setMode 5 7 0 s else s

/-- Steps 1 to 5 of R198 for the boundary with reading `r`. -/
def boundaryWork (stepped : Bool) (s : State) : State :=
  let r := s.reading
  let closing := s.carrelsWhere fun c => c.st = 5
  let s := carrelStep closing (bookQuantum false r s)
  let coming := s.armedDue r
  let s := stepTariff coming r (stepPeriod coming r (stepDemand stepped coming r s))
  let s := bindBoundary r s.tar.periodClosed s.tar.demandClosed s
  let s := { s with tar := { s.tar with periodClosed := false, demandClosed := false } }
  persist false (hwmAdvance r s)

/-- A quantum boundary: a late commit word (R156), the running adjustment (R184, R185), the work of R198, a commit that
comes into force (R122), the display's requests (R430), and the start of the next quantum. -/
def quantumBoundary (s : State) : State :=
  if !s.running then s
  else
    let (stepped, s) := adjApply (boundaryTick (persistLate s))
    if !s.bit Reg.MET.STATUS.RUN then s
    else
      let s := commitInForce (degradedEnds (boundaryWork stepped s))
      quantumStarts (bilShow (bdyRequests s))

/-- `QUANTUM_BOUNDARY`. -/
def execQuantumBoundary (s : State) : Out := done (quantumBoundary s)

/-! ### The folio in force (R157, R186) -/

/-- The folio in force is restored: billing, credit, the carries and QSERIAL. -/
def folioRestore (s : State) : State :=
  match s.per.folio with
  | none => s
  | some f =>
    let s := { s with
      bil := f.bil
      crd := { s.crd with nv := f.crd }
      met := { s.met with carry := f.carry }
      per := { s.per with qserial := f.qserial } }
    crdShow (s.setB Reg.CRD.STATUS.STOPPED f.crd.stopped)

/-- CORR is set so that the reading is `r`, to the unit of CORR. -/
def readingSet (r : Int) (s : State) : State :=
  { s with rtc := { s.rtc with
    corr := (r - ((s.rd Reg.RTC.TICK.SECONDS * 10 + s.rtc.k) * 32768 : Int)) / 10 } }

/-- A reading that P/AON has lost is that of the folio in force; the absence of valid time is a degradation cause
(R186). -/
def timeRestore (s : State) : State :=
  if s.bit Reg.TMP.STATUS.VBAT_LOST then
    setValid false (match s.per.folio with | some f => readingSet f.reading s | none => s)
  else if s.bit Reg.RTC.STATUS.VALID then s
  else addDegr 0x4E03 0 true (setCause 0x4E03 0 true s)

/-! ### The loss before this start (R160, R163 to R166) -/

/-- PWR_HOLDUP_SHORT: the stamps of the warning and of core under-voltage are less than 10 ms apart (R160). -/
def holdupCheck (s : State) : State :=
  match s.tmp.pfStamp, s.tmp.uvStamp with
  | some a, some b => if a ≤ b && (b - a) * 100 < 327680 then raise 0x4202 0 s else s
  | _, _ => s

/-- The UNFLUSHED_LOSS record of a span, and TMP.LOSS (R166). -/
def lossRecord (f : Folio) (us flags : Nat) (s : State) : State :=
  let p := fun (m : Nat) => mapGet (fun _ => (0 : Int)) f.psum m
  let dir := direction (p 16)
  let bound := lossBound (p 16) us
  let outs := ((List.range 16).map fun m => lossBound (p m) us).foldl (· + ·) 0
  let s := legalRecord 0x20 (payloadOf [(0, s.per.cycle), (4, f.qserial), (0xC, us % 2 ^ 32), (0x10, flags), (0x11, dir),
    (0x14, bound % 2 ^ 64), (0x1C, outs % 2 ^ 64)]) s
  (s.wr Reg.TMP.LOSS.DIR dir).wr Reg.TMP.LOSS.BOUND (min (2 ^ 30 - 1) bound)

/-- The marker of the last flush is looked for, and the loss is recorded (R164, R165, R487). -/
def lossCheck (s : State) : State :=
  let s := holdupCheck s
  let s := match s.per.folio with
    | none => s
    | some f =>
      match s.per.planned with
      | some t => lossRecord f (spanUs (max 0 (s.reading - t), false)) 2 s
      | none =>
        if s.per.marker then
          let span := match s.tmp.pfStamp with
            | some t => lostSpan s.tmp.uvStamp t
            | none => lostSpan none 0
          lossRecord f (spanUs span) (2 + b2n span.2) (s.setB Reg.PWR.CAUSE.WARNED true)
        else
          let span := lostSpan s.tmp.uvStamp f.reading
          let s := raise 0x4203 0 (s.setB Reg.PWR.CAUSE.UNWARNED true)
          let s := if s.per.cut then raise 0x4204 0 s else s
          lossRecord f (spanUs span) (b2n span.2) s
  { s with
    tmp := { s.tmp with pfStamp := none, uvStamp := none }
    per := { s.per with cut := false, planned := none, cycle := s.rd Reg.PWR.CYCLES.COUNT } }

/-! ### The catch-up (R201) -/

/-- Period closes at their nominal times, with PF. -/
def catchCloses (l : List Int) (s : State) : State := l.foldl (fun s t => (periodClose t 1 s).inc Reg.BIL.CATCHUP.CLOSES) s

/-- The interval running at the loss closes at its E when that has come by `hi`, with PF. -/
def catchInterval (hi : Int) (s : State) : State :=
  match s.bil.interval with
  | some v => if v.nomEnd ≤ hi then demandClose v.nomEnd v.nomEnd 2 s else s
  | none => s

/-- The boundaries of the active calendar in (lo, hi], in the order of R198; switch points up to `sw` only. -/
def catchSpan (lo hi sw : Int) (closes : List Int) (s : State) : State :=
  let e := match s.bil.interval with | some v => v.nomEnd | none => lo
  let pts := switchPoints s.bil.active s.leap lo sw
  let s := catchCloses (closes.filter fun t => t < e) s
  let s := catchCloses (closes.filter fun t => e ≤ t) (catchInterval hi s)
  let s := s.wr Reg.BIL.CATCHUP.SWITCHES (min 255 (s.rd Reg.BIL.CATCHUP.SWITCHES + pts.length))
  match pts.getLast? with
  | some x => setRates x.2 s
  | none => s

/-- Whole intervals of the active calendar between their first start and `hi`: their number and the last end. -/
def State.wholeIntervals (s : State) (start hi : Int) : Nat × Int :=
  let l := unitsOf (60 * calLen s.bil.active)
  let n := if hi < start || l = 0 then 0 else ((hi - start) / l).toNat
  (n, start + n * l)

/-- The one record of the whole intervals inside the outage. -/
def catchRecord (n : Nat) (stop : Int) (s : State) : State :=
  let s := s.wr Reg.BIL.CATCHUP.MISSED (min 65535 n)
  if n = 0 || s.meterType 16 = 0 then s
  else profilePut stop 0x42 [0, 0, 0, 0] n (s.rd Reg.BIL.STATUS.RATE_I) (s.rd Reg.BIL.STATUS.RATE_E) 0 s

/-- The first aligned start at or after a reading under the active calendar. -/
def State.alignedFrom (s : State) (t : Int) : Int :=
  let e := demandEnd s.bil.active s.leap t
  let l := unitsOf (60 * calLen s.bil.active)
  if e - l = t then t else e

/-- The armed activation that falls in the outage. -/
def State.outageActivation (s : State) (lo hi : Int) : Option (List Byte × Int) :=
  match s.tar.armed with
  | some (cal, act) => if act ≠ 0 && decide (lo < unitsOf act) && decide (unitsOf act ≤ hi) then some (cal, unitsOf act) else none
  | none => none

/-- The catch-up with an activation at `t`: the old calendar up to it, the new one after it. -/
def catchActivation (cal : List Byte) (t lo hi : Int) (s : State) : State :=
  let closes := billCloses s.bil.active s.leap lo t
  let atT := closes.getLast? = some t
  let asks := leAt cal 2 2 % 2 = 1
  let s := catchSpan lo t (t - 1) (closes.filter fun x => x < t) s
  let (n1, e1) := if s.bil.interval.isNone then s.wholeIntervals s.tar.nextStart t else (0, t)
  let change := decide (calLen cal ≠ calLen s.bil.active ∨ calTz cal ≠ calTz s.bil.active)
  let s := if change && s.bil.interval.isSome then demandClose t t 2 s else s
  let s := if atT || asks then (periodClose t (1 + 4 * b2n asks) s).inc Reg.BIL.CATCHUP.CLOSES else s
  let s := (armedActivate t s).setB Reg.BIL.CATCHUP.ACTIVATED true
  let s := catchSpan t hi hi (billCloses s.bil.active s.leap t hi) (setRates (calRates s.bil.active s.leap t) s)
  if s.bil.interval.isSome then catchRecord n1 e1 s
  else
    let start := if change then s.alignedFrom t else if n1 = 0 then s.tar.nextStart else e1
    let (n2, e2) := s.wholeIntervals start hi
    catchRecord (n1 + n2) (if n2 = 0 then e1 else e2) s

/-- The catch-up at a restart reading `r` with VALID = 1. -/
def catchUp (r : Int) (s : State) : State :=
  match s.bil.hwm with
  | none => s
  | some lo =>
    if r ≤ lo then s
    else match s.outageActivation lo r with
      | some (cal, t) => catchActivation cal t lo r s
      | none =>
        let s := catchSpan lo r r (billCloses s.bil.active s.leap lo r) s
        if s.bil.interval.isSome then s
        else let (n, e) := s.wholeIntervals s.tar.nextStart r; catchRecord n e s

/-- The TARIFF section at a start (R202). -/
def tariffSection (r : Int) (s : State) : State :=
  if (s.sec 4).isEmpty then s
  else
    let cal := ((s.sec 4).drop 16).take 2048
    let id := s.cfg 4 8 2
    let armedId := match s.tar.armed with | some x => some (leAt x.1 0 2) | none => none
    if s.bil.active.isEmpty then
      let change := match s.bil.interval with
        | some v => decide (v.len ≠ calLen cal ∨ calTz cal ≠ 0)
        | none => false
      calActivate cal (r / 327680).toNat (if change then demandClose r r 2 s else s)
    else if s.cfg 4 0xA 1 = 1 && id ≠ leAt s.bil.active 0 2 && armedId ≠ some id then
      let s := disarm s
      let s := { s with tar := { s.tar with passive := writeBytes [] 0 cal } }
      let x := armPassive (s.wr Reg.TAR.ACT_SEC.SEC (s.cfg 4 0 8))
      armEnd x.1 x.2
    else s

/-- The billing engine at the restart: the arming that the store holds, the catch-up, the TARIFF section, the rates, and
the interval, which carries PF after an outage (R191, R201, R202). -/
def billingStart (s : State) : State :=
  let r := s.reading
  let out := s.per.folio.isSome
  let s := s.setWord Reg.BIL.CATCHUP.MISSED.addr 0
  let s := match s.tar.armedNv with
    | none => s
    | some x =>
      let s := { s with tar := { s.tar with armed := some x } }
      tarShow ((engineSet 2 2 0 x.2 s).getD s)
  let s := if s.bit Reg.RTC.STATUS.VALID then catchUp r s else catchInterval r s
  let s := tarShow (tariffSection r s)
  let s := setRates (s.ratesAt r) (s.setB Reg.BIL.STATUS.DEFAULT (!s.bit Reg.RTC.STATUS.VALID))
  let s := match s.bil.interval with
    | none => openInterval r r (2 * b2n out) s
    | some v => { s with bil := { s.bil with interval := some { v with flags := Nat.lor v.flags (2 * b2n out) } } }
  let s := { s with tar := { s.tar with
    wasValid := s.bit Reg.RTC.STATUS.VALID, periodClosed := false, demandClosed := false } }
  bilShow (hwmAdvance r s)

/-! ### Outlets and carrels at step 8 (R238, R240, R251, R276, R284) -/

/-- OUT[n] leaves DISABLED or stays so; one whose KIND disagrees raises OUT_CFG_MISMATCH (R238, R251). -/
def outletStart (loads : List (List Nat)) (n : Nat) (s : State) : State :=
  let s := withLoad n (loads.getD n []) s
  if s.rd (Reg.OUT.CFG.KIND n) ≠ 0 && !(s.rolesOk n && s.kindOk n) then
    addDegr 0x600D n false (raiseCause (outCode 0x600D n) n s)
  else outStart n s

/-- The valid copy of carrel `c` with the highest QSERIAL not above that of the folio in force; `bad` are the copies
that do not read back. -/
def State.restoredCopy (s : State) (bad : List Nat) (c : Nat) : Option Carrel :=
  let pick := fun (k : Nat) =>
    let x := mapGet (fun _ => CarrelCopy.blank) s.crl.copies k
    if x.valid && !bad.contains k && x.qserial ≤ s.per.qserial then some x else none
  match pick (2 * c), pick (2 * c + 1) with
  | some a, some b => some (if a.qserial < b.qserial then b.car else a.car)
  | some a, none => some a.car
  | none, some b => some b.car
  | none, none => none

/-- The rules of R284 for one carrel's copy. -/
def restartRules (disabled : Bool) (r : Carrel) : Carrel :=
  let r := if r.st = 3 then { r with st := 4, reason := 37, qSusp := 0 } else r
  if disabled && r.st = 1 then Carrel.free
  else if disabled && (r.st = 2 || r.st = 4) then { r with st := 5, reason := 40 }
  else r

/-- Carrel `c` is restored (R284); one that is still Closed posts its close item again (R281). -/
def carrelRestore (bad : List Nat) (c : Nat) (s : State) : State :=
  if (s.retired 4).contains c then s.setCar c { Carrel.free with st := 7, outlet := 0 }
  else match s.restoredCopy bad c with
    | none => retireUnit 4 c 0 s
    | some k =>
      let k := if k.st = 7 then Carrel.free else k
      let r := restartRules (k.outlet < 16 && s.outSt k.outlet = 0) k
      let s := if r = k then
          { s with crl := { s.crl with recs := mapSet (fun _ => Carrel.free) s.crl.recs c r } }
        else s.setCar c r
      if r.st = 6 then postClose r s else s

/-- The highest SESSION of the valid carrel copies and of the CARREL_CLOSE records held (R276). -/
def State.highestSession (s : State) (bad : List Nat) : Nat :=
  let a := (s.crl.copies.filter fun x => x.2.valid && !bad.contains x.1).map fun x => x.2.car.session
  let b := ((s.evr.circ ++ s.evr.acc).filter fun x => x.2.ty = 0x31).map fun x => x.2.payload / 2 ^ 32 % 2 ^ 32
  (a ++ b).foldl max 0

/-- The session counter (R276); key 512 of `bad` stands for its copies. -/
def sessionRestore (bad : List Nat) (s : State) : State :=
  if bad.contains 512 then
    let n := min 0xFFFFFFFF (s.highestSession bad + 1 + 65536)
    raise 0x7005 0 (s.wr Reg.CRL.NEXT_SESSION.SESSION n)
  else match s.crl.sessCopy with
    | some n => s.wr Reg.CRL.NEXT_SESSION.SESSION n
    | none => s

/-! ### The first boundary (R70) -/

/-- The first quantum boundary of step 8: `loads` are the outlets' load-side voltages, `bad` the carrel copies that do
not read back. -/
def firstBoundary (loads : List (List Nat)) (bad : List Nat) (s : State) : State :=
  if !(s.running && s.mode = 2 && s.sys.startStep = 7) then s
  else
    let s := { s.setB Reg.MET.STATUS.RUN true with sys := { s.sys with startStep := 8 } }
    let s := timeRestore (folioRestore (boundaryTick s))
    let s := legalSelect s
    let s := sealLatched (fifoWrite (battReport (lossCheck s)))
    let s := billingStart s
    let s := forEach 16 (outletStart loads) s
    let s := sessionRestore bad (forEach 256 (carrelRestore bad) s)
    let s := crlWatch s
    quantumStarts (bdyRecover (tagStart (bbnStart (safStart s))))

/-- `FIRST_QUANTUM_BOUNDARY`. -/
def execFirstQuantumBoundary (loads : List (List Nat)) (badCopies : List Nat) (s : State) : Out :=
  done (firstBoundary loads badCopies s)

end Sys2Proof.Machine
end

