-- ==== Sys2Proof/Machine/Fabric.lean ====
section
/-!
DEFINITION. The fabric arbiter (chapter 01, R42 to R48).
-/
namespace Sys2Proof.Machine

/-- The cap of a class in beats per 2 µs (R44); 300 for P4 and P5, which have none. -/
def fabCap (cls : Nat) : Nat := if cls = 0 then 24 else if cls = 1 then 32 else if cls = 2 then 48 else if cls = 3 then 160 else 300

/-- The mark under which a beat is logged: its class, 9 for the metrology engine's own beats of P1 (R48). -/
def FabReq.mark (r : FabReq) : Nat := if r.metro && r.cls = 1 then 9 else r.cls

/-- The beats that a class has been granted in the window that ends at `beat`: 2 µs are 300 beats (R45). -/
def FabSt.inWindow (f : FabSt) (beat : Nat) (p : Nat → Bool) : Nat :=
  (f.log.filter fun x => beat < x.1 + 300 && p x.2).length

/-- Whether the window admits a further beat of a request (R43); from a power-fail warning on, the metrology engine's own
traffic keeps to 8 beats per window (R48). -/
def FabSt.admits (f : FabSt) (flushing : Bool) (beat : Nat) (r : FabReq) : Bool :=
  if 4 ≤ r.cls then true
  else f.inWindow beat (fun m => m % 8 = r.cls) < fabCap r.cls &&
    (!(flushing && r.mark = 9) || f.inWindow beat (fun m => m = 9) < 8)

/-- The rank at which a request is granted, lowest first: P0 to P3, then the aged requests of P4 and P5, then P4, P5
(R42, R46). -/
def FabReq.rank (r : FabReq) : Nat := if r.cls < 4 then r.cls else if r.aged then 4 else r.cls + 1

/-- The request that takes the next beat: the lowest rank, in order of arrival within it. -/
def FabSt.pick (f : FabSt) (flushing : Bool) (beat : Nat) : Option FabReq :=
  let l := f.waiting.filter (f.admits flushing beat)
  ((List.range 7).findSome? fun k => l.find? fun r => r.rank = k)

/-- The arbiter at one beat boundary. -/
def fabBeat (s : State) : State :=
  let f := s.fab
  match f.pick s.sys.flushing f.beat with
  | none => { s with fab := { f with beat := f.beat + 1 } }
  | some r =>
    let left := f.waiting.filterMap fun (x : FabReq) =>
      if x.port = r.port then (if x.beats ≤ 1 then none else some { x with beats := x.beats - 1 }) else some x
    let g : FabSt := ⟨f.beat + 1, left, (f.beat, r.mark) :: f.log.filter fun x => f.beat < x.1 + 300⟩
    let s := { s with fab := g }
    if r.cls < 4 && fabCap r.cls ≤ g.inWindow f.beat (fun m => m % 8 = r.cls) then
      s.setB ⟨Reg.SYS.FAB_STATUS.CAP0.addr, r.cls, 1⟩ true
    else s

/-- The arbiter runs on for at most `n` beats while requests wait. -/
def fabRun : Nat → State → State
  | 0, s => s
  | n + 1, s => if s.fab.waiting.isEmpty then s else fabRun n (fabBeat s)

/-- The arbiter has reached the beat `now`. -/
def fabTo (now : Nat) (s : State) : State :=
  let s := fabRun (now - s.fab.beat) s
  { s with fab := { s.fab with beat := max now s.fab.beat } }

/-- A request arrives at the beat `now`; a port that still waits presents no second one (R46). -/
def fabRequest (now port cls beats : Nat) (metro : Bool) (s : State) : State :=
  if !s.running then s
  else
    let s := fabTo now s
    if s.fab.waiting.any fun r => r.port = port then s
    else { s with fab := { s.fab with waiting := s.fab.waiting ++ [⟨port, cls, beats, s.fab.beat, false, metro⟩] } }

/-- `FABRIC_REQUEST`: 1 to 4 beats. -/
def execFabricRequest (now port : Nat) (cls : Fin 6) (beats : Fin 4) (metro : Bool) (s : State) : Out :=
  done (fabRequest now port cls (beats + 1) metro s)

/-- A P4 or P5 request has waited 40 µs: it goes behind the requests that aged before it. -/
def fabAge (port : Nat) (s : State) : State :=
  match s.fab.waiting.find? fun r => r.port = port && 4 ≤ r.cls && !r.aged with
  | none => s
  | some r =>
    let rest := s.fab.waiting.filter fun x => x.port ≠ port
    let old := rest.filter fun x => x.aged
    let new := rest.filter fun x => !x.aged
    { s with fab := { s.fab with waiting := old ++ { r with aged := true } :: new } }

/-- `REQUEST_AGED`. -/
def execRequestAged (port : Nat) (s : State) : Out := done (if s.running then fabAge port s else s)

/-- `SYS_FAB_STARVE` (R47): the request of `port` has waited 50 µs. -/
def execSysFabStarve (port : Nat) (s : State) : Out :=
  done (if s.running && s.fab.waiting.any (fun r => r.port = port && 4 ≤ r.cls) then
      raise 0x4001 port (s.inc Reg.SYS.FAB_STATUS.STARVE)
    else s)

end Sys2Proof.Machine
end

