-- ==== Sys2Proof/Machine/Modes.lean ====
section
/-!
DEFINITION. Operating modes (chapter 02): the end of START_TEST, mode requests, warm-through, the power-fail warning
with its flush and ride-through, the controlled shut-down, and with them the life-cycle request, the activation of an
update, the junction sensors and the supply monitors.
-/
namespace Sys2Proof.Machine

/-! ### Destinations (R60, R63) -/

/-- OPERATIONAL, or DEGRADED while a degradation cause is present. -/
def State.opMode (s : State) : Nat := if s.sys.degr.isEmpty then 5 else 6

/-- Whether a carrel is in state 3. -/
def State.energising (s : State) : Bool := !(s.carrelsWhere fun c => c.st = 3).isEmpty

/-- A mode is entered again after WARM_THROUGH or RIDE_THROUGH; degradation causes that have appeared meanwhile move
OPERATIONAL to DEGRADED, and the actions of detected tampers apply again (R172). -/
def modeBack (m trigger : Nat) (s : State) : State :=
  let s := tamperSuspend (setMode m trigger 0 s)
  if m = 5 && !s.sys.degr.isEmpty then setMode 6 7 0 s else s

/-- START_TEST runs from its first test (R60, R63). -/
def restartTests (trigger : Nat) (s : State) : State :=
  let s := setMode 2 trigger 0 s
  bistBegin (s.bit Reg.MODE.STATUS.QUICK) { s with sys := { s.sys with startStep := 6 } }

/-! ### The end of START_TEST and the runtime (R60, R67, R509) -/

/-- Whether an outlet is configured; its pilot is fed from VCPP and VCPN. -/
def State.hasOutlets (s : State) : Bool := (List.range 16).any fun n => s.rd (Reg.OUT.CFG.KIND n) ≠ 0

/-- Whether the outputs that supply monitor `k` stands for are in use: 0 VCPP, 1 VCPN, 2 VDISP. -/
def State.monitorFeeds (s : State) (k : Nat) : Bool := if k = 2 then s.dpyEntry.isSome else k < 2 && s.hasOutlets

/-- The bit of PWR.STATUS of a monitor: 0 VCPP, 1 VCPN, 2 VDISP, 3 VBAT. -/
def monitorBit (k : Nat) : Fld :=
  if k = 0 then Reg.PWR.STATUS.VCPP_OK else if k = 1 then Reg.PWR.STATUS.VCPN_OK
  else if k = 2 then Reg.PWR.STATUS.VDISP_OK else Reg.PWR.STATUS.VBAT_OK

/-- An absent supply is a degradation cause for the outputs it feeds (R67); it has no fault code, so code 0 stands for it
with the monitor as index. -/
def monitorJudge (k : Nat) (s : State) : State :=
  if s.bit (monitorBit k) || !s.monitorFeeds k then dropDegr 0 k s else addDegr 0 k true s

/-- The mode after START_TEST (R60). -/
def State.afterTest (s : State) : Nat :=
  if s.sys.startMode = 3 && (s.lc = 1 || s.lc = 4) then 3
  else if s.sys.startMode = 4 || !s.commissioned || s.lc = 4 then 4
  else s.opMode

/-- The START record (R509). -/
def startRecord (m ms : Nat) (s : State) : State :=
  let cause := s.word Reg.PWR.CAUSE.POR.addr
  s.record 0x04 (payloadOf [(0, cause % 256), (1, m), (2, ms % 65536), (4, s.rd Reg.MODE.IMG_SEQ.SEQ),
    (8, s.rd Reg.MODE.START.COPY), (9, s.rd Reg.MODE.STATUS.QUICK), (0xA, s.lc),
    (0xC, leValue (beBytes 16 (colophonHash (s.bank s.active).region / 2 ^ 256)))]) false

/-- The tests have passed and step 8 of R69 is done: `ms` is the time since supply good. -/
def startPassed (ms : Nat) (s : State) : State :=
  if !(s.running && s.mode = 2 && s.sys.startStep = 8 && s.bist.lane0.isNone && s.bist.lane1.isNone) then s
  else
    let s := forEach 3 monitorJudge s
    let s := s.wr Reg.MODE.START.START_MS (min 65535 ms)
    let s := if Nat.testBit (s.cfg 9 0 1) 2 then s.setB Reg.DPY.STATUS.REQ_ON true else s
    let m := s.afterTest
    startRecord m (min 65535 ms) (tamperSuspend (setMode m 5 0 s))

/-- `START_TEST_PASSED`. -/
def execStartTestPassed (startMs : Nat) (s : State) : Out := done (startPassed startMs s)

/-- The warm-through timer stops. -/
def warmStop (s : State) : State :=
  { s with sys := { s.sys with warmRun := false, warmMax := 0, warmLost := false } }.wr Reg.MODE.WARM.REMAIN_MS 0

/-- The application runtime is ready: step 9 of R69, or the end of WARM_THROUGH; buffered frames of the vehicle link go to
it (R308). -/
def runtimeReady (s : State) : State :=
  if !s.running || s.bit Reg.MODE.STATUS.PARKED then s
  else
    let s := setCause 0x8304 0 false (warmStop (s.setB Reg.MODE.STATUS.APP_DOWN false))
    let s := if s.mode = 8 then modeBack s.sys.warmReturn 6 s else s
    let s := if 3 ≤ s.mode && s.sys.startStep = 8 then { s with sys := { s.sys with startStep := 9 } } else s
    vplDeliver s

/-- `RUNTIME_READY`. -/
def execRuntimeReady (s : State) : Out := done (runtimeReady s)

/-! ### Mode requests (R65) -/

/-- A request is judged in the order of R65 and carried out, or refused with its RESULT. -/
def modeRequest (a : Agent) (code min : Nat) (lost here energ other : Bool) (act : State → State) (s : State) : State :=
  if !(s.modeWrites || (s.running && s.mode = 1)) then s
  else
    let r := if s.level a < min then 2 else if !here then 1 else if energ then 3 else if other then 4
      else if lost then 5 else 0
    let s := (s.wr Reg.MODE.REQ_STAT.LAST_CODE code).wr Reg.MODE.REQ_STAT.RESULT r
    if r = 0 then act s else raise 0x0306 0 s

/-- A request with a code that R65 does not define. -/
def reqUndefined (a : Agent) (code : Nat) (s : State) : State := modeRequest a code 0 false false false false id s

/-- COMMISSIONING. -/
def reqCommissioning (a : Agent) (lost : Bool) (s : State) : State :=
  modeRequest a 1 2 lost (s.mode = 5 || s.mode = 6) s.energising false (setMode 4 0 0) s

/-- `MODE_REQ_COMMISSIONING`. -/
def execModeReqCommissioning (a : Agent) (lost : Bool) (s : State) : Out := done (reqCommissioning a lost s)

/-- DONE := 1 in the commissioning record (R391). -/
def commissionDone (s : State) : State :=
  { s with cat := { s.cat with commission := s.cat.commission.map fun x => (x.1, true) } }

/-- OPERATIONAL. -/
def reqOperational (a : Agent) (lost : Bool) (s : State) : State :=
  modeRequest a 2 1 lost ((s.mode = 4 || s.mode = 7) && decide (1 ≤ s.lc ∧ s.lc ≤ 3)) false
    (if s.mode = 4 then !s.confirmed else s.bit Reg.MODE.STATUS.SHUT)
    (fun s =>
      let s := if s.mode = 4 then commissionDone s else s
      setMode s.opMode 0 0 s) s

/-- `MODE_REQ_OPERATIONAL`. -/
def execModeReqOperational (a : Agent) (lost : Bool) (s : State) : Out := done (reqOperational a lost s)

/-- SERVICE. -/
def reqService (a : Agent) (lost : Bool) (s : State) : State :=
  modeRequest a 3 1 lost (s.mode = 5 || s.mode = 6) s.energising false (setMode 7 0 0) s

/-- `MODE_REQ_SERVICE`. -/
def execModeReqService (a : Agent) (lost : Bool) (s : State) : Out := done (reqService a lost s)

/-- Steps 1 to 4 of R85: SERVICE with SHUT, the ramps, the legal display and the tag's snapshot. -/
def shutDownSteps (s : State) : State :=
  let s := (setMode 7 0 0 s).setB Reg.MODE.STATUS.SHUT true
  tagSnapshot (bdyAll (forEach 16 (fun n s => outRamp n 10 s) s))

/-- SHUTDOWN. The PHY is silent in steps 5 and 6 (R340). -/
def reqShutdown (a : Agent) (lost : Bool) (s : State) : State :=
  modeRequest a 4 1 lost (decide (5 ≤ s.mode ∧ s.mode ≤ 7)) false false
    (fun s =>
      if s.bit Reg.MODE.STATUS.SHUT then s
      else
        let s := bbnSilence (shutDownSteps s)
        { s with sys := { s.sys with shutStep := 4 } }) s

/-- `MODE_REQ_SHUTDOWN`. -/
def execModeReqShutdown (a : Agent) (lost : Bool) (s : State) : Out := done (reqShutdown a lost s)

/-- WAKE. -/
def reqWake (a : Agent) (lost : Bool) (f : StartFacts) (s : State) : State :=
  modeRequest a 5 1 lost (s.mode = 7 && s.bit Reg.MODE.STATUS.PARKED) false false (enterLoading Reg.PWR.CAUSE.WAKE 0 f) s

/-- `MODE_REQ_WAKE`. -/
def execModeReqWake (a : Agent) (lost : Bool) (facts : StartFacts) (s : State) : Out := done (reqWake a lost facts s)

/-- The dies of the mask `cool` have fallen below 120 °C: their causes are gone (R563). -/
def diesCool (cool : Nat) (s : State) : State :=
  { s with flt := { s.flt with causes := s.flt.causes.filter fun x =>
      !((x.1 = 0x4206 || x.1 = 0x8207) && Nat.testBit cool (x.2 / 65536)) } }

/-- Whether the cause of a fault of an open Major entry is present (R494). -/
def State.majorCause (s : State) : Bool := s.flt.table.any fun e => 2 ≤ e.cls && s.entryCause e

/-- The mode after ACK (R63). -/
def ackTo (s : State) : State :=
  let b := s.sys.baseMode
  if b = 2 then restartTests 0 s
  else if b = 5 || b = 6 then
    if 1 ≤ s.lc && s.lc ≤ 3 && s.commissioned then tamperSuspend (setMode s.opMode 0 0 s) else setMode 4 0 0 s
  else setMode b 0 0 s

/-- ACK: the Major entries close (R493), and the base mode of R63 gives the mode. -/
def reqAck (a : Agent) (lost : Bool) (cool : Nat) (s : State) : State :=
  let s := if s.running then diesCool cool s else s
  modeRequest a 6 1 lost (s.mode = 10) false s.majorCause
    (fun s => ackTo (warmStop (closeWhere (fun e => 2 ≤ e.cls) 2 s))) s

/-- `MODE_REQ_ACK`. -/
def execModeReqAck (a : Agent) (lost : Bool) (cool : Fin 4) (s : State) : Out := done (reqAck a lost cool s)

/-- RELOAD. -/
def reqReload (a : Agent) (lost : Bool) (f : StartFacts) (s : State) : State :=
  modeRequest a 7 2 lost (s.mode = 1) false false (enterLoading Reg.PWR.CAUSE.RELOAD 0 f) s

/-- `MODE_REQ_RELOAD`. -/
def execModeReqReload (a : Agent) (lost : Bool) (facts : StartFacts) (s : State) : Out := done (reqReload a lost facts s)

/-! ### Warm-through (R62, R81, R82) -/

/-- REMAIN_MS at a start of the timer or an entry into WARM_THROUGH; its run down to 0 is a free value (log entry 7). -/
def warmShow (s : State) : State :=
  s.wr Reg.MODE.WARM.REMAIN_MS
    (if s.mode = 8 && s.sys.warmMax = 0 then s.rd Reg.MODE.WARM.WARM_MAX * 100 else 0)

/-- An application-cluster reset. While PARKED the cluster is held in reset (R85). -/
def appReset (s : State) : State :=
  if !s.running || s.bit Reg.MODE.STATUS.PARKED then s
  else
    let s := (s.inc Reg.MODE.WARM.APP_RESETS).setB Reg.MODE.STATUS.APP_DOWN true
    let start := fun (back : Nat) (s : State) =>
      { s with sys := { s.sys with warmRun := true, warmMax := 0, warmLost := false, warmReturn := back } }
    let m := s.mode
    if 4 ≤ m && m ≤ 7 then warmShow (setMode 8 6 0 (start m s))
    else if m = 9 && !s.sys.warmRun && decide (4 ≤ s.sys.rideReturn ∧ s.sys.rideReturn ≤ 7) then start s.sys.rideReturn s
    else s

/-- `APP_CLUSTER_RESET`. -/
def execAppClusterReset (s : State) : Out := done (appReset s)

/-- The timer's reading of WARM_MAX takes effect in WARM_THROUGH: every energising carrel is suspended (R82). -/
def warmMaxActs (s : State) : State :=
  let s := warmShow { s with sys := { s.sys with warmMax := 2 } }
  raise 0x4305 0 (suspendAll 9 s)

/-- The timer reaches WARM_MAX. -/
def warmMaxReached (s : State) : State :=
  if !(s.running && s.sys.warmRun && s.sys.warmMax = 0) then s
  else if s.mode = 8 then warmMaxActs s
  else if s.mode = 9 then { s with sys := { s.sys with warmMax := 1 } }
  else s

/-- `WARM_MAX_EXPIRED`. -/
def execWarmMaxExpired (s : State) : Out := done (warmMaxReached s)

/-- 60 s without a ready runtime: MODE_APP_LOST, whose MODE record names the timer as its trigger (R509). -/
def appLost (s : State) : State :=
  let s := collect 0x8304 0 0 false (setCause 0x8304 0 true s)
  (reactTo 0x8304 2 (outputsSafe (setMode 10 4 0x8304 s))).drainAt256

/-- 60 s have passed since the warm-through timer started. -/
def warmTimeout (s : State) : State :=
  if !(s.running && s.sys.warmRun) then s
  else if s.mode = 8 then appLost s
  else if s.mode = 9 then { s with sys := { s.sys with warmLost := true } }
  else s

/-- `WARM_THROUGH_TIMEOUT`. -/
def execWarmThroughTimeout (s : State) : Out := done (warmTimeout s)

/-! ### The power-fail warning, its flush, and ride-through (R84, R158 to R162) -/

/-- PF_SRC of the SYSTEM section: bit 0 PF_N, bit 1 VAUX; both without the section (R73). -/
def State.pfSrc (s : State) : Nat := if (s.sec 1).isEmpty then 3 else s.cfg 1 1 1

/-- Tests and slices stop (R60, R84). -/
def testsStop (s : State) : State :=
  runShow (s.mapBist fun b => { b with lane0 := none, lane1 := none, todo := [], sliceDue := false })

/-- A shut-down sequence that has not reached step 6 ends without a test credit (R86). -/
def shutEnds (s : State) : State := if s.sys.shutStep < 6 then { s with sys := { s.sys with shutStep := 0 } } else s

/-- PF_N low or VAUX below its threshold, `now` 1/32,768 s after the last second edge: a warning when the source is
enabled. -/
def pfWarning (pfLow vauxLow : Bool) (now nowMs : Nat) (s : State) : State :=
  if !s.running then s
  else
    let s := if pfLow then s.setB Reg.PWR.STATUS.PF_PIN false else s
    let s := if vauxLow then s.setB Reg.PWR.STATUS.VAUX_OK false else s
    let taken := (pfLow && s.pfSrc % 2 = 1) || (vauxLow && s.pfSrc / 2 % 2 = 1)
    if !taken || s.bit Reg.MODE.STATUS.PF then s
    else
      let stamp := s.readingAt now * 10
      let s := (s.setB Reg.MODE.STATUS.PF true).inc Reg.PWR.PF_STAT.COUNT
      let s := { s with tmp := { s.tmp with pfStamp := some stamp }, sys := { s.sys with flushing := true } }
      let s := shutEnds (testsStop (pqCloseAll nowMs s))
      let m := s.mode
      let s := if 2 ≤ m && m ≤ 8 then
          (setMode 9 2 0 { s with sys := { s.sys with rideReturn := m } }).wr Reg.MODE.WARM.REMAIN_MS 0
        else s
      s.startDrain

/-- `POWER_FAIL_WARNING`. -/
def execPowerFailWarning (pfLow vauxLow : Bool) (now : Fin 32768) (nowMs : Nat) (s : State) : Out :=
  done (pfWarning pfLow vauxLow now nowMs s)

/-- The running quantum closes as a partial one, is booked, and the flush folio waits for its commit word; a partial
quantum with no samples is not booked (R161). -/
def partialClose (dft : List MeterDft) (h : HarmWindow) (s : State) : State :=
  let s := if s.nq = 0 then s
    else
      let s := bookQuantum true s.reading (closeQuantum true dft h s)
      { s with sys := { s.sys with splitQ := true } }
  persist true s

/-- `PARTIAL_QUANTUM_CLOSE`: once in a flush. -/
def execPartialQuantumClose (dft : List MeterDft) (harm : HarmWindow) (s : State) : Out :=
  done (if s.running && s.sys.flushing && s.bit Reg.MET.STATUS.RUN && !s.per.waiting.any (fun x => x.1.flush) then
      partialClose dft harm s
    else s)

/-- Every waiting folio is committed, oldest first; that of a flush sets the flush marker. -/
def commitAll (s : State) : State :=
  s.per.waiting.foldl (fun s x => folioCommit1 x.1 s) { s with per := { s.per with waiting := [] } }

/-- `FLUSH_COMPLETE` (R159, R454): `us` is the duration. -/
def flushComplete (us : Nat) (s : State) : State :=
  if !(s.running && s.sys.flushing) then s
  else
    let s := drainEnds (commitAll s)
    let s := { s with sys := { s.sys with flushing := false } }.wr Reg.PWR.PF_STAT.LAST_US (min 65535 us)
    tagSnapshot s

/-- `FLUSH_COMPLETE`. -/
def execFlushComplete (us : Nat) (s : State) : Out := done (flushComplete us s)

/-- WARM_THROUGH is entered from RIDE_THROUGH with the time that remains (R62). -/
def warmResume (s : State) : State :=
  let s := warmShow (setMode 8 2 0 s)
  let s := if s.sys.warmMax = 1 then warmMaxActs s else s
  if s.sys.warmLost then appLost s else s

/-- Every enabled source has been clear for 20 ms. -/
def rideEnd (s : State) : State :=
  if !(s.running && s.bit Reg.MODE.STATUS.PF) then s
  else
    let s := s.setB Reg.MODE.STATUS.PF false
    let s := if s.pfSrc % 2 = 1 then s.setB Reg.PWR.STATUS.PF_PIN true else s
    let s := if s.pfSrc / 2 % 2 = 1 then s.setB Reg.PWR.STATUS.VAUX_OK true else s
    if s.mode ≠ 9 then s
    else if s.sys.rideReturn = 2 then restartTests 2 s
    else if s.sys.warmRun then warmResume s
    else modeBack (if s.sys.rideReturn = 8 then s.sys.warmReturn else s.sys.rideReturn) 2 s

/-- `RIDE_THROUGH_END`. -/
def execRideThroughEnd (s : State) : Out := done (rideEnd s)

/-- `CURATOR_RESET` (R83, R353). -/
def execCuratorReset (s : State) : Out := done (if s.running then raise 0xB40E 0 (curatorDrops s) else s)

/-! ### Controlled shut-down (R85, R86, R523, R78) -/

/-- One group of the shut-down test. -/
def shutGroup (acc : State × Bool) (x : Nat × BistResult) : State × Bool :=
  let (s, used, left) := repairAll x.2.fails acc.1
  let ok := x.2.misr = x.2.expected && x.2.mbistOk
  (bistRecord 2 x.1 (bistVerdict ok used left) used x.2 s, acc.2 && ok && left.isEmpty)

/-- The test credit is written (R78). -/
def creditWrite (s : State) : State :=
  let c : Credit := ⟨s.rd Reg.PWR.OPSEC.SECONDS, colophonHash (s.bank s.active).region, s.lc, false, false⟩
  { s with cat := { s.cat with credit := some c } }

/-- The destructive test has ended: `results` are those of groups 2, 3, 0 and 1. A failed test leaves no repairs. -/
def shutTested (results : List BistResult) (s : State) : State :=
  if !(s.running && (s.mode = 7 || s.mode = 10) && s.sys.shutStep = 4) then s
  else
    let spares := s.bist.spares
    let repair := s.word Reg.BIST.REPAIR.SOFT.addr
    let s := secretsClear s
    let (s, ok) := (([2, 3, 0, 1] : List Nat).zip results).foldl shutGroup (s, decide (4 ≤ results.length))
    let s := { s with sys := { s.sys with shutStep := 6 }, key := { s.key with locked := s.bist.scan } }
    let s := s.setB Reg.BIST.STATUS.SHUT_PASS ok
    if ok then creditWrite s
    else raise 0x4A05 0 ((s.mapBist fun b => { b with spares := spares }).setWord Reg.BIST.REPAIR.SOFT.addr repair)

/-- `SHUTDOWN_TEST_DONE`. -/
def execShutdownTestDone (results : List BistResult) (s : State) : Out := done (shutTested results s)

/-- Step 7 of R85. -/
def shutPark (s : State) : State :=
  if !(s.running && (s.mode = 7 || s.mode = 10) && s.sys.shutStep = 6) then s
  else
    let s := (s.setB Reg.MODE.STATUS.PARKED true).setB Reg.MODE.STATUS.APP_DOWN true
    let s := { s with sys := { s.sys with shutStep := 7 } }
    if s.role = 0 then s else bbnListen s

/-- `SHUTDOWN_PARK`. -/
def execShutdownPark (s : State) : Out := done (shutPark s)

/-- `PARK_MAX_EXPIRED` (R86). -/
def execParkMaxExpired (facts : StartFacts) (s : State) : Out :=
  done (if s.running && s.mode = 7 && s.bit Reg.MODE.STATUS.PARKED then enterLoading Reg.PWR.CAUSE.WAKE 4 facts s else s)

/-! ### The life-cycle request (R462, R464) -/

/-- A request accepted in LOADING is carried out at once, and LOADING is entered again. -/
def lcRequestAll (a : Agent) (target : Nat) (f : StartFacts) (s : State) : State :=
  let s := lcRequest a target s
  if s.running && s.mode = 1 && s.rd Reg.KEY.STATUS.LC_PEND ≠ 15 then enterLoading Reg.PWR.CAUSE.RELOAD 0 f s else s

/-- `LC_REQUEST`. -/
def execLcRequest (a : Agent) (target : Fin 16) (facts : StartFacts) (s : State) : Out :=
  done (lcRequestAll a target facts s)

/-! ### The activation of an update (R486, R487) -/

/-- Checks 1, 7, 11 and 12 of R481 and the mode, against the state at the instant. -/
def State.activationOk (s : State) : Bool :=
  let c := (s.bank s.idle).region
  !s.bit Reg.UPD.STATUS.TRIAL && updCheck s c true true 7 && updCheck s c true true 11 && updCheck s c true true 12 &&
    decide (4 ≤ s.mode ∧ s.mode ≤ 7)

/-- VERSION of the part of a kind; 0 when the bank holds none. -/
def partVersion (b : Bank) (kind : Nat) : Nat := ((b.parts.find? fun p => p.kind = kind).map (·.version)).getD 0

/-- Whether two banks differ in the part of a kind. -/
def partChanges (a b : Bank) (kind : Nat) : Bool := partHash a.parts kind ≠ partHash b.parts kind

/-- The flip (R487, R488), with the FIRMWARE record; a change of CUR invalidates the commissioning record. -/
def bankFlip (s : State) : State :=
  let old := s.bank s.active
  let new := s.bank s.idle
  let p := payloadOf [(0, leAt old.region 0x10 4), (4, leAt new.region 0x10 4), (8, partVersion old 4),
    (0xC, partVersion new 4), (0x10, leValue (beBytes 16 (colophonHash new.region / 2 ^ 256)))]
  let s := s.setBank s.idle { new with
    st := 2, gen := (old.gen + 1) % 2 ^ 32, cyc := s.rd Reg.PWR.CYCLES.COUNT % 2 ^ 28, armed := none }
  let s := if partChanges old new 4 then legalRecord 0x09 p s else s.record 0x09 p false
  if partChanges old new 3 then { s with cat := { s.cat with commission := none } } else s

/-- The activation (R487), `now` 1/32,768 s after the last second edge. -/
def activate (f : StartFacts) (dft : List MeterDft) (h : HarmWindow) (now : Nat) (s : State) : State :=
  let s := shutDownSteps (updEnter 5 s)
  let s := if s.bit Reg.MET.STATUS.RUN then commitAll (partialClose dft h s) else s
  let s := { s with per := { s.per with planned := some (s.readingAt now * 10) } }
  enterLoading Reg.PWR.CAUSE.WAKE 0 f ((bankFlip s).setB Reg.MODE.STATUS.PARKED true)

/-- The binding instant of an activation. Under POLICY 2 a vote that no longer stands activates nothing (R348). -/
def activation (f : StartFacts) (dft : List MeterDft) (h : HarmWindow) (now : Nat) (s : State) : State :=
  if !s.running || s.rd Reg.UPD.STATUS.STATE ≠ 4 then s
  else if s.rd Reg.UPD.STATUS.POLICY = 2 && !s.voteGood then s
  else if !s.activationOk then
    let s := freeOwner 3 (updEnter 3 (s.setBank s.idle { s.bank s.idle with armed := none }))
    raise 0x4D05 0 (s.wr Reg.UPD.RESULT.CHECK 13)
  else activate f dft h now s

/-- `UPD_ACTIVATION`. -/
def execUpdActivation (facts : StartFacts) (dft : List MeterDft) (harm : HarmWindow) (now : Fin 32768) (s : State) : Out :=
  done (activation facts dft harm now s)

/-! ### Junctions and supply monitors (R560, R563) -/

/-- The DETAIL of a junction fault. -/
def tjDetail (die : Nat) (temp : Int) : Nat := die * 65536 + ofInt 16 temp

/-- `PWR_TJ_HIGH`: `temp` in 0.1 °C. -/
def execPwrTjHigh (die : Fin 2) (temp : Int) (s : State) : Out :=
  done (if s.running then raiseCause 0x4206 (tjDetail die temp) s else s)

/-- `PWR_TJ_CRIT`. -/
def execPwrTjCrit (die : Fin 2) (temp : Int) (s : State) : Out :=
  done (if s.running then raiseCause 0x8207 (tjDetail die temp) s else s)

/-- A supply monitor changes. -/
def monitorChange (k : Nat) (ok : Bool) (s : State) : State :=
  if s.sys.unpowered then s
  else
    let s := s.setB (monitorBit k) ok
    if !s.running || s.mode < 3 || k = 3 then (if s.running && k = 2 then dpyJudge s else s)
    else
      let s := monitorJudge k s
      if k = 2 then dpyJudge s else s

/-- `SUPPLY_MONITOR_CHANGE`: 0 VCPP, 1 VCPN, 2 VDISP, 3 VBAT. -/
def execSupplyMonitorChange (monitor : Fin 4) (ok : Bool) (s : State) : Out := done (monitorChange monitor ok s)

end Sys2Proof.Machine
end

