-- ==== Sys2Proof/Machine/HostPort.lean ====
section
/-!
DEFINITION. The host port beside its transactions (chapter 19): sessions, the interrupt pin, bulk transfers over the
reading room, and the access ports of the queues with the annex.
-/
namespace Sys2Proof.Machine

/-- A refused access is reported in the host port status (R7, R539). -/
def accessError (s : State) : State := (s.inc Reg.HP.STATUS.ACC_ERRS).setB Reg.HP.STATUS.ACC_STK true

/-- Whether the mode accepts writes of HP.AUTH, HP.RESP and HP.DESC (R57). -/
def State.hpWrites (s : State) : Bool := s.modeWrites || (s.running && s.mode = 1)

/-! ### Sessions (R533 to R536) -/

/-- A change of the host port's hidden state. -/
def State.mapHp (s : State) (f : HpSt → HpSt) : State := { s with hp := f s.hp }

/-- Word `k` of a number of 16 bytes, byte 4k highest. -/
def wordOf16 (v k : Nat) : Nat := v / 2 ^ (32 * (3 - k)) % 2 ^ 32

/-- HP.AUTH.CHAL: 16 bytes from the DRBG become the challenge in force (R534); ignored during a lockout (R536). -/
def authChal (s : State) : State :=
  if !s.hpWrites || s.bit Reg.HP.STATUS.LOCKED then s
  else
    let (v, s) := s.draw 128
    forEach 4 (fun k s => s.wr (Reg.HP.CHAL.BYTES k) (wordOf16 v k))
      (s.mapHp fun h => { h with challenge := some (v, s.rd Reg.RTC.TICK.SECONDS) })

/-- `AUTH_CHAL`. -/
def execAuthChal (s : State) : Out := done (authChal s)

/-- The slot whose key unlocks a level; 0xFF when there is none (R533, R535). -/
def State.levelSlot (s : State) (lvl : Nat) : Nat :=
  if lvl = 1 then s.cat.operSlot else if lvl = 2 then s.cat.utilSlot else 3

/-- The response in HP.RESP as one number of 16 bytes. -/
def State.response (s : State) : Nat :=
  (List.range 4).foldl (fun a k => a * 2 ^ 32 + s.rd (Reg.HP.RESP.BYTES k)) 0

/-- The response that unlocks a level under a challenge: the first 16 bytes of the HMAC (R534). -/
def State.wantedResponse (s : State) (lvl chal : Nat) : Nat :=
  s.slotMac (s.levelSlot lvl) (beBytes 16 chal ++ [BitVec.ofNat 8 lvl] ++ s.unitBytes ++ ascii "HPS1") / 2 ^ 128

/-- Whether a challenge drawn at a TICK is still valid: 10 s, which TICK shows to the second, so that it is open in the
tenth (R534). -/
def stillValid (now drawn free : Nat) : Bool :=
  if now < drawn + 10 then true else if now = drawn + 10 then free % 2 = 1 else false

/-- Whether GO grants a level, with the state that has used a free value (R534). -/
def authGrants (lvl : Nat) (s : State) : Bool × State :=
  if s.lc = 0 then (lvl = 3, s)
  else match s.hp.challenge with
    | none => (false, s)
    | some (v, drawn) =>
      let (x, s) := s.fresh
      (stillValid (s.rd Reg.RTC.TICK.SECONDS) drawn x && s.levelSlot lvl < 64 && s.slotHas (s.levelSlot lvl) 1 &&
        !s.key.locked && s.response = s.wantedResponse lvl v, s)

/-- A refused response is counted; the third starts a lockout (R536). -/
def authRefused (s : State) : State :=
  let s := s.wr Reg.HP.STATUS.FAILS (min 3 (s.rd Reg.HP.STATUS.FAILS + 1))
  if s.rd Reg.HP.STATUS.FAILS = 3 then raise 0x0501 0 (s.setB Reg.HP.STATUS.LOCKED true) else s

/-- HP.AUTH.GO with a level (R534, R536). -/
def authGo (lvl : Nat) (s : State) : State :=
  if !s.hpWrites || s.bit Reg.HP.STATUS.LOCKED then s
  else if lvl = 0 then s.wr Reg.HP.STATUS.LEVEL 0
  else
    let (ok, s) := authGrants lvl s
    let s := s.mapHp fun h => { h with challenge := none }
    if ok then (s.wr Reg.HP.STATUS.LEVEL lvl).wr Reg.HP.STATUS.FAILS 0 else authRefused s

/-- `AUTH_GO`. -/
def execAuthGo (lvl : Fin 4) (s : State) : Out := done (authGo lvl s)

/-- HP.AUTH.DROP: the session is Observer again (R536). -/
def authDrop (s : State) : State := if s.hpWrites then s.wr Reg.HP.STATUS.LEVEL 0 else s

/-- `AUTH_DROP`. -/
def execAuthDrop (s : State) : Out := done (authDrop s)

/-- `HP_LOCKOUT_END` (R536): FAILS stays, so that the next refusal starts a new lockout. -/
def execHpLockoutEnd (s : State) : Out :=
  done (if s.sys.unpowered then s else s.setB Reg.HP.STATUS.LOCKED false)

/-- `HP_SESSION_IDLE` (R536). -/
def execHpSessionIdle (s : State) : Out := done (if s.running then s.wr Reg.HP.STATUS.LEVEL 0 else s)

/-- A write of the word HP.AUTH: DROP first, then GO with the challenge in force, then CHAL (R534). -/
def authWrite (w : Nat) (s : State) : State :=
  let s := if Nat.testBit w 29 then authDrop s else s
  let s := if Nat.testBit w 31 then authGo (w % 4) s else s
  if Nat.testBit w 30 then authChal s else s

/-! ### Bulk transfers (R538, R539) -/

/-- The level that a kind of transfer needs; `none` for a kind that R538 does not define. -/
def kindLevel (kind : Nat) : Option Nat :=
  if kind = 1 then some 0 else if kind = 2 then some 1 else if kind = 3 then some 2
  else if 0x80 ≤ kind then some 0 else none

/-- Descriptor `d` goes back to the host with its result and length (R539). -/
def handBack (d result length : Nat) (s : State) : State :=
  ((((s.wr (Reg.HP.DESC0.RESULT d) result).wr (Reg.HP.DESC3.LENGTH d) length).setB (Reg.HP.DESC0.OWN d) false).setFlag
    Reg.HP.IRQ_STATUS.SRC 0 true)

/-- Word 0 of descriptor `d` is written with OWN = 1 (R538, R539). -/
def descHandover (d kind tag : Nat) (s : State) : State :=
  if !s.hpWrites then s
  else if s.bit (Reg.HP.DESC0.OWN d) then accessError s
  else
    let s := (s.wr (Reg.HP.DESC0.KIND d) kind).wr (Reg.HP.DESC0.TAG d) tag
    if (kindLevel kind).any (· ≤ s.level .host) then
      (s.setB (Reg.HP.DESC0.OWN d) true).mapHp fun h => { h with handed := h.handed ++ [d] }
    else handBack d 1 0 s

/-- `DESC_HANDOVER`. -/
def execDescHandover (d : Fin 32) (kind tag : Fin 256) (s : State) : Out := done (descHandover d kind tag s)

/-- The pages of descriptor `d`. -/
def State.descPages (s : State) (d : Nat) : List Nat :=
  (List.range (s.rd (Reg.HP.DESC1.PAGES d) + 1)).map (· + s.rd (Reg.HP.DESC1.FIRST d))

/-- The bytes of the pages of descriptor `d`. -/
def State.descRoom (s : State) (d : Nat) : Nat := 4096 * (s.rd (Reg.HP.DESC1.PAGES d) + 1)

/-- Whether a KIND 3 write at an address is permitted in the mode (R538). -/
def State.ospiWrites (s : State) (a : Nat) : Bool :=
  decide (4 ≤ s.mode ∧ s.mode ≤ 7) || (decide (0x800000 ≤ a) && s.mode = 1 && !s.sys.imgValid)

/-- Whether descriptor `d` names a range and a mode that its kind allows (R538). -/
def State.descRange (s : State) (d : Nat) : Bool :=
  let kind := s.rd (Reg.HP.DESC0.KIND d)
  let arg := s.rd (Reg.HP.DESC2.ARG d)
  let len := s.rd (Reg.HP.DESC3.LENGTH d)
  decide (s.rd (Reg.HP.DESC1.FIRST d) + s.rd (Reg.HP.DESC1.PAGES d) ≤ 255) &&
    (if kind = 1 then decide (arg ≤ 9215)
     else if kind = 2 then decide (arg + s.descRoom d ≤ 2 ^ 32)
     else if kind = 3 then decide (len ≤ s.descRoom d) && decide (arg + len ≤ 2 ^ 32) && s.ospiWrites arg
     else true)

/-- Whether the pages of descriptor `d` are free of other A16-owned descriptors and of retired pages (R539). -/
def State.descFree (s : State) (d : Nat) : Bool :=
  let mine := s.descPages d
  !mine.any s.hp.retiredPages.contains &&
    !(s.hp.active.toList ++ s.hp.handed).any fun e => e ≠ d && (s.descPages e).any mine.contains

/-- The A16 takes the next descriptor in the order of hand-over (R539). -/
def descStart (s : State) : State :=
  if !s.running || s.hp.active.isSome then s
  else match s.hp.handed with
    | [] => s
    | d :: r =>
      if !s.descRange d then handBack d 2 0 (s.mapHp fun h => { h with handed := r })
      else if !s.descFree d then handBack d 3 0 (s.mapHp fun h => { h with handed := r })
      else s.mapHp fun h => { h with handed := r, active := some d }

/-- `DESC_TRANSFER_START`. -/
def execDescTransferStart (s : State) : Out := done (descStart s)

/-- The page byte `off` of descriptor `d` has this address in the reading room. -/
def State.descAddr (s : State) (d off : Nat) : Nat := 4096 * s.rd (Reg.HP.DESC1.FIRST d) + off

/-- The number of load-profile records from index `from_` up to the head (R195, R538). -/
def State.profileLeft (s : State) (from_ : Nat) : Nat :=
  let n := (s.bil.head + 9216 - from_) % 9216
  if n = 0 && s.bil.count = 9216 then 9216 else n

/-- The bytes of `n` load-profile records from an index, in ring order. -/
def State.profileBytes (s : State) (from_ n : Nat) : List Byte :=
  (List.range n).flatMap fun i => leBytes 32 (mapGet (fun _ => 0) s.bil.profile ((from_ + i) % 9216))

/-- A byte of the octal SPI memory: what the A16 has written there, else what the memory answered. -/
def State.ospiByte (s : State) (a : Nat) (answered : Byte) : Byte := (mapGet (fun _ => none) s.hp.ospi a).getD answered

/-- `n` bytes written to the octal SPI memory; `none` for what a failed write has left. -/
def ospiPut (a : Nat) (l : List (Option Byte)) (m : SMap (Option Byte)) : SMap (Option Byte) :=
  l.zipIdx.foldl (fun m x => mapSet (fun _ => none) m (a + x.2) x.1) m

/-- The bytes a read answers; a byte missing from the answer is a free value. -/
def answerBytes (n : Nat) (bytes : List Byte) (s : State) : List Byte × State :=
  let (v, s) := s.fresh
  (bytes.take n ++ leBytes (n - bytes.length) v, s)

/-- The transfer of the active descriptor ends (R538, R539). -/
def descDone (r : OspiResult) (s : State) : State :=
  match s.hp.active with
  | none => s
  | some d =>
    let s := s.mapHp fun h => { h with active := none }
    let kind := s.rd (Reg.HP.DESC0.KIND d)
    let arg := s.rd (Reg.HP.DESC2.ARG d)
    let len := s.rd (Reg.HP.DESC3.LENGTH d)
    let room := fun (l : List Byte) (s : State) =>
      s.mapHp fun h => { h with rroom := writeBytes h.rroom (s.descAddr d 0) l }
    if kind = 1 then
      let n := min (s.profileLeft arg) (s.descRoom d / 32)
      handBack d 0 (32 * n) (room (s.profileBytes arg n) s)
    else match kind, r with
      | 2, .done bytes =>
        let (l, s) := answerBytes (s.descRoom d) bytes s
        handBack d 0 (s.descRoom d) (room (l.zipIdx.map fun x => s.ospiByte (arg + x.2) x.1) s)
      | 3, .done _ =>
        let l := (List.range len).map fun i => some (readByte s.hp.rroom (s.descAddr d i))
        handBack d 0 len (s.mapHp fun h => { h with ospi := ospiPut arg l h.ospi })
      | 3, .error =>
        let (v, s) := s.fresh
        handBack d 4 v (s.mapHp fun h => { h with ospi := ospiPut arg (List.replicate len none) h.ospi })
      | 2, .error => let (v, s) := s.fresh; handBack d 4 v s
      | _, _ => handBack d 0 len s

/-- `DESC_TRANSFER_DONE`. -/
def execDescTransferDone (r : OspiResult) (s : State) : Out := done (if s.running then descDone r s else s)

/-! ### Queue roles and access ports (R540, R546) -/

/-- Whether an agent has the role that "runtime or host" names, by Q[n].CTL.HOST. -/
def State.hostRole (s : State) (n : Nat) (a : Agent) : Bool :=
  if s.bit (Reg.Q.CTL.HOST n) then a = .host else a = .runtime

/-- Whether an agent is the consumer of queue `n` (R540). -/
def State.consumes (s : State) (a : Agent) (n : Nat) : Bool :=
  if [3, 4, 5, 6, 14, 16].contains n then s.hostRole n a
  else if n = 20 then a = .host
  else ([7, 10, 12, 17, 19].contains n || 21 ≤ n) && a = .runtime

/-- Whether an agent is the producer of queue `n` (R540). -/
def State.produces (s : State) (a : Agent) (n : Nat) : Bool :=
  if n = 13 then s.hostRole n a
  else if n = 19 then a = .host
  else ([8, 9, 11, 15, 18, 20].contains n || 21 ≤ n) && a = .runtime

/-- The access port of an agent. -/
def State.port (s : State) : Agent → Port
  | .host => s.hostPort
  | .runtime => s.rtPort

/-- The access port of an agent changed. -/
def State.mapPort (s : State) (a : Agent) (f : Port → Port) : State :=
  match a with
  | .host => { s with hostPort := f s.hostPort }
  | .runtime => { s with rtPort := f s.rtPort }

/-- Q.RESULT of an agent's port. -/
def portResult (a : Agent) (code : Nat) (s : State) : State := s.mapPort a fun p => { p with result := code }

/-- A port operation: privilege, a copy made invalid by a flush, the agent's role, then the operation (R544, R546). -/
def portOp (a : Agent) (role : State → Agent → Nat → Bool) (act : Nat → State → State) (s : State) : State :=
  if !s.modeWrites then s
  else if s.level a < 1 then portResult a 5 s
  else
    let p := s.port a
    if p.copyOf = some p.sel && p.invalid then
      portResult a 4 (s.mapPort a fun p => { p with copyOf := none, invalid := false })
    else if !role s a p.sel then portResult a 3 s
    else act p.sel s

/-- An item copied to Q.ITEM and Q.POISON (R546). -/
def portCopy (a : Agent) (n : Nat) (i : Item) (s : State) : State :=
  s.mapPort a fun p => { p with
    poison := i.poison
    copyOf := some n
    invalid := false
    item := (List.range (qWords n)).foldl (fun m w =>
      let x := i.words.getD w 0
      mapSet (fun _ => 0) (mapSet (fun _ => 0) m (2 * w) (x % 2 ^ 32)) (2 * w + 1) (x / 2 ^ 32 % 2 ^ 32)) p.item }

/-- PEEK. -/
def qPeek (a : Agent) (s : State) : State :=
  portOp a State.consumes (fun n s =>
    let q := (s.q n).ready
    match q.chain with
    | [] => portResult a 1 s
    | i :: _ => portResult a 0 (portCopy a n i (s.setQ n q))) s

/-- POP. -/
def qPop (a : Agent) (s : State) : State :=
  portOp a State.consumes (fun n s =>
    match takeHead n s with
    | none => portResult a 1 s
    | some (i, s) => portResult a 0 (portCopy a n i s)) s

/-- DISCARD. -/
def qDiscard (a : Agent) (s : State) : State :=
  portOp a State.consumes (fun n s =>
    let q := (s.q n).ready
    match q.chain with
    | [] => portResult a 1 s
    | _ :: _ => portResult a 0 (s.setQ n q.pop)) s

/-- Q.ITEM of a port as the words of one item of queue `n`. -/
def Port.words (p : Port) (n : Nat) : List Nat :=
  (List.range (qWords n)).map fun w => mapGet (fun _ => 0) p.item (2 * w) + mapGet (fun _ => 0) p.item (2 * w + 1) * 2 ^ 32

/-- PUSH; an item of Q[15] is a record of the runtime (R510). -/
def qPush (a : Agent) (s : State) : State :=
  portOp a State.produces (fun n s =>
    if s.qRefuses n then portResult a 2 s
    else
      let w := (s.port a).words n
      if n = 15 then
        portResult a 0 (runtimeRecord (w.getD 0 0 / 2 ^ 32 % 256) ((w.drop 2).flatMap (leBytes 8)) s)
      else portResult a 0 (s.qAccept n ⟨w, 0⟩)) s

/-- `PEEK` (R546). -/
def execQPeek (a : Agent) (s : State) : Out := done (qPeek a s)

/-- `POP` (R546). -/
def execQPop (a : Agent) (s : State) : Out := done (qPop a s)

/-- `PUSH` (R546). -/
def execQPush (a : Agent) (s : State) : Out := done (qPush a s)

/-- `DISCARD` (R546). -/
def execQDiscard (a : Agent) (s : State) : Out := done (qDiscard a s)

/-- Queue `n` is emptied (R544); head copies of it become invalid. -/
def flushQueue (n : Nat) (s : State) : State :=
  let mark := fun (p : Port) => if p.copyOf = some n then { p with invalid := true } else p
  (((s.setQ n Queue.empty).inc (Reg.Q.COUNTS.FLUSHES n)).mapPort .host mark).mapPort .runtime mark

/-- Q[n].CTL.FLUSH: the consumer, or a session at Utility level; ignored on Q[0] to Q[2] and Q[15] (R544). -/
def qFlush (a : Agent) (n : Nat) (s : State) : State :=
  gated a 1 (fun s =>
    if n < 3 || n = 15 then s
    else if s.consumes a n || (a = .host && 2 ≤ s.level a) then flushQueue n s
    else deny a s) s

/-- `Q_FLUSH`. -/
def execQFlush (a : Agent) (n : Fin 32) (s : State) : Out := done (qFlush a n s)

/-- W1C of WM_STK (R545). -/
def wmStkClear (a : Agent) (n : Nat) (s : State) : State := gated a 1 (fun s => s.setB (Reg.Q.STATUS.WM_STK n) false) s

/-- `WM_STK_CLEAR`. -/
def execWmStkClear (a : Agent) (n : Fin 32) (s : State) : Out := done (wmStkClear a n s)

/-! ### The annex (R541, R543) -/

/-- `ANNEX_SPILL`: the item in the tail register goes behind the items in the annex. -/
def execAnnexSpill (n : Fin 32) (s : State) : Out := done (if s.running then s.setQ n (s.q n).spill else s)

/-- The number of ones below bit `n`. -/
def ones (v n : Nat) : Nat := ((List.range n).filter fun k => Nat.testBit v k).length

/-- The oldest annex item takes stage 7; `bad` marks its words read with bad parity. -/
def refillWith (n bad : Nat) (s : State) : State :=
  let q := s.q n
  match q.annex with
  | [] => s
  | i :: r =>
    if q.chain.length < 8 then
      let b := bad % 2 ^ qWords n
      let s := s.setQ n { q with chain := q.chain ++ [{ i with poison := Nat.lor i.poison b }], annex := r }
      s.wr Reg.ANX.PARITY.COUNT (min 65535 (s.rd Reg.ANX.PARITY.COUNT + ones b 16))
    else s

/-- `ANNEX_REFILL`. -/
def execAnnexRefill (n : Fin 32) (bad : Fin 65536) (s : State) : Out := done (if s.running then refillWith n bad s else s)

/-- `ETH0_FRAME_RECEIVED` (R540): the descriptor's format is private to the runtime, so its words are free values; a
gated interface receives nothing (R35). -/
def execEth0FrameReceived (s : State) : Out :=
  done (if s.running && s.bit Reg.CLK.GATE.ETH then
      let (ws, s) := (List.range 4).foldl (fun (acc : List Nat × State) _ =>
        let (v, s) := acc.2.fresh; (acc.1 ++ [v % 2 ^ 64], s)) (([] : List Nat), s)
      hwPost 17 ws s
    else s)

/-! ### The interrupt pin (R537) -/

/-- Whether a queue with HOST = 1 has the host as its consumer and holds an item. -/
def State.hostItem (s : State) (n : Nat) : Bool :=
  s.bit (Reg.Q.CTL.HOST n) && s.consumes .host n && decide (0 < (s.q n).level)

/-- HP.IRQ_STATUS.LIVE. -/
def State.irqLive (s : State) : Nat :=
  b2n (s.bit Reg.FLT.STATUS.IRQ) +
    2 * b2n ((List.range 32).any fun n => s.bit (Reg.Q.CTL.HOST n) && s.bit (Reg.Q.STATUS.WM_STK n)) +
    4 * b2n ((List.range 32).any s.hostItem)

/-- Whether INT_N is driven low. -/
def State.intLow (s : State) : Bool :=
  s.running && Nat.land (s.irqLive + 8 * s.rd Reg.HP.IRQ_STATUS.SRC) (s.rd Reg.HP.IRQ_EN.EN) ≠ 0

end Sys2Proof.Machine
end

