-- ==== Sys2Proof/Machine/View.lean ====
section
/-!
DEFINITION. Reading: the fields that show hidden state, the reads that latch, and the host address map of R41 with the
carrel view, the reading room and the recorder's slot window.
-/
namespace Sys2Proof.Machine

/-- The fields that a read of an address shows from elsewhere than the register file, with their values. -/
abbrev Overlay := List (Fld × Nat)

/-- An overlay of an array of registers: empty where the address is none of them. -/
def overlayAt (f : Nat → Fld) (n a : Nat) (g : Nat → Overlay) : Overlay := (copyAt f n a).elim [] g

/-- A set of numbers below `n` as a mask. -/
def maskWhere (n : Nat) (p : Nat → Bool) : Nat := (List.range n).foldl (fun a k => a + if p k then 2 ^ k else 0) 0

/-! ### Blocks SYS to ID -/

/-- SYS, MODE and BND. -/
def overlaySystem (a : Nat) (s : State) : Overlay :=
  if a = Reg.SYS.UNIT_ID_LO.ID.addr then [(Reg.SYS.UNIT_ID_LO.ID, unitLo)]
  else if a = Reg.SYS.UNIT_ID_HI.ID.addr then [(Reg.SYS.UNIT_ID_HI.ID, unitHi)]
  else if a = Reg.MODE.CREDIT.VALID.addr then
    [(Reg.MODE.CREDIT.VALID, b2n s.creditValid),
     (Reg.MODE.CREDIT.REMAIN_S, if s.creditValid then
        (s.cat.credit.elim 0 fun c => c.opsec + 259200 - s.rd Reg.PWR.OPSEC.SECONDS) else 0)]
  else if a = Reg.MODE.WARM.REMAIN_MS.addr then
    [(Reg.MODE.WARM.REMAIN_MS, Config.freeValue s.free % (s.rd Reg.MODE.WARM.REMAIN_MS + 1))]
  else if a = Reg.BND.STATUS.FREE.addr then
    [(Reg.BND.STATUS.FREE, maskWhere 4 fun k => (s.bset k).st = 0),
     (Reg.BND.STATUS.PENDING, maskWhere 4 fun k => (s.bset k).st = 2)]
  else
    overlayAt Reg.BND.SET.STATE.STATE 4 a (fun k =>
      let b := s.bset k
      [(Reg.BND.SET.STATE.STATE k, b.st), (Reg.BND.SET.STATE.KIND k, b.kind), (Reg.BND.SET.STATE.OWNER k, b.owner),
       (Reg.BND.SET.STATE.COUNT k, b.staged.length)]) ++
    overlayAt Reg.BND.SET.ARG.VALUE 4 a (fun k => [(Reg.BND.SET.ARG.VALUE k, (s.bset k).arg * 16 + (s.bset k).arg2)]) ++
    overlayAt Reg.BND.SET.TIME_LO.VALUE 4 a (fun k => [(Reg.BND.SET.TIME_LO.VALUE k, (s.bset k).time)]) ++
    overlayAt Reg.BND.SET.TIME_HI.VALUE 4 a (fun k => [(Reg.BND.SET.TIME_HI.VALUE k, (s.bset k).time / 2 ^ 32)])

/-- HP, Q and ANX; the registers of R546 are those of the reading agent's port. -/
def overlayHost (ag : Agent) (a : Nat) (s : State) : Overlay :=
  let p := s.port ag
  if a = Reg.HP.IRQ_STATUS.LIVE.addr then [(Reg.HP.IRQ_STATUS.LIVE, s.irqLive)]
  else if a = Reg.Q.SEL.QUEUE.addr then [(Reg.Q.SEL.QUEUE, p.sel)]
  else if a = Reg.Q.RESULT.CODE.addr then [(Reg.Q.RESULT.CODE, p.result)]
  else if a = Reg.Q.POISON.TAG.addr then [(Reg.Q.POISON.TAG, p.poison)]
  else if a = Reg.ANX.ACTIVE.SEG.addr then [(Reg.ANX.ACTIVE.SEG, maskWhere 32 fun n => !(s.q n).annex.isEmpty)]
  else
    overlayAt Reg.Q.ITEM.HALF 32 a (fun k => [(Reg.Q.ITEM.HALF k, mapGet (fun _ => 0) p.item k)]) ++
    overlayAt Reg.Q.STATUS.LEVEL 32 a (fun n =>
      let wm := s.rd (Reg.Q.WM.WM n)
      let lvl := (s.q n).level
      [(Reg.Q.STATUS.LEVEL n, lvl), (Reg.Q.STATUS.W n, qWords n), (Reg.Q.STATUS.SPILLED n, b2n !(s.q n).annex.isEmpty),
       (Reg.Q.STATUS.LIVE n, b2n (decide (wm ≠ 0 ∧ wm ≤ lvl)))])

/-- FLT, EVR, BIST and KEY. -/
def overlayRecords (a : Nat) (s : State) : Overlay :=
  let e := s.flt.table.find? fun x => x.idx = s.rd Reg.FLT.SEL.ENTRY
  let k := s.slot (s.rd Reg.KEY.SLOT_SEL.SLOT)
  if a = Reg.FLT.STATUS.TOP.addr then
    [(Reg.FLT.STATUS.TOP, s.flt.table.foldl (fun m x => max m x.cls) 0), (Reg.FLT.STATUS.ANY, b2n !s.flt.table.isEmpty),
     (Reg.FLT.STATUS.OPEN, s.flt.table.length)]
  else if a = Reg.FLT.ENTRY.VALID.addr then
    e.elim [] fun x => [(Reg.FLT.ENTRY.VALID, 1), (Reg.FLT.ENTRY.CAUSE, b2n (x.members.any s.causePresent)),
      (Reg.FLT.ENTRY.INJECTED, b2n x.injected), (Reg.FLT.ENTRY.CLASS, x.cls), (Reg.FLT.ENTRY.MERGED, x.merged),
      (Reg.FLT.ENTRY.CODE, x.code)]
  else if a = Reg.FLT.ENTRY_RNO.RNO.addr then e.elim [] fun x => [(Reg.FLT.ENTRY_RNO.RNO, x.rno)]
  else if a = Reg.EVR.STATUS.QUEUED.addr then [(Reg.EVR.STATUS.QUEUED, (s.q 15).level)]
  else if a = Reg.BIST.RET_ENTRY.VALID.addr then
    s.bist.map[s.rd Reg.BIST.RET_SEL.INDEX]?.elim [] fun x =>
      [(Reg.BIST.RET_ENTRY.VALID, 1), (Reg.BIST.RET_ENTRY.KIND, x.kind), (Reg.BIST.RET_ENTRY.GOOD, x.good),
       (Reg.BIST.RET_ENTRY.UNIT, x.unit)]
  else if a = Reg.KEY.STATUS.USED.addr then
    [(Reg.KEY.STATUS.USED, ((List.range 64).filter fun i => (s.slot i).kind ≠ 0).length)]
  else if a = Reg.KEY.SLOT_INFO.KIND.addr then
    [(Reg.KEY.SLOT_INFO.PERSIST, b2n k.persist), (Reg.KEY.SLOT_INFO.KIND, k.kind), (Reg.KEY.SLOT_INFO.ATTR, k.attr),
     (Reg.KEY.SLOT_INFO.COPY, k.copy), (Reg.KEY.SLOT_INFO.GEN, k.gen)]
  else if a = Reg.KEY.SLOT_KCV.KCV.addr then [(Reg.KEY.SLOT_KCV.KCV, k.kcv)]
  else []

/-- RTC, SLK, VCH and the outlets. -/
def overlayMeter (a : Nat) (s : State) : Overlay :=
  let now := s.rd Reg.PWR.OPSEC.SECONDS
  if a = Reg.RTC.STATUS.SYNCED.addr then [(Reg.RTC.STATUS.SYNCED, b2n s.synced)]
  else if a = Reg.VCH.STATUS.LEVEL.addr then
    [(Reg.VCH.STATUS.LOCK_S, s.crd.lockEnd.elim 0 (· - now)), (Reg.VCH.STATUS.LOCKOUT, b2n s.crd.lockEnd.isSome),
     (Reg.VCH.STATUS.FAILS, (s.crd.macFails.filter fun t => now < t + 3600).length),
     (Reg.VCH.STATUS.LEVEL, s.crd.fifo.length)]
  else if a = Reg.VCH.ISSUER_HWM.H.addr then
    let i := s.rd Reg.VCH.ISSUER_SEL.INDEX
    [(Reg.VCH.ISSUER_HWM.H, if i < s.crdCfg 0x39 1 then (s.windowHigh (s.crdCfg (0x80 + 16 * i) 4)).getD 0 else 0)]
  else
    overlayAt Reg.SLK.BIND_SER_LO.VALUE 16 a (fun l => [(Reg.SLK.BIND_SER_LO.VALUE l, s.inForce (0x300 + l) 0 4)]) ++
    overlayAt Reg.SLK.BIND_SER_HI.VALUE 16 a (fun l => [(Reg.SLK.BIND_SER_HI.VALUE l, s.inForce (0x300 + l) 4 4)]) ++
    overlayAt Reg.SLK.BIND_CRC.VALUE 16 a (fun l => [(Reg.SLK.BIND_CRC.VALUE l, s.inForce (0x300 + l) 8 4)]) ++
    overlayAt Reg.OUT.SUPV.NEUTRAL 16 a (fun n =>
      [(Reg.OUT.SUPV.NEUTRAL n, b2n (s.isAc n && (s.bit (Reg.MET.MQ.STATUS.NEUTRAL 16) ||
          s.bit (Reg.MET.MQ.STATUS.NEUTRAL n))))])

/-! ### Blocks CRL to LEGAL -/

/-- The number of carrels in a state. -/
def State.carrelsIn (s : State) (st : Nat) : Nat := ((List.range 256).filter fun c => (s.car c).st = st).length

/-- CRL. -/
def overlayCarrel (a : Nat) (s : State) : Overlay :=
  if a = Reg.CRL.STATUS.FREE.addr then
    [(Reg.CRL.STATUS.FREE, s.carrelsIn 0), (Reg.CRL.STATUS.CLOSED, s.carrelsIn 6),
     (Reg.CRL.STATUS.FEW, b2n (decide (s.carrelsIn 0 < s.rd Reg.CRL.CFG.LOW_WM)))]
  else
    overlayAt Reg.CRL.SLIP.BYTES 12 a (fun k =>
      [(Reg.CRL.SLIP.BYTES k, (s.car (s.rd Reg.CRL.SLIP_SEL.CARREL)).slip / 2 ^ (32 * k))]) ++
    overlayAt (fun k => ⟨0x30100 + 4 * k, 0, 4⟩) 32 a (fun k =>
      (List.range 8).map fun j => (⟨0x30100 + 4 * k, 4 * j, 4⟩, (s.car (8 * k + j)).st))

/-- VPL and BBN: the own MAC address of R292, and the selected neighbour. -/
def overlayLinks (a : Nat) (s : State) : Overlay :=
  let nb := s.rd Reg.BBN.NBR_SEL.NODE
  let l := mapGet (fun _ => BbnLink.init) s.bbn.links nb
  let known := s.bbn.links.any fun x => x.1 = nb
  if a = Reg.BBN.NBR_INFO.VALID.addr then
    if known then
      let down := s.bbn.downs.contains (4096 * nb + s.bbnNode)
      [(Reg.BBN.NBR_INFO.VALID, 1), (Reg.BBN.NBR_INFO.MAPS, l.maps.length),
       (Reg.BBN.NBR_INFO.COST, if down then 0xFFF else min 0xFFF (s.linkCost l)),
       (Reg.BBN.NBR_INFO.FER, l.f.floor.toNat), (Reg.BBN.NBR_INFO.RATE, min 255 (s.linkE l.maps).floor.toNat)]
    else []
  else if a = Reg.BBN.NBR_LINK.AGE.addr then
    if known then [(Reg.BBN.NBR_LINK.FRAMES, min 65535 l.frames), (Reg.BBN.NBR_LINK.AGE, min 65535 l.age)] else []
  else
    overlayAt Reg.VPL.MAC_LO.BYTES 16 a (fun n =>
      [(Reg.VPL.MAC_LO.BYTES n, unitLo % 2 ^ 24 * 256 + 0x40 + n)]) ++
    overlayAt Reg.VPL.MAC_HI.BYTES 16 a (fun n => [(Reg.VPL.MAC_HI.BYTES n, 0x600 + unitLo / 2 ^ 24)])

/-- The Keeper's mode: the forced and latched classes are seen before the mode it was told (R353). -/
def State.keeperMode (s : State) : Nat :=
  if s.bit Reg.SAF.STATUS.LATCHED then 11 else if s.bit Reg.SAF.STATUS.FORCE then 10 else s.saf.kpr.mode

/-- SAF. -/
def overlaySafety (a : Nat) (s : State) : Overlay :=
  let cur := s.saf.cur
  if a = Reg.SAF.STATUS.KMODE.addr then
    [(Reg.SAF.STATUS.KMODE, s.keeperMode), (Reg.SAF.STATUS.PMI_A, b2n cur.pmi), (Reg.SAF.STATUS.PMI_B, b2n s.saf.kpr.pmi),
     (Reg.SAF.STATUS.CONFIRMED, b2n s.confirmed)]
  else if a = Reg.SAF.RUN.RUN.addr then [(Reg.SAF.RUN.RUN, maskWhere 24 fun f => (cur.fnAt f).st = 2)]
  else if a = Reg.SAF.OUTPUTS.LSE_C.addr then [(Reg.SAF.OUTPUTS.LSE_K, s.saf.kpr.lse), (Reg.SAF.OUTPUTS.LSE_C, cur.lse)]
  else if a = Reg.SAF.SI_LO.LEVEL.addr then [(Reg.SAF.SI_LO.LEVEL, cur.filt)]
  else if a = Reg.SAF.SI_HI.LEVEL.addr then [(Reg.SAF.SI_HI.LEVEL, cur.filt / 2 ^ 32 % 2 ^ 16)]
  else if a = Reg.SAF.LINK.MEMBER.addr then
    [(Reg.SAF.LINK.SINGLE_MIN, (s.saf.singleS + 59) / 60), (Reg.SAF.LINK.ETH_UP, Config.freeValue s.free % 2),
     (Reg.SAF.LINK.MEMBER, b2n (!(s.sec 7).isEmpty && s.cfg 7 0x11 1 ≠ 0xFF))]
  else if a = Reg.SAF.REMOTE.RUN.addr then [(Reg.SAF.REMOTE.RUN, maskWhere 16 s.remRun)]
  else if a = Reg.SAF.HALVES.SINCE_H.addr then
    [(Reg.SAF.HALVES.SINCE_H, s.cat.halvesOpsec.elim 0xFFFFFF fun t =>
        min 0xFFFFFF ((s.rd Reg.PWR.OPSEC.SECONDS - t) / 3600))]
  else if a = Reg.SAF.CONFIRM.CRC.addr then [(Reg.SAF.CONFIRM.CRC, s.cat.commission.elim 0 (·.1))]
  else
    overlayAt Reg.SAF.FN.TYPE 24 a (fun f =>
      let x := cur.fnAt f
      let end_ := fun (i : Nat) =>
        b2n ((s.fnType f = 2 || s.fnType f = 3) && s.fnIn f i < 48 && Nat.testBit cur.filt (s.fnIn f i))
      [(Reg.SAF.FN.TYPE f, s.fnType f), (Reg.SAF.FN.STATE f, x.st), (Reg.SAF.FN.BOTH f, b2n x.both),
       (Reg.SAF.FN.PULSE f, b2n (s.fnInputBad f)), (Reg.SAF.FN.LOWERED f, end_ 2), (Reg.SAF.FN.RAISED f, end_ 3),
       (Reg.SAF.FN.DCOUNT f, min 4095 (max x.cnt0 x.cnt1))])

/-- LSW, NFC and TAG. -/
def overlayPeripheral (a : Nat) (s : State) : Overlay :=
  let card := s.nfc.cards[s.rd Reg.NFC.LIST.SEL]?
  if a = Reg.LSW.STATUS.ENV_FB.addr then
    [(Reg.LSW.STATUS.ENV_FB, b2n ((List.range 8).any fun h => s.bit (Reg.LSW.HEAT.STATE.FALLBACK h)))]
  else if a = Reg.LSW.LATCHED_LO.LATCHED.addr then
    [(Reg.LSW.LATCHED_LO.LATCHED, maskWhere 32 fun c => s.bit (Reg.LSW.CH.STATUS.LATCHED c))]
  else if a = Reg.LSW.LATCHED_HI.LATCHED.addr then
    [(Reg.LSW.LATCHED_HI.LATCHED, maskWhere 8 fun c => s.bit (Reg.LSW.CH.STATUS.LATCHED (32 + c)))]
  else if a = Reg.NFC.LIST.SEL.addr then
    [(Reg.NFC.LIST.TYPE_B, b2n (card.elim false (·.1))), (Reg.NFC.LIST.LEN, card.elim 0 (·.2.length))]
  else if a = Reg.TAG.UID_LO.BYTES.addr then [(Reg.TAG.UID_LO.BYTES, beValue (tagUid.drop 3))]
  else if a = Reg.TAG.UID_HI.BYTES.addr then [(Reg.TAG.UID_HI.BYTES, beValue (tagUid.take 3))]
  else
    overlayAt Reg.NFC.LIST_UID.BYTES 3 a (fun k => [(Reg.NFC.LIST_UID.BYTES k, leAt (card.elim [] (·.2)) (4 * k) 4)]) ++
    overlayAt Reg.LSW.CH.STATUS.FORCED 40 a (fun c => [(Reg.LSW.CH.STATUS.FORCED c, b2n (s.hsForced c))]) ++
    overlayAt Reg.LSW.CH.MEAS.I_MA 40 a (fun c => [(Reg.LSW.CH.MEAS.I_MA c, Config.freeValue s.free)])

/-! ### Reads of the register region -/

/-- The overlay of an address, by register block (R41). -/
def overlay (ag : Agent) (a : Nat) (s : State) : Overlay :=
  if a < 0x5000 then overlaySystem a s
  else if a < 0x8000 then overlayHost ag a s
  else if a < 0xE000 then overlayRecords a s
  else if a < 0x30000 then overlayMeter a s
  else if a < 0x31000 then overlayCarrel a s
  else if a < 0x34000 then overlayLinks a s
  else if a < 0x35000 then overlaySafety a s
  else overlayPeripheral a s

/-- What a read latches before its word is taken: RTC.NOW_SEC, CRD.SITE_LO, CRD.OWED_LO, BBN.NTIME_LO and PMC[k].CNT_LO.
The moment within the second, and a running counter, are free values. -/
def latch (ag : Agent) (a : Nat) (s : State) : State :=
  if a = Reg.RTC.NOW_SEC.SEC.addr then let (v, s) := s.fresh; nowRead (v % 32768) s
  else if a = Reg.CRD.SITE_LO.VALUE.addr then balanceRead false s
  else if a = Reg.CRD.OWED_LO.VALUE.addr then balanceRead true s
  else if a = Reg.BBN.NTIME_LO.NS.addr then
    let (v, s) := s.fresh
    let t := if s.role = 4 then s.rtcNs (v % 32768) else s.netTime (s.bbn.clk + v)
    if s.bit Reg.BBN.STATUS.SYNC then (s.wr Reg.BBN.NTIME_LO.NS t).wr Reg.BBN.NTIME_HI.NS (t / 2 ^ 32) else s
  else match copyAt Reg.PMC.CNT_LO.COUNT 48 a with
    | none => s
    | some k => let (v, s) := s.fresh; let (t, s) := s.fresh; pmcRead ag k (v % 2 ^ 48) t s

/-- The bits of a register that read as 0: its write-only fields (R9). -/
def woMask (a : Nat) : Nat :=
  match findReg a with
  | none => 0
  | some d => d.fields.foldl (fun m (f : FldDesc) =>
      if f.acc = .wo then Nat.lor m ((2 ^ (f.hi - f.lo + 1) - 1) * 2 ^ f.lo) else m) 0

/-- Whether an agent may not read a register: the counters of R528. -/
def State.readDenied (s : State) (ag : Agent) (a : Nat) : Bool := decide (0xB100 ≤ a ∧ a < 0xB400) && !s.pmcReads ag

/-- A word of the register region as an agent reads it, after `latch`: the calendars of TAR + 0x800, else a register. -/
def State.regWord (s : State) (ag : Agent) (a : Nat) : Nat :=
  if 0x16800 ≤ a ∧ a < 0x17000 then leAt s.bil.active (a - 0x16800) 4
  else if 0x17000 ≤ a ∧ a < 0x17800 then leValue (readBytes s.tar.passive (a - 0x17000) 4)
  else if s.readDenied ag a then 0
  else
    let w := ((overlay ag a s).foldl (fun (t : State) x => t.wr x.1 x.2) s).word a
    w - Nat.land w (woMask a)

/-! ### The recorder's slot window (R501, R511) -/

/-- The 64 bytes of a slot; an empty slot reads as zeros. -/
def Rec.slotBytes (r : Rec) : List Byte := if r.rno = 0 then [] else r.bytes

/-- The record at an address of the slot window. -/
def State.slotAt (s : State) (a : Nat) : Rec :=
  if a < 0x340000 then mapGet (fun _ => Rec.empty) s.evr.acc ((a - 0x300000) / 64)
  else if a < 0x740000 then mapGet (fun _ => Rec.empty) s.evr.circ ((a - 0x340000) / 64)
  else mapGet (fun _ => Rec.empty) s.evr.legal ((a - 0x740000) / 64)

/-! ### The host address map (R41) -/

/-- One word read by an agent from an address: its value, and the state after what the read latches. -/
def readWord (ag : Agent) (a : Nat) (s : State) : Nat × State :=
  if a < 0x40000 then
    if a % 4 ≠ 0 then (0, accessError s)
    else
      let s := latch ag a s
      (s.regWord ag a, { s with free := s.free + 1 })
  else if 0x100000 ≤ a ∧ a < 0x200000 then (leValue (readBytes s.hp.rroom (a - 0x100000) 4), s)
  else if 0x200000 ≤ a ∧ a < 0x204000 then
    if a % 4 ≠ 0 then (0, accessError s)
    else ((s.car ((a - 0x200000) / 64)).record / 2 ^ (8 * (a % 64)) % 2 ^ 32, s)
  else if 0x300000 ≤ a then
    if a % 4 ≠ 0 then (0, accessError s)
    else if a < 0x7C0000 then (leAt (s.slotAt a).slotBytes (a % 64) 4, s)
    else (0, s)
  else (Config.freeValue s.free % 2 ^ 32, { s with free := s.free + 1 })

end Sys2Proof.Machine
end

