-- ==== Sys2Proof/Machine/Bus.lean ====
section
/-!
DEFINITION. Writes by address: how a word written to the register region or the reading room acts (R7 to R11, R57, R575),
the command each write-only field stands for, BND.PEEK_ADDR, and the transactions of the host port on the wire (R531).
-/
namespace Sys2Proof.Machine

/-! ### Plain fields (R9, R57, R575) -/

/-- The registers that LOADING accepts writes of beside command words (R57). -/
def loadingWrites (a : Nat) : Bool :=
  decide (0x5400 ≤ a ∧ a < 0x5600) || decide (0x5020 ≤ a ∧ a < 0x5030) || decide (0xC040 ≤ a ∧ a < 0xC140)

/-- Whether the mode accepts a write at an address (R57). -/
def State.accepts (s : State) (a : Nat) : Bool := s.modeWrites || (s.running && s.mode = 1 && loadingWrites a)

/-- Whether a plain write stores the field: RW, and HP.RESP, which the port holds for GO. -/
def storesField (a : Nat) (f : FldDesc) : Bool := f.acc = .rw || (f.acc = .wo && decide (0x5020 ≤ a ∧ a < 0x5030))

/-- A field after a word has been written: stored, ones cleared, or left as it is (R9, R11). -/
def fieldWrite (a v : Nat) (f : FldDesc) (s : State) : State :=
  let x : Fld := ⟨a, f.lo, f.hi - f.lo + 1⟩
  let b := bitsOf v f.hi f.lo
  if storesField a f then s.wr x b
  else if f.acc = .w1c then s.wr x (s.rd x - Nat.land (s.rd x) b)
  else s

/-- What a stored figure changes at once: the manual brightness, the drive of a channel, the passive calendar's mark. -/
def writeFollows (a : Nat) (s : State) : State :=
  if a = Reg.DPY.BRIGHT.MAN.addr then dpyManual s
  else match copyAt Reg.LSW.CH.DUTY.DUTY 40 a with
    | some c => hsApply c s
    | none => s

/-- A word written to the RW and W1C fields of a register (R9, R575). -/
def plainWrite (ag : Agent) (a v : Nat) (s : State) : State :=
  match findReg a with
  | none => s
  | some d =>
    if !d.fields.any fun f => storesField a f || f.acc = .w1c then s
    else if !s.accepts a then s
    else if s.level ag < writeLevel a then deny ag s
    else if a = Reg.TAR.ACT_SEC.SEC.addr && s.bit Reg.TAR.STATUS.ARMED then s
    else writeFollows a (d.fields.foldl (fun s f => fieldWrite a v f s) s)

/-- A word written to a register that holds no command: its plain fields, its staged fields, and its sealed fields. -/
def fieldsWrite (ag : Agent) (a v : Nat) (s : State) : State :=
  rwlWrite ag a v (rwsWrite ag a (rwsMask a) v (plainWrite ag a v s))

/-! ### BND.PEEK_ADDR (R548) -/

/-- A write of BND.PEEK_ADDR: the value staged in the agent's open set, merged over the value in force. -/
def bndPeek (ag : Agent) (a : Nat) (s : State) : State :=
  gated ag 0 (fun s =>
    let a := a % 2 ^ 18 / 4 * 4
    let now := s.regWord ag a
    let found := (s.openSet ag).bind fun k => (s.bset k).staged.find? fun x => x.1 = a
    let v := match found with
      | some x => Nat.lor (now - Nat.land now x.2.1) (Nat.land x.2.2 x.2.1)
      | none => now
    ((s.wr Reg.BND.PEEK_ADDR.ADDR (a / 4)).setB Reg.BND.PEEK_ADDR.STAGED found.isSome).wr Reg.BND.PEEK_VAL.VALUE v) s

/-- `BND_PEEK`. -/
def execBndPeek (a : Agent) (addr : Nat) (s : State) : Out := done (bndPeek a addr s)

/-! ### Command words -/

/-- A free mask of `n` numbers as a list. -/
def freeList (n : Nat) (s : State) : List Nat × State :=
  let (v, s) := s.fresh
  ((List.range n).filter fun k => Nat.testBit v k, s)

/-- What a start would find, where a request written over the bus leads to one: free values. -/
def freeFacts (s : State) : StartFacts × State :=
  let (a, s) := freeList 2 s
  let (b, s) := freeList 2 s
  let (c, s) := freeList 64 s
  let (v, s) := s.fresh
  (⟨a, b, c, v % 2 = 1⟩, s)

/-- MODE.REQ: a request by its code; whether the supply is lost, and which dies have cooled, are free values. -/
def modeReqWord (ag : Agent) (code : Nat) (s : State) : State :=
  let (v, s) := s.fresh
  let lost := decide (v % 2 = 1)
  let (f, s) := freeFacts s
  match code with
  | 0 => s
  | 1 => reqCommissioning ag lost s
  | 2 => reqOperational ag lost s
  | 3 => reqService ag lost s
  | 4 => reqShutdown ag lost s
  | 5 => reqWake ag lost f s
  | 6 => reqAck ag lost (v / 2 % 4) s
  | 7 => reqReload ag lost f s
  | c => reqUndefined ag c s

/-- KEY.CMD (R470). -/
def keyWord (ag : Agent) (w : Nat) (s : State) : State :=
  let k := bitsOf w 29 24
  let aux := bitsOf w 21 16
  match w % 256 with
  | 1 => keyGenerate ag k s
  | 2 => keyDerive ag k aux s
  | 3 => keyImportPublic ag k s
  | 4 => keyImportWrapped ag k aux s
  | 5 => keyChangeCmd ag k s
  | 6 => keyEraseCmd ag k s
  | 7 => keyReadPublicCmd k s
  | _ => s

/-- The octal SPI memory from UPD.STAGE_ADDR on, as long as the header there says; what the A16 has not written itself is
free. -/
def stagedColophon (s : State) : List Byte × State :=
  let byte := fun (i : Nat) =>
    s.ospiByte (s.rd Reg.UPD.STAGE_ADDR.ADDR + i) (BitVec.ofNat 8 (Config.freeValue (s.free + i)))
  let n := max 64 (leValue ((List.range 4).map fun i => byte (0xC + i)))
  ((List.range n).map byte, { s with free := s.free + n })

/-- UPD.CMD (R481). -/
def updWord (ag : Agent) (cmd : Nat) (s : State) : State :=
  match cmd with
  | 1 => let (c, s) := stagedColophon s; updVerify ag c s
  | 2 => updArm ag s
  | 3 => updAbandon ag s
  | 4 => updConfirm ag s
  | _ => s

/-- Q.OP (R546). -/
def qOpWord (ag : Agent) (op : Nat) (s : State) : State :=
  match op with
  | 1 => qPeek ag s
  | 2 => qPop ag s
  | 3 => qPush ag s
  | 4 => qDiscard ag s
  | _ => s

/-- BND.CMD (R547 to R552). -/
def bndWord (ag : Agent) (w : Nat) (s : State) : State :=
  match w % 256 with
  | 1 => bndOpen ag s
  | 2 => bndCheck ag s
  | 3 => bndBind ag (bitsOf w 11 8) (bitsOf w 31 28) (bitsOf w 27 24) s
  | 4 => bndCancel ag (bitsOf w 17 16) s
  | _ => s

/-- OUT[n].CTL (R252); what the load side measures is free. -/
def outWord (ag : Agent) (n w : Nat) (s : State) : State :=
  let (v, s) := s.fresh
  match w % 256 with
  | 1 => outEnergise ag n (bitsOf w 31 24) (withLoad n [v] s)
  | 2 => outStopCmd ag n s
  | 3 => outPrechargeCmd ag n v s
  | 4 => outDeliverCmd ag n s
  | 5 => outRecheckCmd ag n s
  | 6 => outClearCmd ag n s
  | 7 => acdDownCmd ag n s
  | 8 => acdUpCmd ag n s
  | 9 => rcmTestCmd ag n s
  | c => outCmdUndef ag n c s

/-- CRL.CMD (R274). -/
def crlWord (ag : Agent) (w : Nat) (s : State) : State :=
  let c : Fin 256 := Fin.ofNat 256 (bitsOf w 31 24)
  let n : Fin 16 := Fin.ofNat 16 (bitsOf w 19 16)
  match w % 256 with
  | 1 => crlReserveCmd ag c n s
  | 2 => crlAuthoriseCmd ag c n s
  | 3 => crlCancelCmd ag c s
  | 4 => crlCloseCmd ag c s
  | 5 => crlAckCmd ag c s
  | 6 => crlLimitCmd ag c s
  | x => crlUndefined ag c x s

/-- An action that a set bit of the word asks for. -/
def onBit (w b : Nat) (f : State → State) (s : State) : State := if Nat.testBit w b then f s else s

/-- The words of blocks MODE, HP, Q and BND; `none` where the address holds no command. -/
def hostWord (ag : Agent) (a w : Nat) (s : State) : Option State :=
  if a = Reg.MODE.REQ.CODE.addr then some (modeReqWord ag (w % 16) s)
  else if a = Reg.BND.CMD.CMD.addr then some (bndWord ag w s)
  else if a = Reg.BND.PEEK_ADDR.ADDR.addr then some (bndPeek ag w s)
  else if a = Reg.HP.AUTH.GO.addr then some (if ag = .host then authWrite w s else s)
  else if 0x5020 ≤ a ∧ a < 0x5030 then some (if ag = .host then plainWrite ag a w s else s)
  else if 0x5400 ≤ a ∧ a < 0x5600 then
    let d := (a - 0x5400) / 16
    some (if ag ≠ .host || !s.hpWrites then s
      else if s.bit (Reg.HP.DESC0.OWN d) then accessError s
      else if a % 16 = 0 && Nat.testBit w 31 then descHandover d (bitsOf w 23 16) (w % 256) s
      else plainWrite ag a w s)
  else if a = Reg.Q.SEL.QUEUE.addr then
    some (gated ag 1 (fun s => s.mapPort ag fun p => { p with sel := w % 32 }) s)
  else if a = Reg.Q.OP.OP.addr then some (qOpWord ag (w % 8) s)
  else match copyAt Reg.Q.ITEM.HALF 32 a with
    | some k =>
      some (gated ag 1 (fun s => s.mapPort ag fun p => { p with item := mapSet (fun _ => 0) p.item k (w % 2 ^ 32) }) s)
    | none => (copyAt Reg.Q.CTL.FLUSH 32 a).map fun n => onBit w 0 (qFlush ag n) (fieldsWrite ag a w s)

/-- The words of blocks FLT, EVR, BIST, PMC, KEY and UPD. -/
def serviceWord (ag : Agent) (a w : Nat) (s : State) : Option State :=
  if a = Reg.FLT.CTL.ERR_HOLD.addr then some (errHold ag (Nat.testBit w 0) s)
  else if a = Reg.FLT.ACK.ENTRY.addr then some (fltAck ag (w % 32) s)
  else if a = Reg.FLT.INJECT.GO.addr then some (fltInject ag (w % 65536) (Nat.testBit w 31) s)
  else if a = Reg.FLT.INJ_MEM.ARM.addr then
    some (fltInjMem ag (Nat.testBit w 31) (bitsOf w 30 28) (bitsOf w 27 26) (bitsOf w 25 0) s)
  else if a = Reg.EVR.CTL.FLUSH.addr then some (onBit w 0 (evrFlush ag) s)
  else if a = Reg.KEY.LC_REQ.TARGET.addr then
    some (if Nat.testBit w 8 then lcCancelReq ag s else let (f, s) := freeFacts s; lcRequestAll ag (w % 16) f s)
  else if a = Reg.KEY.CMD.CMD.addr then some (keyWord ag w s)
  else if a = Reg.UPD.CMD.CMD.addr then some (updWord ag (w % 8) s)
  else (copyAt Reg.PMC.CFG.CLR 48 a).map fun k => onBit w 28 (pmcClr ag k) (fieldsWrite ag a w s)

/-- The words of blocks RTC to VCH, and LEGAL. -/
def meterWord (ag : Agent) (a w : Nat) (s : State) : Option State :=
  if a = Reg.RTC.SET_CTL.GO.addr then
    let (v, s) := s.fresh
    some (onBit w 31 (rtcSet ag (w % 32768) (v % 32768)) (fieldsWrite ag a w s))
  else if a = Reg.MET.TEST.START.addr then some (onBit w 0 (metTest ag) s)
  else if a = Reg.MET.HSEL.METER.addr then some (hselSet ag (Nat.testBit w 9) (bitsOf w 8 7) (w % 32) s)
  else if a = Reg.LEGAL.COMMIT.GO.addr then some (onBit w 0 (commitGo ag (Nat.testBit w 1)) s)
  else if a = Reg.TMP.STATUS.OPEN.addr then some (tmpSticky ag w s)
  else if a = Reg.BIL.SEL.QTY.addr then
    some (bilSel ag (bitsOf w 31 27) (bitsOf w 26 22) (bitsOf w 21 16) (w % 32) s)
  else if a = Reg.BIL.CLOSE.GO.addr then some (onBit w 0 (bilClose ag) s)
  else if a = Reg.TAR.ACT_CTL.ARM.addr then some (onBit w 0 (tarArm ag) (onBit w 1 (tarDisarm ag) s))
  else if 0x17000 ≤ a ∧ a < 0x17800 then
    some (gated ag 2 (fun s =>
      if s.bit Reg.TAR.STATUS.ARMED then s
      else { s with tar := { s.tar with passive := writeBytes s.tar.passive (a - 0x17000) (leBytes 4 w) } }) s)
  else if a = Reg.CRD.CTL.EMERG.addr then some (onBit w 0 (emergencyRequest ag) s)
  else if a = Reg.VCH.SUBMIT.GO.addr then
    some (onBit w 31 (if Nat.testBit w 30 then shortCodeSubmit ag (w % 256)
      else voucherSubmit ag (bitsOf w 23 16) (w % 256)) s)
  else none

/-- The words of the outlets, carrels and vehicle link. -/
def energyWord (ag : Agent) (a w : Nat) (s : State) : Option State :=
  if a = Reg.CRL.CMD.CMD.addr then some (crlWord ag w s)
  else match copyAt Reg.OUT.CTL.CMD 16 a with
  | some n => some (outWord ag n w s)
  | none => match copyAt Reg.OUT.LIMIT.I_MAX 16 a with
  | some n => some (outLimit ag n (bitsOf w 31 16) s)
  | none => match copyAt Reg.OUT.CP_CTRL.DUTY 16 a with
  | some n => some (cpCtrl ag n (bitsOf w 13 12) (w % 1024) s)
  | none => match copyAt Reg.OUT.PEND.DISC_CLR 16 a with
  | some n => some (onBit w (Reg.OUT.PEND.DISC_CLR n).lo (discClr ag (.out (Fin.ofNat 16 n))) s)
  | none => match copyAt Reg.VPL.CTL.EN 16 a with
  | some n => some (vplCtl ag n (Nat.testBit w 0) (bitsOf w 7 2) s)
  | none => (copyAt Reg.VPL.PEND.DISC_CLR 16 a).map fun n =>
      onBit w (Reg.VPL.PEND.DISC_CLR n).lo (discClr ag (.vpl (Fin.ofNat 16 n))) s

/-- LSW.CH[c].CTL (R398, R406). -/
def lswWord (ag : Agent) (c w : Nat) (s : State) : State :=
  gated ag 1 (fun s =>
    let s := onBit w 2 (lswClear c) s
    if w % 4 = 1 then lswEnable c s else if w % 4 = 2 then lswDisable c s else s) s

/-- The words of blocks SAF to TAG. -/
def outputWord (ag : Agent) (a w : Nat) (s : State) : Option State :=
  if a = Reg.SAF.CONFIRM.CRC.addr then some (safConfirm ag w s)
  else if a = Reg.SAF.TEST_REQ.REQ.addr then some (lseTestReq ag (w % 65536) s)
  else if a = Reg.DPY.CTL.REQ.addr then
    let s := onBit w 2 (dpyClear ag) s
    some (if w % 4 = 1 then dpyEnableReq ag s else if w % 4 = 2 then dpyDisableReq ag s else s)
  else if a = Reg.DPY.PEND.DISC_CLR.addr then some (onBit w Reg.DPY.PEND.DISC_CLR.lo (discClr ag .dpy) s)
  else if a = Reg.NFC.CTL.DONE.addr then some (onBit w 1 (nfcDone ag) (fieldsWrite ag a w s))
  else if a = Reg.TAG.CTL.SNAP.addr then
    some (onBit w 0 (tagLoad ag) (onBit w 1 (tagStore ag) (onBit w 2 (tagSnap ag) s)))
  else match copyAt Reg.LSW.CH.CTL.REQ 40 a with
  | some c => some (lswWord ag c w s)
  | none => match copyAt Reg.LSW.CH.PEND.DISC_CLR 40 a with
  | some c => some (onBit w (Reg.LSW.CH.PEND.DISC_CLR c).lo (discClr ag (.hs (Fin.ofNat 40 c))) s)
  | none => match copyAt Reg.BLINK.CTL.EN 8 a with
  | some b => some (if Nat.testBit w 31 then blinkEnable ag b (bitsOf w 17 16) (bitsOf w 15 8) (w % 256) s
      else plainWrite ag a w s)
  | none => (copyAt Reg.BDY.REG.CTL.GO 8 a).map fun r => onBit w 0 (bdyGo ag r) s

/-- A word written to an aligned address of the register region. -/
def registerWord (ag : Agent) (a w : Nat) (s : State) : State :=
  let cmd := if a < 0x8000 then hostWord ag a w s
    else if a < 0xE000 then serviceWord ag a w s
    else if a < 0x20000 ∨ 0x3C000 ≤ a then meterWord ag a w s
    else if a < 0x32000 then energyWord ag a w s
    else outputWord ag a w s
  cmd.getD (fieldsWrite ag a w s)

/-! ### The bus (R7, R41) -/

/-- Whether an address of the reading room lies in a page of a descriptor that the A16 owns (R539). -/
def State.pageOwned (s : State) (a : Nat) : Bool :=
  (s.hp.active.toList ++ s.hp.handed).any fun d => (s.descPages d).contains ((a - 0x100000) / 4096)

/-- A word written by an agent to an address: whether it was an access error, and the state it leaves. -/
def busWrite (ag : Agent) (a w : Nat) (s : State) : Bool × State :=
  let w := w % 2 ^ 32
  if !s.running then (false, s)
  else if a < 0x40000 then
    if a % 4 ≠ 0 then (true, accessError s)
    else
      let t := registerWord ag a w s
      (s.hpWrites && ag = .host && decide (0x5400 ≤ a ∧ a < 0x5600) && s.bit (Reg.HP.DESC0.OWN ((a - 0x5400) / 16)), t)
  else if 0x100000 ≤ a ∧ a < 0x200000 then
    if s.mode = 2 || s.mode = 11 then (false, s)
    else if ag = .host && s.pageOwned a then (true, accessError s)
    else (false, s.mapHp fun h => { h with rroom := writeBytes h.rroom (a - 0x100000) (leBytes 4 w) })
  else (false, s)

/-- `REGISTER_WRITE` (R9). -/
def execRegisterWrite (a : Agent) (addr value : Nat) (s : State) : Out := done (busWrite a addr value s).2

/-! ### The wire (R531, R532) -/

/-- The bytes a transaction's CRC covers before its data words. -/
def wireHead (op addr count : Nat) : List Byte := leBytes 1 op ++ beBytes 4 addr ++ leBytes 1 count

/-- The answer on the wire: words, CRC, and the nibble that marks it. -/
def wireAnswer (words : List Nat) (crc mark : Nat) (s : State) : State :=
  s.mapHp fun h => { h with answer := words, answerCrc := crc, answerMark := mark }

/-- The words of a READ, one after the other from ADDR (R532). -/
def readWords : Nat → Nat → State → List Nat × State
  | 0, _, s => ([], s)
  | n + 1, a, s =>
    let (w, s) := readWord .host (a % 2 ^ 32) s
    let (l, s) := readWords n (a + 4) s
    (w :: l, s)

/-- `READ`: COUNT + 1 words. -/
def execHpRead (addr : Nat) (count : Fin 256) (s : State) : Out :=
  done (if !s.running then s
    else
      let (l, s) := readWords (count + 1) addr s
      wireAnswer l (crc16 (wireHead 0x0B addr count ++ l.flatMap (beBytes 4))) 0xA s)

/-- The words of a WRITE applied in ascending address; whether one of them was an access error (R532). -/
def writeWords : Nat → List Nat → State → Bool × State
  | _, [], s => (false, s)
  | a, w :: l, s =>
    let (e, s) := busWrite .host (a % 2 ^ 32) w s
    let (e', s) := writeWords (a + 4) l (settle s)
    (e || e', s)

/-- `WRITE` with the CRC that the host sent; a transaction of no word, or of more than 256, cannot be sent. -/
def execHpWrite (addr : Nat) (words : List Nat) (crc : Nat) (s : State) : Out :=
  done (if !s.running || words.isEmpty || 256 < words.length then s
    else if crc16 (wireHead 0x02 addr (words.length - 1) ++ words.flatMap (beBytes 4)) ≠ crc then
      wireAnswer [] 0 0xC (s.setB Reg.HP.STATUS.CRC_STK true)
    else
      let (e, s) := writeWords addr words s
      wireAnswer [] 0 (if e then 0x5 else 0xA) s)

/-- `HP_STATUS_READ`: STATUS. -/
def execHpStatusRead (s : State) : Out :=
  done (if !s.running then s
    else
      let w := s.word Reg.HP.STATUS.LEVEL.addr
      wireAnswer [w] (crc16 (leBytes 1 0x05 ++ beBytes 4 w)) 0xF s)

/-- `HP_TIMEOUT` (R532): 0x5 stands in place of the marker, and the transaction is abandoned. -/
def execHpTimeout (s : State) : Out := done (if s.running then wireAnswer [] 0 0x5 s else s)

end Sys2Proof.Machine
end

