-- ==== Sys2Proof/Machine/Dispatch.lean ====
section
/-!
DEFINITION. The effect of a command on everything but the queue of waiting commands, one arm per row of the opcode
table; each arm is one call of that row's meaning.
-/
namespace Sys2Proof.Machine

def exec (i : Instr) (s : State) : Host.Outcome State Fault Refusal :=
  match i with
  | .registerWrite a addr value => Sys2Proof.Machine.execRegisterWrite a addr value s
  | .rwlFieldWrite a addr value => Sys2Proof.Machine.execRwlFieldWrite a addr value s
  | .rwsWrite a addr value => Sys2Proof.Machine.execRwsWrite a addr value s
  | .discClr a u => Sys2Proof.Machine.execDiscClr a u s
  | .rtcSecondEdge cycles => Sys2Proof.Machine.execRtcSecondEdge cycles s
  | .clkDiscRange => Sys2Proof.Machine.execClkDiscRange s
  | .quantumBoundary => Sys2Proof.Machine.execQuantumBoundary s
  | .clkRootLost => Sys2Proof.Machine.execClkRootLost s
  | .clkPllUnlock => Sys2Proof.Machine.execClkPllUnlock s
  | .rtcOscFail => Sys2Proof.Machine.execRtcOscFail s
  | .fabricRequest now port cls beats metro => Sys2Proof.Machine.execFabricRequest now port cls beats metro s
  | .requestAged port => Sys2Proof.Machine.execRequestAged port s
  | .sysFabStarve port => Sys2Proof.Machine.execSysFabStarve port s
  | .forcingConditionBegins u => Sys2Proof.Machine.execForcingConditionBegins u s
  | .unitStartComplete u vlsMv => Sys2Proof.Machine.execUnitStartComplete u vlsMv s
  | .unitShutdownComplete u => Sys2Proof.Machine.execUnitShutdownComplete u s
  | .offTimerExpired u => Sys2Proof.Machine.execOffTimerExpired u s
  | .vbatApplied => Sys2Proof.Machine.execVbatApplied s
  | .supplyGood facts => Sys2Proof.Machine.execSupplyGood facts s
  | .coreUnderVoltage now => Sys2Proof.Machine.execCoreUnderVoltage now s
  | .resetNLow => Sys2Proof.Machine.execResetNLow s
  | .resetNRelease facts => Sys2Proof.Machine.execResetNRelease facts s
  | .imageLoadComplete copyA copyB => Sys2Proof.Machine.execImageLoadComplete copyA copyB s
  | .shelfEnumerationComplete answers safeSel => Sys2Proof.Machine.execShelfEnumerationComplete answers safeSel s
  | .bistGroupDone g r => Sys2Proof.Machine.execBistGroupDone g r s
  | .firstQuantumBoundary loads badCopies => Sys2Proof.Machine.execFirstQuantumBoundary loads badCopies s
  | .startTestPassed startMs => Sys2Proof.Machine.execStartTestPassed startMs s
  | .runtimeReady => Sys2Proof.Machine.execRuntimeReady s
  | .modeReqCommissioning a lost => Sys2Proof.Machine.execModeReqCommissioning a lost s
  | .modeReqOperational a lost => Sys2Proof.Machine.execModeReqOperational a lost s
  | .modeReqService a lost => Sys2Proof.Machine.execModeReqService a lost s
  | .modeReqShutdown a lost => Sys2Proof.Machine.execModeReqShutdown a lost s
  | .modeReqWake a lost facts => Sys2Proof.Machine.execModeReqWake a lost facts s
  | .modeReqAck a lost cool => Sys2Proof.Machine.execModeReqAck a lost cool s
  | .modeReqReload a lost facts => Sys2Proof.Machine.execModeReqReload a lost facts s
  | .appClusterReset => Sys2Proof.Machine.execAppClusterReset s
  | .warmMaxExpired => Sys2Proof.Machine.execWarmMaxExpired s
  | .warmThroughTimeout => Sys2Proof.Machine.execWarmThroughTimeout s
  | .powerFailWarning pfLow vauxLow now nowMs => Sys2Proof.Machine.execPowerFailWarning pfLow vauxLow now nowMs s
  | .partialQuantumClose dft harm => Sys2Proof.Machine.execPartialQuantumClose dft harm s
  | .flushComplete us => Sys2Proof.Machine.execFlushComplete us s
  | .rideThroughEnd => Sys2Proof.Machine.execRideThroughEnd s
  | .curatorReset => Sys2Proof.Machine.execCuratorReset s
  | .shutdownTestDone results => Sys2Proof.Machine.execShutdownTestDone results s
  | .shutdownPark => Sys2Proof.Machine.execShutdownPark s
  | .parkMaxExpired facts => Sys2Proof.Machine.execParkMaxExpired facts s
  | .slFrameReceived n bytes => Sys2Proof.Machine.execSlFrameReceived n bytes s
  | .slkLinkLost n => Sys2Proof.Machine.execSlkLinkLost n s
  | .slLinkRetry n ok => Sys2Proof.Machine.execSlLinkRetry n ok s
  | .mchBitstreamLost n => Sys2Proof.Machine.execMchBitstreamLost n s
  | .mbInputRestored n => Sys2Proof.Machine.execMbInputRestored n s
  | .slkElement n e => Sys2Proof.Machine.execSlkElement n e s
  | .slkField n => Sys2Proof.Machine.execSlkField n s
  | .quantumClose dft harm => Sys2Proof.Machine.execQuantumClose dft harm s
  | .metDisagree m p => Sys2Proof.Machine.execMetDisagree m p s
  | .verificationEnd m p => Sys2Proof.Machine.execVerificationEnd m p s
  | .returnToPrimary m p => Sys2Proof.Machine.execReturnToPrimary m p s
  | .metTestStart a => Sys2Proof.Machine.execMetTestStart a s
  | .accuracyTestTime => Sys2Proof.Machine.execAccuracyTestTime s
  | .accuracyTestEnd => Sys2Proof.Machine.execAccuracyTestEnd s
  | .sealChange st => Sys2Proof.Machine.execSealChange st s
  | .legalCommitGo a image => Sys2Proof.Machine.execLegalCommitGo a image s
  | .legalCommitComplete => Sys2Proof.Machine.execLegalCommitComplete s
  | .trackerCycle m ang n vals => Sys2Proof.Machine.execTrackerCycle m ang n vals s
  | .metFreqRange => Sys2Proof.Machine.execMetFreqRange s
  | .fnomSet meanMhz => Sys2Proof.Machine.execFnomSet meanMhz s
  | .metPhaseSeq m => Sys2Proof.Machine.execMetPhaseSeq m s
  | .metNeutralLost m => Sys2Proof.Machine.execMetNeutralLost m s
  | .neutralRestored m => Sys2Proof.Machine.execNeutralRestored m s
  | .cycleRmsRefresh m rms nowMs => Sys2Proof.Machine.execCycleRmsRefresh m rms nowMs s
  | .pqSlowEvent kind m start phases extreme nowMs => Sys2Proof.Machine.execPqSlowEvent kind m start phases extreme nowMs s
  | .hselWrite a cur phase meter => Sys2Proof.Machine.execHselWrite a cur phase meter s
  | .folioCommit => Sys2Proof.Machine.execFolioCommit s
  | .battWindow i0 i1 i2 => Sys2Proof.Machine.execBattWindow i0 i1 i2 s
  | .tamperLoopChange t isOpen => Sys2Proof.Machine.execTamperLoopChange t isOpen s
  | .tampDrvPulse follow => Sys2Proof.Machine.execTampDrvPulse follow s
  | .tmpLoop t => Sys2Proof.Machine.execTmpLoop t s
  | .tmpStickyClear a w => Sys2Proof.Machine.execTmpStickyClear a w s
  | .rtcSetRequest a frac now => Sys2Proof.Machine.execRtcSetRequest a frac now s
  | .beaconTimeCompare clk now => Sys2Proof.Machine.execBeaconTimeCompare clk now s
  | .rtcNowRead now => Sys2Proof.Machine.execRtcNowRead now s
  | .tarArm a => Sys2Proof.Machine.execTarArm a s
  | .tarDisarm a => Sys2Proof.Machine.execTarDisarm a s
  | .bilCloseGo a => Sys2Proof.Machine.execBilCloseGo a s
  | .bilSelWrite a hist meter qty rate => Sys2Proof.Machine.execBilSelWrite a hist meter qty rate s
  | .emergencyRequest a => Sys2Proof.Machine.execEmergencyRequest a s
  | .crdBalanceRead owed => Sys2Proof.Machine.execCrdBalanceRead owed s
  | .voucherSubmit a carrel tag => Sys2Proof.Machine.execVoucherSubmit a carrel tag s
  | .shortCodeSubmit a tag => Sys2Proof.Machine.execShortCodeSubmit a tag s
  | .voucherQueueSubmission src tag carrel short data => Sys2Proof.Machine.execVoucherQueueSubmission src tag carrel short data s
  | .voucherVerify => Sys2Proof.Machine.execVoucherVerify s
  | .shortCodeLockoutEnd => Sys2Proof.Machine.execShortCodeLockoutEnd s
  | .energise a n c load => Sys2Proof.Machine.execEnergise a n c load s
  | .outStop a n => Sys2Proof.Machine.execOutStop a n s
  | .outPrecharge a n diffMv => Sys2Proof.Machine.execOutPrecharge a n diffMv s
  | .outDeliver a n => Sys2Proof.Machine.execOutDeliver a n s
  | .outRecheck a n => Sys2Proof.Machine.execOutRecheck a n s
  | .outClear a n => Sys2Proof.Machine.execOutClear a n s
  | .acdDown a n => Sys2Proof.Machine.execAcdDown a n s
  | .acdUp a n => Sys2Proof.Machine.execAcdUp a n s
  | .rcmTest a n => Sys2Proof.Machine.execRcmTest a n s
  | .outCmdUndefined a n cmd => Sys2Proof.Machine.execOutCmdUndefined a n cmd s
  | .cpCtrlWrite a n mode duty => Sys2Proof.Machine.execCpCtrlWrite a n mode duty s
  | .outLimitWrite a n iMax => Sys2Proof.Machine.execOutLimitWrite a n iMax s
  | .pilotStateChange n high low load => Sys2Proof.Machine.execPilotStateChange n high low load s
  | .outPilotErr n => Sys2Proof.Machine.execOutPilotErr n s
  | .proximityChange n ohms => Sys2Proof.Machine.execProximityChange n ohms s
  | .lockFeedbackChange n confirmed => Sys2Proof.Machine.execLockFeedbackChange n confirmed s
  | .readyTElapsed n => Sys2Proof.Machine.execReadyTElapsed n s
  | .closeTElapsed n => Sys2Proof.Machine.execCloseTElapsed n s
  | .closureVerified n load supply => Sys2Proof.Machine.execClosureVerified n load supply s
  | .rampEnd n => Sys2Proof.Machine.execRampEnd n s
  | .weldCheckStart n vLoad => Sys2Proof.Machine.execWeldCheckStart n vLoad s
  | .weldVerdict n w load => Sys2Proof.Machine.execWeldVerdict n w load s
  | .coolOff n => Sys2Proof.Machine.execCoolOff n s
  | .outRcmTrip n => Sys2Proof.Machine.execOutRcmTrip n s
  | .rcmTestResult n lowMs highMs load => Sys2Proof.Machine.execRcmTestResult n lowMs highMs load s
  | .faultClearAHeld n rcmHealthy => Sys2Proof.Machine.execFaultClearAHeld n rcmHealthy s
  | .insulationResult n vpA vnA vpB vnB => Sys2Proof.Machine.execInsulationResult n vpA vnA vpB vnB s
  | .setpoint n => Sys2Proof.Machine.execSetpoint n s
  | .statusFrame bus node bytes => Sys2Proof.Machine.execStatusFrame bus node bytes s
  | .shelfFrame bus node bytes => Sys2Proof.Machine.execShelfFrame bus node bytes s
  | .outModLost n k => Sys2Proof.Machine.execOutModLost n k s
  | .acdEndPosition n lowered => Sys2Proof.Machine.execAcdEndPosition n lowered s
  | .outAcdTimeout n => Sys2Proof.Machine.execOutAcdTimeout n s
  | .canBusOff b => Sys2Proof.Machine.execCanBusOff b s
  | .crlReserve a carrel outlet => Sys2Proof.Machine.execCrlReserve a carrel outlet s
  | .crlAuthorise a carrel outlet => Sys2Proof.Machine.execCrlAuthorise a carrel outlet s
  | .crlCancel a carrel => Sys2Proof.Machine.execCrlCancel a carrel s
  | .crlClose a carrel => Sys2Proof.Machine.execCrlClose a carrel s
  | .crlAck a carrel => Sys2Proof.Machine.execCrlAck a carrel s
  | .crlLimit a carrel => Sys2Proof.Machine.execCrlLimit a carrel s
  | .crlCmdUndefined a carrel cmd => Sys2Proof.Machine.execCrlCmdUndefined a carrel cmd s
  | .reservationExpired carrel => Sys2Proof.Machine.execReservationExpired carrel s
  | .authorisationExpired carrel => Sys2Proof.Machine.execAuthorisationExpired carrel s
  | .suspensionExpired carrel => Sys2Proof.Machine.execSuspensionExpired carrel s
  | .vplCtlWrite a n en atten => Sys2Proof.Machine.execVplCtlWrite a n en atten s
  | .converterCheckPassed n => Sys2Proof.Machine.execConverterCheckPassed n s
  | .vplTxFault n => Sys2Proof.Machine.execVplTxFault n s
  | .cmSlacParmReq n runId => Sys2Proof.Machine.execCmSlacParmReq n runId s
  | .cmStartAttenCharInd n runId numSounds => Sys2Proof.Machine.execCmStartAttenCharInd n runId numSounds s
  | .soundReceived n ok att => Sys2Proof.Machine.execSoundReceived n ok att s
  | .cmSlacMatchReq n runId evMac => Sys2Proof.Machine.execCmSlacMatchReq n runId evMac s
  | .cmValidateReq n => Sys2Proof.Machine.execCmValidateReq n s
  | .cmAmpMapReq n => Sys2Proof.Machine.execCmAmpMapReq n s
  | .matchedStationFrame n => Sys2Proof.Machine.execMatchedStationFrame n s
  | .gpFrameReceived n bytes => Sys2Proof.Machine.execGpFrameReceived n bytes s
  | .slacInitElapsed n => Sys2Proof.Machine.execSlacInitElapsed n s
  | .mnbcElapsed n => Sys2Proof.Machine.execMnbcElapsed n s
  | .matchTElapsed n => Sys2Proof.Machine.execMatchTElapsed n s
  | .joinTElapsed n => Sys2Proof.Machine.execJoinTElapsed n s
  | .vplLinkLost n ms => Sys2Proof.Machine.execVplLinkLost n ms s
  | .fftRequest req now => Sys2Proof.Machine.execFftRequest req now s
  | .fftComplete req now => Sys2Proof.Machine.execFftComplete req now s
  | .vplFftOverrun req now => Sys2Proof.Machine.execVplFftOverrun req now s
  | .selectiveAckReceived n failed => Sys2Proof.Machine.execSelectiveAckReceived n failed s
  | .cycleStart now clk zcAge => Sys2Proof.Machine.execCycleStart now clk zcAge s
  | .relayBeaconSlot clk => Sys2Proof.Machine.execRelayBeaconSlot clk s
  | .safetySlot => Sys2Proof.Machine.execSafetySlot s
  | .joinMiniSlot => Sys2Proof.Machine.execJoinMiniSlot s
  | .beacon fc d clk => Sys2Proof.Machine.execBeacon fc d clk s
  | .relayBeacon r f clk => Sys2Proof.Machine.execRelayBeacon r f clk s
  | .safetyFrame slot f => Sys2Proof.Machine.execSafetyFrame slot f s
  | .joinRequest via f => Sys2Proof.Machine.execJoinRequest via f s
  | .pollStart left bufs => Sys2Proof.Machine.execPollStart left bufs s
  | .poll fc p bufs pos => Sys2Proof.Machine.execPoll fc p bufs pos s
  | .dataFrame fc blocks meas long pos => Sys2Proof.Machine.execDataFrame fc blocks meas long pos s
  | .nullFrame fc pos => Sys2Proof.Machine.execNullFrame fc pos s
  | .sackFrame fc pos => Sys2Proof.Machine.execSackFrame fc pos s
  | .frameAbsent hop => Sys2Proof.Machine.execFrameAbsent hop s
  | .epochStart => Sys2Proof.Machine.execEpochStart s
  | .toneMapChoose nbr k => Sys2Proof.Machine.execToneMapChoose nbr k s
  | .toneMap src t => Sys2Proof.Machine.execToneMap src t s
  | .links src l => Sys2Proof.Machine.execLinks src l s
  | .admitA long qj => Sys2Proof.Machine.execAdmitA long qj s
  | .admitB coord qc tc => Sys2Proof.Machine.execAdmitB coord qc tc s
  | .admitC tj => Sys2Proof.Machine.execAdmitC tj s
  | .admitD node idx wrapped => Sys2Proof.Machine.execAdmitD node idx wrapped s
  | .nekUpdate idx wrapped => Sys2Proof.Machine.execNekUpdate idx wrapped s
  | .voteCall id hash act deadline named => Sys2Proof.Machine.execVoteCall id hash act deadline named s
  | .voteAns src id ready => Sys2Proof.Machine.execVoteAns src id ready s
  | .voteDeadline => Sys2Proof.Machine.execVoteDeadline s
  | .listenTElapsed => Sys2Proof.Machine.execListenTElapsed s
  | .bbnUnjoined => Sys2Proof.Machine.execBbnUnjoined s
  | .bbnCoordLost => Sys2Proof.Machine.execBbnCoordLost s
  | .coordTakeover => Sys2Proof.Machine.execCoordTakeover s
  | .nekReplace => Sys2Proof.Machine.execNekReplace s
  | .bbnTxFault p => Sys2Proof.Machine.execBbnTxFault p s
  | .safetySample half high low masked => Sys2Proof.Machine.execSafetySample half high low masked s
  | .safDiscrepancy half f => Sys2Proof.Machine.execSafDiscrepancy half f s
  | .exchangeFrame dst frame late => Sys2Proof.Machine.execExchangeFrame dst frame late s
  | .safHalves => Sys2Proof.Machine.execSafHalves s
  | .curatorHoldExpired => Sys2Proof.Machine.execCuratorHoldExpired s
  | .lseTestRequest a mask => Sys2Proof.Machine.execLseTestRequest a mask s
  | .lseTestPeriodic n => Sys2Proof.Machine.execLseTestPeriodic n s
  | .lseTestEnd n curatorOk keeperOk => Sys2Proof.Machine.execLseTestEnd n curatorOk keeperOk s
  | .testPulse t fails readbackOk => Sys2Proof.Machine.execTestPulse t fails readbackOk s
  | .resetInputEdge k highMs => Sys2Proof.Machine.execResetInputEdge k highMs s
  | .safResetStuck k => Sys2Proof.Machine.execSafResetStuck k s
  | .safTwohandSync f => Sys2Proof.Machine.execSafTwohandSync f s
  | .cat1StopDelay f => Sys2Proof.Machine.execCat1StopDelay f s
  | .safetyEthFrame payload => Sys2Proof.Machine.execSafetyEthFrame payload s
  | .safChanLost r backbone => Sys2Proof.Machine.execSafChanLost r backbone s
  | .singleTElapsed r => Sys2Proof.Machine.execSingleTElapsed r s
  | .pauseTimeout r => Sys2Proof.Machine.execPauseTimeout r s
  | .safRemoteSilent r => Sys2Proof.Machine.execSafRemoteSilent r s
  | .safeSealChange sealA sealB => Sys2Proof.Machine.execSafeSealChange sealA sealB s
  | .safConfirmWrite a crc => Sys2Proof.Machine.execSafConfirmWrite a crc s
  | .lswEnableRequest a c => Sys2Proof.Machine.execLswEnableRequest a c s
  | .lswDisableRequest a c => Sys2Proof.Machine.execLswDisableRequest a c s
  | .lswClr a c => Sys2Proof.Machine.execLswClr a c s
  | .startOnEnable c => Sys2Proof.Machine.execStartOnEnable c s
  | .lswNoDischarge c => Sys2Proof.Machine.execLswNoDischarge c s
  | .coilPullEnd c vlsMv => Sys2Proof.Machine.execCoilPullEnd c vlsMv s
  | .inrushEnd c => Sys2Proof.Machine.execInrushEnd c s
  | .foldbackEntry c => Sys2Proof.Machine.execFoldbackEntry c s
  | .foldbackTimeout c => Sys2Proof.Machine.execFoldbackTimeout c s
  | .thermalShutdown c tj => Sys2Proof.Machine.execThermalShutdown c tj s
  | .thermalCooled c tj => Sys2Proof.Machine.execThermalCooled c tj s
  | .restartsReset c => Sys2Proof.Machine.execRestartsReset c s
  | .lswGroupUv g mv => Sys2Proof.Machine.execLswGroupUv g mv s
  | .groupUvEnd g mv => Sys2Proof.Machine.execGroupUvEnd g mv s
  | .groupRestart g => Sys2Proof.Machine.execGroupRestart g s
  | .lswOpenLoad c => Sys2Proof.Machine.execLswOpenLoad c s
  | .lswClamp c => Sys2Proof.Machine.execLswClamp c s
  | .lswBudget mw => Sys2Proof.Machine.execLswBudget mw s
  | .heaterSensorRead h reading => Sys2Proof.Machine.execHeaterSensorRead h reading s
  | .dpyEnableRequest a => Sys2Proof.Machine.execDpyEnableRequest a s
  | .dpyDisableRequest a => Sys2Proof.Machine.execDpyDisableRequest a s
  | .dpyClr a => Sys2Proof.Machine.execDpyClr a s
  | .crackMeasure ohms => Sys2Proof.Machine.execCrackMeasure ohms s
  | .dpyRail rail => Sys2Proof.Machine.execDpyRail rail s
  | .elvssWrite a v => Sys2Proof.Machine.execElvssWrite a v s
  | .dpyUnderrun => Sys2Proof.Machine.execDpyUnderrun s
  | .blinkEnable a b layer onF offF => Sys2Proof.Machine.execBlinkEnable a b layer onF offF s
  | .alsRead reading => Sys2Proof.Machine.execAlsRead reading s
  | .bdyRegGo a r => Sys2Proof.Machine.execBdyRegGo a r s
  | .legalUpdateStart r die => Sys2Proof.Machine.execLegalUpdateStart r die s
  | .bdyFrame die => Sys2Proof.Machine.execBdyFrame die s
  | .legalUpdateEnd r => Sys2Proof.Machine.execLegalUpdateEnd r s
  | .bdyRail => Sys2Proof.Machine.execBdyRail s
  | .nfcPing amp ph => Sys2Proof.Machine.execNfcPing amp ph s
  | .nfcPoll rounds => Sys2Proof.Machine.execNfcPoll rounds s
  | .nfcAntenna => Sys2Proof.Machine.execNfcAntenna s
  | .nfcDone a => Sys2Proof.Machine.execNfcDone a s
  | .nfcActiveTimeout => Sys2Proof.Machine.execNfcActiveTimeout s
  | .contactlessCommand response ends => Sys2Proof.Machine.execContactlessCommand response ends s
  | .tagFieldOn => Sys2Proof.Machine.execTagFieldOn s
  | .tagFieldLost => Sys2Proof.Machine.execTagFieldLost s
  | .reqa wupa => Sys2Proof.Machine.execReqa wupa s
  | .tagSelect uid => Sys2Proof.Machine.execTagSelect uid s
  | .folioRead page chunk => Sys2Proof.Machine.execFolioRead page chunk s
  | .folioWrite page chunk data => Sys2Proof.Machine.execFolioWrite page chunk data s
  | .tagPass pwd => Sys2Proof.Machine.execTagPass pwd s
  | .tagChallenge key nr => Sys2Proof.Machine.execTagChallenge key nr s
  | .tagProve mr => Sys2Proof.Machine.execTagProve mr s
  | .hlta => Sys2Proof.Machine.execHlta s
  | .tagFrameError => Sys2Proof.Machine.execTagFrameError s
  | .tagLockoutEnd => Sys2Proof.Machine.execTagLockoutEnd s
  | .tagMappingEnd => Sys2Proof.Machine.execTagMappingEnd s
  | .tagCommandTimeout => Sys2Proof.Machine.execTagCommandTimeout s
  | .tagSnapshot => Sys2Proof.Machine.execTagSnapshot s
  | .tagSnap a => Sys2Proof.Machine.execTagSnap a s
  | .tagLoad a => Sys2Proof.Machine.execTagLoad a s
  | .tagStore a => Sys2Proof.Machine.execTagStore a s
  | .tagWiredBusy => Sys2Proof.Machine.execTagWiredBusy s
  | .lcRequest a target facts => Sys2Proof.Machine.execLcRequest a target facts s
  | .lcCancel a => Sys2Proof.Machine.execLcCancel a s
  | .keyGenerate a slot => Sys2Proof.Machine.execKeyGenerate a slot s
  | .keyDerive a slot aux => Sys2Proof.Machine.execKeyDerive a slot aux s
  | .keyImportPublic a slot => Sys2Proof.Machine.execKeyImportPublic a slot s
  | .keyImportWrapped a slot aux => Sys2Proof.Machine.execKeyImportWrapped a slot aux s
  | .keyChange a slot => Sys2Proof.Machine.execKeyChange a slot s
  | .keyErase a slot => Sys2Proof.Machine.execKeyErase a slot s
  | .keyReadPublic slot => Sys2Proof.Machine.execKeyReadPublic slot s
  | .keyEntropy => Sys2Proof.Machine.execKeyEntropy s
  | .updVerify a colophon => Sys2Proof.Machine.execUpdVerify a colophon s
  | .stagingComplete hashesOk => Sys2Proof.Machine.execStagingComplete hashesOk s
  | .updArm a => Sys2Proof.Machine.execUpdArm a s
  | .updAbandon a => Sys2Proof.Machine.execUpdAbandon a s
  | .updConfirm a => Sys2Proof.Machine.execUpdConfirm a s
  | .updActivation facts dft harm now => Sys2Proof.Machine.execUpdActivation facts dft harm now s
  | .updTrialConfirm => Sys2Proof.Machine.execUpdTrialConfirm s
  | .faultRaise code detail => Sys2Proof.Machine.execFaultRaise code detail s
  | .noticeClose entry => Sys2Proof.Machine.execNoticeClose entry s
  | .fltAck a entry => Sys2Proof.Machine.execFltAck a entry s
  | .errHoldWrite a v => Sys2Proof.Machine.execErrHoldWrite a v s
  | .errNRelease => Sys2Proof.Machine.execErrNRelease s
  | .fltInject a code go => Sys2Proof.Machine.execFltInject a code go s
  | .fltInjMem a arm mem bits word => Sys2Proof.Machine.execFltInjMem a arm mem bits word s
  | .eccError mem correctable loc => Sys2Proof.Machine.execEccError mem correctable loc s
  | .runtimeRecord ty payload => Sys2Proof.Machine.execRuntimeRecord ty payload s
  | .drainTimer => Sys2Proof.Machine.execDrainTimer s
  | .evrFlush a => Sys2Proof.Machine.execEvrFlush a s
  | .drainComplete => Sys2Proof.Machine.execDrainComplete s
  | .sliceStart => Sys2Proof.Machine.execSliceStart s
  | .sliceRun corrected bad fail => Sys2Proof.Machine.execSliceRun corrected bad fail s
  | .pmcWrap k tick loc => Sys2Proof.Machine.execPmcWrap k tick loc s
  | .pmcClr a k => Sys2Proof.Machine.execPmcClr a k s
  | .pmcCountRead a k count tick => Sys2Proof.Machine.execPmcCountRead a k count tick s
  | .hpRead addr count => Sys2Proof.Machine.execHpRead addr count s
  | .hpWrite addr words crc => Sys2Proof.Machine.execHpWrite addr words crc s
  | .hpStatusRead => Sys2Proof.Machine.execHpStatusRead s
  | .hpTimeout => Sys2Proof.Machine.execHpTimeout s
  | .authChal => Sys2Proof.Machine.execAuthChal s
  | .authGo lvl => Sys2Proof.Machine.execAuthGo lvl s
  | .authDrop => Sys2Proof.Machine.execAuthDrop s
  | .hpLockoutEnd => Sys2Proof.Machine.execHpLockoutEnd s
  | .hpSessionIdle => Sys2Proof.Machine.execHpSessionIdle s
  | .descHandover d kind tag => Sys2Proof.Machine.execDescHandover d kind tag s
  | .descTransferStart => Sys2Proof.Machine.execDescTransferStart s
  | .descTransferDone r => Sys2Proof.Machine.execDescTransferDone r s
  | .qPeek a => Sys2Proof.Machine.execQPeek a s
  | .qPop a => Sys2Proof.Machine.execQPop a s
  | .qPush a => Sys2Proof.Machine.execQPush a s
  | .qDiscard a => Sys2Proof.Machine.execQDiscard a s
  | .qFlush a n => Sys2Proof.Machine.execQFlush a n s
  | .wmStkClear a n => Sys2Proof.Machine.execWmStkClear a n s
  | .annexSpill n => Sys2Proof.Machine.execAnnexSpill n s
  | .annexRefill n bad => Sys2Proof.Machine.execAnnexRefill n bad s
  | .bndOpen a => Sys2Proof.Machine.execBndOpen a s
  | .bndCheck a => Sys2Proof.Machine.execBndCheck a s
  | .bndBind a kind arg arg2 => Sys2Proof.Machine.execBndBind a kind arg arg2 s
  | .bndCancel a k => Sys2Proof.Machine.execBndCancel a k s
  | .bndPeek a addr => Sys2Proof.Machine.execBndPeek a addr s
  | .bindInstant k => Sys2Proof.Machine.execBindInstant k s
  | .pwrTjHigh die temp => Sys2Proof.Machine.execPwrTjHigh die temp s
  | .pwrTjCrit die temp => Sys2Proof.Machine.execPwrTjCrit die temp s
  | .vbatRemoved => Sys2Proof.Machine.execVbatRemoved s
  | .rtcOscRestored => Sys2Proof.Machine.execRtcOscRestored s
  | .supplyMonitorChange monitor ok => Sys2Proof.Machine.execSupplyMonitorChange monitor ok s
  | .metrologySample mb ain => Sys2Proof.Machine.execMetrologySample mb ain s
  | .dpyFrameStart => Sys2Proof.Machine.execDpyFrameStart s
  | .eth0FrameReceived => Sys2Proof.Machine.execEth0FrameReceived s
  | .busOffRecovered b => Sys2Proof.Machine.execBusOffRecovered b s
  | .cryptoQueueRequest op slot => Sys2Proof.Machine.execCryptoQueueRequest op slot s
  | .bdyRailsGood => Sys2Proof.Machine.execBdyRailsGood s

end Sys2Proof.Machine
end

