-- ==== Sys2Proof/Safety.lean ====
section
/-!
DEFINITION. The terms in which claims are made: what the outputs may be in each mode (R57), a state between steps in which
nothing waits, and what the fault collector, the recorder and the queues may change beside a command's own effect.
-/
namespace Sys2Proof.Machine

/-! ### Outputs (R57, R400, R495) -/

/-- No outlet energises: no coils are commanded on, and neither half closes an LSE or releases an inhibit line. -/
def NoOutlet (s : State) : Prop :=
  (∀ n, n < 16 → (s.out n).coils = false) ∧ s.saf.cur.lse = 0 ∧ s.saf.kpr.lse = 0 ∧ s.saf.cur.pmi = false ∧
    s.saf.kpr.pmi = false

/-- HS[c] is not starting and not on. -/
def HsDown (s : State) (c : Nat) : Prop := s.rd (Reg.LSW.CH.STATUS.STATE c) ≠ 1 ∧ s.rd (Reg.LSW.CH.STATUS.STATE c) ≠ 2

/-- The outputs that R57 permits: in DORMANT, LOADING, START_TEST, SAFE_HOLD and LOCKDOWN no outlet energises; every channel
is down, in SAFE_HOLD every one without the safe-keep attribute (R400). -/
def Outputs (s : State) : Prop :=
  (s.outputsBarred = true → NoOutlet s) ∧ (∀ c, c < 40 → s.hsModeForced c = true → HsDown s c)

/-! ### States between steps -/

/-- No fault waits to be raised whose class is above Minor. -/
def MinorTodo (s : State) : Prop := ∀ x ∈ s.flt.todo, faultClass x.1 ≤ 1

/-- The core runs in a mode that accepts writes and bars no output, no reaction is unfinished, no record was lost since the
last drain, and the recorder-input queue, its annex in use, is below the level at which a drain starts (R504). -/
structure Calm (s : State) : Prop where
  run : s.running = true
  low : 3 ≤ s.mode
  high : s.mode ≤ 9
  todo : s.flt.todo = []
  still : s.moved = false
  pushed : s.pushed = []
  kept : s.evr.lostSince = 0
  room : (s.q 15).level < 240
  cap : 256 ≤ s.qCap 15

/-- No Major or Grave fault is open, the code is not open, and an entry is free (R491, case 4). -/
structure Opens (code : Nat) (s : State) : Prop where
  minor : ∀ e ∈ s.flt.table, e.cls < 2
  fresh : ∀ e ∈ s.flt.table, e.code ≠ code
  room : s.flt.table.length < 32

/-! ### What a reaction may change -/

/-- The blocks of the queues, the fault collector and the recorder, by the number of their 4 KiB page. -/
def bookBlock (b : Nat) : Bool := b = 6 || b = 8 || b = 9

/-- Every register field outside the named blocks reads the same in both states. -/
def SameRegs (block : Nat → Bool) (s t : State) : Prop :=
  ∀ f : Fld, f.lo < 32 → block (f.addr / 4096) = false → t.rd f = s.rd f

/-- The state without its registers and without what the collector, the recorder and the queues hold. -/
def State.unbooked (s : State) : State :=
  { s with
    regs := [], free := 0, qs := [], pushed := []
    flt := { table := [], causes := s.flt.causes, errMin := false, todo := [] }
    evr := { acc := [], circ := [], legal := [], rnoMark := 0, circHead := 0, lostSince := 0, retired := [] } }

/-- Nothing has changed but what the collector, the recorder and the queues hold. -/
structure Booked (s t : State) : Prop where
  regs : SameRegs bookBlock s t
  rest : t.unbooked = s.unbooked

/-- A fault of class Notice or Minor, injected or not, has opened an entry of its own (R491, R492): the entry is the last
of the table, and nothing has changed but what the collector, the recorder and the queues hold. -/
structure OpenedBy (injected : Bool) (code detail : Nat) (s t : State) : Prop where
  entry : ∃ rno, t.flt.table =
    s.flt.table ++ [⟨freeEntry s.flt.table, code, faultClass code, 0, injected, rno, [(code, detail)]⟩]
  irq : faultClass code = 1 → t.bit Reg.FLT.STATUS.IRQ = true
  books : Booked s t

/-- A fault that was not injected has opened an entry of its own. -/
abbrev Opened (code detail : Nat) (s t : State) : Prop := OpenedBy false code detail s t

/-- The blocks that a change of mode reaches beside those of the books: outlets, vehicle link, channels, user display,
reader. -/
def reactBlock (b : Nat) : Bool :=
  bookBlock b || decide (0x20 ≤ b ∧ b < 0x30) || b = 0x31 || b = 0x35 || b = 0x36 || b = 0x38

/-- The state without its registers and without what the books, a change of mode and the safe outputs reach: outlets,
channels, vehicle link, user display, reader, carrels, safety outputs, base mode and degradation causes. -/
def State.unreacted (s : State) : State :=
  let u := s.unbooked
  { u with
    outs := [], vpl := [], dpy := DpySt.init, moved := false
    lsw := { u.lsw with ch := [] }
    crl := { u.crl with recs := [], changed := [] }
    flt := { u.flt with causes := [] }
    saf := { u.saf with
      cur := { u.saf.cur with lse := 0, pmi := false }
      kpr := { u.saf.kpr with lse := 0, pmi := false } }
    nfc := { u.nfc with base := none, wakes := 0 }
    sys := { u.sys with baseMode := 0, degr := [] }
    cat := { u.cat with credit := none } }

/-- The blocks that a change of mode and the safe outputs reach: those of a reaction, MODE, HP and BBN. -/
def modeBlock (b : Nat) : Bool := reactBlock b || b = 3 || b = 5 || b = 0x32

/-- Every register field outside the blocks of a change of mode reads the same, but for the force lines and the Keeper's
latch. -/
def AlarmRegs (s t : State) : Prop :=
  ∀ f : Fld, f.lo < 32 → modeBlock (f.addr / 4096) = false → f.key ≠ Reg.SAF.STATUS.FORCE.key →
    f.key ≠ Reg.SAF.STATUS.LATCHED.key → t.rd f = s.rd f

/-- The seal that SAF_SEAL_OPEN judges is closed and valid, or open in COMMISSIONING only (R390). -/
def State.sealFine (s : State) : Bool :=
  !((s.bit Reg.SAF.STATUS.SEAL_OPEN && s.mode ≠ 4) || s.bit Reg.SAF.STATUS.SEAL_INVALID)

/-- The commissioning seal is closed and valid (R390). -/
def SealShut (s : State) : Prop := s.bit Reg.SAF.STATUS.SEAL_OPEN = false ∧ s.bit Reg.SAF.STATUS.SEAL_INVALID = false

/-- A Major or Grave fault has been acted on (R60, R355, R495): the mode it brings with the one it left, the force lines
active, the outputs safe, and nothing else changed outside what a change of mode reaches. -/
structure Halted (m : Nat) (s t : State) : Prop where
  mode : t.mode = m
  prev : t.rd Reg.MODE.STATUS.PREV = s.mode
  force : t.rd Reg.SAF.STATUS.FORCE = 1
  outputs : Outputs t
  regs : AlarmRegs s t
  rest : t.unreacted = s.unreacted

/-! ### Who may write (R57, R533, R575) -/

/-- The commands that are one write of a register with an effect of its own: the agent that writes, and the level the
write needs. -/
def gateOf : Instr → Option (Agent × Nat)
  | .discClr a _ => some (a, 1)
  | .metTestStart a => some (a, 1)
  | .legalCommitGo a _ => some (a, 1)
  | .hselWrite a _ _ _ => some (a, 0)
  | .tmpStickyClear a _ => some (a, 1)
  | .rtcSetRequest a _ _ => some (a, 2)
  | .tarDisarm a => some (a, 2)
  | .bilCloseGo a => some (a, 2)
  | .bilSelWrite a _ _ _ _ => some (a, 0)
  | .emergencyRequest a => some (a, 1)
  | .voucherSubmit a _ _ => some (a, 1)
  | .shortCodeSubmit a _ => some (a, 1)
  | .outStop a _ => some (a, 1)
  | .outDeliver a _ => some (a, 1)
  | .outRecheck a _ => some (a, 1)
  | .outClear a _ => some (a, 1)
  | .acdDown a _ => some (a, 1)
  | .acdUp a _ => some (a, 1)
  | .rcmTest a _ => some (a, 1)
  | .outCmdUndefined a _ _ => some (a, 1)
  | .cpCtrlWrite a _ _ _ => some (a, 1)
  | .outLimitWrite a _ _ => some (a, 1)
  | .vplCtlWrite a _ _ _ => some (a, 1)
  | .lseTestRequest a _ => some (a, 1)
  | .safConfirmWrite a _ => some (a, 1)
  | .lswEnableRequest a _ => some (a, 1)
  | .lswDisableRequest a _ => some (a, 1)
  | .lswClr a _ => some (a, 1)
  | .dpyEnableRequest a => some (a, 1)
  | .dpyDisableRequest a => some (a, 1)
  | .dpyClr a => some (a, 1)
  | .blinkEnable a _ _ _ _ => some (a, 1)
  | .bdyRegGo a _ => some (a, 1)
  | .nfcDone a => some (a, 1)
  | .tagSnap a => some (a, 1)
  | .updVerify a _ => some (a, 2)
  | .updArm a => some (a, 2)
  | .updAbandon a => some (a, 2)
  | .fltAck a _ => some (a, 1)
  | .errHoldWrite a _ => some (a, 1)
  | .evrFlush a => some (a, 1)
  | .pmcClr a _ => some (a, 2)
  | .qFlush a _ => some (a, 1)
  | .wmStkClear a _ => some (a, 1)
  | .bndOpen a => some (a, 1)
  | .bndCheck a => some (a, 1)
  | .bndBind a _ _ _ => some (a, 1)
  | .bndCancel a _ => some (a, 1)
  | .bndPeek a _ => some (a, 0)
  | _ => none

/-- A state with nothing left over from a step and the outputs that its mode permits: no fault waits to be raised, no
change of mode is unfinished, and the recorder-input queue is below the level at which a drain starts (R504). -/
structure AtRest (s : State) : Prop where
  todo : s.flt.todo = []
  still : s.moved = false
  pushed : s.pushed = []
  room : (s.q 15).level < 256
  outputs : Outputs s

/-- How a key command answers (R470): outside the modes that accept writes it does nothing; otherwise the first failing
condition's code stands in KEY.RESULT and raises KEY_CMD_REFUSED, and with none failing the effect is followed by code 0. -/
def CommandAnswers (c : Instr) (cmd : Nat) (conds : List (Nat × Bool)) (effect s : State) : Prop :=
  (s.modeWrites = false → exec c s = .next (settle s)) ∧
  (∀ x, s.modeWrites = true → conds.find? (fun x => !x.2) = some x → exec c s =
    .next (settle (raise 0x0C01 0 ((s.wr Reg.KEY.RESULT.CMD cmd).wr Reg.KEY.RESULT.CODE x.1)))) ∧
  (s.modeWrites = true → (∀ x ∈ conds, x.2 = true) → exec c s =
    .next (settle ((effect.wr Reg.KEY.RESULT.CMD cmd).wr Reg.KEY.RESULT.CODE 0)))

/-- How a mode request answers (R65): outside LOADING and the modes that accept writes it does nothing; otherwise RESULT
is the first of level 2, mode 1, energising carrel 3, other condition 4, lost race 5 that applies, with
MODE_REQ_REFUSED, or 0 and the effect. -/
def RequestAnswers (o : Out) (a : Agent) (code min : Nat) (lost here energ other : Bool) (effect : State → State)
    (s : State) : Prop :=
  (s.modeWrites = false → ¬ (s.running = true ∧ s.mode = 1) → o = .next (settle s)) ∧
  (s.modeWrites = true ∨ (s.running = true ∧ s.mode = 1) → ∀ r, r = (if s.level a < min then 2 else if !here then 1
      else if energ then 3 else if other then 4 else if lost then 5 else 0) →
    (r ≠ 0 → o = .next (settle (raise 0x0306 0 ((s.wr Reg.MODE.REQ_STAT.LAST_CODE code).wr Reg.MODE.REQ_STAT.RESULT r)))) ∧
    (r = 0 → o = .next (settle (effect ((s.wr Reg.MODE.REQ_STAT.LAST_CODE code).wr Reg.MODE.REQ_STAT.RESULT 0)))))

end Sys2Proof.Machine
end

