-- ==== Sys2Proof/WellFormed.lean ====
section
/-!
DEFINITION. When a command is well formed: every operand that stands for a fixed number of bits, bytes or items has that
size. The operands of the other types (a unit, a channel, a code) are sized by their own types. A meaning does not rest
on well-formedness; an ill-formed command stands for nothing the hardware could meet.
-/
namespace Sys2Proof

/-- A 32-bit word (R7). -/
def isWord (v : Nat) : Bool := decide (v < 2 ^ 32)

/-- A 16-bit figure. -/
def half16 (v : Nat) : Bool := decide (v < 2 ^ 16)

/-- Load-side or supply voltages of an outlet: at most one for each of its three phases. -/
def loadWf (l : List Nat) : Bool := decide (l.length ≤ 3) && l.all isWord

/-- What the start finds: firmware banks below 2 and key slots below 64. -/
def StartFacts.wf (f : StartFacts) : Bool := (f.bltBad.all fun b =>
    decide (b < 2)) && (f.partsBad.all fun b => decide (b < 2)) && f.badSlots.all fun n => decide (n < 64)

/-- A meter's figures name at most three phases. -/
def MeterDft.wf (d : MeterDft) : Bool := decide (d.ph.length ≤ 3)

/-- A link report names a node of 12 bits. -/
def LinkReport.wf (r : LinkReport) : Bool := decide (r.nbr < 4096)

/-- A well-formed command. -/
def Instr.wf : Instr → Bool
  | .registerWrite _ addr value => isWord addr && isWord value
  | .rwlFieldWrite _ addr value => isWord addr && isWord value
  | .rwsWrite _ addr value => isWord addr && isWord value
  | .discClr _ _ => true
  | .rtcSecondEdge cycles => isWord cycles
  | .clkDiscRange => true
  | .quantumBoundary => true
  | .clkRootLost => true
  | .clkPllUnlock => true
  | .rtcOscFail => true
  | .fabricRequest _ port _ _ _ => decide (port < 32)
  | .requestAged port => decide (port < 32)
  | .sysFabStarve port => decide (port < 32)
  | .forcingConditionBegins _ => true
  | .unitStartComplete _ vlsMv => half16 vlsMv
  | .unitShutdownComplete _ => true
  | .offTimerExpired _ => true
  | .vbatApplied => true
  | .supplyGood facts => facts.wf
  | .coreUnderVoltage _ => true
  | .resetNLow => true
  | .resetNRelease facts => facts.wf
  | .imageLoadComplete copyA copyB => decide (copyA.length ≤ 0x400000) && decide (copyB.length ≤ 0x400000)
  | .shelfEnumerationComplete answers _ => decide (answers.length ≤ 96)
  | .bistGroupDone _ r => isWord r.misr && isWord r.expected
  | .firstQuantumBoundary loads badCopies =>
    decide (loads.length ≤ 16) && loads.all loadWf && badCopies.all (fun c => decide (c < 1024))
  | .startTestPassed startMs => isWord startMs
  | .runtimeReady => true
  | .modeReqCommissioning _ _ => true
  | .modeReqOperational _ _ => true
  | .modeReqService _ _ => true
  | .modeReqShutdown _ _ => true
  | .modeReqWake _ _ facts => facts.wf
  | .modeReqAck _ _ _ => true
  | .modeReqReload _ _ facts => facts.wf
  | .appClusterReset => true
  | .warmMaxExpired => true
  | .warmThroughTimeout => true
  | .powerFailWarning pfLow vauxLow _ nowMs => (pfLow || vauxLow) && isWord nowMs
  | .partialQuantumClose dft _ => decide (dft.length ≤ 17) && dft.all MeterDft.wf
  | .flushComplete us => isWord us
  | .rideThroughEnd => true
  | .curatorReset => true
  | .shutdownTestDone results => decide (results.length ≤ 4)
  | .shutdownPark => true
  | .parkMaxExpired facts => facts.wf
  | .slFrameReceived _ bytes => decide (bytes.length = 80)
  | .slkLinkLost _ => true
  | .slLinkRetry _ _ => true
  | .mchBitstreamLost _ => true
  | .mbInputRestored _ => true
  | .slkElement _ _ => true
  | .slkField _ => true
  | .quantumClose dft _ => decide (dft.length ≤ 17) && dft.all MeterDft.wf
  | .metDisagree _ _ => true
  | .verificationEnd _ _ => true
  | .returnToPrimary _ _ => true
  | .metTestStart _ => true
  | .accuracyTestTime => true
  | .accuracyTestEnd => true
  | .sealChange _ => true
  | .legalCommitGo _ _ => true
  | .legalCommitComplete => true
  | .trackerCycle _ _ _ vals => decide (vals.length ≤ 6)
  | .metFreqRange => true
  | .fnomSet meanMhz => isWord meanMhz
  | .metPhaseSeq _ => true
  | .metNeutralLost _ => true
  | .neutralRestored _ => true
  | .cycleRmsRefresh _ rms nowMs => decide (rms.length ≤ 3) && rms.all isWord && isWord nowMs
  | .pqSlowEvent _ _ _ _ extreme nowMs => isWord extreme && isWord nowMs
  | .hselWrite _ _ _ _ => true
  | .folioCommit => true
  | .battWindow i0 i1 i2 => isWord i0 && isWord i1 && isWord i2
  | .tamperLoopChange _ _ => true
  | .tampDrvPulse _ => true
  | .tmpLoop _ => true
  | .tmpStickyClear _ w => isWord w
  | .rtcSetRequest _ _ _ => true
  | .beaconTimeCompare _ _ => true
  | .rtcNowRead _ => true
  | .tarArm _ => true
  | .tarDisarm _ => true
  | .bilCloseGo _ => true
  | .bilSelWrite _ _ _ _ _ => true
  | .emergencyRequest _ => true
  | .crdBalanceRead _ => true
  | .voucherSubmit _ _ _ => true
  | .shortCodeSubmit _ _ => true
  | .voucherQueueSubmission _ _ _ short data => decide (data.length = if short then 24 else 96)
  | .voucherVerify => true
  | .shortCodeLockoutEnd => true
  | .energise _ _ _ load => loadWf load
  | .outStop _ _ => true
  | .outPrecharge _ _ diffMv => isWord diffMv
  | .outDeliver _ _ => true
  | .outRecheck _ _ => true
  | .outClear _ _ => true
  | .acdDown _ _ => true
  | .acdUp _ _ => true
  | .rcmTest _ _ => true
  | .outCmdUndefined _ _ _ => true
  | .cpCtrlWrite _ _ _ _ => true
  | .outLimitWrite _ _ iMax => half16 iMax
  | .pilotStateChange _ _ _ load => loadWf load
  | .outPilotErr _ => true
  | .proximityChange _ ohms => half16 ohms
  | .lockFeedbackChange _ _ => true
  | .readyTElapsed _ => true
  | .closeTElapsed _ => true
  | .closureVerified _ load supply => loadWf load && loadWf supply
  | .rampEnd _ => true
  | .weldCheckStart _ vLoad => isWord vLoad
  | .weldVerdict _ _ load => loadWf load
  | .coolOff _ => true
  | .outRcmTrip _ => true
  | .rcmTestResult _ _ _ load => loadWf load
  | .faultClearAHeld _ _ => true
  | .insulationResult _ _ _ _ _ => true
  | .setpoint _ => true
  | .statusFrame _ _ bytes => decide (bytes.length ≤ 64)
  | .shelfFrame _ _ bytes => decide (bytes.length ≤ 64)
  | .outModLost _ _ => true
  | .acdEndPosition _ _ => true
  | .outAcdTimeout _ => true
  | .canBusOff _ => true
  | .crlReserve _ _ _ => true
  | .crlAuthorise _ _ _ => true
  | .crlCancel _ _ => true
  | .crlClose _ _ => true
  | .crlAck _ _ => true
  | .crlLimit _ _ => true
  | .crlCmdUndefined _ _ _ => true
  | .reservationExpired _ => true
  | .authorisationExpired _ => true
  | .suspensionExpired _ => true
  | .vplCtlWrite _ _ _ _ => true
  | .converterCheckPassed _ => true
  | .vplTxFault _ => true
  | .cmSlacParmReq _ runId => decide (runId < 2 ^ 64)
  | .cmStartAttenCharInd _ runId _ => decide (runId < 2 ^ 64)
  | .soundReceived _ _ att => decide (att.length ≤ 58)
  | .cmSlacMatchReq _ runId evMac => decide (runId < 2 ^ 64) && decide (evMac < 2 ^ 48)
  | .cmValidateReq _ => true
  | .cmAmpMapReq _ => true
  | .matchedStationFrame _ => true
  | .gpFrameReceived _ bytes => decide (bytes.length ≤ 1518)
  | .slacInitElapsed _ => true
  | .mnbcElapsed _ => true
  | .matchTElapsed _ => true
  | .joinTElapsed _ => true
  | .vplLinkLost _ _ => true
  | .fftRequest _ _ => true
  | .fftComplete _ _ => true
  | .vplFftOverrun _ _ => true
  | .selectiveAckReceived _ failed => decide (failed.length ≤ 4096)
  | .cycleStart _ clk zcAge => isWord clk && isWord zcAge
  | .relayBeaconSlot clk => isWord clk
  | .safetySlot => true
  | .joinMiniSlot => true
  | .beacon fc _ clk => decide (fc < 2 ^ 128) && isWord clk
  | .relayBeacon _ f clk => decide (f.length ≤ 24) && isWord clk
  | .safetyFrame _ f => f.all (fun (b : List Byte) => decide (b.length ≤ 24))
  | .joinRequest _ f => decide (f.length ≤ 24)
  | .pollStart _ _ => true
  | .poll fc _ _ _ => decide (fc < 2 ^ 128)
  | .dataFrame fc _ _ long _ => decide (fc < 2 ^ 128) && decide (long < 2 ^ 64)
  | .nullFrame fc _ => decide (fc < 2 ^ 128)
  | .sackFrame fc _ => decide (fc < 2 ^ 128)
  | .frameAbsent _ => true
  | .epochStart => true
  | .toneMapChoose _ _ => true
  | .toneMap _ t => decide (t.idx < 6)
  | .links _ l => l.all LinkReport.wf
  | .admitA long qj => decide (long < 2 ^ 64) && decide (qj.length = 64)
  | .admitB coord qc tc => decide (coord < 2 ^ 64) && decide (qc.length = 64) && decide (tc.length = 16)
  | .admitC tj => decide (tj.length = 16)
  | .admitD _ _ _ => true
  | .nekUpdate _ _ => true
  | .voteCall _ hash act deadline named =>
    decide (hash < 2 ^ 128) && decide (act < 2 ^ 64) && isWord deadline && named.all (fun m => decide (m < 4096))
  | .voteAns _ _ _ => true
  | .voteDeadline => true
  | .listenTElapsed => true
  | .bbnUnjoined => true
  | .bbnCoordLost => true
  | .coordTakeover => true
  | .nekReplace => true
  | .bbnTxFault _ => true
  | .safetySample _ high low masked => decide (high < 2 ^ 48) && decide (low < 2 ^ 48) && decide (masked < 2 ^ 48)
  | .safDiscrepancy _ _ => true
  | .exchangeFrame _ frame _ => frame.all (fun (v : Nat) => decide (v < 2 ^ 64))
  | .safHalves => true
  | .curatorHoldExpired => true
  | .lseTestRequest _ _ => true
  | .lseTestPeriodic _ => true
  | .lseTestEnd _ _ _ => true
  | .testPulse _ fails _ => decide (fails < 2 ^ 48)
  | .resetInputEdge _ highMs => isWord highMs
  | .safResetStuck _ => true
  | .safTwohandSync _ => true
  | .cat1StopDelay _ => true
  | .safetyEthFrame payload => decide (payload.length ≤ 1500)
  | .safChanLost _ _ => true
  | .singleTElapsed _ => true
  | .pauseTimeout _ => true
  | .safRemoteSilent _ => true
  | .safeSealChange _ _ => true
  | .safConfirmWrite _ crc => isWord crc
  | .lswEnableRequest _ _ => true
  | .lswDisableRequest _ _ => true
  | .lswClr _ _ => true
  | .startOnEnable _ => true
  | .lswNoDischarge _ => true
  | .coilPullEnd _ vlsMv => half16 vlsMv
  | .inrushEnd _ => true
  | .foldbackEntry _ => true
  | .foldbackTimeout _ => true
  | .thermalShutdown _ _ => true
  | .thermalCooled _ _ => true
  | .restartsReset _ => true
  | .lswGroupUv _ mv => half16 mv
  | .groupUvEnd _ mv => half16 mv
  | .groupRestart _ => true
  | .lswOpenLoad _ => true
  | .lswClamp _ => true
  | .lswBudget mw => isWord mw
  | .heaterSensorRead _ _ => true
  | .dpyEnableRequest _ => true
  | .dpyDisableRequest _ => true
  | .dpyClr _ => true
  | .crackMeasure ohms => isWord ohms
  | .dpyRail _ => true
  | .elvssWrite _ _ => true
  | .dpyUnderrun => true
  | .blinkEnable _ _ _ _ _ => true
  | .alsRead _ => true
  | .bdyRegGo _ _ => true
  | .legalUpdateStart _ _ => true
  | .bdyFrame _ => true
  | .legalUpdateEnd _ => true
  | .bdyRail => true
  | .nfcPing _ _ => true
  | .nfcPoll _ => true
  | .nfcAntenna => true
  | .nfcDone _ => true
  | .nfcActiveTimeout => true
  | .contactlessCommand response _ => response.all (fun v => decide (v < 2 ^ 64)) && decide (response.length ≤ 16)
  | .tagFieldOn => true
  | .tagFieldLost => true
  | .reqa _ => true
  | .tagSelect uid => decide (uid.length = 7)
  | .folioRead _ _ => true
  | .folioWrite _ _ data => decide (data.length = 32)
  | .tagPass _ => true
  | .tagChallenge _ nr => decide (nr.length = 16)
  | .tagProve mr => decide (mr.length = 8)
  | .hlta => true
  | .tagFrameError => true
  | .tagLockoutEnd => true
  | .tagMappingEnd => true
  | .tagCommandTimeout => true
  | .tagSnapshot => true
  | .tagSnap _ => true
  | .tagLoad _ => true
  | .tagStore _ => true
  | .tagWiredBusy => true
  | .lcRequest _ _ facts => facts.wf
  | .lcCancel _ => true
  | .keyGenerate _ _ => true
  | .keyDerive _ _ _ => true
  | .keyImportPublic _ _ => true
  | .keyImportWrapped _ _ _ => true
  | .keyChange _ _ => true
  | .keyErase _ _ => true
  | .keyReadPublic _ => true
  | .keyEntropy => true
  | .updVerify _ _ => true
  | .stagingComplete _ => true
  | .updArm _ => true
  | .updAbandon _ => true
  | .updConfirm _ => true
  | .updActivation facts dft _ _ => facts.wf && decide (dft.length ≤ 17) && dft.all MeterDft.wf
  | .updTrialConfirm => true
  | .faultRaise _ detail => isWord detail
  | .noticeClose _ => true
  | .fltAck _ _ => true
  | .errHoldWrite _ _ => true
  | .errNRelease => true
  | .fltInject _ _ _ => true
  | .fltInjMem _ _ _ _ word => isWord word
  | .eccError _ _ loc => isWord loc
  | .runtimeRecord _ payload => decide (payload.length = 40)
  | .drainTimer => true
  | .evrFlush _ => true
  | .drainComplete => true
  | .sliceStart => true
  | .sliceRun _ _ _ => true
  | .pmcWrap _ tick loc => isWord tick && isWord loc
  | .pmcClr _ _ => true
  | .pmcCountRead _ _ count tick => decide (count < 2 ^ 64) && isWord tick
  | .hpRead addr _ => isWord addr
  | .hpWrite addr words crc =>
    isWord addr && decide (1 ≤ words.length) && decide (words.length ≤ 256) && words.all isWord && half16 crc
  | .hpStatusRead => true
  | .hpTimeout => true
  | .authChal => true
  | .authGo _ => true
  | .authDrop => true
  | .hpLockoutEnd => true
  | .hpSessionIdle => true
  | .descHandover _ _ _ => true
  | .descTransferStart => true
  | .descTransferDone _ => true
  | .qPeek _ => true
  | .qPop _ => true
  | .qPush _ => true
  | .qDiscard _ => true
  | .qFlush _ _ => true
  | .wmStkClear _ _ => true
  | .annexSpill _ => true
  | .annexRefill _ _ => true
  | .bndOpen _ => true
  | .bndCheck _ => true
  | .bndBind _ _ _ _ => true
  | .bndCancel _ _ => true
  | .bndPeek _ addr => isWord addr
  | .bindInstant _ => true
  | .pwrTjHigh _ _ => true
  | .pwrTjCrit _ _ => true
  | .vbatRemoved => true
  | .rtcOscRestored => true
  | .supplyMonitorChange _ _ => true
  | .metrologySample mb ain => mb.all (fun x => decide (x.1 < 96)) && ain.all (fun x => decide (x.1 < 4))
  | .dpyFrameStart => true
  | .eth0FrameReceived => true
  | .busOffRecovered _ => true
  | .cryptoQueueRequest _ _ => true
  | .bdyRailsGood => true

end Sys2Proof
end

