-- ==== Sys2Proof/Certificates/Slice0/Obligations.lean ====
section
/-!
DEFINITION. The statements for the provers, one definition each. Where a statement takes a calm state (`Calm`), the
result is named by the model's own operations on the state before; `Booked` leaves open what the fault collector, the
recorder and the queues write beside it.
-/
open Sys2Proof Sys2Proof.Machine

/-- A step takes the command at the front of the queue and carries it out on the state with the queue's rest.
On an empty queue the block idles: the model's choice (log entry 47). -/
def Obligations.StepRunsTheFrontCommandOrIdles : Prop :=
  (∀ (c : Instr) (r : List Instr) (s : State), step { s with pending := c :: r } = exec c { s with pending := r }) ∧
  (∀ s : State, s.pending = [] → step s = .next s)

/-- Reset leaves the queue of commands empty, every register at its reset value, every queue empty, no fault open, no
outlet energised, and no channel on. -/
def Obligations.ResetState : Prop :=
  State.reset.pending = [] ∧ (∀ f : Fld, State.reset.rd f = resetVal f.key) ∧
    (∀ n, State.reset.q n = ⟨[], none, []⟩) ∧ State.reset.flt.table = [] ∧ Outputs State.reset ∧
    (∀ a, readByte State.reset.hp.rroom a = 0) ∧ core.reset = State.reset

/-- Every step keeps the outputs that R57 permits: in the modes that permit no outlet to energise no coils are commanded
on, neither half closes an LSE or releases an inhibit line, and no channel that the mode holds off is starting or on. -/
def Obligations.EveryStepKeepsPermittedOutputs : Prop :=
  ∀ s t : State, Outputs s → step s = .next t → Outputs t

/-- Every command answers a next state whatever the state, and leaves the outputs that R57 permits, the marks of the step's
own pushes cleared: no command stops the model. -/
def Obligations.EveryCommandAnswers : Prop :=
  ∀ (c : Instr) (s : State), ∃ t, exec c s = .next t ∧ Outputs t ∧ t.pushed = []

/-- In a mode that accepts no writes (DORMANT, LOADING, START_TEST, LOCKDOWN, or RESET_N low) a write of a command changes
nothing: the state that rests stays.
A host write below the level it needs changes nothing but the count of denied writes. -/
def Obligations.WritesNeedTheirModeAndLevel : Prop :=
  (∀ (c : Instr) (a : Agent) (n : Nat) (s : State), gateOf c = some (a, n) → s.modeWrites = false → AtRest s →
    exec c s = .next s) ∧
  (∀ (c : Instr) (n : Nat) (s : State), gateOf c = some (.host, n) → s.rd Reg.HP.STATUS.LEVEL < n → Calm s →
    exec c s = .next (s.wr Reg.HP.STATUS.DENIED (min (2 ^ Reg.HP.STATUS.DENIED.w - 1) (s.rd Reg.HP.STATUS.DENIED + 1))))

/-- An item put into a queue whose tail register is empty comes out behind the items there, spill and refill keep the
order, an item is ready in stage 0 whenever the queue holds one, and a pop takes the oldest (R541). -/
def Obligations.QueuesAreFirstInFirstOut : Prop :=
  (∀ (x : Queue) (i : Item), x.tail = none → (x.put i).items = x.items ++ [i]) ∧
  (∀ x : Queue, x.spill.items = x.items ∧ x.refill.items = x.items ∧ x.ready.items = x.items) ∧
  (∀ x : Queue, x.ready.chain.head? = x.items.head?) ∧
  (∀ x : Queue, x.chain ≠ [] → x.pop.items = x.items.drop 1)

/-- A raised fault of class Notice or Minor, where no Major or Grave fault and no entry of its code is open and an entry is
free, opens an entry of its own, sets the interrupt if it is Minor, and changes nothing but what the collector, the
recorder and the queues hold (case 4 of R491, R495).
A raised fault of class Notice or Minor merges into the oldest open entry of class Major or Grave, else into the open
entry of its code, else, with all 32 open, into the oldest (R491); the entry keeps the higher class, its count of merged
faults rises to at most 255, and every other entry stays (R492). -/
def Obligations.NoticeAndMinorFaultsOpenOrMerge : Prop :=
  (∀ (code : Fin 65536) (detail : Nat) (s : State), Calm s → Opens code s → faultClass code ≤ 1 →
    ∃ t, exec (.faultRaise code detail) s = .next t ∧ Opened code detail s t) ∧
  (∀ (code : Fin 65536) (detail : Nat) (e : Entry) (s : State), Calm s → faultClass code ≤ 1 →
    (s.flt.table.find? (fun x => decide (2 ≤ x.cls)) = some e ∨
      (s.flt.table.find? (fun x => decide (2 ≤ x.cls)) = none ∧
        (s.flt.table.find? (fun x => decide (x.code = code.val)) = some e ∨
          (s.flt.table.find? (fun x => decide (x.code = code.val)) = none ∧ 32 ≤ s.flt.table.length ∧
            s.flt.table.head? = some e)))) →
    ∃ t, exec (.faultRaise code detail) s = .next t ∧ Booked s t ∧
      t.flt.table = s.flt.table.map fun x =>
        if x.idx = e.idx then { e with
            cls := max e.cls (faultClass code), merged := min 255 (e.merged + 1),
            members := e.members ++ [(code.val, detail)] }
        else x)

/-- A raised Major fault in modes 2 to 9 enters SAFE_HOLD: MODE and PREV say so, the force lines are active, the outputs are
safe, and no register outside the blocks of the change of mode differs but FORCE and LATCHED (R60, R495).
A raised Grave fault in modes 1 to 10 enters LOCKDOWN and latches the Keeper (R60, R355, R495). -/
def Obligations.MajorAndGraveFaultsMakeTheOutputsSafe : Prop :=
  (∀ (code : Fin 65536) (detail : Nat) (s : State), s.running = true → faultClass code = 2 → 2 ≤ s.mode → s.mode ≤ 9 →
    MinorTodo s → SealShut s → ∃ t, exec (.faultRaise code detail) s = .next t ∧ Halted 10 s t) ∧
  (∀ (code : Fin 65536) (detail : Nat) (s : State), s.running = true → faultClass code = 3 → 1 ≤ s.mode →
    s.mode ≤ 10 → MinorTodo s → SealShut s →
    ∃ t, exec (.faultRaise code detail) s = .next t ∧ Halted 11 s t ∧ t.rd Reg.SAF.STATUS.LATCHED = 1)

/-- A Notice entry closes at its time, a Minor entry at a write of its number to FLT.ACK at Operator level: the entry goes,
every other stays, and with no Major or Grave entry left the force lines and ERR_HOLD are released (R493, R496).
ERR_N (R496): a write of ERR_HOLD is stored, but a 1 only while a Major or Grave entry is open; after the 10 ms, ERR_N
stays low for ERR_HOLD or for a Grave fault. -/
def Obligations.EntriesCloseAndReleaseErrorPin : Prop :=
  (∀ (i : Fin 32) (s : State), Calm s →
    (∀ c : Instr, (c = .noticeClose i ∧ (s.flt.table.any fun e => e.idx = i.val && e.cls = 0) = true) ∨
        (∃ a, c = .fltAck a i ∧ 1 ≤ s.level a ∧ (s.flt.table.any fun e => e.idx = i.val && e.cls = 1) = true) →
      ∃ t, exec c s = .next t ∧ (t.flt.table = s.flt.table.filter fun e => decide (e.idx ≠ i.val)) ∧
        (t.majorOpen = false → t.rd Reg.SAF.STATUS.FORCE = 0 ∧ t.rd Reg.FLT.CTL.ERR_HOLD = 0) ∧
        SameRegs (fun b => bookBlock b || b = 0x34) s t ∧ t.unbooked = s.unbooked) ∧
    ((s.flt.table.any fun e => e.idx = i.val && e.cls = 0) = false → exec (.noticeClose i) s = .next s)) ∧
  (∀ s : State, Calm s →
    (∀ (a : Agent) (v : Bool), 1 ≤ s.level a → (v = false ∨ s.majorOpen = true) →
      exec (.errHoldWrite a v) s = .next ((s.setB Reg.FLT.CTL.ERR_HOLD v).setB Reg.FLT.STATUS.ERR_LOW
        (s.flt.errMin || v || s.bit Reg.FLT.STATUS.LATCH))) ∧
    (∀ a : Agent, 1 ≤ s.level a → s.majorOpen = false → exec (.errHoldWrite a true) s = .next s) ∧
    exec .errNRelease s = .next (({ s with flt := { s.flt with errMin := false } } : State).setB Reg.FLT.STATUS.ERR_LOW
      (s.bit Reg.FLT.CTL.ERR_HOLD || s.bit Reg.FLT.STATUS.LATCH)))

/-- Injection works in FACTORY_TEST alone; elsewhere it is ignored and raises FLT_INJECT_REFUSED (R498).
A memory error (R490): one that is corrected raises FLT_ECC_CORRECTED; an uncorrectable one raises FLT_ECC_UNCORR in
general memory, FLT_ECC_CRITICAL in the critical ones, and FLT_ECC_LEGAL in the legal area. -/
def Obligations.InjectionAndMemoryErrors : Prop :=
  (∀ (a : Agent) (s : State), Calm s → 1 ≤ s.level a →
    (∀ (code : Fin 65536), s.mode = 3 → faultClass code ≤ 1 → Opens code s →
      ∃ t, exec (.fltInject a code true) s = .next t ∧ OpenedBy true code 0 s t) ∧
    (∀ (code : Fin 65536), s.mode = 3 → exec (.fltInject a code false) s = .next s) ∧
    (∀ (arm : Bool) (mem : Fin 8) (bits : Fin 4) (word : Nat), s.mode = 3 →
      exec (.fltInjMem a arm mem bits word) s = .next
        ((((s.setB Reg.FLT.INJ_MEM.ARM arm).wr Reg.FLT.INJ_MEM.MEM mem).wr Reg.FLT.INJ_MEM.BITS bits).wr
          Reg.FLT.INJ_MEM.WORD word)) ∧
    (s.mode ≠ 3 → Opens 0x0806 s →
      (∀ (code : Fin 65536) (go : Bool), ∃ t, exec (.fltInject a code go) s = .next t ∧ Opened 0x0806 0 s t) ∧
      (∀ (arm : Bool) (mem : Fin 8) (bits : Fin 4) (word : Nat),
        ∃ t, exec (.fltInjMem a arm mem bits word) s = .next t ∧ Opened 0x0806 0 s t))) ∧
  (∀ (loc : Nat) (s : State), Calm s →
    (∀ m : MemClass, Opens 0x0801 s → ∃ t, exec (.eccError m true loc) s = .next t ∧ Opened 0x0801 0 s t) ∧
    (∀ m : MemClass, m = .sram ∨ m = .mramOther → Opens 0x4802 s →
      ∃ t, exec (.eccError m false loc) s = .next t ∧ Opened 0x4802 0 s t) ∧
    (∀ m : MemClass, m = .critical ∨ m = .mramStore → SealShut s →
      ∃ t, exec (.eccError m false loc) s = .next t ∧ Halted 10 s t) ∧
    (SealShut s → ∃ t, exec (.eccError .mramLegal false loc) s = .next t ∧ Halted 11 s t))

/-- A record of the runtime of type 0x80 or more takes the next RNO and joins the recorder-input queue behind the items
there, its other fields filled by the recorder; an item of a lower type is discarded and counted (R502, R504, R510).
A drain starts 2 s after the last and on a write of EVR.CTL.FLUSH; when it completes, every record is in its slot, the
queue is empty and CIRC_HEAD is in the catalogue (R504, R508).
Records 1 to 4,096 go to their own slot of the accession area; every later one to the head of the circulation area,
whose next usable slot becomes the head; no other slot changes (R502). -/
def Obligations.RecordsAreQueuedAndDrained : Prop :=
  (∀ (ty : Fin 256) (payload : List Byte) (s : State), Calm s → s.bit Reg.EVR.STATUS.RUN = true →
    s.rd Reg.EVR.NEXT_RNO.RNO + 1 < 2 ^ 32 →
    (0x80 ≤ ty.val → ∃ t ms, exec (.runtimeRecord ty payload) s = .next t ∧ ms < 1000 ∧
      (t.q 15).items = (s.q 15).items ++ [Rec.toItem ⟨s.rd Reg.EVR.NEXT_RNO.RNO, ty, 0, ms, s.rd Reg.PWR.CYCLES.COUNT,
        s.rd Reg.PWR.OPSEC.SECONDS, leValue (payload.take 40)⟩] ∧
      t.rd Reg.EVR.NEXT_RNO.RNO = s.rd Reg.EVR.NEXT_RNO.RNO + 1 ∧ Booked s t) ∧
    (ty.val < 0x80 → exec (.runtimeRecord ty payload) s = .next (s.inc Reg.EVR.LOST.COUNT))) ∧
  (∀ s : State, Calm s → s.bit Reg.EVR.STATUS.RUN = true →
    (s.bit Reg.EVR.STATUS.DRAINING = false → exec .drainTimer s = .next (s.setB Reg.EVR.STATUS.DRAINING true)) ∧
    (∀ a : Agent, 1 ≤ s.level a → s.bit Reg.EVR.STATUS.DRAINING = false →
      exec (.evrFlush a) s = .next ((s.setB Reg.EVR.CTL.FLUSH true).setB Reg.EVR.STATUS.DRAINING true)) ∧
    (∀ u : State, s.bit Reg.EVR.STATUS.DRAINING = true → (∀ i ∈ (s.q 15).items, i.poison = 0) →
      u = ((s.q 15).items.map Item.toRec).foldl slotWrite (s.setQ 15 Queue.empty) →
      exec .drainComplete s = .next ((({ u with evr := { u.evr with circHead := u.rd Reg.EVR.CIRC_HEAD.SLOT } } : State).setB
        Reg.EVR.STATUS.DRAINING false).setB Reg.EVR.CTL.FLUSH false))) ∧
  (∀ (r : Rec) (s : State),
    (r.rno ≤ 4096 → ∀ k, mapGet (fun _ => Rec.empty) (slotWrite s r).evr.acc k =
      if k = r.rno - 1 then r else mapGet (fun _ => Rec.empty) s.evr.acc k) ∧
    (r.rno ≤ 4096 → (slotWrite s r).evr.circ = s.evr.circ ∧ (slotWrite s r).regs = s.regs) ∧
    (4096 < r.rno → s.evr.retired = [] → (∀ k, mapGet (fun _ => Rec.empty) (slotWrite s r).evr.circ k =
        if k = s.rd Reg.EVR.CIRC_HEAD.SLOT then r else mapGet (fun _ => Rec.empty) s.evr.circ k) ∧
      (slotWrite s r).evr.acc = s.evr.acc ∧
      (slotWrite s r).rd Reg.EVR.CIRC_HEAD.SLOT = (s.rd Reg.EVR.CIRC_HEAD.SLOT + 1) % 65536))

/-- CHAL draws 16 bytes as the challenge in force, unless a lockout runs; DROP, GO of level 0 and an idle session return to
Observer; the end of a lockout clears LOCKED alone (R534, R536).
GO grants its level when the challenge in force is less than 10 s old and the response is the HMAC of R534 under the
level's key, and clears FAILS; every other response is counted, and the third locks the port and raises a Notice (R534,
R536). -/
def Obligations.SessionsAndChallenges : Prop :=
  (∀ s : State, Calm s →
    (∀ v, v = Config.random s.free % 2 ^ 128 → s.bit Reg.HP.STATUS.LOCKED = false →
      exec .authChal s = .next (forEach 4 (fun k t => t.wr (Reg.HP.CHAL.BYTES k) (v / 2 ^ (32 * (3 - k)) % 2 ^ 32))
        { s with free := s.free + 1, hp := { s.hp with challenge := some (v, s.rd Reg.RTC.TICK.SECONDS) } })) ∧
    (s.bit Reg.HP.STATUS.LOCKED = true → exec .authChal s = .next s ∧ ∀ l, exec (.authGo l) s = .next s) ∧
    (s.bit Reg.HP.STATUS.LOCKED = false → exec (.authGo 0) s = .next (s.wr Reg.HP.STATUS.LEVEL 0)) ∧
    exec .authDrop s = .next (s.wr Reg.HP.STATUS.LEVEL 0) ∧
    exec .hpSessionIdle s = .next (s.wr Reg.HP.STATUS.LEVEL 0) ∧
    exec .hpLockoutEnd s = .next (s.setB Reg.HP.STATUS.LOCKED false)) ∧
  (∀ (l : Fin 4) (v drawn : Nat) (s u : State), Calm s → l ≠ 0 → s.lc ≠ 0 → s.bit Reg.HP.STATUS.LOCKED = false →
    s.hp.challenge = some (v, drawn) → s.rd Reg.RTC.TICK.SECONDS < drawn + 10 →
    u = { s with free := s.free + 1, hp := { s.hp with challenge := none } } →
    (s.levelSlot l < 64 → s.slotHas (s.levelSlot l) 1 = true → s.key.locked = false →
      s.response = s.wantedResponse l v →
      exec (.authGo l) s = .next ((u.wr Reg.HP.STATUS.LEVEL l).wr Reg.HP.STATUS.FAILS 0)) ∧
    (s.response ≠ s.wantedResponse l v → s.rd Reg.HP.STATUS.FAILS < 2 →
      exec (.authGo l) s = .next (u.wr Reg.HP.STATUS.FAILS (s.rd Reg.HP.STATUS.FAILS + 1))) ∧
    (s.response ≠ s.wantedResponse l v → 2 ≤ s.rd Reg.HP.STATUS.FAILS → Opens 0x0501 s →
      ∃ t, exec (.authGo l) s = .next t ∧
        Opened 0x0501 0 ((u.wr Reg.HP.STATUS.FAILS 3).setB Reg.HP.STATUS.LOCKED true) t))

/-- A word written to a register acts on each of its fields by the field's access code: RW stores, W1C clears the bits
written as 1, and every other field stays (R9).
REGISTER_WRITE: an unaligned register address is an access error; a register with one RW field at Observer level takes
the value; a word written to a free page of the reading room is stored as its four bytes, lowest first (R7, R9, R41). -/
def Obligations.RegisterWritesFollowAccessCodes : Prop :=
  (∀ (a v : Nat) (f : FldDesc) (s : State), ¬ (0x5020 ≤ a ∧ a < 0x5030) →
    (f.acc = .rw → fieldWrite a v f s = s.wr ⟨a, f.lo, f.hi - f.lo + 1⟩ (bitsOf v f.hi f.lo)) ∧
    (f.acc = .w1c → fieldWrite a v f s = s.wr ⟨a, f.lo, f.hi - f.lo + 1⟩
      (s.rd ⟨a, f.lo, f.hi - f.lo + 1⟩ - Nat.land (s.rd ⟨a, f.lo, f.hi - f.lo + 1⟩) (bitsOf v f.hi f.lo))) ∧
    (f.acc ≠ .rw → f.acc ≠ .w1c → fieldWrite a v f s = s)) ∧
  (∀ (a : Agent) (addr value : Nat) (s : State), Calm s →
    (addr < 0x40000 → addr % 4 ≠ 0 → exec (.registerWrite a addr value) s =
      .next ((s.inc Reg.HP.STATUS.ACC_ERRS).setB Reg.HP.STATUS.ACC_STK true)) ∧
    (0x100000 ≤ addr → addr < 0x200000 → s.pageOwned addr = false → exec (.registerWrite a addr value) s =
      .next { s with hp := { s.hp with rroom := writeBytes s.hp.rroom (addr - 0x100000) (leBytes 4 (value % 2 ^ 32)) } }))

/-- The transactions of the wire: a READ of the reading room answers its words with their CRC; a WRITE with a wrong CRC
changes nothing but the sticky flag; a right one stores every word; STATUS answers HP.STATUS; a time-out answers 0x5 (R531,
R532). -/
def Obligations.TransactionsAnswer : Prop :=
  ∀ s : State, Calm s →
    (∀ (addr : Nat) (count : Fin 256) (l : List Nat), 0x100000 ≤ addr → addr + 4 * (count + 1) ≤ 0x200000 →
      l = (List.range (count + 1)).map (fun i => leValue (readBytes s.hp.rroom (addr - 0x100000 + 4 * i) 4)) →
      exec (.hpRead addr count) s = .next { s with hp := { s.hp with
        answer := l, answerMark := 0xA,
        answerCrc := crc16 (leBytes 1 0x0B ++ beBytes 4 addr ++ leBytes 1 count ++ l.flatMap (beBytes 4)) } }) ∧
    (∀ (addr : Nat) (words : List Nat) (crc : Nat), words ≠ [] → words.length ≤ 256 →
      crc16 (leBytes 1 0x02 ++ beBytes 4 addr ++ leBytes 1 (words.length - 1) ++ words.flatMap (beBytes 4)) ≠ crc →
      exec (.hpWrite addr words crc) s = .next { s.setB Reg.HP.STATUS.CRC_STK true with
        hp := { s.hp with answer := [], answerCrc := 0, answerMark := 0xC } }) ∧
    (∀ (addr : Nat) (words : List Nat), words ≠ [] → words.length ≤ 256 → 0x100000 ≤ addr →
      addr + 4 * words.length ≤ 0x200000 → s.hp.active = none → s.hp.handed = [] →
      exec (.hpWrite addr words
        (crc16 (leBytes 1 0x02 ++ beBytes 4 addr ++ leBytes 1 (words.length - 1) ++ words.flatMap (beBytes 4)))) s =
        .next { s with hp := { s.hp with
          answer := [], answerCrc := 0, answerMark := 0xA,
          rroom := writeBytes s.hp.rroom (addr - 0x100000) (words.flatMap fun w => leBytes 4 (w % 2 ^ 32)) } }) ∧
    (∀ w, w = s.word Reg.HP.STATUS.LEVEL.addr → exec .hpStatusRead s = .next { s with hp := { s.hp with
      answer := [w], answerCrc := crc16 (leBytes 1 0x05 ++ beBytes 4 w), answerMark := 0xF } }) ∧
    exec .hpTimeout s = .next { s with hp := { s.hp with answer := [], answerCrc := 0, answerMark := 0x5 } }

/-- A buffer keeps its canonical form at every write; what was written reads back, and every byte outside the written range
reads as before. -/
def Obligations.BuffersReadWhatWasWritten : Prop :=
  ∀ (m : Bytes) (a : Nat) (l : List Byte),
    (mapWf byteDefault m = true → mapWf byteDefault (writeBytes m a l) = true) ∧
    readBytes (writeBytes m a l) a l.length = l ∧
    (∀ b, b < a ∨ a + l.length ≤ b → readByte (writeBytes m a l) b = readByte m b) ∧
    (∀ n : Bytes, mapWf byteDefault m = true → mapWf byteDefault n = true → (∀ b, readByte m b = readByte n b) → m = n)

/-- A descriptor handed over at the level of its kind joins the hand-over order; below that level it comes back with RESULT
1; one that the A16 owns is an access error; the oldest descriptor becomes active when its range and pages allow it, else it
comes back with RESULT 2 or 3 (R538, R539).
A completed transfer (R538): KIND 1 writes load-profile records into the descriptor's pages, KIND 2 what the octal SPI
memory holds, KIND 3 stores the pages' bytes there; a failed write comes back with RESULT 4, and each descriptor comes
back with the length moved. -/
def Obligations.DescriptorsAndTransfers : Prop :=
  (∀ s : State, Calm s →
    (∀ (d : Fin 32) (kind tag : Fin 256) (u : State), s.bit (Reg.HP.DESC0.OWN d) = false →
      u = (s.wr (Reg.HP.DESC0.KIND d) kind).wr (Reg.HP.DESC0.TAG d) tag →
      (∀ l, kindLevel kind = some l → l ≤ s.level .host → exec (.descHandover d kind tag) s =
        .next { u.setB (Reg.HP.DESC0.OWN d) true with hp := { s.hp with handed := s.hp.handed ++ [d.val] } }) ∧
      ((∀ l, kindLevel kind = some l → s.level .host < l) → exec (.descHandover d kind tag) s = .next (handBack d 1 0 u))) ∧
    (∀ (d : Fin 32) (kind tag : Fin 256), s.bit (Reg.HP.DESC0.OWN d) = true → exec (.descHandover d kind tag) s =
      .next ((s.inc Reg.HP.STATUS.ACC_ERRS).setB Reg.HP.STATUS.ACC_STK true)) ∧
    (∀ (d : Fin 32) (r : List Nat) (u : State), s.hp.active = none → s.hp.handed = d.val :: r →
      u = { s with hp := { s.hp with handed := r } } →
      (s.descRange d = false → exec .descTransferStart s = .next (handBack d 2 0 u)) ∧
      (s.descRange d = true → u.descFree d = false → exec .descTransferStart s = .next (handBack d 3 0 u)) ∧
      (s.descRange d = true → u.descFree d = true →
        exec .descTransferStart s = .next { s with hp := { s.hp with handed := r, active := some d.val } })) ∧
    (∀ (d : Fin 32) (result len : Nat), handBack d result len s =
      (((s.wr (Reg.HP.DESC0.RESULT d) result).wr (Reg.HP.DESC3.LENGTH d) len).setB (Reg.HP.DESC0.OWN d) false).setFlag
        Reg.HP.IRQ_STATUS.SRC 0 true)) ∧
  (∀ (d : Fin 32) (s u : State), Calm s → s.hp.active = some d.val → u = { s with hp := { s.hp with active := none } } →
    (∀ (r : OspiResult) (n : Nat), s.rd (Reg.HP.DESC0.KIND d) = 1 →
      n = min (s.profileLeft (s.rd (Reg.HP.DESC2.ARG d))) (s.descRoom d / 32) →
      exec (.descTransferDone r) s = .next (handBack d 0 (32 * n) { u with hp := { u.hp with
        rroom := writeBytes s.hp.rroom (s.descAddr d 0) (s.profileBytes (s.rd (Reg.HP.DESC2.ARG d)) n) } })) ∧
    (∀ bytes : List Byte, s.rd (Reg.HP.DESC0.KIND d) = 3 → exec (.descTransferDone (.done bytes)) s =
      .next (handBack d 0 (s.rd (Reg.HP.DESC3.LENGTH d)) { u with hp := { u.hp with
        ospi := ospiPut (s.rd (Reg.HP.DESC2.ARG d))
          ((List.range (s.rd (Reg.HP.DESC3.LENGTH d))).map fun i => some (readByte s.hp.rroom (s.descAddr d i)))
          s.hp.ospi } })) ∧
    (∀ bytes : List Byte, s.rd (Reg.HP.DESC0.KIND d) = 2 → bytes.length = s.descRoom d →
      exec (.descTransferDone (.done bytes)) s = .next (handBack d 0 (s.descRoom d) { u with
        free := s.free + 1,
        hp := { u.hp with rroom := (writeBytes s.hp.rroom (s.descAddr d 0)
          (bytes.zipIdx.map fun x => s.ospiByte (s.rd (Reg.HP.DESC2.ARG d) + x.2) x.1)) } })) ∧
    (s.rd (Reg.HP.DESC0.KIND d) = 2 → exec (.descTransferDone .error) s =
      .next (handBack d 4 (Config.freeValue s.free) { u with free := s.free + 1 })))

/-- The consumer's operations on the queue its port selects (R540, R541, R546): on an empty queue RESULT is 1; PEEK copies
the oldest item, POP copies and takes it, DISCARD takes it; what waits in the annex or the tail register moves up.
PUSH by the producer (R542, R546): the item joins the queue, or RESULT is 2 when the queue refuses it; a push to Q[15]
is a record of the runtime (R510).
A port operation is refused with RESULT 5 below Operator level, else with 4 when a flush has made the copied item
invalid, else with 3 when the agent lacks the role; nothing else changes (R544, R546).
FLUSH by the consumer, or by a session at Utility level, empties its queue, counts, and makes the copies of its items
invalid; Q[0] to Q[2] and Q[15] ignore it (R544). A 1 written to WM_STK clears it (R545). -/
def Obligations.QueuePorts : Prop :=
  (∀ (a : Agent) (s : State), Calm s → 1 ≤ s.level a → s.consumes a (s.port a).sel = true →
    ¬ ((s.port a).copyOf = some (s.port a).sel ∧ (s.port a).invalid = true) →
    ((s.q (s.port a).sel).items = [] → ∀ c : Instr, c = .qPeek a ∨ c = .qPop a ∨ c = .qDiscard a →
      exec c s = .next (portResult a 1 s)) ∧
    (∀ (i : Item) (r : List Item), (s.q (s.port a).sel).ready.chain = i :: r →
      exec (.qPeek a) s = .next (portResult a 0 (portCopy a (s.port a).sel i
        (s.setQ (s.port a).sel (s.q (s.port a).sel).ready))) ∧
      (i.poison = 0 → exec (.qPop a) s = .next (portResult a 0 (portCopy a (s.port a).sel i
        (s.setQ (s.port a).sel (s.q (s.port a).sel).ready.pop)))) ∧
      exec (.qDiscard a) s = .next (portResult a 0 (s.setQ (s.port a).sel (s.q (s.port a).sel).ready.pop)))) ∧
  (∀ (a : Agent) (s : State), Calm s → 1 ≤ s.level a → s.produces a (s.port a).sel = true → (s.port a).sel < 32 →
    ¬ ((s.port a).copyOf = some (s.port a).sel ∧ (s.port a).invalid = true) →
    (s.qRefuses (s.port a).sel = true → exec (.qPush a) s = .next (portResult a 2 s)) ∧
    (s.qRefuses (s.port a).sel = false → (s.port a).sel ≠ 15 → exec (.qPush a) s =
      .next (portResult a 0 (s.qAccept (s.port a).sel ⟨(s.port a).words (s.port a).sel, 0⟩))) ∧
    (s.qRefuses 15 = false → (s.port a).sel = 15 → 0x80 ≤ ((s.port a).words 15).getD 0 0 / 2 ^ 32 % 256 →
      exec (.qPush a) s = .next (portResult a 0 (s.record (((s.port a).words 15).getD 0 0 / 2 ^ 32 % 256)
        (leValue ((((s.port a).words 15).drop 2).flatMap (leBytes 8) |>.take 40)) false)))) ∧
  (∀ (a : Agent) (s : State) (c : Instr), Calm s →
    c = .qPeek a ∨ c = .qPop a ∨ c = .qPush a ∨ c = .qDiscard a →
    (s.level a < 1 → exec c s = .next (portResult a 5 s)) ∧
    (1 ≤ s.level a → (s.port a).copyOf = some (s.port a).sel → (s.port a).invalid = true →
      exec c s = .next (s.mapPort a fun p => { p with copyOf := none, invalid := false, result := 4 })) ∧
    (1 ≤ s.level a → ¬ ((s.port a).copyOf = some (s.port a).sel ∧ (s.port a).invalid = true) →
      s.consumes a (s.port a).sel = false → s.produces a (s.port a).sel = false →
      exec c s = .next (portResult a 3 s))) ∧
  (∀ (a : Agent) (n : Fin 32) (s : State), Calm s → 1 ≤ s.level a →
    (3 ≤ n.val → n.val ≠ 15 → (s.consumes a n = true ∨ (a = .host ∧ 2 ≤ s.level a)) →
      exec (.qFlush a n) s = .next (((((s.setQ n Queue.empty).inc (Reg.Q.COUNTS.FLUSHES n))).mapPort .host
        (fun p => if p.copyOf = some n.val then { p with invalid := true } else p)).mapPort .runtime
        (fun p => if p.copyOf = some n.val then { p with invalid := true } else p))) ∧
    ((n.val < 3 ∨ n.val = 15) → exec (.qFlush a n) s = .next s) ∧
    exec (.wmStkClear a n) s = .next (s.setB (Reg.Q.STATUS.WM_STK n) false))

/-- The annex (R541, R543): a spill moves the tail register's item behind the annex; a refill moves the oldest annex item to
stage 7, marking the words read with bad parity and counting them.
A frame received by ETH[0] posts one descriptor of four words to Q[17]; its format is the runtime's own, so its words
are free values (R540). A gated interface receives nothing (R35). -/
def Obligations.AnnexAndEthernet : Prop :=
  (∀ (n : Fin 32) (s : State), Calm s →
    exec (.annexSpill n) s = .next (s.setQ n (s.q n).spill) ∧
    (∀ (bad : Fin 65536) (i : Item) (r : List Item), (s.q n).annex = i :: r → (s.q n).chain.length < 8 →
      exec (.annexRefill n bad) s = .next ((s.setQ n { s.q n with
          chain := (s.q n).chain ++ [{ i with poison := Nat.lor i.poison (bad % 2 ^ qWords n) }], annex := r }).wr
        Reg.ANX.PARITY.COUNT (min 65535 (s.rd Reg.ANX.PARITY.COUNT + ones (bad % 2 ^ qWords n) 16)))) ∧
    (∀ bad : Fin 65536, ((s.q n).annex = [] ∨ 8 ≤ (s.q n).chain.length) → exec (.annexRefill n bad) s = .next s)) ∧
  (∀ s : State, Calm s →
    (s.bit Reg.CLK.GATE.ETH = true → s.qRefuses 17 = false → exec .eth0FrameReceived s =
      .next (({ s with free := s.free + 4 } : State).qAccept 17
        ⟨[Config.freeValue s.free % 2 ^ 64, Config.freeValue (s.free + 1) % 2 ^ 64,
          Config.freeValue (s.free + 2) % 2 ^ 64, Config.freeValue (s.free + 3) % 2 ^ 64], 0⟩)) ∧
    (s.bit Reg.CLK.GATE.ETH = false → exec .eth0FrameReceived s = .next s))

/-- OPEN gives the agent a free set, or answers 2 where it has one and 1 where none is free; CHECK, BIND and CANCEL answer
3 without a set, 5 for an overflowed one, 4 with the failing register in FAIL_ADDR, 8 for an unknown KIND, 6 for another
agent's set, and 0 else: BIND then makes the set pending behind the sets bound before it, CANCEL frees it (R548, R549, R550,
R552). -/
def Obligations.BinderyAnswersItsCommands : Prop :=
  ∀ (a : Agent) (s : State), Calm s → 1 ≤ s.level a →
    (∀ k, s.openSet a = some k → exec (.bndOpen a) s = .next (bndResult k 1 2 s)) ∧
    (s.openSet a = none → s.freeBset = none → exec (.bndOpen a) s = .next (bndResult 0 1 1 s)) ∧
    (∀ k, s.openSet a = none → s.freeBset = some k → exec (.bndOpen a) s =
      .next (bndResult k 1 0 (s.setBset k { BindSet.empty with st := 1, owner := ownerOf a }))) ∧
    (s.openSet a = none → exec (.bndCheck a) s = .next (bndResult 0 2 3 s) ∧
      ∀ kind x y, exec (.bndBind a kind x y) s = .next (bndResult 0 3 3 s)) ∧
    (∀ k, s.openSet a = some k → (s.bset k).overflow = true → exec (.bndCheck a) s = .next (bndResult k 2 5 s)) ∧
    (∀ k r, s.openSet a = some k → (s.bset k).overflow = false → checkFails s.ahead (s.bset k).staged = some r →
      exec (.bndCheck a) s = .next (bndResult k 2 4 (s.wr Reg.BND.FAIL_ADDR.VALUE r))) ∧
    (∀ k, s.openSet a = some k → (s.bset k).overflow = false → checkFails s.ahead (s.bset k).staged = none →
      exec (.bndCheck a) s = .next (bndResult k 2 0 s) ∧
      (∀ (kind x y : Fin 16), 0 < kind.val → kind.val < 4 → exec (.bndBind a kind x y) s =
        .next { (bndResult k 3 0 s).setBset k { s.bset k with
          st := 2, kind := kind, arg := x, arg2 := y, order := s.bindNo,
          time := s.rd Reg.BND.TIME_LO.VALUE + s.rd Reg.BND.TIME_HI.VALUE * 2 ^ 32 } with bindNo := s.bindNo + 1 })) ∧
    (∀ k (kind x y : Fin 16), s.openSet a = some k → 5 ≤ kind.val →
      exec (.bndBind a kind x y) s = .next (bndResult k 3 8 s)) ∧
    (∀ k : Fin 4, ((s.bset k).st = 0 → exec (.bndCancel a k) s = .next (bndResult k 4 3 s)) ∧
      ((s.bset k).st ≠ 0 → (s.bset k).owner ≠ ownerOf a → exec (.bndCancel a k) s = .next (bndResult k 4 6 s)) ∧
      ((s.bset k).st ≠ 0 → (s.bset k).owner = ownerOf a →
        exec (.bndCancel a k) s = .next (bndResult k 4 0 (s.setBset k BindSet.empty))))

/-- A write of RWS fields joins the agent's open set and leaves the register in force; without an open set it is counted in
NOSET. PEEK shows the staged value merged over the value in force, or the value in force (R547, R548, R423).
A set holds each register once: a second write of a register merges over the first by its mask, a new one follows the
others, and a 257th register is dropped and marks the set (R547). -/
def Obligations.WritesOfRwsFieldsAreStaged : Prop :=
  (∀ (a : Agent) (s : State), Calm s →
    (∀ addr v k, rwsMask addr ≠ 0 → writeLevel addr ≤ s.level a → s.openSet a = some k →
      exec (.rwsWrite a addr v) s = .next (s.setBset k ((s.bset k).stage addr (rwsMask addr) v))) ∧
    (∀ addr v, rwsMask addr ≠ 0 → writeLevel addr ≤ s.level a → s.openSet a = none →
      exec (.rwsWrite a addr v) s = .next (s.inc Reg.BND.STATUS.NOSET)) ∧
    (∀ (v : Fin 64) k, 1 ≤ s.level a → s.openSet a = some k →
      exec (.elvssWrite a v) s = .next (s.setBset k ((s.bset k).stage Reg.DPY.RAIL.ELVSS.addr 63 v))) ∧
    (∀ addr w, addr < 2 ^ 18 → addr % 4 = 0 → w = s.regWord a addr →
      (∀ k m v, s.openSet a = some k → ((s.bset k).staged.find? fun x => x.1 = addr) = some (addr, m, v) →
        exec (.bndPeek a addr) s = .next (((s.wr Reg.BND.PEEK_ADDR.ADDR (addr / 4)).setB Reg.BND.PEEK_ADDR.STAGED true).wr
          Reg.BND.PEEK_VAL.VALUE (Nat.lor (w - Nat.land w m) (Nat.land v m)))) ∧
      (((s.openSet a).bind fun k => (s.bset k).staged.find? fun x => x.1 = addr) = none →
        exec (.bndPeek a addr) s = .next (((s.wr Reg.BND.PEEK_ADDR.ADDR (addr / 4)).setB Reg.BND.PEEK_ADDR.STAGED false).wr
          Reg.BND.PEEK_VAL.VALUE w)))) ∧
  (∀ (b : BindSet) (addr mask v : Nat),
    ((∀ x ∈ b.staged, x.1 ≠ addr) → b.staged.length < 256 →
      (b.stage addr mask v).staged = b.staged ++ [(addr, mask, Nat.land v mask)] ∧
      (b.stage addr mask v).overflow = b.overflow) ∧
    ((∀ x ∈ b.staged, x.1 ≠ addr) → 256 ≤ b.staged.length →
      (b.stage addr mask v).staged = b.staged ∧ (b.stage addr mask v).overflow = true) ∧
    ((b.staged.map (·.1)).Nodup → ((b.stage addr mask v).staged.map (·.1)).Nodup) ∧
    (b.staged.length ≤ 256 → (b.stage addr mask v).staged.length ≤ 256))

/-- At a second edge TICK and OPSEC count, the deviation of the count from 300,000,000 stands in CLK.DISC.DEV, DISC_OK says
whether it is at most 30,000, and the next boundary starts quantum 0 (R30, R31, R180).
The RTC oscillator (R32, R187): its failure clears RTC_OK, sets FREE and raises 0x4E02; its return sets RTC_OK and clears
FREE; the third second out of range raises 0x4103 (R31). A read of NOW_SEC latches the fraction (R180).
A lost root clock or an unlocked PLL is a Major fault: SAFE_HOLD, with the Keeper's outputs off (R33, R34). -/
def Obligations.ClockCountsAndFails : Prop :=
  (∀ (n : Nat) (good : Bool) (s u v : State), Calm s → s.sys.unpowered = false → s.sys.resetLow = false →
    s.bit Reg.CLK.STATUS.RTC_OK = true → good = decide (299970000 ≤ n ∧ n ≤ 300030000) →
    u = { s.incWrap Reg.RTC.TICK.SECONDS with rtc := { s.rtc with k := 0, edge := true } } →
    v = { (u.wrI Reg.CLK.DISC.DEV ((n : Int) - 300000000)).setB Reg.CLK.STATUS.DISC_OK good with
      sys := { s.sys with secCycles := n, discBad := if good then 0 else min 3 (s.sys.discBad + 1) } } →
    exec (.rtcSecondEdge n) s =
      .next ((if good then setCause 0x4103 0 false v else v).incWrap Reg.PWR.OPSEC.SECONDS)) ∧
  (∀ s : State, Calm s →
    (Opens 0x4E02 s → ∃ t, exec .rtcOscFail s = .next t ∧ Opened 0x4E02 0 (setCause 0x4E02 0 true (freeRun true s)) t) ∧
    exec .rtcOscRestored s = .next (setCause 0x4E02 0 false (freeRun false s)) ∧
    (3 ≤ s.sys.discBad → Opens 0x4103 s → ∃ t, exec .clkDiscRange s = .next t ∧ Opened 0x4103 0 (setCause 0x4103 0 true s) t) ∧
    (s.sys.discBad < 3 → exec .clkDiscRange s = .next s) ∧
    (∀ (now : Fin 32768) (r : Int), r = s.readingAt now → exec (.rtcNowRead now) s = .next
      ((s.wr Reg.RTC.NOW_SEC.SEC (r / 32768 % 2 ^ 32).toNat).wr Reg.RTC.NOW_FRAC.FRAC (r % 32768).toNat))) ∧
  (∀ s : State, Calm s → SealShut s →
    (∃ t, exec .clkRootLost s = .next t ∧
      Halted 10 { s with saf := { s.saf with kpr := { s.saf.kpr with lse := 0, pmi := false } } } t) ∧
    (∃ t, exec .clkPllUnlock s = .next t ∧ Halted 10 (s.setB Reg.CLK.STATUS.PLL_LOCK false) t))

/-- A request to set the time, `d` away from the reading (R182, R183): a disabled source, or one that a higher source holds
off, is counted in REFUSED and raises a Notice; below 1 s with a valid reading it changes no time; up to LIMIT it starts a
slew of 64 quanta; beyond, or without a valid reading, it waits as a step for the next boundary. -/
def Obligations.TimeRequestsSlewOrStep : Prop :=
  ∀ (a : Agent) (frac now : Fin 32768) (s u : State) (src : Nat) (d : Int), Calm s → 2 ≤ s.level a →
    src = (if a = .host then 3 else 2) → u = s.wr Reg.RTC.SET_CTL.FRAC frac →
    d = ((s.rd Reg.RTC.SET_SEC.SEC * 32768 + frac : Nat) : Int) - s.readingAt now →
    ((s.flag Reg.RTC.CFG.SRC_EN (src - 1) = false ∨ (s.bit Reg.RTC.STATUS.VALID = true ∧ s.heldOff src = true)) →
      Opens 0x0E04 s → ∃ t, exec (.rtcSetRequest a frac now) s = .next t ∧
        Opened 0x0E04 src ((adjShow src 3 d u).inc Reg.RTC.COUNTS.REFUSED) t) ∧
    (s.flag Reg.RTC.CFG.SRC_EN (src - 1) = true → (s.bit Reg.RTC.STATUS.VALID = true → s.heldOff src = false) →
      (s.bit Reg.RTC.STATUS.VALID = true → d.natAbs * 1000 < 32768 →
        exec (.rtcSetRequest a frac now) s = .next (timeAccept src u)) ∧
      (s.bit Reg.RTC.STATUS.VALID = true → 32768 ≤ d.natAbs * 1000 → d.natAbs ≤ s.rd Reg.RTC.CFG.LIMIT * 32768 →
        exec (.rtcSetRequest a frac now) s = .next (slewBegin src d (timeAccept src (adjDiscard u)))) ∧
      ((s.bit Reg.RTC.STATUS.VALID = false ∨ (32768 ≤ d.natAbs * 1000 ∧ s.rd Reg.RTC.CFG.LIMIT * 32768 < d.natAbs)) →
        exec (.rtcSetRequest a frac now) s = .next (stepWait src d (timeAccept src (adjDiscard u)))))

/-- The fabric (R42, R46, R47): a request waits behind those before it, one for each port; after 40 µs a P4 or P5 request
joins the aged ones; one that has waited 50 µs is counted and raises a Minor fault.
The arbiter grants, among the requests that their window admits, one of the lowest rank, and of that rank the first
(R42). -/
def Obligations.FabricRequestsAreGrantedByRank : Prop :=
  (∀ (port : Nat) (s : State), Calm s →
    (∀ (now : Nat) (cls : Fin 6) (beats : Fin 4) (m : Bool) (u : State), u = fabTo now s →
      ((u.fab.waiting.any fun r => r.port = port) = false → exec (.fabricRequest now port cls beats m) s = .next
        { u with fab := { u.fab with waiting := u.fab.waiting ++ [⟨port, cls, beats + 1, u.fab.beat, false, m⟩] } }) ∧
      ((u.fab.waiting.any fun r => r.port = port) = true → exec (.fabricRequest now port cls beats m) s = .next u)) ∧
    (∀ r, (s.fab.waiting.find? fun r => r.port = port && 4 ≤ r.cls && !r.aged) = some r →
      exec (.requestAged port) s = .next { s with fab := { s.fab with waiting :=
        (s.fab.waiting.filter fun x => decide (x.port ≠ port) && x.aged) ++ { r with aged := true } ::
          (s.fab.waiting.filter fun x => decide (x.port ≠ port) && !x.aged) } }) ∧
    ((s.fab.waiting.any fun r => r.port = port && 4 ≤ r.cls) = true → Opens 0x4001 s →
      ∃ t, exec (.sysFabStarve port) s = .next t ∧ Opened 0x4001 port (s.inc Reg.SYS.FAB_STATUS.STARVE) t)) ∧
  (∀ (f : FabSt) (flushing : Bool) (beat : Nat) (r : FabReq), f.pick flushing beat = some r →
    r ∈ f.waiting ∧ f.admits flushing beat r = true ∧
    (∀ x ∈ f.waiting, f.admits flushing beat x = true → x.cls < 6 → r.rank ≤ x.rank) ∧
    (f.waiting.filter fun x => f.admits flushing beat x && decide (x.rank = r.rank)).head? = some r)

/-- LSW.CH[c].CTL (R55, R398, R399): an enable starts a channel that is OFF, is remembered once in a shut-down or an off-time
and discarded and counted after that, and is refused under a forcing condition; a disable shuts an active channel down, and
forgets a remembered enable; RESULT says which. CLR clears the latch (R406). -/
def Obligations.ChannelsFollowTheirRequests : Prop :=
  ∀ (a : Agent) (c : Fin 40) (s : State) (st : Nat), Calm s → 1 ≤ s.level a → st = s.rd (Reg.LSW.CH.STATUS.STATE c) →
    (∀ r, lswRefusal c s = some r →
      exec (.lswEnableRequest a c) s = .next (lswResult c r s) ∧ exec (.lswDisableRequest a c) s = .next (lswResult c r s)) ∧
    (lswRefusal c s = none →
      (s.hsForced c = false → st = 0 → exec (.lswEnableRequest a c) s =
        .next (lswResult c 0 (hsTurnOn c ((s.wr (Reg.LSW.CH.STATUS.STATE c) 1).setB (Reg.LSW.CH.STATUS.REQ_ON c) true)))) ∧
      (st = 1 ∨ st = 2 → exec (.lswEnableRequest a c) s =
        .next (lswResult c 0 (s.setB (Reg.LSW.CH.STATUS.REQ_ON c) true))) ∧
      (s.hsForced c = false → st = 3 ∨ st = 4 → s.bit (Reg.LSW.CH.PEND.PEND c) = false → exec (.lswEnableRequest a c) s =
        .next (lswResult c 1 ((s.setB (Reg.LSW.CH.PEND.PEND c) true).setB (Reg.LSW.CH.STATUS.REQ_ON c) true))) ∧
      (s.hsForced c = false → st = 3 ∨ st = 4 → s.bit (Reg.LSW.CH.PEND.PEND c) = true → exec (.lswEnableRequest a c) s =
        .next (lswResult c 2 (s.inc (Reg.LSW.CH.PEND.DISCARDS c)))) ∧
      (s.hsForced c = true → st = 0 ∨ st = 3 ∨ st = 4 → exec (.lswEnableRequest a c) s = .next (lswResult c 3 s)) ∧
      (∀ u, u = s.setB (Reg.LSW.CH.STATUS.REQ_ON c) false →
        (st = 0 → exec (.lswDisableRequest a c) s = .next (lswResult c 0 (u.wr (Reg.LSW.CH.STATUS.RESTARTS c) 0))) ∧
        (st = 1 ∨ st = 2 → exec (.lswDisableRequest a c) s =
          .next (lswResult c 0 (hsDark c ((u.wr (Reg.LSW.CH.STATUS.STATE c) 3).wr (Reg.LSW.CH.STATUS.RESTARTS c) 0)))) ∧
        (st = 4 → exec (.lswDisableRequest a c) s = .next (lswResult c 0
          ((u.setB (Reg.LSW.CH.PEND.PEND c) false).wr (Reg.LSW.CH.STATUS.RESTARTS c) 0))))) ∧
    exec (.lswClr a c) s = .next
      ((((setCause (0x7540 + c) c false (setCause (0x7580 + c) c false s)).setB (Reg.LSW.CH.STATUS.LATCHED c) false).setB
        (Reg.LSW.CH.STATUS.REQ_ON c) false).wr (Reg.LSW.CH.STATUS.RESTARTS c) 0) ∧
    ((s.hs c).startOn = true → s.hsForced c = false → st = 0 → exec (.startOnEnable c) s =
      .next (hsTurnOn c ((s.wr (Reg.LSW.CH.STATUS.STATE c) 1).setB (Reg.LSW.CH.STATUS.REQ_ON c) true)))

/-- The table of R55 beyond the requests, for a channel and for the user display: the end of a start, of a shut-down and of
an off-time, with an enable remembered or not; a forcing condition shuts down what is not shutting down or resting, and
forgets the remembered enable (R52, R53). Writing DISC_CLR zeroes the count of discarded requests (R56). -/
def Obligations.UnitsFollowTheirTable : Prop :=
  ∀ (c : Fin 40) (mv : Nat) (s : State) (st : Nat), Calm s → st = s.rd (Reg.LSW.CH.STATUS.STATE c) →
    (∀ u, u = s.wr (Reg.LSW.VLS.MV (c / 8)) mv → st = 1 → exec (.unitStartComplete (.hs c) mv) s =
      .next (hsApply c ((u.wr (Reg.LSW.CH.STATUS.STATE c) 2).setB (Reg.LSW.CH.STATUS.PULL c)
        (s.rd (Reg.LSW.CH.CFG.MODE c) = 4)))) ∧
    (st = 3 → exec (.unitShutdownComplete (.hs c)) s = .next (s.wr (Reg.LSW.CH.STATUS.STATE c) 4)) ∧
    (st ≠ 3 → exec (.unitShutdownComplete (.hs c)) s = .next s) ∧
    (st = 4 → s.bit (Reg.LSW.CH.PEND.PEND c) = true → exec (.offTimerExpired (.hs c)) s =
      .next (hsTurnOn c ((s.setB (Reg.LSW.CH.PEND.PEND c) false).wr (Reg.LSW.CH.STATUS.STATE c) 1))) ∧
    (st = 4 → s.bit (Reg.LSW.CH.PEND.PEND c) = false → s.bit (Reg.LSW.CH.STATUS.REQ_ON c) = false →
      exec (.offTimerExpired (.hs c)) s = .next (s.wr (Reg.LSW.CH.STATUS.STATE c) 0)) ∧
    (st = 3 ∨ st = 4 → exec (.forcingConditionBegins (.hs c)) s =
      .next (hsDark c (s.setB (Reg.LSW.CH.PEND.PEND c) false))) ∧
    (st ≠ 3 → st ≠ 4 → exec (.forcingConditionBegins (.hs c)) s =
      .next (hsDark c ((s.setB (Reg.LSW.CH.PEND.PEND c) false).wr (Reg.LSW.CH.STATUS.STATE c) 3))) ∧
    (∀ v, s.rd Reg.DPY.STATUS.STATE = 1 → exec (.unitStartComplete .dpy v) s =
      .next (((s.wr Reg.DPY.STATUS.STATE 2).wr Reg.DPY.STATUS.RAILS 15).setB Reg.DPY.STATUS.BLACK false)) ∧
    (∀ u, s.rd Reg.DPY.STATUS.STATE = 3 →
      u = ((s.wr Reg.DPY.STATUS.STATE 4).setB Reg.DPY.STATUS.BLACK false).wr Reg.DPY.STATUS.RAILS 0 →
      exec (.unitShutdownComplete .dpy) s = .next { u with dpy := { u.dpy with sent := none, blink := [] } }) ∧
    (s.rd Reg.DPY.STATUS.STATE = 2 → exec (.forcingConditionBegins .dpy) s =
      .next (((s.setB Reg.DPY.PEND.PEND false).wr Reg.DPY.STATUS.STATE 3).setB Reg.DPY.STATUS.BLACK true)) ∧
    (∀ (a : Agent) (u : UnitId), 1 ≤ s.level a → ∃ f, f = (UnitId.ref u).disc ∧
      exec (.discClr a u) s = .next (s.wr f 0))

/-- A channel in heat, fold-back or over-current (R402, R405, R406, R408, R409): a thermal shutdown counts and forces the
channel off, at the eighth restart it latches with its fault; a clamp latches at once; the windows of inrush, pull-in and
fold-back begin and end; a cooled channel is judged again for a restart. -/
def Obligations.ChannelsProtectThemselves : Prop :=
  ∀ (c : Fin 40) (s : State), Calm s →
    (∀ (tj : Int) (u : State), u = ((s.wrI (Reg.LSW.CH.MEAS.TJ c) tj).inc (Reg.LSW.CH.HIST.THERMALS c)).setB
        (Reg.LSW.CH.STATUS.THERMAL c) true →
      (s.rd (Reg.LSW.CH.STATUS.RESTARTS c) ≠ 8 → exec (.thermalShutdown c tj) s = .next (hsForce c u)) ∧
      (s.rd (Reg.LSW.CH.STATUS.RESTARTS c) = 8 → Opens (0x7540 + c) s → ∃ t, exec (.thermalShutdown c tj) s = .next t ∧
        Opened (0x7540 + c) c (setCause (0x7540 + c) c true (hsForce c
          ((u.setB (Reg.LSW.CH.STATUS.LATCHED c) true).setB (Reg.LSW.CH.STATUS.REQ_ON c) false))) t)) ∧
    (∀ u, u = (s.inc (Reg.LSW.CH.HIST.THERMALS c)).setB (Reg.LSW.CH.STATUS.THERMAL c) true →
      s.bit (Reg.LSW.CH.STATUS.FOLDBACK c) = true → s.rd (Reg.LSW.CH.STATUS.RESTARTS c) ≠ 8 →
      exec (.foldbackTimeout c) s = .next (hsForce c u)) ∧
    (∀ (tj : Int) (u : State), u = (s.wrI (Reg.LSW.CH.MEAS.TJ c) tj).setB (Reg.LSW.CH.STATUS.THERMAL c) false →
      s.bit (Reg.LSW.CH.STATUS.THERMAL c) = true → s.bit (Reg.LSW.CH.STATUS.REQ_ON c) = false →
      exec (.thermalCooled c tj) s = .next (u.setHs c { s.hs c with heatRestart := true })) ∧
    (∀ tj : Int, s.bit (Reg.LSW.CH.STATUS.THERMAL c) = false →
      exec (.thermalCooled c tj) s = .next (s.wrI (Reg.LSW.CH.MEAS.TJ c) tj)) ∧
    (Opens (0x7580 + c) s → ∃ t, exec (.lswClamp c) s = .next t ∧
      Opened (0x7580 + c) c (setCause (0x7580 + c) c true (hsForce c
        ((s.setB (Reg.LSW.CH.STATUS.LATCHED c) true).setB (Reg.LSW.CH.STATUS.REQ_ON c) false))) t) ∧
    (∀ mv, exec (.coilPullEnd c mv) s =
      .next (hsApply c ((s.wr (Reg.LSW.VLS.MV (c / 8)) mv).setB (Reg.LSW.CH.STATUS.PULL c) false))) ∧
    exec (.inrushEnd c) s = .next (s.setB (Reg.LSW.CH.STATUS.INRUSH c) false) ∧
    (s.rd (Reg.LSW.CH.STATUS.STATE c) = 2 → s.bit (Reg.LSW.CH.STATUS.INRUSH c) = false →
      s.bit (Reg.LSW.CH.STATUS.FOLDBACK c) = false → exec (.foldbackEntry c) s =
        .next ((s.setB (Reg.LSW.CH.STATUS.FOLDBACK c) true).inc (Reg.LSW.CH.HIST.FOLDBACKS c))) ∧
    (s.bit (Reg.LSW.CH.STATUS.INRUSH c) = true → exec (.foldbackEntry c) s = .next s) ∧
    (s.rd (Reg.LSW.CH.STATUS.STATE c) = 2 → exec (.restartsReset c) s = .next (s.wr (Reg.LSW.CH.STATUS.RESTARTS c) 0)) ∧
    (s.rd (Reg.LSW.CH.STATUS.STATE c) = 3 → Opens (0x3540 + c) s → ∃ t, exec (.lswNoDischarge c) s = .next t ∧
      Opened (0x3540 + c) c (s.wr (Reg.LSW.CH.STATUS.STATE c) 4) t) ∧
    (∀ u, u = s.setB (Reg.LSW.CH.STATUS.OPEN_LOAD c) true → s.bit (Reg.LSW.CH.CFG.OL_EN c) = true →
      s.rd (Reg.LSW.CH.STATUS.STATE c) = 0 → s.floats c = false →
      ((s.hs c).openRaised = true → exec (.lswOpenLoad c) s = .next u) ∧
      ((s.hs c).openRaised = false → Opens (0x3500 + c) s → ∃ t, exec (.lswOpenLoad c) s = .next t ∧
        Opened (0x3500 + c) c (setCause (0x3500 + c) c true (u.setHs c { s.hs c with openRaised := true })) t))

/-- The group supplies, the power budget and the heaters (R407, R410, R412, R413): a group under voltage turns off with its
fault and a cause of degradation; its channels restart one after another; the budget fault switches nothing off; a usable
reading is shown with its offsets and decides the heater, the third unusable one puts it on fallback. -/
def Obligations.GroupsBudgetAndHeaters : Prop :=
  ∀ s : State, Calm s →
    (∀ (g : Fin 5) (mv : Nat) (u : State),
      u = (s.wr (Reg.LSW.VLS.MV g) mv).setFlag Reg.PWR.STATUS.VLS_OK g false →
      (s.flag Reg.LSW.STATUS.UV g = true → exec (.lswGroupUv g mv) s = .next u) ∧
      (s.flag Reg.LSW.STATUS.UV g = false → s.mode ≠ 5 →
        ∃ t, exec (.lswGroupUv g mv) s = .next t ∧
          Booked (noteDegr (0x7570 + g) g true (setCause (0x7570 + g) g true (groupOff g u))) t)) ∧
    (∀ (g : Fin 5) (c : Nat) (r : List Nat), mapGet (fun _ => []) s.lsw.restart g = c :: r → c < 40 →
      ∃ t, exec (.groupRestart g) s = .next t ∧ Booked (hsGroupRestart c (setRestart g r s)) t) ∧
    (∀ g : Fin 5, mapGet (fun _ => []) s.lsw.restart g = [] → exec (.groupRestart g) s = .next s) ∧
    (∀ (g : Fin 5) (mv : Nat) (u : State),
      u = ((s.wr (Reg.LSW.VLS.MV g) mv).setFlag Reg.PWR.STATUS.VLS_OK g true).setFlag Reg.LSW.STATUS.UV g false →
      (∀ c ∈ groupChannels g, s.bit (Reg.LSW.CH.STATUS.REQ_ON c) = false) →
      exec (.groupUvEnd g mv) s = .next (dropDegr (0x7570 + g) g (setCause (0x7570 + g) g false u))) ∧
    (∀ (mw : Nat) (u : State), u = (s.wr Reg.LSW.POWER.P_MW (min 65535 mw)).setB Reg.LSW.STATUS.BUDGET (4000 < mw) →
      (mw ≤ 4000 → exec (.lswBudget mw) s = .next u) ∧
      (4000 < mw → Opens 0x7578 s → ∃ t, exec (.lswBudget mw) s = .next t ∧
        Opened 0x7578 0 (setCause 0x7578 0 true (u.setB Reg.LSW.STATUS.BUDGET_STK true)) t)) ∧
    (∀ (h : Fin 8) (t rh : Int) (rh0 : Nat) (t0 : Int) (b : List Byte) (u : State), 4 ≤ s.mode →
      s.rd (Reg.LSW.HEAT.CFG.CHANNEL h) ≠ 0xFF → b = s.sensorBody h → b ≠ [] →
      t = t0 + toInt 16 (leAt b 6 2) → rh = (rh0 : Int) + toInt 16 (leAt b 4 2) → 0 ≤ rh → rh ≤ 10000 → -4500 ≤ t →
      t ≤ 12500 → s.bit (Reg.LSW.HEAT.STATE.FALLBACK h) = false →
      u = ((((({ s with lsw := { s.lsw with bad := mapSet (fun _ => 0) s.lsw.bad h 0 } } : State)).wrI
        (Reg.LSW.HEAT.READING.TEMP h) t).wr (Reg.LSW.HEAT.READING.RH h) rh.toNat).wrI (Reg.LSW.HEAT.STATE.DEW h)
          (Config.dewPoint t (max 100 rh.toNat))) →
      ∃ v, exec (.heaterSensorRead h (some (t0, rh0))) s = .next v ∧ Booked (heaterRule h u) v) ∧
    (∀ (h : Fin 8) (u : State), 4 ≤ s.mode → s.rd (Reg.LSW.HEAT.CFG.CHANNEL h) ≠ 0xFF →
      s.bit (Reg.LSW.HEAT.STATE.FALLBACK h) = true →
      u = { s with lsw := { s.lsw with bad := mapSet (fun _ => 0) s.lsw.bad h (min 3 (mapGet (fun _ => 0) s.lsw.bad h + 1)) } } →
      ∃ v, exec (.heaterSensorRead h none) s = .next v ∧ Booked (heaterRule h u) v)

/-- The user display (R418 to R425): requests follow the table of R55 outside WARM_THROUGH and RIDE_THROUGH; a crack or a
rail out of tolerance raises its fault and is judged as a forcing condition, CLR ends the rail condition; an underrun counts
and raises its fault once a frame; a frame moves ELVSS by one step and sends the level in force; the brightness moves by at
most 80 a reading, and falls back after three failed ones. -/
def Obligations.UserDisplayFollowsItsRules : Prop :=
  ∀ (a : Agent) (s : State), Calm s → 1 ≤ s.level a →
    (s.mode ≠ 8 → s.mode ≠ 9 →
      (s.rd Reg.DPY.STATUS.STATE = 0 → s.dpyCauses = 0 → exec (.dpyEnableRequest a) s =
        .next (dpyTurnOn ((s.wr Reg.DPY.STATUS.STATE 1).setB Reg.DPY.STATUS.REQ_ON true))) ∧
      (s.rd Reg.DPY.STATUS.STATE = 0 → s.dpyCauses ≠ 0 → exec (.dpyEnableRequest a) s = .next s) ∧
      (s.rd Reg.DPY.STATUS.STATE = 2 → exec (.dpyDisableRequest a) s =
        .next (((s.setB Reg.DPY.STATUS.REQ_ON false).wr Reg.DPY.STATUS.STATE 3).setB Reg.DPY.STATUS.BLACK true))) ∧
    (s.mode = 8 ∨ s.mode = 9 → exec (.dpyEnableRequest a) s = .next s ∧ exec (.dpyDisableRequest a) s = .next s) ∧
    exec (.dpyClr a) s = .next (dpyJudge (setCause 0x7601 0 false (s.mapDpy fun d => { d with railBad := false }))) ∧
    (∀ (ohms : Nat) (b : List Byte) (u : State), b = s.dpyBody.getD [] → s.rd Reg.DPY.STATUS.STATE = 2 →
      u = s.wr Reg.DPY.CRACK.OHMS (min 10000 ohms) →
      (leAt b 0xC 2 ≤ ohms → ohms ≤ leAt b 0xE 2 → exec (.crackMeasure ohms) s =
        .next (u.mapDpy fun d => { d with crackRun := 0 })) ∧
      (ohms < leAt b 0xC 2 → s.dpy.crackRun < 2 → exec (.crackMeasure ohms) s =
        .next (u.mapDpy fun d => { d with crackRun := s.dpy.crackRun + 1 })) ∧
      (ohms < leAt b 0xC 2 → 2 ≤ s.dpy.crackRun → s.bit Reg.DPY.CRACK.CRACKED = false → Opens 0x7602 s →
        ∃ t, exec (.crackMeasure ohms) s = .next t ∧ Opened 0x7602 0 (setCause 0x7602 0 true
          (dpyJudge ((u.mapDpy fun d => { d with crackRun := 3 }).setB Reg.DPY.CRACK.CRACKED true))) t)) ∧
    (∀ rail : Fin 4, s.rd Reg.DPY.STATUS.STATE = 2 → Opens 0x7601 s → ∃ t, exec (.dpyRail rail) s = .next t ∧
      Opened 0x7601 0 (setCause 0x7601 0 true
        (dpyJudge ((s.setFlag Reg.DPY.STATUS.RAILS rail false).mapDpy fun d => { d with railBad := true }))) t) ∧
    (s.rd Reg.DPY.STATUS.STATE = 2 →
      (s.dpy.underrun = true → exec .dpyUnderrun s = .next (s.inc Reg.DPY.ERRS.UNDERRUNS)) ∧
      (s.dpy.underrun = false → Opens 0x3603 s → ∃ t, exec .dpyUnderrun s = .next t ∧
        Opened 0x3603 0 ((s.inc Reg.DPY.ERRS.UNDERRUNS).mapDpy fun d => { d with underrun := true }) t)) ∧
    (∀ (b : Fin 8) (layer : Fin 4) (onF offF : Fin 256) (u : State),
      u = (((s.wr (Reg.BLINK.CTL.LAYER b) layer).wr (Reg.BLINK.CTL.ON_F b) onF).wr (Reg.BLINK.CTL.OFF_F b) offF).setB
        (Reg.BLINK.CTL.EN b) true →
      (s.bit (Reg.BLINK.CTL.EN b) = true → exec (.blinkEnable a b layer onF offF) s = .next u) ∧
      (s.bit (Reg.BLINK.CTL.EN b) = false → exec (.blinkEnable a b layer onF offF) s =
        .next (u.mapDpy fun d => { d with blink := mapDel d.blink b }))) ∧
    (s.rd Reg.DPY.STATUS.STATE = 2 → ∃ d : DpySt, exec .dpyFrameStart s = .next { s with dpy := d } ∧
      d.underrun = false ∧ d.sent = some (s.rd Reg.DPY.BRIGHT.LEVEL) ∧
      d.elvss = (if s.dpy.elvss < s.rd Reg.DPY.RAIL.ELVSS then s.dpy.elvss + 1
        else if s.rd Reg.DPY.RAIL.ELVSS < s.dpy.elvss then s.dpy.elvss - 1 else s.dpy.elvss) ∧
      d.crackRun = s.dpy.crackRun ∧ d.railBad = s.dpy.railBad ∧ d.causes = s.dpy.causes) ∧
    (s.bit Reg.DPY.BRIGHT.MAN = false → s.rd Reg.DPY.STATUS.STATE = 2 → leAt (s.dpyBody.getD []) 0xB 1 ≠ 0xFF →
      (∀ v, ∃ t, exec (.alsRead (some v)) s = .next t ∧ t.bit Reg.DPY.STATUS.ALS_FB = false ∧
        t.dpy.lux = (v :: s.dpy.lux).take 8 ∧ t.dpy.alsBad = 0 ∧
        (t.dpy.target < 2 ^ Reg.DPY.BRIGHT.LEVEL.w → s.rd Reg.DPY.BRIGHT.LEVEL < 2 ^ Reg.DPY.BRIGHT.LEVEL.w →
          t.rd Reg.DPY.BRIGHT.LEVEL ≤ s.rd Reg.DPY.BRIGHT.LEVEL + 80 ∧
          s.rd Reg.DPY.BRIGHT.LEVEL ≤ t.rd Reg.DPY.BRIGHT.LEVEL + 80)) ∧
      (s.dpy.alsBad < 2 → exec (.alsRead none) s = .next (s.mapDpy fun d => { d with alsBad := s.dpy.alsBad + 1 })) ∧
      (2 ≤ s.dpy.alsBad → s.bit Reg.DPY.STATUS.ALS_FB = false → Opens 0x3604 s →
        ∃ t, exec (.alsRead none) s = .next t ∧
          Opened 0x3604 0 (((s.mapDpy fun d => { d with alsBad := 3 }).setB Reg.DPY.STATUS.ALS_FB true).wr
            Reg.DPY.BRIGHT.LEVEL (s.cfg 9 6 2)) t))

/-- The legal display (R426 to R434): a region asks, and its newest content waits; at a positive frame an idle region starts
with N of the temperature; every frame turns the polarity, and drives a running region in its own; an update ends with its
last frame; a rail out of tolerance ends every update with its fault, and the recovery follows when the rails are good. -/
def Obligations.LegalDisplayFollowsItsRules : Prop :=
  ∀ (a : Agent) (r : Fin 8) (s : State), Calm s →
    (1 ≤ s.level a → (s.region r 0 = 5 → exec (.bdyRegGo a r) s = .next (bdyRequest r s)) ∧
      (s.region r 0 ≠ 5 → exec (.bdyRegGo a r) s = .next s)) ∧
    (∀ (die : Int) (c n old : Nat) (u : State), s.bdyWait r = some c → 4 ≤ s.mode → s.mode ≠ 9 → s.bdy.phase = 0 →
      s.bit Reg.BDY.STATUS.RAIL_FAULT = false → s.bdyRun r = none → s.bit Reg.BDY.STATUS.POSITIVE = false →
      old = Nat.land s.bdy.image (s.regionMask r) → n = s.bdyN (s.bdyTemp die) →
      u = ((((s.wrI Reg.BDY.TEMP.TEMP (s.bdyTemp die)).wr Reg.BDY.TEMP.N n).setB (Reg.BDY.REG.STATUS.PENDING r) false).wr
        (Reg.BDY.REG.STATUS.FRAME r) 0).setFlag Reg.BDY.STATUS.RUNNING r true →
      exec (.legalUpdateStart r die) s = .next (u.mapBdy fun b => { b with
        image := b.image - old + c, wait := mapSet (fun _ => none) b.wait r none,
        run := mapSet (fun _ => none) b.run r (some ⟨old, c, 0, n⟩),
        started := mapSet (fun _ => 0) b.started r (s.rd Reg.PWR.OPSEC.SECONDS) })) ∧
    (∀ die : Int, s.bdyWait r = none → exec (.legalUpdateStart r die) s = .next s) ∧
    (∀ (die : Int) (u : State), u = s.setB Reg.BDY.STATUS.POSITIVE (!s.bit Reg.BDY.STATUS.POSITIVE) →
      (s.bit Reg.BDY.STATUS.RAIL_FAULT = true → exec (.bdyFrame die) s = .next u) ∧
      (s.bit Reg.BDY.STATUS.RAIL_FAULT = false → s.bdy.phase ≠ 0 → s.bdy.phase ≠ 1 → s.bdy.frame < 4 * s.bdy.n →
        exec (.bdyFrame die) s = .next (u.mapBdy fun b =>
          { b with ledger := driveFrame b.refresh b.ledger, frame := b.frame + 1 })) ∧
      (∀ x : BdyRun, s.bit Reg.BDY.STATUS.RAIL_FAULT = false → s.bdy.phase = 0 → s.bdyRun r = some x →
        (∀ q, q < 8 → q ≠ r.val → s.bdyRun q = none) →
        (x.frame < 4 * x.n → (x.frame % 2 = 0 ↔ s.bit Reg.BDY.STATUS.POSITIVE = false) →
          exec (.bdyFrame die) s = .next ((u.wr (Reg.BDY.REG.STATUS.FRAME r) x.frame).mapBdy fun b => { b with
            ledger := driveFrame x b.ledger, run := mapSet (fun _ => none) b.run r (some { x with frame := x.frame + 1 }) })) ∧
        (4 * x.n ≤ x.frame → exec (.bdyFrame die) s = .next u))) ∧
    (∀ x : BdyRun, s.bdyRun r = some x →
      (4 * x.n ≤ x.frame → exec (.legalUpdateEnd r) s =
        .next (((s.setFlag Reg.BDY.STATUS.RUNNING r false).wr (Reg.BDY.REG.STATUS.FRAME r) 0).mapBdy fun b =>
          { b with run := mapSet (fun _ => none) b.run r none })) ∧
      (x.frame < 4 * x.n → exec (.legalUpdateEnd r) s = .next s)) ∧
    (s.bit Reg.BDY.STATUS.RAIL_FAULT = false → Opens 0x7701 s → ∃ t, exec .bdyRail s = .next t ∧
      Opened 0x7701 0 (setCause 0x7701 0 true
        ((((s.setB Reg.BDY.STATUS.RAIL_FAULT true).setB Reg.BDY.STATUS.RECOVERING false).wr Reg.BDY.STATUS.RUNNING 0).mapBdy
          fun b => { b with run := [], phase := 0, frame := 0 })) t) ∧
    (s.bit Reg.BDY.STATUS.RAIL_FAULT = true → exec .bdyRailsGood s =
      .next (bdyRecover (setCause 0x7701 0 false (s.setB Reg.BDY.STATUS.RAIL_FAULT false))))

/-- RESERVE and AUTHORISE of a new carrel (R272 to R276): where new carrels are permitted, a carrel and a session number are
free and the outlet takes one more, the lowest free carrel becomes Reserved or Authorised with that number, the number
rises, and RESULT says so; every other carrel stays. AUTHORISE of a Reserved carrel keeps its number.
CANCEL, CLOSE, ACK and LIMIT (R272, R274, R277, R282): a Reserved carrel is freed; an Authorised one closes with REASON
33 or 32; an Energising one enters Closing and its outlet ramps down; a Suspended one enters Closing; ACK of the right
session frees a Closed one; LIMIT copies I_LIM and P_LIM alone. A code that R274 does not define is refused with 11.
A reservation, an authorisation and a suspension end at their times (R272, R288): RES_T and AUTH_T minutes after
T_AUTH, and with SUSP_MAX longer than allowed; before that nothing changes. -/
def Obligations.CarrelsKeepTheirRules : Prop :=
  (∀ (a : Agent) (n : Fin 16) (s : State), Calm s → 1 ≤ s.level a → s.mode = 5 ∨ s.mode = 6 ∨ s.mode = 8 ∨ s.mode = 9 →
    s.newCarrels = true → s.rd (Reg.OUT.CFG.KIND n) ≠ 0 → s.outSt n ≠ 0 →
    (∀ (x : Fin 256) (c k : Nat), x.val = 0xFF → s.freeCarrel = some c → k = s.rd Reg.CRL.NEXT_SESSION.SESSION → k ≠ 0 →
      s.outletCarrels n none < 4 →
      (∃ t, exec (.crlReserve a x n) s = .next t ∧
        (∀ d, t.car d = if d = c then { Carrel.free with st := 1, session := k, outlet := n, tAuth := s.rtcSec }
          else s.car d) ∧
        t.rd Reg.CRL.NEXT_SESSION.SESSION = (k + 1) % 2 ^ 32 ∧ t.rd Reg.CRL.RESULT.CARREL = c ∧
        t.rd Reg.CRL.RESULT.CMD = 1 ∧ t.rd Reg.CRL.RESULT.CODE = 0 ∧ t.outs = s.outs) ∧
      ((s.car x).st ≠ 1 → s.formOk = true → ∃ t, exec (.crlAuthorise a x n) s = .next t ∧
        (∀ d, t.car d = if d = c then authorised s n k else s.car d) ∧
        t.rd Reg.CRL.NEXT_SESSION.SESSION = (k + 1) % 2 ^ 32 ∧ t.rd Reg.CRL.RESULT.CARREL = c ∧
        t.rd Reg.CRL.RESULT.CMD = 2 ∧ t.rd Reg.CRL.RESULT.CODE = 0 ∧ t.outs = s.outs)) ∧
    (∀ c : Fin 256, (s.car c).st = 1 → (s.car c).outlet = n.val → s.outletCarrels n (some c.val) < 4 → s.formOk = true →
      ∃ t, exec (.crlAuthorise a c n) s = .next t ∧
        (∀ d, t.car d = if d = c.val then authorised s n (s.car c).session else s.car d) ∧
        t.rd Reg.CRL.NEXT_SESSION.SESSION = s.rd Reg.CRL.NEXT_SESSION.SESSION ∧ t.rd Reg.CRL.RESULT.CODE = 0 ∧
        t.outs = s.outs)) ∧
  (∀ (a : Agent) (c : Fin 256) (s : State) (r : Carrel), Calm s → 4 ≤ s.mode → 1 ≤ s.level a → r = s.car c →
    (r.st = 1 → ∃ t, exec (.crlCancel a c) s = .next t ∧ (∀ d, t.car d = if d = c.val then Carrel.free else s.car d) ∧
      t.rd Reg.CRL.RESULT.CODE = 0 ∧ t.outs = s.outs) ∧
    (r.st = 2 → ∃ t, exec (.crlCancel a c) s = .next t ∧ Booked (crlWatch (crlResult c 3 0 (crlClosed c (some 33) s))) t) ∧
    (r.st = 2 → ∃ t, exec (.crlClose a c) s = .next t ∧ Booked (crlWatch (crlResult c 4 0 (crlClosed c (some 32) s))) t) ∧
    (r.st = 3 → r.outlet < 16 → ∃ t, exec (.crlClose a c) s = .next t ∧
      Booked (crlWatch (crlResult c 4 0 (outRamp r.outlet 1 (s.setCar c { r with st := 5, reason := 32 })))) t) ∧
    (r.st = 4 → ∃ t, exec (.crlClose a c) s = .next t ∧ Booked (crlWatch (crlResult c 4 0 (crlClosing c 32 s))) t) ∧
    (r.st = 6 → r.session = s.rd Reg.CRL.ACK_SESSION.SESSION → ∃ t, exec (.crlAck a c) s = .next t ∧
      (∀ d, t.car d = if d = c.val then Carrel.free else s.car d) ∧ t.rd Reg.CRL.RESULT.CODE = 0 ∧ t.outs = s.outs) ∧
    (2 ≤ r.st → r.st ≤ 4 → ¬ (r.outlet < 16 ∧ s.bound r.outlet = some c.val) → ∃ t, exec (.crlLimit a c) s = .next t ∧
      (∀ d, t.car d = if d = c.val then { r with iLim := s.form 4 % 65536, pLim := s.form 4 / 65536 } else s.car d) ∧
      t.rd Reg.CRL.RESULT.CODE = 0 ∧ t.outs = s.outs) ∧
    (2 ≤ r.st → r.st ≤ 4 → r.outlet < 16 → s.bound r.outlet = some c.val → ∃ t, exec (.crlLimit a c) s = .next t ∧
      Booked (crlWatch (crlResult c 6 0 (outRecap r.outlet
        (s.setCar c { r with iLim := s.form 4 % 65536, pLim := s.form 4 / 65536 })))) t) ∧
    (∀ cmd : Fin 256, 7 ≤ cmd.val → Opens 0x3004 s → ∃ t, exec (.crlCmdUndefined a c cmd) s = .next t ∧
      Opened 0x3004 c ((crlResult c cmd 11 s).inc Reg.CRL.COUNTS.REFUSED) t)) ∧
  (∀ (c : Fin 256) (s : State), Calm s →
    ((s.car c).st = 1 → s.resExpired (s.car c) = true → ∃ t, exec (.reservationExpired c) s = .next t ∧
      (∀ d, t.car d = if d = c.val then Carrel.free else s.car d) ∧ t.outs = s.outs) ∧
    ((s.car c).st = 2 → s.authExpired (s.car c) = true → ∃ t, exec (.authorisationExpired c) s = .next t ∧
      Booked (crlClosed c (some 35) s) t) ∧
    ((s.car c).st = 4 → s.suspExpired (s.car c) = true → ∃ t, exec (.suspensionExpired c) s = .next t ∧
      Booked (crlClosing c 36 s) t) ∧
    (s.resExpired (s.car c) = false → exec (.reservationExpired c) s = .next s) ∧
    (s.authExpired (s.car c) = false → exec (.authorisationExpired c) s = .next s) ∧
    (s.suspExpired (s.car c) = false → exec (.suspensionExpired c) s = .next s))

/-- ENERGISE and STOP (R250, R252, R255): ENERGISE is judged by its conditions in their order and refused with the first
that fails, an event and a Notice; with all of them it binds the carrel and the outlet is READY, unless a forcing
condition holds (22); in OPENING it waits (20), and a second one is discarded and counted (21). STOP ramps an outlet down
from CLOSING to ENERGISED with reason 1, and in OPENING clears the waiting enable.
The other outlet commands (R250, R252, R259, R260, R262, R265): each is carried out in the states that admit it, with
code 0: PRECHARGE and DELIVER move on, RECHECK and CLEAR start their checks, ACD_DOWN and ACD_UP the device, ACD_UP of a
closed outlet the stop with reason 18, RCM_TEST the sensor test; elsewhere code 30 says so and nothing else changes. A code
that R252 does not define has code 31. -/
def Obligations.OutletsEnergiseAndFollowCommands : Prop :=
  (∀ (a : Agent) (n : Fin 16) (s : State), Calm s → 1 ≤ s.level a →
    (∀ (c : Fin 256) (load : List Nat) (u : State), u = withLoad n load s →
      (∀ code b, (energiseConds1 n c u ++ (if s.outSt n = 9 then [] else energiseConds2 n u)).find? (fun x => !x.2) =
        some (code, b) → ∃ t, exec (.energise a n c load) s = .next t ∧
          Booked (raise (outCode 0x200B n) n (outEvent n 9 code 0 (outResult n c 1 code u))) t) ∧
      ((energiseConds1 n c u ++ energiseConds2 n u).find? (fun x => !x.2) = none → s.outSt n = 2 → u.outForced n = false →
        ∃ t, exec (.energise a n c load) s = .next t ∧ Booked (outReady n c (outResult n c 1 0 u)) t) ∧
      ((energiseConds1 n c u).find? (fun x => !x.2) = none → s.outSt n = 9 → u.outForced n = true →
        exec (.energise a n c load) s = .next (outResult n c 1 22 u)) ∧
      ((energiseConds1 n c u).find? (fun x => !x.2) = none → s.outSt n = 9 → u.outForced n = false →
        (s.bit (Reg.OUT.PEND.PEND n) = false → exec (.energise a n c load) s =
          .next (outResult n c 1 20 ((u.setB (Reg.OUT.PEND.PEND n) true).wr (Reg.OUT.PEND.CARREL n) c))) ∧
        (s.bit (Reg.OUT.PEND.PEND n) = true → ∃ t, exec (.energise a n c load) s = .next t ∧
          Booked (outEvent n 10 0 (((u.inc (Reg.OUT.PEND.DISCARDS n))).rd (Reg.OUT.PEND.DISCARDS n))
            (outResult n c 1 21 (u.inc (Reg.OUT.PEND.DISCARDS n)))) t))) ∧
    (4 ≤ s.outSt n → s.outSt n ≤ 7 → ∃ t, exec (.outStop a n) s = .next t ∧
      Booked (outResult n 0 2 0 (outRamp n 1 s)) t ∧ t.outSt n = 8 ∧ t.rd (Reg.OUT.RESULT.CODE n) = 0) ∧
    (s.outSt n = 9 → exec (.outStop a n) s = .next (outResult n 0 2 0 (outClearPend n s)))) ∧
  (∀ (a : Agent) (n : Fin 16) (s : State), Calm s → 1 ≤ s.level a →
    (∀ d, s.outSt n = 5 → (s.out n).isoGood = true → d ≤ 20000 → ∃ t, exec (.outPrecharge a n d) s = .next t ∧
      Booked (outResult n 0 3 0 (outEnter n 6 s)) t ∧ t.outSt n = 6) ∧
    (∀ d, (s.outSt n ≠ 5 ∨ (s.out n).isoGood = false ∨ 20000 < d) →
      exec (.outPrecharge a n d) s = .next (outResult n 0 3 30 s)) ∧
    (s.outSt n = 6 → ∃ t, exec (.outDeliver a n) s = .next t ∧
      Booked (outResult n 0 4 0 (outEnter n 7 (s.setOut n { s.out n with clamp2 := false }))) t ∧ t.outSt n = 7) ∧
    (s.outSt n ≠ 6 → exec (.outDeliver a n) s = .next (outResult n 0 4 30 s)) ∧
    (s.outSt n = 10 → (s.out n).weldBad = true → exec (.outRecheck a n) s =
      .next (outResult n 0 5 0 (s.setOut n { s.out n with recheck := true }))) ∧
    ((s.outSt n ≠ 10 ∨ (s.out n).weldBad = false) → exec (.outRecheck a n) s = .next (outResult n 0 5 30 s)) ∧
    (s.outSt n = 10 → s.bit (Reg.OUT.SUPV.RCM_TRIP n) = true → exec (.outClear a n) s =
      .next (outResult n 0 6 0 (s.setOut n { s.out n with rcmTest := 3 }))) ∧
    ((s.outSt n ≠ 10 ∨ s.bit (Reg.OUT.SUPV.RCM_TRIP n) = false) → exec (.outClear a n) s = .next (outResult n 0 6 30 s)) ∧
    (s.rd (Reg.OUT.CFG.KIND n) = 4 → s.mode ≠ 7 → s.outSt n = 1 → s.fnRuns (s.rd (Reg.OUT.HS_MAP2.ACD_SAF n)) = true →
      ∃ t, exec (.acdDown a n) s = .next t ∧ Booked (outResult n 0 7 0 (acdStart n 1 s)) t ∧
        t.rd (Reg.OUT.SUPV.ACD n) = 2 ∧ (t.out n).acdMove = 1) ∧
    (s.rd (Reg.OUT.CFG.KIND n) ≠ 4 → exec (.acdDown a n) s = .next (outResult n 0 7 30 s) ∧
      exec (.acdUp a n) s = .next (outResult n 0 8 30 s)) ∧
    (s.rd (Reg.OUT.CFG.KIND n) = 4 → s.mode ≠ 7 → 1 ≤ s.outSt n → (s.outSt n ≤ 3 ∨ 10 ≤ s.outSt n) →
      ∃ t, exec (.acdUp a n) s = .next t ∧ Booked (outResult n 0 8 0 (acdStart n 2 s)) t ∧
        t.rd (Reg.OUT.SUPV.ACD n) = 2 ∧ (t.out n).acdMove = 2) ∧
    (s.rd (Reg.OUT.CFG.KIND n) = 4 → s.mode ≠ 7 → 4 ≤ s.outSt n → s.outSt n ≤ 9 → ∃ t, exec (.acdUp a n) s = .next t ∧
      Booked (outResult n 0 8 0 (outRamp n 18 (s.setOut n { s.out n with acdUpLatched := true }))) t) ∧
    ((1 ≤ s.outSt n ∧ s.outSt n ≤ 3 ∨ s.outSt n = 10) → (s.out n).rcmTest = 0 → exec (.rcmTest a n) s =
      .next (outResult n 0 9 0 (s.setOut n { s.out n with rcmTest := 4 }))) ∧
    ((s.out n).rcmTest ≠ 0 → exec (.rcmTest a n) s = .next (outResult n 0 9 30 s)) ∧
    (∀ cmd : Fin 256, 10 ≤ cmd.val → exec (.outCmdUndefined a n cmd) s = .next (outResult n 0 cmd 31 s)) ∧
    (∀ (mode : Fin 4) (duty : Fin 1024), (mode.val = 2 ∧ duty.val ≠ 50 ∧ (duty.val < 80 ∨ 970 < duty.val)) →
      Opens (outCode 0x200E n) s → ∃ t, exec (.cpCtrlWrite a n mode duty) s = .next t ∧ Opened (outCode 0x200E n) n s t) ∧
    (∀ (mode : Fin 4) (duty : Fin 1024), ¬ (mode.val = 2 ∧ duty.val ≠ 50 ∧ (duty.val < 80 ∨ 970 < duty.val)) →
      ∃ t, exec (.cpCtrlWrite a n mode duty) s = .next t ∧
        Booked (outPresence n (pilotApply n ((s.wr (Reg.OUT.CP_CTRL.MODE n) mode).wr (Reg.OUT.CP_CTRL.DUTY n) duty))) t) ∧
    (∀ i, ∃ t, exec (.outLimitWrite a n i) s = .next t ∧
      Booked (outRecap n (s.wr (Reg.OUT.LIMIT.I_MAX n) (i % 65536))) t ∧ t.rd (Reg.OUT.LIMIT.I_MAX n) = i % 65536))

/-- The pilot (R244 to R247, R266): the verdict of a period by its plateaus, with the diode check; the decoded state changes
to a verdict held by two of the last three periods, and that change is acted on; while no verdict is formed it is F; the
tenth INV in a row, or a decoded E, latches a pilot error once; proximity and lock feedback are taken.
Closing and opening (R250, R254 to R256, R258, R260): READY_T and CLOSE_T elapse, an AC closure is verified, a ramp
ends, the weld window runs and its verdict is acted on: open ends OPENING or FAULT, welded or none leads to FAULT, welded
with no TRIP channel is a Major fault. -/
def Obligations.PilotsAndContactors : Prop :=
  ((∀ (pwm : Bool) (high low : Int), (10500 ≤ high → high ≤ 13500 → pilotVerdict pwm high low = .a) ∧
    (7500 ≤ high → high < 10500 → pilotVerdict pwm high low = if pwm = true ∧ -10500 < low then .inv else .b) ∧
    (4500 ≤ high → high < 7500 → pilotVerdict pwm high low = if pwm = true ∧ -10500 < low then .inv else .c) ∧
    (1500 ≤ high → high < 4500 → pilotVerdict pwm high low = if pwm = true ∧ -10500 < low then .inv else .d) ∧
    (-1500 ≤ high → high < 1500 → pilotVerdict pwm high low = .e) ∧
    (high < -1500 ∨ 13500 < high → pilotVerdict pwm high low = .inv)) ∧
  ∀ (n : Fin 16) (s : State), Calm s →
    (∀ (high low : Int) (load : List Nat) (m : Nat) (u w : State) (v : PilotVerdict) (h : List PilotVerdict),
      m = s.rd (Reg.OUT.CP_MEAS.MODE n) → u = ((withLoad n load s).wrI (Reg.OUT.CP_MEAS.HIGH n) (plateauField high)).wrI
        (Reg.OUT.CP_MEAS.LOW n) (plateauField low) →
      (m = 0 ∨ m = 3 → ∃ t, exec (.pilotStateChange n high low load) s = .next t ∧
        Booked (outPresence n (vplFollow n (pilotF n u))) t) ∧
      (m ≠ 0 → m ≠ 3 → v = pilotVerdict (m = 2) high low → h = (v :: (s.out n).hist).take 3 →
        w = u.setOut n { u.out n with hist := h, inv := if v = .inv then (s.out n).inv + 1 else 0 } →
        ¬ (v = .inv ∧ (s.out n).inv = 9) →
        ((pilotMajority h = none ∨ ∃ x, pilotMajority h = some x ∧ pilotCode x = s.rd (Reg.OUT.STATUS.PILOT n)) →
          exec (.pilotStateChange n high low load) s = .next w) ∧
        (∀ x, pilotMajority h = some x → pilotCode x ≠ s.rd (Reg.OUT.STATUS.PILOT n) →
          ∃ t, exec (.pilotStateChange n high low load) s = .next t ∧
            Booked (pilotDecoded n (s.rd (Reg.OUT.STATUS.PILOT n)) (pilotCode x) w) t))) ∧
    ((s.out n).pilotErr = true → exec (.outPilotErr n) s = .next s) ∧
    ((s.out n).pilotErr = false → ∃ t, exec (.outPilotErr n) s = .next t ∧
      Booked (raise (outCode 0x6007 n) n (outLatchStop n 4 (s.setOut n { s.out n with pilotErr := true }))) t) ∧
    (∀ (ohms shown cap : Nat) (inv : Bool) (u : State), shown = (if 5000 < ohms then 0xFFFF else ohms) →
      (cap, inv) = (if s.rd (Reg.OUT.CFG.KIND n) = 1 then ppBand ohms else (0, false)) →
      u = ((s.wr (Reg.OUT.PP.OHMS n) shown).wr (Reg.OUT.PP.CAP n) cap).setB (Reg.OUT.PP.INVALID n) inv →
      (s.rd (Reg.OUT.PP.OHMS n) = shown → s.rd (Reg.OUT.PP.CAP n) = cap → s.bit (Reg.OUT.PP.INVALID n) = inv →
        ∃ t, exec (.proximityChange n ohms) s = .next t ∧ Booked (tryClose n (outPresence n (outRecap n u))) t) ∧
      (s.rd (Reg.OUT.PP.OHMS n) ≠ shown → ∃ t, exec (.proximityChange n ohms) s = .next t ∧
        Booked (tryClose n (outPresence n (outRecap n (outEvent n 3 cap shown u)))) t)) ∧
    (∀ b, ∃ t, exec (.lockFeedbackChange n b) s = .next t ∧ t.bit (Reg.OUT.STATUS.LOCKED n) = b ∧
      Booked (outEvent n 4 (b2n b) 0 (s.setB (Reg.OUT.STATUS.LOCKED n) b)) t)) ∧
  (∀ (n : Fin 16) (s : State), Calm s →
    (s.outSt n = 3 → ∃ t, exec (.readyTElapsed n) s = .next t ∧ Booked (outFromReady n 17 s) t) ∧
    (s.outSt n ≠ 3 → exec (.readyTElapsed n) s = .next s) ∧
    (s.outSt n = 4 → s.isDc n = true → ∃ t, exec (.closeTElapsed n) s = .next t ∧ t.outSt n = 5 ∧
      Booked (outEnter n 5 (s.setOut n { s.out n with clamp2 := true, isoGood := false, isoLow := 0 })) t) ∧
    (s.outSt n = 4 → s.isDc n = false → ∃ t, exec (.closeTElapsed n) s = .next t ∧ t.outSt n = 9 ∧
      Booked (raise (outCode 0x6002 n) n (outOpenStop n 16 s)) t) ∧
    (s.outSt n ≠ 4 → exec (.closeTElapsed n) s = .next s ∧ ∀ l v, exec (.closureVerified n l v) s = .next s) ∧
    (∀ l v : List Nat, s.outSt n = 4 → s.isAc n = true → l.length = v.length →
      (l.zip v).all (fun x => decide (8 * x.2 ≤ 10 * x.1)) = true →
      ∃ t, exec (.closureVerified n l v) s = .next t ∧ Booked (outEnter n 7 s) t ∧ t.outSt n = 7) ∧
    (s.outSt n = 8 → ∃ t, exec (.rampEnd n) s = .next t ∧ Booked (outOpen n s) t ∧ t.outSt n = 9) ∧
    (s.outSt n ≠ 8 → exec (.rampEnd n) s = .next s) ∧
    (∀ v, (s.outSt n = 9 ∨ (s.outSt n = 10 ∧ (s.out n).recheck = true)) → exec (.weldCheckStart n v) s =
      .next (s.setOut n { s.out n with weldRun := true, weldHold := decide (100000 < v) })) ∧
    (∀ (w : WeldWindow) (load : List Nat) (v : Nat) (u : State),
      (s.outSt n = 9 ∨ (s.outSt n = 10 ∧ (s.out n).recheck = true)) → v = weldJudge (1000 * s.nomV n) w →
      u = outEvent n 5 (v - 1) 0 (((withLoad n load s).setOut n { (withLoad n load s).out n with
        weldRun := false, weldHold := false, recheck := false }).wr (Reg.OUT.SUPV.WELD n) v) →
      (v = 1 → s.outSt n = 9 → ((openingEnds n u).out n).acdUpLatched = false →
        ∃ t, exec (.weldVerdict n w load) s = .next t ∧ Booked (openingEnds n u) t) ∧
      (v = 1 → s.outSt n = 10 → ((leaveFault n u).out n).acdUpLatched = false →
        ∃ t, exec (.weldVerdict n w load) s = .next t ∧ Booked (leaveFault n u) t) ∧
      (v = 3 → ((outFault n (u.setOut n { u.out n with weldBad := true })).out n).acdUpLatched = false →
        ∃ t, exec (.weldVerdict n w load) s = .next t ∧ t.outSt n = 10 ∧
        Booked (outFault n (u.setOut n { u.out n with weldBad := true })) t) ∧
      (v = 2 → s.rd (Reg.OUT.HS_MAP.TRIP n) < 40 → ((welded n u).out n).acdUpLatched = false →
        ∃ t, exec (.weldVerdict n w load) s = .next t ∧ Booked (welded n u) t) ∧
      (v = 2 → 40 ≤ s.rd (Reg.OUT.HS_MAP.TRIP n) → ((welded n u).out n).acdUpLatched = false → SealShut s →
        ∃ t, exec (.weldVerdict n w load) s = .next t ∧ Halted 10 (weldMark n u) t)) ∧
    ((s.out n).coolDue = true → ∃ t, exec (.coolOff n) s = .next t ∧
      Booked (hsDrive (s.rd (Reg.OUT.HS_MAP2.COOL n)) false (s.setOut n { s.out n with coolDue := false })) t) ∧
    ((s.out n).coolDue = false → exec (.coolOff n) s = .next s))

/-- Residual current and insulation (R259 to R262): a trip opens the coils, latches and stops the outlet with reason 5; the
test's result is shown, a failure raises its fault, a pass goes on with what waited for it; a held A clears a trip or a
pilot error from FAULT; an insulation result is shown and judged.
Power modules, devices and CAN (R263 to R265): the setpoint stays within the clamps, each module with a bus is sent its
share, and SEQ steps on a new setpoint; a valid STATUS is taken, any other frame is not; a lost module ramps the outlet
down with reason 15; the device stops at its end or on its timeout; a bus goes off and recovers. -/
def Obligations.ResidualCurrentModulesAndBuses : Prop :=
  (∀ (n : Fin 16) (s : State), Calm s →
    ((s.out n).rcmTest ≠ 0 → exec (.outRcmTrip n) s = .next s) ∧
    (∀ u, (s.out n).rcmTest = 0 →
      u = outEvent n 6 0 0 ((s.setB (Reg.OUT.SUPV.RCM_TRIP n) true).inc (Reg.OUT.SUPV.RCM_TRIPS n)) →
      ∃ t, exec (.outRcmTrip n) s = .next t ∧ t.bit (Reg.OUT.SUPV.RCM_TRIP n) = true ∧
        Booked (raise (outCode 0x6003 n) n (outLatchStop n 5 (coilsSet n false u))) t) ∧
    (∀ (lo hi : Option Nat) (load : List Nat), (s.out n).rcmTest = 0 →
      exec (.rcmTestResult n lo hi load) s = .next (withLoad n load s)) ∧
    (∀ (lo hi : Option Nat) (load : List Nat) (why : Nat) (u v : State), why = (s.out n).rcmTest → why ≠ 0 →
      u = outEvent n 7 (b2n !rcmPasses lo hi) 0 ((withLoad n load s).setOut n { (withLoad n load s).out n with rcmTest := 0 }) →
      v = (if s.outSt n = 2 ∨ s.outSt n = 3 then u.setB (Reg.OUT.SUPV.RCM_OK n) (rcmPasses lo hi) else u) →
      (rcmPasses lo hi = false → ∃ t, exec (.rcmTestResult n lo hi load) s = .next t ∧
        Booked (raise (outCode 0x6004 n) n v) t) ∧
      (rcmPasses lo hi = true → why = 2 → ∃ t, exec (.rcmTestResult n lo hi load) s = .next t ∧
        Booked (tryClose n (v.setOut n { v.out n with rcmEach := true })) t) ∧
      (rcmPasses lo hi = true → why = 3 → s.outSt n = 10 → (s.out n).weldBad = false →
        ∃ t, exec (.rcmTestResult n lo hi load) s = .next t ∧ Booked (leaveFault n v) t) ∧
      (rcmPasses lo hi = true → why = 1 ∨ why = 4 → ∃ t, exec (.rcmTestResult n lo hi load) s = .next t ∧
        Booked (tryClose n v) t)) ∧
    (∀ b, s.outSt n = 10 → (s.out n).weldBad = false → (s.out n).precloseBad = false →
      (s.bit (Reg.OUT.SUPV.RCM_TRIP n) = true ∧ b = true ∨
        s.bit (Reg.OUT.SUPV.RCM_TRIP n) = false ∧ (s.out n).pilotErr = true) →
      ∃ t, exec (.faultClearAHeld n b) s = .next t ∧ Booked (leaveFault n s) t) ∧
    (∀ b, s.outSt n ≠ 10 → exec (.faultClearAHeld n b) s = .next s) ∧
    (∀ vpA vnA vpB vnB : Int,
      (s.isDc n = false ∨ |vpA - vnA| < 50000 ∨ |vpB - vnB| < 50000 →
        exec (.insulationResult n vpA vnA vpB vnB) s = .next s) ∧
      (∀ riso opv : Int, s.isDc n = true → 50000 ≤ |vpA - vnA| → 50000 ≤ |vpB - vnB| →
        isoResult (s.outCfg n 0x1E 2) vpA vnA vpB vnB = some (riso, opv) →
        (∃ t, exec (.insulationResult n vpA vnA vpB vnB) s = .next t ∧ Booked (isoJudge n riso opv s) t) ∧
        ((s.outCfg n 0x20 2 : Int) ≤ opv → (s.outCfg n 0x22 2 : Int) ≤ opv → s.bit (Reg.OUT.SUPV.ISO_WARN n) = false →
          exec (.insulationResult n vpA vnA vpB vnB) s = .next (isoTake n riso opv false false s))))) ∧
  (∀ (n : Fin 16) (s : State), Calm s →
    (s.modules n = [] → exec (.setpoint n) s = .next s) ∧
    (s.modules n ≠ [] → exec (.setpoint n) s = .next (setpoints n s)) ∧
    (∀ f : Setpoint, (s.clampFrame n f).vSet ≤ 10 * s.outCfg n 6 2 ∧
      (s.clampFrame n f).iFwd ≤ s.rd (Reg.OUT.LIMIT.I_CAP n) ∧
      (s.outSt n = 5 ∨ s.outSt n = 6 → (s.out n).clamp2 = true → (s.clampFrame n f).iFwd ≤ 20) ∧
      (s.revOk n = false → (s.clampFrame n f).iRev = 0) ∧
      (s.outCfg n 8 2 ≠ 0 → (s.clampFrame n f).pMax ≤ s.outCfg n 8 2)) ∧
    (∀ (b : Fin 2) (node : Fin 128) (bytes : List Byte),
      (bytes.length = 16 → crc16 (bytes.take 14) = leAt bytes 14 2 → s.bit (Reg.CAN.CFG.EN b) = true →
        ∃ t, exec (.statusFrame b node bytes) s = .next t ∧ Booked (statusTake b node bytes s) t) ∧
      (bytes.length ≠ 16 ∨ crc16 (bytes.take 14) ≠ leAt bytes 14 2 ∨ s.bit (Reg.CAN.CFG.EN b) = false →
        exec (.statusFrame b node bytes) s = .next s)) ∧
    (∀ k : Fin 4, (s.modCfg n k).isSome = true → s.bit (Reg.OUT.MOD_STAT.LOST n k) = false →
      ∃ t, exec (.outModLost n k) s = .next t ∧
        Booked (raiseCause (outCode 0x6009 n) k (outRamp n 15 (s.setB (Reg.OUT.MOD_STAT.LOST n k) true))) t) ∧
    (∀ lowered, s.rd (Reg.OUT.CFG.KIND n) = 4 → ∃ t, exec (.acdEndPosition n lowered) s = .next t ∧
      Booked (acdEnd n (if lowered then 3 else 1) s) t ∧ t.rd (Reg.OUT.SUPV.ACD n) = (if lowered then 3 else 1)) ∧
    ((s.out n).acdMove ≠ 0 → ∃ t, exec (.outAcdTimeout n) s = .next t ∧
      Booked (raise (outCode 0x600C n) n (acdEnd n 0 s)) t ∧ t.rd (Reg.OUT.SUPV.ACD n) = 0) ∧
    ((s.out n).acdMove = 0 → exec (.outAcdTimeout n) s = .next s) ∧
    (∀ (b : Fin 2) (u : State), u = (((({ s with free := s.free + 2 } : State).setB (Reg.CAN.STATUS.BUS_OFF b) true).setB
        (Reg.CAN.STATUS.ON b) false).wr (Reg.CAN.STATUS.TEC b) (Config.freeValue s.free)).wr (Reg.CAN.STATUS.REC b)
          (Config.freeValue (s.free + 1)) →
      Opens 0x7A01 s → ∃ t, exec (.canBusOff b) s = .next t ∧ Opened 0x7A01 b (setCause 0x7A01 b true u) t) ∧
    (∀ b : Fin 2, s.bit (Reg.CAN.STATUS.BUS_OFF b) = true → exec (.busOffRecovered b) s = .next (setCause 0x7A01 b false
      (((((s.setB (Reg.CAN.STATUS.BUS_OFF b) false).setB (Reg.CAN.STATUS.PASSIVE b) false).setB
        (Reg.CAN.STATUS.ON b) (s.bit (Reg.CAN.CFG.EN b))).wr (Reg.CAN.STATUS.TEC b) 0).wr (Reg.CAN.STATUS.REC b) 0))))

/-- The end of a step raises what waits, follows a change of mode, starts the drain of R504 at 256 records and holds the
outputs off where R57 bars them: in a calm state it changes nothing; with no fault above Minor waiting, no change of mode
and outputs not barred, it changes only what the collector, the recorder and the queues hold. -/
def Obligations.EndOfStepChangesOnlyTheBooks : Prop :=
  (∀ s : State, Calm s → settle s = s) ∧
  ∀ s : State, MinorTodo s → s.moved = false → s.outputsBarred = false → Booked s (settle s) ∧
    ∀ f : Fld, f.lo < 32 → bookBlock (f.addr / 4096) = false → (settle s).rd f = s.rd f

/-- An instance follows R295 to R298 and R310: its control takes EN and TX_ATTEN, EN off ends a transmitter fault, and it
is enabled or disabled as its conditions come and go; a passed converter check leads from STARTING to WAITING; a
transmitter fault is latched and forces it off; SLAC_INIT and the match and join times report their failures, the match
time back to WAITING, the join time with a fresh key.
Pairing (R297 to R300): CM_SLAC_PARM.REQ starts a sounding, anew for another RunID, and is answered again for the same
one; the window opens for the RunID held; a sound counts and joins the profile, the last one asked for or MNBC with a good
one leads to MATCHING with SOUNDS and ATTEN, MNBC without one back to WAITING with failure 2; the match of the RunID held
leads to MATCHED with the vehicle's address; a validation request is answered, an amplitude map is not. -/
def Obligations.VehicleLinksPair : Prop :=
  (∀ (n : Fin 16) (s : State), Calm s →
    (∀ (a : Agent) (en : Bool) (atten : Fin 64) (u : State), 1 ≤ s.level a →
      u = (if en then (s.setB (Reg.VPL.CTL.EN n) en).wr (Reg.VPL.CTL.TX_ATTEN n) atten
        else setCause (0x7120 + n) n false (((s.setB (Reg.VPL.CTL.EN n) en).wr (Reg.VPL.CTL.TX_ATTEN n) atten).setVpl n
          { s.vplAt n with txFault := false })) →
      (u.vplWanted n = (s.vplAt n).wanted → exec (.vplCtlWrite a n en atten) s = .next u) ∧
      (u.vplWanted n = true → (s.vplAt n).wanted = false → exec (.vplCtlWrite a n en atten) s =
        .next (settle (vplEnable n (u.setVpl n { u.vplAt n with wanted := true })))) ∧
      (u.vplWanted n = false → (s.vplAt n).wanted = true → exec (.vplCtlWrite a n en atten) s =
        .next (settle (vplDisable n (u.setVpl n { u.vplAt n with wanted := false }))))) ∧
    (s.rd (Reg.VPL.STATUS.STATE n) = 1 → ∃ t, exec (.converterCheckPassed n) s = .next t ∧ Booked (vplEnter n 2 s) t ∧
      t.rd (Reg.VPL.STATUS.STATE n) = 2) ∧
    (s.rd (Reg.VPL.STATUS.STATE n) ≠ 1 → exec (.converterCheckPassed n) s = .next s) ∧
    (∃ t, exec (.vplTxFault n) s = .next t ∧ Booked (vplForce n (raiseCause (0x7120 + n) n
      (s.setVpl n { s.vplAt n with txFault := true }))) t) ∧
    (s.rd (Reg.VPL.STATUS.STATE n) = 2 → ∃ t, exec (.slacInitElapsed n) s = .next t ∧ Booked (vplFail n 1 s) t ∧
      t.rd (Reg.VPL.STATUS.LAST_FAIL n) = 1) ∧
    (s.rd (Reg.VPL.STATUS.STATE n) ≠ 2 → exec (.slacInitElapsed n) s = .next s) ∧
    (s.rd (Reg.VPL.STATUS.STATE n) = 4 → ∃ t, exec (.matchTElapsed n) s = .next t ∧
      Booked (vplFail n 3 (vplEnter n 2 (s.setVpl n { s.vplAt n with runId := none }))) t ∧
      t.rd (Reg.VPL.STATUS.LAST_FAIL n) = 3 ∧ t.rd (Reg.VPL.STATUS.STATE n) = 2) ∧
    (s.rd (Reg.VPL.STATUS.STATE n) ≠ 4 → exec (.matchTElapsed n) s = .next s) ∧
    (s.rd (Reg.VPL.STATUS.STATE n) = 5 → ∃ t, exec (.joinTElapsed n) s = .next t ∧
      Booked (vplFail n 4 (vplStarting n s)) t ∧
      t.rd (Reg.VPL.STATUS.LAST_FAIL n) = 4 ∧ t.rd (Reg.VPL.STATUS.STATE n) = 1) ∧
    (s.rd (Reg.VPL.STATUS.STATE n) ≠ 5 → exec (.joinTElapsed n) s = .next s)) ∧
  (∀ (n : Fin 16) (s : State) (st : Nat) (x : VplSt), Calm s → st = s.rd (Reg.VPL.STATUS.STATE n) → x = s.vplAt n →
    (∀ r, (st = 2 ∨ (st = 3 ∨ st = 4) ∧ x.runId ≠ some r) → ∃ t, exec (.cmSlacParmReq n r) s = .next t ∧
      Booked (vplEnter n 3 (s.setVpl n { x with
        runId := some r, numSounds := 0, window := false, heard := 0, good := 0, sums := [], profile := [], answer := 1 })) t ∧ t.rd (Reg.VPL.STATUS.STATE n) = 3) ∧
    (∀ r, (st = 3 ∨ st = 4) → x.runId = some r →
      exec (.cmSlacParmReq n r) s = .next (s.setVpl n { x with answer := 1 })) ∧
    (∀ r, st ≠ 2 → st ≠ 3 → st ≠ 4 → exec (.cmSlacParmReq n r) s = .next s) ∧
    (∀ (r : Nat) (k : Fin 256), st = 3 → x.runId = some r → exec (.cmStartAttenCharInd n r k) s =
      .next (s.setVpl n { x with numSounds := k, window := true })) ∧
    (∀ (r : Nat) (k : Fin 256), (st ≠ 3 ∨ x.runId ≠ some r) → exec (.cmStartAttenCharInd n r k) s = .next s) ∧
    (∀ ok att, (st ≠ 3 ∨ x.window = false) → exec (.soundReceived n ok att) s = .next s) ∧
    (∀ ok att, st = 3 → x.window = true → (x.heard + 1 < x.numSounds ∨ (ok = false ∧ x.good = 0)) →
      exec (.soundReceived n ok att) s = .next (s.setVpl n (if ok then
        { x with heard := x.heard + 1, good := x.good + 1, sums := slacSums x.sums att } else { x with heard := x.heard + 1 }))) ∧
    (∀ ok att u, st = 3 → x.window = true → x.numSounds ≤ x.heard + 1 → (ok = true ∨ 1 ≤ x.good) →
      u = s.setVpl n (if ok then
        { x with heard := x.heard + 1, good := x.good + 1, sums := slacSums x.sums att } else { x with heard := x.heard + 1 }) →
      ∃ t, exec (.soundReceived n ok att) s = .next t ∧ Booked (slacMatching n u) t ∧ t.rd (Reg.VPL.STATUS.STATE n) = 4) ∧
    (st = 3 → x.window = true → 1 ≤ x.good → ∃ t, exec (.mnbcElapsed n) s = .next t ∧ Booked (slacMatching n s) t ∧
      t.rd (Reg.VPL.STATUS.STATE n) = 4 ∧ t.rd (Reg.VPL.STATUS.SOUNDS n) = x.good % 256) ∧
    (st = 3 → x.window = true → x.good = 0 → ∃ t, exec (.mnbcElapsed n) s = .next t ∧
      Booked (vplFail n 2 (vplEnter n 2 (s.setVpl n { x with window := false, runId := none }))) t ∧
      t.rd (Reg.VPL.STATUS.STATE n) = 2 ∧ t.rd (Reg.VPL.STATUS.LAST_FAIL n) = 2) ∧
    ((st ≠ 3 ∨ x.window = false) → exec (.mnbcElapsed n) s = .next s) ∧
    (∀ r mac, st = 4 → x.runId = some r → ∃ t, exec (.cmSlacMatchReq n r mac) s = .next t ∧
      Booked (((vplEnter n 5 (s.setVpl n { x with answer := 3 })).wr (Reg.VPL.EV_MAC_LO.BYTES n) mac).wr
        (Reg.VPL.EV_MAC_HI.BYTES n) (mac / 2 ^ 32)) t ∧ t.rd (Reg.VPL.STATUS.STATE n) = 5) ∧
    (∀ r mac, (st ≠ 4 ∨ x.runId ≠ some r) → exec (.cmSlacMatchReq n r mac) s = .next s) ∧
    (2 ≤ st → st ≤ 6 → exec (.cmValidateReq n) s = .next (s.setVpl n { x with answer := 4 })) ∧
    ((st < 2 ∨ 6 < st) → exec (.cmValidateReq n) s = .next s) ∧
    exec (.cmAmpMapReq n) s = .next s)

/-- A linked instance and the transforms (R293, R294, R301 to R303): the matched station's first frame links it and counts; a
link silent for LINK_T is lost and its key replaced; runtime frames count, in modes 8 and 9 up to 32 are kept and the rest
dropped; failed blocks are sent again until RETRY fails the frame. A requester has one transform outstanding, waiting by
symbol end; a completed one leaves the engines; one older than 23.4 µs is discarded and counted with VPL_FFT_OVERRUN. -/
def Obligations.VehicleLinkCarriesFrames : Prop :=
  (∀ (n : Fin 16) (s : State) (st : Nat) (x : VplSt) (u : State), Calm s → st = s.rd (Reg.VPL.STATUS.STATE n) →
      x = s.vplAt n → u = s.inc (Reg.VPL.RX_FRAMES.COUNT n) →
    (st = 5 → ∃ t, exec (.matchedStationFrame n) s = .next t ∧
      Booked (vplEvent n 2 x.good (u.evMac n) (vplEnter n 6 u)) t ∧ t.rd (Reg.VPL.STATUS.STATE n) = 6) ∧
    (st = 6 → exec (.matchedStationFrame n) s = .next u) ∧
    (st ≠ 5 → st ≠ 6 → exec (.matchedStationFrame n) s = .next s) ∧
    (∀ ms, st = 6 → 100 * s.rd Reg.VPL.CFG2.LINK_T ≤ ms → ∃ t, exec (.vplLinkLost n ms) s = .next t ∧
      Booked (raise (0x3160 + n) n (vplStarting n (vplEvent n 4 0 ms s))) t ∧ t.rd (Reg.VPL.STATUS.STATE n) = 1) ∧
    (∀ ms, (st ≠ 6 ∨ ms < 100 * s.rd Reg.VPL.CFG2.LINK_T) → exec (.vplLinkLost n ms) s = .next s) ∧
    (∀ b, st ≠ 6 → exec (.gpFrameReceived n b) s = .next s) ∧
    (∀ b, st = 6 → s.mode ≠ 8 → s.mode ≠ 9 → exec (.gpFrameReceived n b) s = .next u) ∧
    (∀ b, st = 6 → (s.mode = 8 ∨ s.mode = 9) → x.buf.length < 32 →
      exec (.gpFrameReceived n b) s = .next (u.setVpl n { x with buf := x.buf ++ [b] })) ∧
    (∀ b w, st = 6 → (s.mode = 8 ∨ s.mode = 9) → 32 ≤ x.buf.length → w = u.inc (Reg.VPL.DROPS.COUNT n) →
      ∃ t, exec (.gpFrameReceived n b) s = .next t ∧ Booked (vplEvent n 5 0 (w.rd (Reg.VPL.DROPS.COUNT n)) w) t) ∧
    (∀ l, (st < 2 ∨ 6 < st) → exec (.selectiveAckReceived n l) s = .next s) ∧
    (2 ≤ st → st ≤ 6 → exec (.selectiveAckReceived n []) s = .next (s.setVpl n { x with blocks := [] })) ∧
    (∀ k l b, 2 ≤ st → st ≤ 6 →
      b = (k :: l).foldl (fun m k => mapSet (fun _ => 0) m k (mapGet (fun _ => 0) m k + 1)) x.blocks →
      ((∃ j ∈ k :: l, s.rd Reg.VPL.CFG2.RETRY ≤ mapGet (fun _ => 0) b j) →
        exec (.selectiveAckReceived n (k :: l)) s =
          .next ((s.setVpl n { x with blocks := [] }).inc (Reg.VPL.PB_STAT.FAILED n))) ∧
      ((∀ j ∈ k :: l, mapGet (fun _ => 0) b j < s.rd Reg.VPL.CFG2.RETRY) →
        exec (.selectiveAckReceived n (k :: l)) s = .next ((s.setVpl n { x with blocks := b }).wr
          (Reg.VPL.PB_STAT.RETX n) (min 65535 (s.rd (Reg.VPL.PB_STAT.RETX n) + (l.length + 1))))))) ∧
  ∀ (req : Fin 17) (now : Nat) (s : State), Calm s →
    ((∃ x ∈ s.fft.waiting ++ s.fft.busy, x.2 = req.val) → exec (.fftRequest req now) s = .next s) ∧
    ((∀ x ∈ s.fft.waiting ++ s.fft.busy, x.2 ≠ req.val) → exec (.fftRequest req now) s =
      .next (fftGrant 2 now { s with fft := { s.fft with waiting := fftInsert (now, req) s.fft.waiting } })) ∧
    ((∃ x ∈ s.fft.busy, x.2 = req.val) → exec (.fftComplete req now) s = .next (fftDrop req now s)) ∧
    ((∀ x ∈ s.fft.busy, x.2 ≠ req.val) → exec (.fftComplete req now) s = .next s) ∧
    ((∃ x ∈ s.fft.waiting ++ s.fft.busy, x.2 = req.val ∧ x.1 + 234 < now) → Opens 0x7101 s →
      ∃ t, exec (.vplFftOverrun req now) s = .next t ∧
        Opened 0x7101 req ((fftDrop req now s).inc Reg.VPL.STATUS.OVERRUNS) t) ∧
    ((∀ x ∈ s.fft.waiting ++ s.fft.busy, x.2 = req.val → now ≤ x.1 + 234) → exec (.vplFftOverrun req now) s = .next s)

/-- Time, cycles and beacons (R329 to R331, R338, R346 to R348): a synchronised member asks to set the time by network
time; a coordinator's cycle counts on, with its flags, relays, safety list and HALF, and sends the central beacon; a beacon
of another domain or type and a failed block change nothing, a coordinator wins or loses a duel by priority and then by
the lower identifier, a member takes a beacon whose tag holds and counts one whose tag fails, any other node takes it
and is synchronising; a named relay sends its relay beacon, and a member follows one of less depth.
Admission (R341, R342): a synchronised node waits its windows, then sends a join request with its tag; a member passes
on what names it, the coordinator counts a request with a false tag and queues a true one once; ADMIT_A is answered with a
fresh key and the tag, ADMIT_B with a false tag fails and with a true one is answered, ADMIT_C with a false tag fails the
exchange, ADMIT_D that opens under the shared key makes the node a member with its identifier and the NEK. -/
def Obligations.BackboneCyclesAndAdmission : Prop :=
  (∀ s u : State, s.running = true → u = bbnBegin s →
    (∀ (clk : Nat) (now : Fin 32768),
      (s.bit Reg.BBN.STATUS.SYNC = true → s.role = 3 → s.bit Reg.BBN.STATUS.TIME_INVALID = false →
        s.flag Reg.RTC.CFG.SRC_EN 0 = true → exec (.beaconTimeCompare clk now) s = .next (settle (timeRequest 1
          (Config.rounded ((s.netTime clk : Rat) * 32768 / 1000000000) - s.readingAt now) s))) ∧
      (s.role ≠ 3 → exec (.beaconTimeCompare clk now) s = .next (settle s))) ∧
    (∀ (now : Fin 32768) (clk zc nt fl : Nat) (v w : State),
      (s.role ≠ 4 ∨ s.bbn.silent = true → exec (.cycleStart now clk zc) s = .next (settle u)) ∧
      (s.role = 4 → s.bbn.silent = false → nt = s.rtcNs now →
        v = nekSwitchAt (setNetTime nt clk (bbnCycle ((s.bbn.cycle + 1) % 2 ^ 32) ((s.bbn.epoch + 1) % 64) u)) →
        fl = v.beaconFlags nt → w = (v.setB Reg.BBN.STATUS.TIME_INVALID (Nat.testBit fl 1)).mapBbn (fun b => { b with
          flags := fl, relays := v.relayChoice, safety := v.safetyChoice, half := v.halfUnits, zc := nt - zc, unheard := 0 }) →
        exec (.cycleStart now clk zc) s = .next (settle (emit ⟨0, 1, 0xFFF, 1, w.bbn.fseq, false, false, 0,
          [w.beaconData nt zc fl ++ Config.ccmSeal 8 (w.nek w.bbn.nekIdx) (beaconNonce w.ownLong w.bbn.cycle)
            (w.beaconData nt zc fl) []]⟩ (w.mapBbn fun b => { b with fseq := (b.fseq + 1) % 4096 }))))) ∧
    (∀ (fc : Nat) (d : Option (List Byte)) (clk : Nat),
      (s.role = 0 ∨ s.bbn.silent = true ∨ s.fcOk 0 fc = false → exec (.beacon fc d clk) s = .next (settle u)) ∧
      exec (.beacon fc none clk) s = .next (settle u)) ∧
    (∀ (fc : Nat) (d : List Byte) (clk long pri : Nat), s.bbn.silent = false → s.fcOk 0 fc = true → d.length = 233 →
      long = beAt d 0xC 6 → pri = leAt d 0x12 1 →
      (s.role = 4 → long = s.ownLong → exec (.beacon fc (some d) clk) s = .next (settle u)) ∧
      (s.role = 4 → long ≠ s.ownLong → (s.coordPri < pri ∨ s.coordPri = pri ∧ long < s.ownLong) →
        exec (.beacon fc (some d) clk) s = .next (settle (duelLost long pri u))) ∧
      (s.role = 4 → long ≠ s.ownLong → ¬ (s.coordPri < pri ∨ s.coordPri = pri ∧ long < s.ownLong) →
        exec (.beacon fc (some d) clk) s = .next (settle (u.inc Reg.BBN.ELECT.WON))) ∧
      (s.role = 3 → (s.nek (leAt d 0x22 1) = [] ∨ Config.ccmOpen 8 (s.nek (leAt d 0x22 1)) (beaconNonce long (beAt d 8 4))
          (d.take 0xE1) (d.drop 0xE1) = none) → exec (.beacon fc (some d) clk) s = .next (settle (micFail u))) ∧
      (∀ x, s.role = 3 → s.nek (leAt d 0x22 1) ≠ [] → Config.ccmOpen 8 (s.nek (leAt d 0x22 1))
          (beaconNonce long (beAt d 8 4)) (d.take 0xE1) (d.drop 0xE1) = some x →
        exec (.beacon fc (some d) clk) s = .next (settle (beaconTake d clk (fcSrc fc) u))) ∧
      (s.role = 1 ∨ s.role = 2 →
        exec (.beacon fc (some d) clk) s = .next (settle (beaconTake d clk (fcSrc fc) u)))) ∧
    (∀ clk r nt, (s.bbn.relays.findIdx? fun n => n = s.bbnNode) = some r → s.role = 3 → s.bit Reg.BBN.STATUS.SYNC = true →
      nt = s.netTime clk → exec (.relayBeaconSlot clk) s = .next (settle (emit ⟨5, s.bbnNode, 0xFFF, 0, 0, false, false, 0,
        [s.compact 1 s.bbn.cycle r (beBytes 8 nt ++ beBytes 2 s.bbn.cycle ++ beBytes 1 (s.rd Reg.BBN.NODE.DEPTH) ++
          beBytes 1 s.bbn.flags ++ beBytes 4 (nt - s.bbn.zc) ++ beBytes 2 s.bbn.half)]⟩ u))) ∧
    (∀ clk, (s.bbn.relays.findIdx? fun n => n = s.bbnNode) = none → exec (.relayBeaconSlot clk) s = .next (settle u)) ∧
    (∀ (r : Fin 16) (f : List Byte) (clk : Nat),
      (s.bbn.silent = true ∨ f.length ≠ 24 ∨ beAt f 0 2 / 4096 ≠ 1 ∨ s.role = 0 ∨ s.role = 4 →
        exec (.relayBeacon r f clk) s = .next (settle u)) ∧
      (s.bbn.silent = false → f.length = 24 → beAt f 0 2 / 4096 = 1 → s.role = 3 →
        s.compactOpen s.bbn.cycle r f = none → s.compactOpen (s.bbn.cycle + 1) r f = none →
        exec (.relayBeacon r f clk) s = .next (settle (micFail u))) ∧
      (∀ d, s.bbn.silent = false → f.length = 24 → beAt f 0 2 / 4096 = 1 → s.role = 3 →
        s.compactOpen s.bbn.cycle r f = some d → s.rd Reg.BBN.NODE.DEPTH ≤ leAt d 10 1 + 1 →
        exec (.relayBeacon r f clk) s = .next (settle u)) ∧
      (∀ d nt v, s.bbn.silent = false → f.length = 24 → beAt f 0 2 / 4096 = 1 → s.role = 3 →
        s.compactOpen s.bbn.cycle r f = some d → leAt d 10 1 + 1 < s.rd Reg.BBN.NODE.DEPTH → nt = beAt d 0 8 →
        v = (nekSwitchAt (setNetTime (nt + 17066) clk (bbnCycle s.bbn.cycle s.bbn.epoch u))).mapBbn (fun b => { b with
          flags := leAt d 11 1, zc := nt - beAt d 12 4, half := beAt d 16 2 }) →
        exec (.relayBeacon r f clk) s = .next (settle (((v.wr Reg.BBN.NODE.DEPTH (leAt d 10 1 + 1)).setB
          Reg.BBN.STATUS.TIME_INVALID (Nat.testBit (leAt d 11 1) 1)).setB Reg.BBN.STATUS.SYNC true))))) ∧
  (∀ (s u : State) (dak : List Byte), s.running = true → u = bbnBegin s → s.dak = some dak →
    (s.bbn.join = none → exec .joinMiniSlot s = .next (settle u)) ∧
    (∀ j, s.bbn.join = some j → s.role = 2 → s.bbn.silent = false →
      (j.wait ≠ 0 → exec .joinMiniSlot s =
        .next (settle (u.mapBbn fun b => { b with join := some { j with wait := j.wait - 1 } }))) ∧
      (j.wait = 0 → j.asked = true → j.windows < 4 → exec .joinMiniSlot s =
        .next (settle (u.mapBbn fun b => { b with join := some { j with windows := j.windows + 1 } }))) ∧
      (j.wait = 0 → j.asked = true → 4 ≤ j.windows → exec .joinMiniSlot s = .next (settle ((u.draw 3).2.mapBbn fun b =>
        { b with join := some { j with asked := false, windows := 0, wait := Config.random s.free % 2 ^ 3 } }))) ∧
      (∀ d, j.wait = 0 → j.asked = false → d = beBytes 2 0x3000 ++ beBytes 6 s.ownLong ++
          beBytes 1 (s.rd Reg.BBN.NODE.DEPTH) ++ beBytes 2 j.via ++ beBytes 4 s.bbn.cycle ++ List.replicate 5 0 →
        exec .joinMiniSlot s = .next (settle (emit ⟨5, 0, 0xFFF, 0, 0, false, false, 0, [d ++ joinTag dak d]⟩
          ((u.draw 3).2.mapBbn fun b => { b with join := some { j with asked := true, windows := 1 } }))))) ∧
    (∀ (via : Fin 4096) (f : List Byte), (f.length ≠ 24 ∨ s.bbn.silent = true ∨ s.role = 1 →
      exec (.joinRequest via f) s = .next (settle u))) ∧
    (∀ (via : Fin 4096) (f : List Byte) (long sender : Nat), f.length = 24 → beAt f 0 2 = 3 * 4096 → s.bbn.silent = false →
      long = beAt f 2 6 → sender = beAt f 9 2 →
      (s.role = 3 → via.val = 0 → sender = s.bbnNode → exec (.joinRequest via f) s =
        .next (settle (u.mapBbn fun b => { b with passOn := b.passOn ++ [f] }))) ∧
      (s.role = 4 → joinTag dak (f.take 20) ≠ f.drop 20 → exec (.joinRequest via f) s = .next (settle (micFail u))) ∧
      (s.role = 4 → joinTag dak (f.take 20) = f.drop 20 → (∀ x ∈ s.bbn.ignored, x.1 ≠ long) →
        (∀ x ∈ s.bbn.requests, x.1 ≠ long) → (via.val = 0 ∧ sender = 1 ∨ via.val ≠ 0 ∧ sender = via.val) →
        exec (.joinRequest via f) s = .next (settle (u.mapBbn fun b =>
          { b with requests := b.requests ++ [(long, if via.val = 0 then 1 else via.val)] })))) ∧
    (∀ (long : Nat) (qj : List Byte), (s.bbn.adm = none → exec (.admitA long qj) s = .next (settle u)) ∧
      ∀ a v w m, s.bbn.adm = some a → s.role = 4 → a.longId = long → v = drawBytes 32 u →
        w = v.2.mapBbn (fun b => { b with adm := some { a with qj := qj, priv := v.1 } }) →
        m = beBytes 1 4 ++ beBytes 6 s.ownLong ++ Config.ecPublic 256 v.1 ++
          admTag dak "RSB1" qj (Config.ecPublic 256 v.1) long s.ownLong →
        exec (.admitA long qj) s = .next (settle (addDown 0 (openFrame 0 m w).1 (openFrame 0 m w).2))) ∧
    (∀ (coord : Nat) (qc tc : List Byte), (s.bbn.join = none → exec (.admitB coord qc tc) s = .next (settle u)) ∧
      ∀ j v m, s.bbn.join = some j → s.role = 2 → j.priv.isEmpty = false →
        (admTag dak "RSB1" (Config.ecPublic 256 j.priv) qc s.ownLong coord ≠ tc → exec (.admitB coord qc tc) s =
          .next (settle (raise 0x3204 0 (u.mapBbn fun b =>
            { b with join := some ⟨j.via, false, 0, 0, [], 0, [], []⟩, up := [] })))) ∧
        (admTag dak "RSB1" (Config.ecPublic 256 j.priv) qc s.ownLong coord = tc →
          v = u.mapBbn (fun b => { b with join := some { j with coord := coord, qc := qc, kek := admKek j.priv qc } }) →
          m = beBytes 1 5 ++ admTag dak "RSB2" (Config.ecPublic 256 j.priv) qc s.ownLong coord →
          exec (.admitB coord qc tc) s = .next (settle ((openFrame 1 m v).2.mapBbn fun b =>
            { b with up := b.up ++ (openFrame 1 m v).1 })))) ∧
    (∀ tj : List Byte, (s.bbn.adm = none → exec (.admitC tj) s = .next (settle u)) ∧
      ∀ a, s.bbn.adm = some a → s.role = 4 → a.priv.isEmpty = false →
        admTag dak "RSB2" a.qj (Config.ecPublic 256 a.priv) a.longId s.ownLong ≠ tj →
        exec (.admitC tj) s = .next (settle (admitFail u))) ∧
    (∀ (tj : List Byte) a n kek l v, s.bbn.adm = some a → s.role = 4 → a.priv.isEmpty = false → n = s.nodeFor a.longId →
      admTag dak "RSB2" a.qj (Config.ecPublic 256 a.priv) a.longId s.ownLong = tj → n ≠ 0 → kek = admKek a.priv a.qj →
      l = openFrame 0 (beBytes 1 6 ++ beBytes 2 n ++ beBytes 1 s.bbn.nekIdx ++
        Config.ccmSeal 8 kek Config.wrapNonce [] (s.nek s.bbn.nekIdx)) u →
      v = addDown 0 l.1 (l.2.mapBbn fun b => { b with
        adm := some { a with kek := kek }
        ids := if b.ids.any (fun x => x.1 = a.longId) then b.ids else b.ids ++ [(a.longId, n)]
        members := mapIns b.members n ⟨a.longId, kek, false, false⟩
        paths := mapIns b.paths n (mapGet (fun _ => []) s.bbn.paths a.via ++ [n])
        requests := b.requests.filter fun x => x.1 ≠ a.longId }) →
      exec (.admitC tj) s = .next (settle (v.wr Reg.BBN.COORD.MEMBERS v.bbn.members.length))) ∧
    (∀ (node : Fin 4096) (idx : Fin 2) (wr : List Byte),
      (s.bbn.join = none → exec (.admitD node idx wr) s = .next (settle u)) ∧
      ∀ j, s.bbn.join = some j → s.role = 2 → j.kek.isEmpty = false →
        (Config.ccmOpen 8 j.kek Config.wrapNonce [] wr = none →
          exec (.admitD node idx wr) s = .next (settle (micFail u))) ∧
        (∀ nek, Config.ccmOpen 8 j.kek Config.wrapNonce [] wr = some nek → exec (.admitD node idx wr) s =
          .next (settle (setCause 0x7202 0 false (setCause 0x7209 0 false ((((u.mapBbn fun b => { b with
            join := none, kek := j.kek, neks := mapSet (fun _ => []) [] idx nek, nekIdx := idx, fcnt := 0,
            linksDue := true, coordLong := some j.coord }).wr Reg.BBN.STATUS.ROLE 3).wr Reg.BBN.NODE.NODE node).setB
              Reg.BBN.STATUS.SYNC true)))))))

/-- Safety slots (R332, R381 to R384): a unit without a group, or before SAF runs, sends nothing; the message goes out as a
compact frame where the node is the slot's and as the ETH[1] frame where that channel is used, and its number counts on;
a slot of the group that holds no such frame is counted and reported with BBN_SAFE_MISS, a frame whose tag fails counts
as such too, any other is the copy of the backbone channel; on ETH[1] only a frame of the right form and tag is a copy.
Coordinators and keys (R315, R337 to R339, R344): a node that has listened, or waited for its takeover, becomes the
coordinator; one not joined says so; a member that loses its coordinator listens, counts the loss, and with a priority
draws its wait; a path fault disables the path; the coordinator draws the new NEK, sends it to every member and announces
the switch 64 cycles ahead; a member takes a NEK that opens under its KEK and counts one that does not. -/
def Obligations.BackboneSafetyCoordinatorsAndKeys : Prop :=
  (∀ s u : State, s.running = true → u = bbnBegin s →
    ((s.sec 7 = [] ∨ s.cfg 7 0x11 1 = 0xFF ∨ s.bit Reg.SAF.STATUS.RUN = false) →
      exec .safetySlot s = .next (settle u)) ∧
    (∀ v g, g = s.cfg 7 0x11 1 → s.sec 7 ≠ [] → g ≠ 0xFF → s.bit Reg.SAF.STATUS.RUN = true → s.cfg 7 3 1 % 2 = 0 →
      s.joined = true → s.bbnSends = true → s.bbn.unheard < 2 → s.bbn.safety.getD g 0 = s.bbnNode →
      v = ({ u with saf := { u.saf with pause := false } } : State) →
      exec .safetySlot s = .next (settle { emit ⟨5, s.bbnNode, 0xFFF, 0, 0, false, false, 0,
          [v.compact 2 (s.bbn.cycle + s.bbn.unheard) (16 + g) v.safMessage]⟩ v with
        saf := { v.saf with msgSeq := (s.saf.msgSeq + 1) % 65536, lastCycle := some (s.bbn.cycle + s.bbn.unheard) }
        bbn := { (emit ⟨5, s.bbnNode, 0xFFF, 0, 0, false, false, 0,
          [v.compact 2 (s.bbn.cycle + s.bbn.unheard) (16 + g) v.safMessage]⟩ v).bbn with
          unheard := if s.role = 4 then 0 else s.bbn.unheard + 1 } })) ∧
    (∀ g, g = s.cfg 7 0x11 1 → s.sec 7 ≠ [] → g ≠ 0xFF → s.bit Reg.SAF.STATUS.RUN = true → s.cfg 7 3 1 % 2 = 1 →
      s.slotHas (s.cfg 7 0x10 1) 1 = true → s.joined = false →
      exec .safetySlot s = .next (settle { u with
        saf := { s.saf with msgSeq := (s.saf.msgSeq + 1) % 65536, lastCycle := some (s.bbn.cycle + s.bbn.unheard) }
        bbn := { u.bbn with
          sent := [⟨6, 0, 0, 0, 0, false, false, 0, [u.ethSafety (s.bbn.cycle + s.bbn.unheard) u.safMessage]⟩]
          unheard := if s.role = 4 then 0 else s.bbn.unheard + 1 } })) ∧
    (∀ (slot : Fin 64) (f : Option (List Byte)),
      (s.joined = false ∨ s.bbn.silent = true ∨ s.bbn.safety.contains s.bbnNode = false ∨ s.bbn.safety.length ≤ slot ∨
        s.bbn.safety.getD slot 0 = s.bbnNode → exec (.safetyFrame slot f) s = .next (settle u)) ∧
      (s.joined = true → s.bbn.silent = false → s.bbn.safety.contains s.bbnNode = true → slot < s.bbn.safety.length →
        s.bbn.safety.getD slot 0 ≠ s.bbnNode →
        (f = none → exec (.safetyFrame slot f) s =
          .next (settle (raise 0x7206 slot (u.inc Reg.BBN.FRAMES.SAFE_MISS)))) ∧
        (∀ b, f = some b → b.length ≠ 24 ∨ beAt b 0 2 / 4096 ≠ 2 → exec (.safetyFrame slot f) s =
          .next (settle (raise 0x7206 slot (u.inc Reg.BBN.FRAMES.SAFE_MISS)))) ∧
        (∀ b, f = some b → b.length = 24 → beAt b 0 2 / 4096 = 2 → s.compactOpen s.bbn.cycle (16 + slot) b = none →
          exec (.safetyFrame slot f) s =
            .next (settle (raise 0x7206 slot ((micFail u).inc Reg.BBN.FRAMES.SAFE_MISS)))) ∧
        (∀ b m, f = some b → b.length = 24 → beAt b 0 2 / 4096 = 2 → s.compactOpen s.bbn.cycle (16 + slot) b = some m →
          exec (.safetyFrame slot f) s = .next (settle (safCopy true m u))))) ∧
    (∀ p : List Byte,
      (p.length = 46 → leAt p 0 1 = 0x5A → leAt p 1 1 = s.domain → s.slotHas (s.cfg 7 0x10 1) 1 = true →
        (beBytes 32 (s.slotMac (s.cfg 7 0x10 1) (p.take 24))).take 8 = (p.drop 24).take 8 →
        exec (.safetyEthFrame p) s = .next (settle (safCopy false ((p.drop 6).take 18) s))) ∧
      (p.length ≠ 46 ∨ leAt p 0 1 ≠ 0x5A ∨ leAt p 1 1 ≠ s.domain ∨ s.slotHas (s.cfg 7 0x10 1) 1 = false ∨
        (beBytes 32 (s.slotMac (s.cfg 7 0x10 1) (p.take 24))).take 8 ≠ (p.drop 24).take 8 →
        exec (.safetyEthFrame p) s = .next (settle s)))) ∧
  (∀ s u : State, s.running = true → u = bbnBegin s →
    (s.role = 1 → s.bbn.takeover = none → s.bbn.silent = false → exec .listenTElapsed s = .next (settle (becomeCoord u))) ∧
    (s.role ≠ 1 → exec .listenTElapsed s = .next (settle s) ∧ exec .coordTakeover s = .next (settle s)) ∧
    (s.role = 1 → s.bbn.takeover.isSome = true → s.bbn.silent = false →
      exec .coordTakeover s = .next (settle (becomeCoord u))) ∧
    (∀ v w : State, s.polledPeriod (s.rd Reg.BBN.CFG.CYCLE) (s.cfg 10 0x1A 1) (s.cfg 10 0x19 1) ≥ 120000 → s.coordPri ≠ 0 →
      v = (drawBytes 16 s).2 → w = ({ v with bbn := { BbnSt.init with
        cycle := v.bbn.cycle, links := v.bbn.links, ids := v.bbn.ids, fseq := v.bbn.fseq, coordLong := some v.ownLong,
        vote := v.bbn.vote, neks := mapSet (fun _ => []) [] 0 (drawBytes 16 s).1, silent := v.bbn.silent } } : State) →
      becomeCoord s = setCause 0x7202 0 false (setCause 0x7209 0 false (((((((((w.wr Reg.BBN.STATUS.ROLE 4).wr
        Reg.BBN.NODE.NODE 1).wr Reg.BBN.NODE.DEPTH 0).wr Reg.BBN.COORD.PRI w.coordPri).wr Reg.BBN.COORD.MEMBERS 0).setB
        Reg.BBN.STATUS.SYNC true).wr Reg.BBN.COORD_LO.VALUE (w.ownLong % 2 ^ 32)).wr
        Reg.BBN.COORD_HI.VALUE (w.ownLong / 2 ^ 32))))) ∧
    (s.role = 1 ∨ s.role = 2 → exec .bbnUnjoined s = .next (settle (raiseCause 0x7209 0 s))) ∧
    (s.role ≠ 1 → s.role ≠ 2 → exec .bbnUnjoined s = .next (settle s)) ∧
    (s.role ≠ 3 → exec .bbnCoordLost s = .next (settle s)) ∧
    (∀ v, s.role = 3 → v = ((bbnListen s).setB Reg.BBN.STATUS.LOST_STK true).inc Reg.BBN.ELECT.LOSSES →
      (s.coordPri = 0 → exec .bbnCoordLost s = .next (settle (raiseCause 0x7202 0 v))) ∧
      (s.coordPri ≠ 0 → exec .bbnCoordLost s = .next (settle (raiseCause 0x7202 0 ((v.draw 4).2.mapBbn fun b =>
        { b with takeover := some ((256 - s.coordPri) * 2 + (v.draw 4).1) }))))) ∧
    (∀ p : Fin 3, exec (.bbnTxFault p) s =
      .next (settle (raiseCause 0x7207 p (s.setFlag Reg.BBN.STATUS.PATH_FAULT p true)))) ∧
    (s.role ≠ 4 → exec .nekReplace s = .next (settle u)) ∧
    (∀ v, s.role = 4 → v = s.bbn.members.foldl (fun s x =>
        let m := beBytes 1 7 ++ beBytes 1 (1 - u.bbn.nekIdx) ++ Config.ccmSeal 8 x.2.kek Config.wrapNonce [] (drawBytes 16 u).1
        addDown x.1 (sealFrame x.1 0 m s).1 (sealFrame x.1 0 m s).2) (drawBytes 16 u).2 →
      exec .nekReplace s = .next (settle (v.mapBbn fun b => { b with
        neks := mapSet (fun _ => []) b.neks (1 - s.bbn.nekIdx) (drawBytes 16 u).1, nekSwitch := (b.cycle + 64) % 2 ^ 32 }))) ∧
    (∀ (idx : Fin 2) (wr : List Byte), (s.role ≠ 3 → exec (.nekUpdate idx wr) s = .next (settle s)) ∧
      (s.role = 3 → Config.ccmOpen 8 s.bbn.kek Config.wrapNonce [] wr = none →
        exec (.nekUpdate idx wr) s = .next (settle (micFail u))) ∧
      (∀ nek, s.role = 3 → Config.ccmOpen 8 s.bbn.kek Config.wrapNonce [] wr = some nek →
        exec (.nekUpdate idx wr) s = .next (settle (u.mapBbn fun b => { b with neks := mapSet (fun _ => []) b.neks idx nek })))))

/-- Links, tone maps and routes (R326, R328, R334 to R336): after 16 frames in an interval the receiver chooses a map, and
offers it when its rate differs by more than 10 % or more than 10 % of the blocks failed; a TONEMAP replaces the map of its
interval on the outgoing link; an epoch's start sets SLOW by the members not polled, clears their marks and computes the
routes; a LINKS report gives its costs, at most 32, and brings its links back up.
Polls (R333, R334, R336): the coordinator polls its next target with the largest grant that fits the time left; a POLL
with the node as its last hop is answered with data or NULL, one for a further hop is passed on; NULL travels back, and at
the coordinator leads to the downlink; an acknowledged frame leaves its queue, failed blocks go out again until RETX_MAX;
an absent frame is repeated once, then the poll ends, and the coordinator marks the link down and reports it. -/
def Obligations.BackboneRoutesAndPolls : Prop :=
  (∀ s u : State, s.running = true → u = bbnBegin s →
    (∀ (nbr : Fin 4096) (i : Fin 6) (c : Nat × Nat × Nat) (old : Option ToneMap) (t : ToneMap) (v : State),
      c = mapGet (fun _ => (0, 0, 0)) (s.bbnLink nbr).since i →
      ((s.joined = false ∨ c.1 < 16) → exec (.toneMapChoose nbr i) s = .next (settle u)) ∧
      (s.joined = true → 16 ≤ c.1 → old = (s.bbnLink nbr).maps.find? (fun t => t.idx = i.val) →
        t = s.chooseMap i (old.elim 0 (·.start)) (old.elim 256 (·.stop)) (mapGet (fun _ => []) (s.bbnLink nbr).meas i) →
        v = setBbnLink nbr { s.bbnLink nbr with since := mapSet (fun _ => (0, 0, 0)) (s.bbnLink nbr).since i (0, 0, 0) } u →
        ((old.elim s.roboE mapRate) * 11 / 10 < mapRate t ∨ mapRate t < (old.elim s.roboE mapRate) * 9 / 10 ∨
            c.2.1 < 10 * c.2.2 →
          exec (.toneMapChoose nbr i) s = .next (settle (setBbnLink nbr { (bbnSend nbr (tonemapMsg t) v).2.bbnLink nbr with
            offer := some (t, (bbnSend nbr (tonemapMsg t) v).1) } (bbnSend nbr (tonemapMsg t) v).2))) ∧
        (¬ ((old.elim s.roboE mapRate) * 11 / 10 < mapRate t ∨ mapRate t < (old.elim s.roboE mapRate) * 9 / 10 ∨
            c.2.1 < 10 * c.2.2) → exec (.toneMapChoose nbr i) s = .next (settle v)))) ∧
    (∀ (src : Fin 4096) (t : ToneMap), (s.joined = true → t.idx < 6 → exec (.toneMap src t) s = .next (settle
        (setBbnLink src { s.bbnLink src with outMaps := (s.bbnLink src).outMaps.filter (fun x => x.idx ≠ t.idx) ++ [t] } s))) ∧
      (s.joined = false ∨ 6 ≤ t.idx → exec (.toneMap src t) s = .next (settle s))) ∧
    (s.role ≠ 4 → exec .epochStart s = .next (settle u)) ∧
    (s.role = 4 → exec .epochStart s = .next (settle (routesCompute ((u.setB Reg.BBN.STATUS.SLOW
      (s.bbn.members.any fun x => !x.2.polled)).mapBbn fun b => { b with
        members := b.members.map fun (x : Nat × BbnMember) => (x.1, { x.2 with polled := false }) })))) ∧
    (∀ (src : Fin 4096) (l : List LinkReport), (s.role ≠ 4 → exec (.links src l) s = .next (settle s)) ∧
      (s.role = 4 → exec (.links src l) s = .next (settle (s.mapBbn fun b => { b with
        costs := (l.take 32).foldl (fun m r => mapIns m (linkKey r.nbr src) (r.cost, r.e)) b.costs
        downs := b.downs.filter fun k => !l.any fun r => linkKey r.nbr src = k }))))) ∧
  (∀ s u : State, s.running = true → u = bbnBegin s →
    (∀ left bufs, (s.role ≠ 4 ∨ s.bbn.silent = true) → exec (.pollStart left bufs) s = .next (settle u)) ∧
    (∀ left bufs w, s.role = 4 → s.bbn.silent = false → w = admissionTake (loadTx bufs u) →
      (w.nextTarget = none → exec (.pollStart left bufs) s = .next (settle w)) ∧
      ∀ t route down, w.nextTarget = some (t, route) → down = min 16 (mapGet (fun _ => []) w.bbn.down t).length →
        (∀ g, ((List.range 17).map (16 - ·)).find? (fun g => decide (pollBound (w.routeE route) (w.rd Reg.BBN.CFG.RETX_MAX) g
            down ≤ 60 * left)) = some g → exec (.pollStart left bufs) s = .next (settle (sendPoll (w.mapBbn fun b => { b with
              poll := some ⟨w.bbn.pollSeq, route, 0, g, decide (down ≠ 0), false, none, 0, [], 0, [], none, 0, [], none⟩
              pollSeq := (b.pollSeq + 1) % 65536, lastPolled := if t = 0 then b.lastPolled else t
              members := b.members.map fun (x : Nat × BbnMember) => if x.1 = t then (x.1, { x.2 with polled := true }) else x })))) ∧
        (((List.range 17).map (16 - ·)).find? (fun g => decide (pollBound (w.routeE route) (w.rd Reg.BBN.CFG.RETX_MAX) g
            down ≤ 60 * left)) = none → exec (.pollStart left bufs) s = .next (settle w))) ∧
    (∀ (fc : Nat) (d : List Byte) (bufs : List TxBuf) (pos : Fin 256),
      (s.role < 2 ∨ s.bbn.silent = true ∨ s.fcOk 1 fc = false ∨ fcDst fc ≠ s.bbnNode →
        exec (.poll fc d bufs pos) s = .next (settle u)) ∧
      (2 ≤ s.role → s.bbn.silent = false → s.fcOk 1 fc = true → fcDst fc = s.bbnNode →
        (d.length ≠ 48 ∨ crc32 (d.take 44) ≠ beAt d 44 4 → exec (.poll fc d bufs pos) s =
          .next (settle (linkHeard (fcSrc fc) u))) ∧
        ∀ p v w, d.length = 48 → crc32 (d.take 44) = beAt d 44 4 → p = pollOf d → 1 ≤ p.pos → p.pos ≤ p.route.length →
          p.route.length ≤ 15 → s.bbnNode ≠ 0 → v = (linkHeard (fcSrc fc) u).mapBbn (fun b => { b with poll := some p }) →
          (p.pos < p.route.length → exec (.poll fc d bufs pos) s = .next (settle (sendPoll v))) ∧
          (p.pos = p.route.length → s.role ≠ 2 → w = oweMessages (loadTx bufs v) →
            ((w.bbn.up = [] ∨ p.grant = 0) → exec (.poll fc d bufs pos) s = .next (settle (sendNull (p.pos - 1) w))) ∧
            (w.bbn.up ≠ [] → p.grant ≠ 0 → exec (.poll fc d bufs pos) s =
              .next (settle (sendData (p.pos - 1) p.grant pos w)))))) ∧
    (s.bbn.poll = none → (∀ fc bl m lg pos, exec (.dataFrame fc bl m lg pos) s = .next (settle u)) ∧
      (∀ fc pos, exec (.nullFrame fc pos) s = .next (settle u) ∧ exec (.sackFrame fc pos) s = .next (settle u)) ∧
      ∀ hop, exec (.frameAbsent hop) s = .next (settle u)) ∧
    (∀ (p : BbnPoll) (fc : Nat), s.bbn.poll = some p → s.bbn.silent = false → fcDst fc = s.bbnNode →
      (∀ (bl : List (Option (List Byte))) m lg (pos : Fin 256) retx v w, s.fcOk 2 fc = true →
        (fcSrc fc = p.at (p.pos + 1) ∨ fcSrc fc = p.at (p.pos - 1)) → retx = decide (bitsOf fc 39 39 = 1) →
        v = linkMeasure (fcSrc fc) bl.length (dataFails fc bl).length (!retx) m (offerTaken (fcSrc fc) (linkHeard (fcSrc fc) u)) →
        (retx = false → p.rxSeq = some (bitsOf fc 51 40) →
          exec (.dataFrame fc bl m lg pos) s = .next (settle (dataSack fc (dataFails fc bl) v))) ∧
        ((retx = true ∨ p.rxSeq ≠ some (bitsOf fc 51 40)) → w = dataSack fc (dataFails fc bl) (dataHold fc bl p v) →
          (dataFails fc bl = [] → exec (.dataFrame fc bl m lg pos) s = .next (settle (dataComplete (fcSrc fc) lg pos w))) ∧
          (dataFails fc bl ≠ [] → (if retx then p.rxTries + 1 else 0) < w.rd Reg.BBN.CFG.RETX_MAX →
            exec (.dataFrame fc bl m lg pos) s = .next (settle w)))) ∧
      (∀ pos : Fin 256, s.fcOk 3 fc = true → fcSrc fc = p.at (p.pos + 1) →
        (p.pos ≠ 0 → exec (.nullFrame fc pos) s = .next (settle (sendNull (p.pos - 1) (linkHeard (fcSrc fc) u)))) ∧
        (p.pos = 0 → exec (.nullFrame fc pos) s = .next (settle (downlinkOrEnd pos ((linkHeard (fcSrc fc) u).mapBbn
          fun b => { b with
            members := b.members.map fun (x : Nat × BbnMember) =>
              if x.1 = p.at p.route.length then (x.1, { x.2 with more := decide (bitsOf fc 38 38 = 1) }) else x }))))) ∧
      (∀ (pos : Fin 256) bad v, s.fcOk 4 fc = true → fcSrc fc = p.awaitFrom → p.awaitSeq = some (bitsOf fc 51 40) →
        bad = p.out.filter (fun x => Nat.testBit fc (16 + x.1)) →
        v = mapPoll (fun p => { p with out := bad, awaitSeq := none }) (setPollQueue p (bad.map (·.2) ++
          ((linkHeard (fcSrc fc) u).pollQueue p).drop p.out.length) (linkHeard (fcSrc fc) u)) →
        (bad ≠ [] → p.tries < v.rd Reg.BBN.CFG.RETX_MAX → exec (.sackFrame fc pos) s = .next (settle (resendData pos v))) ∧
        (bad = [] → p.pos = 0 → exec (.sackFrame fc pos) s = .next (settle (pollEnd v))) ∧
        (bad = [] → p.pos ≠ 0 → exec (.sackFrame fc pos) s = .next (settle v)))) ∧
    (∀ (p : BbnPoll) (hop : Nat), s.bbn.poll = some p →
      (∀ f, p.repeated = false → p.last = some f → exec (.frameAbsent hop) s = .next (settle ((emit f u).mapBbn fun b =>
        { b with poll := b.poll.map fun p => { p with repeated := true } }))) ∧
      (p.repeated = true → s.role ≠ 4 → exec (.frameAbsent hop) s = .next (settle (pollEnd u))) ∧
      (∀ k, p.repeated = true → s.role = 4 → 1 ≤ hop → hop ≤ p.route.length → k = linkKey (p.at (hop - 1)) (p.at hop) →
        exec (.frameAbsent hop) s = .next (settle (raise 0x3203 (p.at hop) (routesCompute ((pollEnd u).mapBbn fun b => { b with
          costs := mapDel b.costs k, downs := if b.downs.contains k then b.downs else k :: b.downs })))))))

/-- Votes (R348): a member takes a call and shows it; a coordinator without an open vote, and with 64 cycles between DEADLINE
and ACT_TIME, starts it and sends the call to each named member; a READY of a named member counts once; at DEADLINE the
vote commits with every named member ready, and else aborts with BBN_VOTE_ABORT. -/
def Obligations.BackboneVotes : Prop :=
  ∀ s u : State, s.running = true → u = bbnBegin s →
    (∀ (id : Fin 65536) hash act deadline named v,
      v = (⟨id, hash, act, deadline, named, [], none, 0, s.bbn.coordLong.getD 0, none⟩ : BbnVote) →
      (s.role = 3 → exec (.voteCall id hash act deadline named) s = .next (settle (((u.mapBbn fun b =>
        { b with vote := some v }).wr Reg.BBN.VOTE.STATE 1).wr Reg.BBN.VOTE.VOTE_ID id))) ∧
      (s.role ≠ 3 → s.role ≠ 4 → exec (.voteCall id hash act deadline named) s = .next (settle u)) ∧
      (s.role = 4 → (act < deadline + 64 * s.rd Reg.BBN.CFG.CYCLE * 1000000 ∨ ∃ w, s.bbn.vote = some w ∧ w.outcome = 0) →
        exec (.voteCall id hash act deadline named) s = .next (settle u)) ∧
      (s.role = 4 → deadline + 64 * s.rd Reg.BBN.CFG.CYCLE * 1000000 ≤ act → s.bbn.vote = none →
        exec (.voteCall id hash act deadline named) s = .next (settle (((named.foldl (fun s n => (bbnSend n ([8] ++ beBytes 2 id ++
          beBytes 16 hash ++ beBytes 8 act ++ beBytes 8 deadline) s).2) (u.mapBbn fun b => { b with vote := some v })).wr
            Reg.BBN.VOTE.STATE 1).wr Reg.BBN.VOTE.VOTE_ID id)))) ∧
    (∀ (src : Fin 4096) (id : Fin 65536) (ready : Bool),
      (s.role ≠ 4 ∨ s.bbn.vote = none ∨ ready = false → exec (.voteAns src id ready) s = .next (settle s)) ∧
      (∀ v, s.role = 4 → s.bbn.vote = some v → v.id = id.val → v.outcome = 0 → src.val ∈ v.named → src.val ∉ v.ready →
        exec (.voteAns src id true) s = .next (settle (s.mapBbn fun b =>
          { b with vote := some { v with ready := src.val :: v.ready } })))) ∧
    (s.bbn.vote = none ∨ s.role ≠ 4 → exec .voteDeadline s = .next (settle s)) ∧
    (∀ v, s.bbn.vote = some v → s.role = 4 → v.outcome = 0 →
      ((∀ n ∈ v.named, n ∈ v.ready) → exec .voteDeadline s = .next (settle ((s.mapBbn fun b =>
        { b with vote := some { v with outcome := 1 } }).wr Reg.BBN.VOTE.STATE 4))) ∧
      ((∃ n ∈ v.named, n ∉ v.ready) → exec .voteDeadline s = .next (settle (raise 0x3208 0 ((s.mapBbn fun b =>
        { b with vote := some { v with outcome := 2 } }).wr Reg.BBN.VOTE.STATE 5)))))

/-- How the functions and outputs step (R360, R370, R372, R375, R378): a function leaves FAULT for DEMAND with its fault
gone, enters FAULT with it, stays in DEMAND under a demand, leaves it for RUN after a demand of both channels without
MANUAL and else for AWAIT, and leaves AWAIT and RUN on a demand; a two-hand function starts its timer as one hand moves
and runs with both in class Jog; nothing is released in class None, under a forced stop, or before a half may release.
Samples, discrepancy and exchanges (R351, R353 to R358, R364, R365, R370, R373): a sample reads and filters the inputs,
with the functions running steps them, commands the outputs and sends the half's frame; a count over the limit faults the
pair and the function, is marked and raised, once; a frame of this exchange that is valid is taken and the outputs follow,
one that is missing, late, invalid or disagrees counts; two disagreeing exchanges raise SAF_HALVES, within a day the Grave
SAF_HALVES_AGAIN; an expired hold drops the Curator's outputs. -/
def Obligations.SafetyFunctionsAndHalves : Prop :=
  ((∀ (manual anyD bothD : Bool) (x : FnSt), x.st ≤ 3 →
    (x.st ≠ 3 → (fnStep manual true anyD bothD x).st = 3) ∧
    (x.st = 3 → fnStep manual true anyD bothD x = x ∧
      (fnStep manual false anyD bothD x).st = 0 ∧ (fnStep manual false anyD bothD x).both = true) ∧
    (x.st = 0 → (fnStep manual false true bothD x).st = 0 ∧ (fnStep manual false true bothD x).both = (x.both || bothD)) ∧
    (x.st = 0 → (x.both || bothD) = true → (fnStep false false false bothD x).st = 2) ∧
    (x.st = 0 → (manual = true ∨ (x.both || bothD) = false) → (fnStep manual false false bothD x).st = 1) ∧
    (x.st = 1 ∨ x.st = 2 → (fnStep manual false true bothD x).st = 0 ∧ (fnStep manual false true bothD x).both = bothD ∧
      fnStep manual false false bothD x = x) ∧
    (x.st = 2 → (fnStep manual false true bothD x).since = 0 ∧ (fnStep manual true anyD bothD x).since = 0)) ∧
  (∀ (jog a0 a1 : Bool) (x : FnSt),
    (x.st = 1 → a0 = true ∨ a1 = true → (fnStepHands jog false a0 a1 x).st = 0 ∧ (fnStepHands jog false a0 a1 x).sync = 1) ∧
    (x.st = 0 → x.sync = 1 → (fnStepHands true false true true x).st = 2) ∧
    (x.st = 0 → (fnStepHands jog false false false x).st = 1) ∧
    (x.st = 2 → a0 = false ∨ a1 = false → (fnStepHands jog false a0 a1 x).st = 0)) ∧
  (∀ (d : Bool × Bool) (cnt : Nat) (bad seen : Bool), (pairSample d cnt bad seen).1 = if d.1 ≠ d.2 then cnt + 1 else 0) ∧
  ∀ (w : SafHalf) (s : State) (n : Nat),
    (permClass (s.actMode w) = 3 ∨ s.safForced w = true →
      s.lseOn w (s.half w) n = false ∧ s.pmiRelease w (s.half w) = false) ∧
    (∀ f, f < 24 → s.fnMasks f n = true → s.fnType f ≠ 4 → s.fnFlag f 2 = false → ((s.half w).fnAt f).st ≠ 2 →
      s.lseOn w (s.half w) n = false) ∧
    (s.mayRelease w = false → (safOutputs w s).half w = (lseCheck s ((fun t : State => if w = .curator then
      { t with saf := { t.saf with curHold := true } } else t) (s.setHalf w { s.half w with lse := 0, pmi := false }))).half w)) ∧
  (∀ s : State, s.running = true →
    (∀ (w : SafHalf) (high low masked : Nat) (h : HalfSt) (u : State),
      h = (List.range 48).foldl (fun h k => filterInput (s.siFilt k) k h)
        { s.half w with read := readInputs (s.half w).read high low masked } → u = s.setHalf w h →
      (s.bit Reg.SAF.STATUS.RUN = false → exec (.safetySample w high low masked) s =
        .next (settle (exSend w (acdCheck s (safOutputs w (u.setHalf w h)))))) ∧
      (s.bit Reg.SAF.STATUS.RUN = true → exec (.safetySample w high low masked) s =
        .next (settle (exSend w (acdCheck s (safOutputs w (u.setHalf w ((List.range 24).foldl (fun h f => u.fnSample w f h) h)))))))) ∧
    (∀ (w : SafHalf) (f : Fin 24) (x : FnSt) (new0 new1 : Bool) (h : HalfSt), x = (s.half w).fnAt f →
      new0 = (decide (s.discLimit f < x.cnt0) && !x.bad0) →
      new1 = (decide (s.fnType f = 4) && decide (s.discLimit f < x.cnt1) && !x.bad1) →
      h = (s.half w).setFn f { fnGoto 3 x with bad0 := x.bad0 || new0, bad1 := x.bad1 || new1 } →
      ((s.fnPaired f = false ∨ s.fnType f = 0 ∨ new0 = false ∧ new1 = false) →
        exec (.safDiscrepancy w f) s = .next (settle s)) ∧
      (s.fnPaired f = true → s.fnType f ≠ 0 → new0 = true ∨ new1 = true → exec (.safDiscrepancy w f) s =
        .next (settle (raise (0x7440 + f) 0 (acdCheck s (safOutputs w ((s.setHalf w
          { h with verdicts := (h.verdicts ++ [f.val]).mergeSort (· ≤ ·) }).setB (Reg.SAF.FN.DISC_STK f) true))))))) ∧
    (∀ (dst : SafHalf) (frame : Option Nat) (late : Bool) (u : State),
      u = s.setHalf dst { s.half dst with disagree := (s.half dst).disagree + 1 } →
      ((frame = none ∨ late = true ∨ ∃ v, frame = some v ∧ frameValid (s.half dst).rxSeq v = false) →
        exec (.exchangeFrame dst frame late) s = .next (settle (acdCheck s (if u.saf.cur.disagree = 0 ∧ u.saf.kpr.disagree = 0 then
          setCause 0xB401 0 false u else u)))) ∧
      (∀ v x, frame = some v → late = false → frameValid (s.half dst).rxSeq v = true →
        x = safOutputs dst (exTake dst v (s.setHalf dst { s.half dst with
          disagree := if s.framesAgree v (s.half dst).sent then 0 else (s.half dst).disagree + 1 })) →
        exec (.exchangeFrame dst frame late) s = .next (settle (acdCheck s (if x.saf.cur.disagree = 0 ∧ x.saf.kpr.disagree = 0 then
          setCause 0xB401 0 false x else x))))) ∧
    ((s.saf.cur.disagree < 2 ∧ s.saf.kpr.disagree < 2 ∨ s.causePresent (0xB401, 0) = true) →
      exec .safHalves s = .next (settle s)) ∧
    (∀ u, (2 ≤ s.saf.cur.disagree ∨ 2 ≤ s.saf.kpr.disagree) → s.causePresent (0xB401, 0) = false →
      u = setCause 0xB401 0 true { s with cat := { s.cat with halvesOpsec := some (s.rd Reg.PWR.OPSEC.SECONDS) } } →
      (∀ t, s.cat.halvesOpsec = some t → s.rd Reg.PWR.OPSEC.SECONDS < t + 86400 →
        exec .safHalves s = .next (settle (raise 0xF402 0 u))) ∧
      ((∀ t, s.cat.halvesOpsec = some t → t + 86400 ≤ s.rd Reg.PWR.OPSEC.SECONDS) →
        exec .safHalves s = .next (settle (raise 0xB401 0 (u.inc Reg.SAF.HALVES.COUNT))))) ∧
    exec .curatorHoldExpired s = .next (settle (lseCheck s { s with saf := { s.saf with
      cur := { s.saf.cur with lse := 0, pmi := false }, curHold := false } })))

/-- Switch tests, pulses and resets (R363, R366, R367, R376 to R379): a test falls due by request, which needs its level,
or by the period; a due one that runs ends with PASS, or with FAIL, its transistor held off, a degradation and its fault;
every pulse checks the inputs of its output and its readback; a reset of 100 ms to 3 s restarts the functions in AWAIT, a
stuck one is reported once and ends with its edge; a two-hand timer that expires says so; a category 1 delay that is over
opens what waited for it.
Remote messages, the seal and the confirmation (R384 to R386, R390, R391, R9): a channel with eight misses is lost, with
operation on one channel, its timer, the degradation and the fault, once; the timer expires, the pause ends, silence ends
the sender's life with its fault; the seal's change is recorded and judged; a confirmation needs COMMISSIONING with the
seal open, and is taken when the value is the block's CRC, else refused with SAF_CONFIRM_BAD. -/
def Obligations.SafetyTestsRemotesAndSeal : Prop :=
  ((∀ (a : Agent) (mask : Fin 65536) (s : State), s.modeWrites = true → 1 ≤ s.level a → exec (.lseTestRequest a mask) s =
    .next (settle { s.wr Reg.SAF.TEST_REQ.REQ (Nat.lor (s.rd Reg.SAF.TEST_REQ.REQ) (mask % 65536)) with
      saf := { s.saf with testDue := Nat.lor s.saf.testDue (mask % 65536) } })) ∧
  ∀ s : State, s.running = true →
    (∀ n : Fin 16, exec (.lseTestPeriodic n) s = .next (settle { s with saf := { s.saf with
      testDue := Nat.lor s.saf.testDue (2 ^ n.val % 65536) } })) ∧
    (∀ (n : Fin 16) (c k : Bool), s.testRuns n = false → exec (.lseTestEnd n c k) s = .next (settle s)) ∧
    (∀ n : Fin 16, s.testRuns n = true → exec (.lseTestEnd n true true) s = .next (settle
      (({ s with saf := { s.saf with testDue := putBit s.saf.testDue n false } }.setFlag Reg.SAF.TEST_REQ.REQ n false).setFlag
        Reg.SAF.LSE_TEST.PASS n true))) ∧
    (∀ n : Fin 16, s.testRuns n = true → exec (.lseTestEnd n false true) s = .next (settle
      (raiseCause (0x74A0 + n) 0 (addDegr 0x74A0 n false (safOutputs .keeper (safOutputs .curator
        (({ s with saf := { s.saf with
            testDue := putBit s.saf.testDue n false
            cur := { s.saf.cur with testBad := putBit s.saf.cur.testBad n true } } }.setFlag Reg.SAF.TEST_REQ.REQ n false).setFlag
          Reg.SAF.LSE_TEST.FAIL n true))))))) ∧
    (∀ (t : Fin 8) (fails : Nat) (ok : Bool), exec (.testPulse t fails ok) s = .next (settle (tpoCheck t ok
      (forEach 48 (fun k s => if s.siTpo k = t && Nat.testBit s.saf.kpr.read k then pulseCheck k (Nat.testBit fails k) s
        else s) s)))) ∧
    (∀ (k : Fin 48) (ms : Nat),
      (Nat.testBit s.saf.stuck k = true → exec (.resetInputEdge k ms) s =
        .next (settle { s with saf := { s.saf with stuck := putBit s.saf.stuck k false } })) ∧
      (Nat.testBit s.saf.stuck k = false → 100 ≤ ms → ms ≤ 3000 →
        exec (.resetInputEdge k ms) s = .next (settle (fnReset k s))) ∧
      (Nat.testBit s.saf.stuck k = false → (ms < 100 ∨ 3000 < ms) → exec (.resetInputEdge k ms) s = .next (settle s)) ∧
      ((∃ f, f < 24 ∧ s.fnType f ≠ 0 ∧ s.fnCfg f 6 1 = k.val) → Nat.testBit s.saf.stuck k = false →
        exec (.safResetStuck k) s =
          .next (settle (raise 0x340A k { s with saf := { s.saf with stuck := putBit s.saf.stuck k true } }))) ∧
      (Nat.testBit s.saf.stuck k = true → exec (.safResetStuck k) s = .next (settle s))) ∧
    (∀ f : Fin 24,
      ((s.fnType f ≠ 4 ∨ (s.saf.cur.fnAt f).sync ≠ 1 ∧ (s.saf.kpr.fnAt f).sync ≠ 1) →
        exec (.safTwohandSync f) s = .next (settle s)) ∧
      (s.fnType f = 4 → ((s.saf.cur.fnAt f).sync = 1 ∨ (s.saf.kpr.fnAt f).sync = 1) → exec (.safTwohandSync f) s =
        .next (settle (raise 0x340B f { s with saf := { s.saf with
          cur := s.saf.cur.setFn f { s.saf.cur.fnAt f with sync := 0 }
          kpr := s.saf.kpr.setFn f { s.saf.kpr.fnAt f with sync := 0 } } }))) ∧
      ((s.fnType f = 0 ∨ s.fnFlag f 2 = false) → exec (.cat1StopDelay f) s = .next (settle s)) ∧
      (s.fnType f ≠ 0 → s.fnFlag f 2 = true → (s.saf.cur.fnAt f).st ≠ 2 → (s.saf.kpr.fnAt f).st ≠ 2 →
        exec (.cat1StopDelay f) s = .next (settle (safOutputs .keeper (safOutputs .curator { s with saf := { s.saf with
          cur := s.saf.cur.setFn f { s.saf.cur.fnAt f with since := max s.stop1 (s.saf.cur.fnAt f).since }
          kpr := s.saf.kpr.setFn f { s.saf.kpr.fnAt f with since := max s.stop1 (s.saf.kpr.fnAt f).since } } })))))) ∧
  (∀ s : State, s.running = true →
    (∀ (r : Fin 16) (b : Bool) (x : RemSt), x = s.rem r →
      ((if b then x.missB else x.missE) < 8 ∨ x.single = true → exec (.safChanLost r b) s = .next (settle s)) ∧
      (∀ u : State, 8 ≤ (if b then x.missB else x.missE) → x.single = false →
        u = s.setRem r { x with single := true, expired := false, okRun := 0 } →
        exec (.safChanLost r b) s = .next (settle (raiseCause (if b then 0x7407 else 0x7408) r (addDegr 0x7407 r true
          (linkRefresh { u with saf := { u.saf with singleS := 60 * u.cfg 7 0xF 1 } }))))) ∧
      (x.single = true → exec (.singleTElapsed r) s = .next (settle (s.setRem r { x with expired := true }))) ∧
      (x.single = false → exec (.singleTElapsed r) s = .next (settle s)) ∧
      exec (.pauseTimeout r) s = .next (settle (s.setRem r { x with paused := false })) ∧
      (x.alive = true → exec (.safRemoteSilent r) s =
        .next (settle (raiseCause 0x7409 r (s.setRem r { x with alive := false })))) ∧
      (x.alive = false → exec (.safRemoteSilent r) s = .next (settle s))) ∧
    (∀ (a b op inv : Bool), op = (!a && b) → inv = decide (a = b) →
      (s.bit Reg.SAF.STATUS.SEAL_OPEN = op → s.bit Reg.SAF.STATUS.SEAL_INVALID = inv →
        exec (.safeSealChange a b) s = .next (settle s)) ∧
      ((s.bit Reg.SAF.STATUS.SEAL_OPEN ≠ op ∨ s.bit Reg.SAF.STATUS.SEAL_INVALID ≠ inv) →
        exec (.safeSealChange a b) s = .next (settle (sealCheck (((s.setB Reg.SAF.STATUS.SEAL_OPEN op).setB
          Reg.SAF.STATUS.SEAL_INVALID inv).record 0x38 (payloadOf [(0, if inv then 2 else b2n op),
            (1, (((s.setB Reg.SAF.STATUS.SEAL_OPEN op).setB Reg.SAF.STATUS.SEAL_INVALID inv)).rd Reg.SAF.SEL.SWITCHES),
            (4, (((s.setB Reg.SAF.STATUS.SEAL_OPEN op).setB Reg.SAF.STATUS.SEAL_INVALID inv)).wall % 2 ^ 32)]) false))))) ∧
    (∀ (ag : Agent) (crc : Nat), s.modeWrites = true → 1 ≤ s.level ag → crc < 2 ^ 32 →
      (¬ (s.mode = 4 ∧ s.bit Reg.SAF.STATUS.SEAL_OPEN = true) →
        exec (.safConfirmWrite ag crc) s = .next (settle (raise 0x0005 0x3401C s))) ∧
      (s.mode = 4 → s.bit Reg.SAF.STATUS.SEAL_OPEN = true → crc ≠ s.rd Reg.SAF.SPB_CRC.VALUE →
        exec (.safConfirmWrite ag crc) s = .next (settle (raise 0x3404 0 s))) ∧
      (s.mode = 4 → s.bit Reg.SAF.STATUS.SEAL_OPEN = true → crc = s.rd Reg.SAF.SPB_CRC.VALUE →
        (s.cat.commission = some (crc, true) → exec (.safConfirmWrite ag crc) s =
          .next (settle { s with cat := { s.cat with commission := some (crc, true) } })) ∧
        (s.cat.commission ≠ some (crc, true) → exec (.safConfirmWrite ag crc) s =
          .next (settle { s with cat := { s.cat with commission := some (crc, false) } })))))

/-- The reader (R438 to R446): a first ping sets the baseline, two in a row that move far enough wake it, any other tracks
the baseline; a poll that finds cards enters ACTIVE with them, one that finds none is a false wake and the tenth in 60 s
raises NFC_FALSE_WAKES; an antenna fault stops it; an exchange takes the next command and posts the response; DONE, the
timeout or the exchange's end return to DETECT. Where it does not run, or in another state, nothing happens.
The tag's states (R447 to R449, R451, R455, R456): a field brings a tag that may run to IDLE with LEVEL 0, its loss off;
REQA and WUPA lead to READY with ATQA, SELECT with the UID to OPEN with both SAK, HLTA to HALT; a frame error and a command
that the state does not know lead back to IDLE with LEVEL 0; a tag that does not run or has no field answers nothing; the
lockout and the mapping end by their times, a command that took too long has no answer. -/
def Obligations.ReaderAndTagStates : Prop :=
  (∀ s : State,
    (∀ amp ph, (s.nfcRuns = false ∨ s.rd Reg.NFC.STATUS.STATE ≠ 1) → exec (.nfcPing amp ph) s = .next (settle s)) ∧
    (∀ amp ph : Int, s.nfcRuns = true → s.rd Reg.NFC.STATUS.STATE = 1 →
      (s.nfc.base = none → exec (.nfcPing amp ph) s = .next (settle (((s.wr Reg.NFC.DET_MEAS.AMP_DEV 0).wr
        Reg.NFC.DET_MEAS.PH_DEV 0).mapNfc fun x => { x with base := some ((amp : Rat), (ph : Rat)) }))) ∧
      ∀ (ba bp a p : Rat) (u : State), s.nfc.base = some (ba, bp) → a = (amp : Rat) - ba → p = (ph : Rat) - bp →
        u = (s.wrI Reg.NFC.DET_MEAS.AMP_DEV (Config.rounded a)).wrI Reg.NFC.DET_MEAS.PH_DEV (Config.rounded p) →
        (((u.rd Reg.NFC.DET_CFG.WAKE_AMP : Rat) ≤ ratAbs a ∨ (u.rd Reg.NFC.DET_CFG.WAKE_PH : Rat) ≤ ratAbs p) →
          (s.nfc.wakes = 0 → exec (.nfcPing amp ph) s = .next (settle (u.mapNfc fun x => { x with wakes := 1 }))) ∧
          (s.nfc.wakes ≠ 0 → exec (.nfcPing amp ph) s =
            .next (settle ((u.wr Reg.NFC.STATUS.STATE 2).mapNfc fun x => { x with wakes := 0 })))) ∧
        (¬ ((u.rd Reg.NFC.DET_CFG.WAKE_AMP : Rat) ≤ ratAbs a ∨ (u.rd Reg.NFC.DET_CFG.WAKE_PH : Rat) ≤ ratAbs p) →
          exec (.nfcPing amp ph) s = .next (settle (u.mapNfc fun x => { x with
            wakes := 0, base := some (ba + a / 2 ^ u.rd Reg.NFC.DET_CFG.TRACK, bp + p / 2 ^ u.rd Reg.NFC.DET_CFG.TRACK) })))) ∧
    (∀ rounds, (s.nfcRuns = false ∨ s.rd Reg.NFC.STATUS.STATE ≠ 2) → exec (.nfcPoll rounds) s = .next (settle s)) ∧
    (∀ rounds, s.nfcRuns = true → s.rd Reg.NFC.STATUS.STATE = 2 →
      (∀ l, ((rounds.take 3).map s.pollList).find? (fun l => !l.isEmpty) = some l → exec (.nfcPoll rounds) s =
        .next (settle (((s.wr Reg.NFC.STATUS.CARDS l.length).wr Reg.NFC.STATUS.STATE 3).mapNfc fun x => { x with cards := l }))) ∧
      ∀ now l u, ((rounds.take 3).map s.pollList).find? (fun l => !l.isEmpty) = none → now = s.rd Reg.PWR.OPSEC.SECONDS →
        l = now :: s.nfc.falseAt.filter (fun t => now < t + 60) →
        u = nfcDetect (((s.wr Reg.NFC.STATUS.CARDS 0).inc Reg.NFC.STATUS.FALSE_WAKES).mapNfc fun x => { x with cards := [] }) →
        (l.length < 10 → exec (.nfcPoll rounds) s = .next (settle (u.mapNfc fun x => { x with falseAt := l }))) ∧
        (10 ≤ l.length → exec (.nfcPoll rounds) s =
          .next (settle (raise 0x3802 0 (u.mapNfc fun x => { x with falseAt := [] }))))) ∧
    (s.running = true → exec .nfcAntenna s = .next (settle (raise 0x7801 0 (nfcJudge (s.setB Reg.NFC.STATUS.ANT_FAULT true))))) ∧
    (∀ a, s.modeWrites = true → 1 ≤ s.level a → (s.rd Reg.NFC.STATUS.STATE = 3 → exec (.nfcDone a) s =
      .next (settle (nfcDetect s))) ∧ (s.rd Reg.NFC.STATUS.STATE ≠ 3 → exec (.nfcDone a) s = .next (settle s))) ∧
    (s.running = true → (s.rd Reg.NFC.STATUS.STATE = 3 → exec .nfcActiveTimeout s = .next (settle (nfcDetect s))) ∧
      (s.rd Reg.NFC.STATUS.STATE ≠ 3 → exec .nfcActiveTimeout s = .next (settle s))) ∧
    (∀ r e, (s.nfcRuns = false ∨ s.rd Reg.NFC.STATUS.STATE ≠ 3 ∨ takeHead 11 s = none) →
      exec (.contactlessCommand r e) s = .next (settle s)) ∧
    (∀ (r : List Nat) i t u, s.nfcRuns = true → s.rd Reg.NFC.STATUS.STATE = 3 → takeHead 11 s = some (i, t) →
      u = hwPost 12 ((List.range 16).map fun w => r.getD w 0 % 2 ^ 64) t →
      exec (.contactlessCommand r false) s = .next (settle u) ∧
      exec (.contactlessCommand r true) s = .next (settle (nfcEnd u)))) ∧
  ((∀ s : State, (s.tagLive = false ∨ s.bit Reg.TAG.STATUS.FIELD = false) →
    (∀ w, exec (.reqa w) s = .next (settle s)) ∧ (∀ u, exec (.tagSelect u) s = .next (settle s)) ∧
    (∀ p c, exec (.folioRead p c) s = .next (settle s)) ∧ (∀ p c d, exec (.folioWrite p c d) s = .next (settle s)) ∧
    (∀ p, exec (.tagPass p) s = .next (settle s)) ∧ (∀ k n, exec (.tagChallenge k n) s = .next (settle s)) ∧
    (∀ m, exec (.tagProve m) s = .next (settle s)) ∧ exec .hlta s = .next (settle s) ∧
    exec .tagFrameError s = .next (settle s) ∧ exec .tagCommandTimeout s = .next (settle s)) ∧
  (∀ s : State, s.aon = true →
    (∀ v, v = (s.setB Reg.TAG.STATUS.FIELD true).setB Reg.TAG.STATUS.BATT (s.bit Reg.TAG.STATUS.EN && s.dormant) →
      (v.tagLive = true → s.tagSt = 0 → exec .tagFieldOn s = .next (settle (tagEnter 1 (v.wr Reg.TAG.STATUS.LEVEL 0)))) ∧
      (v.tagLive = false ∨ s.tagSt ≠ 0 → exec .tagFieldOn s = .next (settle v))) ∧
    exec .tagFieldLost s = .next (settle (tagAnswer [] (tagEnter 0 ((s.setB Reg.TAG.STATUS.FIELD false).setB
      Reg.TAG.STATUS.MAPPED false)))) ∧
    exec .tagLockoutEnd s = .next (settle (s.setB Reg.TAG.STATUS.LOCKED false)) ∧
    exec .tagMappingEnd s = .next (settle (s.setB Reg.TAG.STATUS.MAPPED false))) ∧
  ∀ s u : State, s.tagLive = true → s.bit Reg.TAG.STATUS.FIELD = true →
      u = (if s.tagSt = 2 ∨ s.tagSt = 3 ∨ s.tagSt = 4 then
        tagEnter 1 (((tagAnswer [] s).wr Reg.TAG.STATUS.LEVEL 0).setB Reg.TAG.STATUS.MAPPED false) else tagAnswer [] s) →
    (∀ w, (s.tagSt = 1 ∨ s.tagSt = 5 ∧ w = true) →
      exec (.reqa w) s = .next (settle (tagAnswer [0x48, 0x00] (tagEnter 2 s)))) ∧
    (∀ w, ¬ (s.tagSt = 1 ∨ s.tagSt = 5 ∧ w = true) → exec (.reqa w) s = .next (settle u)) ∧
    (s.tagSt = 2 → exec (.tagSelect tagUid) s =
      .next (settle (tagAnswer [0x04, 0x00] ((tagEnter 3 s).inc Reg.TAG.COUNTS.OPENS)))) ∧
    (∀ x, s.tagSt = 2 → x ≠ tagUid → exec (.tagSelect x) s = .next (settle (tagAnswer [] s))) ∧
    (∀ x, s.tagSt ≠ 2 → exec (.tagSelect x) s = .next (settle u)) ∧
    (s.tagSt = 3 ∨ s.tagSt = 4 → exec .hlta s = .next (settle (tagAnswer [] (tagEnter 5
      ((s.wr Reg.TAG.STATUS.LEVEL 0).setB Reg.TAG.STATUS.MAPPED false))))) ∧
    exec .tagFrameError s = .next (settle u) ∧ exec .tagCommandTimeout s = .next (settle (tagAnswer [] s)) ∧
    (s.tagSt ≠ 3 → s.tagSt ≠ 4 → exec .hlta s = .next (settle u) ∧
      (∀ p c, exec (.folioRead p c) s = .next (settle u)) ∧ (∀ p c d, exec (.folioWrite p c d) s = .next (settle u)) ∧
      (∀ p, exec (.tagPass p) s = .next (settle u)) ∧ (∀ k n, exec (.tagChallenge k n) s = .next (settle u)) ∧
      ∀ m, exec (.tagProve m) s = .next (settle u)))

/-- The tag's commands in OPEN and SECURED (R450 to R452, R455): a chunk out of range has status 0xE1, a page that the level
does not permit 0xE2; a read answers its 32 bytes, of page 3 those of the mapped snapshot copy, a write stores them; PASS
grants level 1, CHALLENGE draws NT and proves the key, PROVE grants the key's level, each a refusal under lockout; a false
one counts, and the eighth in a row locks the tag with TAG_AUTH_LOCK.
Snapshots and wired transfers (R452 to R457): from mode 3 on, and by SNAP with the buffer's 184 runtime bytes, the next
snapshot, its number one above the higher one, goes to the copy not in use, and the digest to page 4; LOAD copies any page
but the last to the buffer, STORE the buffer to a page from 16 on, with RESULT 0, and below level 1 or for another page only
RESULT 2 is set; a transfer whose page stayed busy has RESULT 1 and is counted and raised. -/
def Obligations.TagAnswersAndSnapshots : Prop :=
  (∀ s : State, s.tagLive = true → s.bit Reg.TAG.STATUS.FIELD = true → (s.tagSt = 3 ∨ s.tagSt = 4) →
    (∀ (p c : Fin 256), (8 ≤ c.val → exec (.folioRead p c) s = .next (settle (tagAnswer [0xE1] s))) ∧
      (c.val < 8 → s.pageOk p false = false → exec (.folioRead p c) s = .next (settle (tagAnswer [0xE2] s))) ∧
      (c.val < 8 → s.pageOk p false = true → p.val ≠ 3 → exec (.folioRead p c) s =
        .next (settle (tagAnswer (0 :: ((s.tagPage p).drop (32 * c)).take 32) s))) ∧
      (c.val < 8 → s.pageOk p false = true → p.val = 3 → s.bit Reg.TAG.STATUS.MAPPED = true → exec (.folioRead p c) s =
        .next (settle (tagAnswer (0 :: ((s.tagPage (1 + s.rd Reg.TAG.STATUS.MAP_COPY)).drop (32 * c)).take 32) s)))) ∧
    (∀ (p c : Fin 256) (d : List Byte),
      ((8 ≤ c.val ∨ d.length ≠ 32) → exec (.folioWrite p c d) s = .next (settle (tagAnswer [0xE1] s))) ∧
      (c.val < 8 → d.length = 32 → s.pageOk p true = false → exec (.folioWrite p c d) s =
        .next (settle (tagAnswer [0xE2] s))) ∧
      (c.val < 8 → d.length = 32 → s.pageOk p true = true → exec (.folioWrite p c d) s =
        .next (settle (tagAnswer [0x00] (tagWrite p (32 * c) d s))))) ∧
    (∀ w : Word,
      (s.bit Reg.TAG.STATUS.LOCKED = true → exec (.tagPass w) s = .next (settle (tagAnswer [0xE4] s))) ∧
      (s.bit Reg.TAG.STATUS.LOCKED = false → s.nfc.tagPwd = 0 → exec (.tagPass w) s = .next (settle (tagAnswer [0xE2] s))) ∧
      (s.bit Reg.TAG.STATUS.LOCKED = false → s.nfc.tagPwd ≠ 0 → w.toNat ≠ s.nfc.tagPwd →
        exec (.tagPass w) s = .next (settle (tagFail s))) ∧
      (s.bit Reg.TAG.STATUS.LOCKED = false → s.nfc.tagPwd ≠ 0 → w.toNat = s.nfc.tagPwd → s.tagSt = 3 →
        exec (.tagPass w) s = .next (settle (tagGrant 1 s))) ∧
      (s.bit Reg.TAG.STATUS.LOCKED = false → s.nfc.tagPwd ≠ 0 → w.toNat = s.nfc.tagPwd → s.tagSt = 4 →
        exec (.tagPass w) s = .next (settle (tagGrant (s.rd Reg.TAG.STATUS.LEVEL) s)))) ∧
    (∀ (k : Fin 256) (nr : List Byte),
      ((2 ≤ k.val ∨ nr.length ≠ 16) → exec (.tagChallenge k nr) s = .next (settle (tagAnswer [0xE1] s))) ∧
      (k.val < 2 → nr.length = 16 → s.tagKey k = [] → exec (.tagChallenge k nr) s = .next (settle (tagAnswer [0xE2] s))) ∧
      (∀ nt, k.val < 2 → nr.length = 16 → s.tagKey k ≠ [] → nt = beBytes 16 (Config.random s.free % 2 ^ 128) →
        exec (.tagChallenge k nr) s = .next (settle ((tagAnswer (0 :: (nt ++ tagMac (s.tagKey k) 0x54 nr nt))
          { s with free := s.free + 1 }).mapNfc fun x => { x with chal := some (k.val, nr, nt) })))) ∧
    (∀ mr : List Byte, (s.nfc.chal = none → exec (.tagProve mr) s = .next (settle (tagAnswer [0xE1] s))) ∧
      ∀ key nr nt, s.nfc.chal = some (key, nr, nt) →
        (s.bit Reg.TAG.STATUS.LOCKED = true → exec (.tagProve mr) s = .next (settle (tagAnswer [0xE4] s))) ∧
        (s.bit Reg.TAG.STATUS.LOCKED = false → mr = tagMac (s.tagKey key) 0x52 nt nr →
          exec (.tagProve mr) s = .next (settle (tagGrant (2 + key) s))) ∧
        (s.bit Reg.TAG.STATUS.LOCKED = false → mr ≠ tagMac (s.tagKey key) 0x52 nt nr →
          exec (.tagProve mr) s = .next (settle (tagFail s)))) ∧
    (∀ n u, n = min 8 (s.rd Reg.TAG.STATUS.AUTH_FAILS + 1) →
      u = tagAnswer [0xE3] (tagEnter 3 ((s.wr Reg.TAG.STATUS.LEVEL 0).wr Reg.TAG.STATUS.AUTH_FAILS n)) →
      (n < 8 → tagFail s = u) ∧
      (n = 8 → s.dormant = false → tagFail s = raise 0x3901 0 (u.setB Reg.TAG.STATUS.LOCKED true)))) ∧
  ((∀ (s : State) (v : Nat), v = (max (s.snapVersion 0) (s.snapVersion 1) + 1) % 2 ^ 32 →
    tagSnapshot s = tagWrite 4 0 (tagWrite (1 + s.snapTarget) 0 (leBytes 4 v ++ s.snapBody ++ leBytes 4 v) s).digest
      (tagWrite (1 + s.snapTarget) 0 (leBytes 4 v ++ s.snapBody ++ leBytes 4 v) s)) ∧
  ∀ s : State,
    (s.running = true → 3 ≤ s.mode → exec .tagSnapshot s = .next (settle (tagSnapshot s))) ∧
    (s.mode < 3 → exec .tagSnapshot s = .next (settle s)) ∧
    (∀ a, s.modeWrites = true → 1 ≤ s.level a → exec (.tagSnap a) s = .next (settle (tagSnapshot (s.mapNfc fun x =>
      { x with runtimeBytes := (s.tagBuf.drop 0x44).take 184 })))) ∧
    (∀ a p, s.modeWrites = true → p = s.rd Reg.TAG.PAGE.PAGE →
      (1 ≤ s.level a → p ≤ 254 → exec (.tagLoad a) s = .next (settle ((forEach 64 (fun k s =>
        s.wr (Reg.TAG.BUF.BYTES k) (leAt (s.tagPage p) (4 * k) 4)) s).wr Reg.TAG.WSTAT.RESULT 0))) ∧
      (s.level a < 1 ∨ 254 < p → exec (.tagLoad a) s = .next (settle (s.wr Reg.TAG.WSTAT.RESULT 2))) ∧
      (1 ≤ s.level a → 16 ≤ p → p ≤ 254 → exec (.tagStore a) s =
        .next (settle ((tagWrite p 0 s.tagBuf s).wr Reg.TAG.WSTAT.RESULT 0))) ∧
      (s.level a < 1 ∨ p < 16 ∨ 254 < p → exec (.tagStore a) s = .next (settle (s.wr Reg.TAG.WSTAT.RESULT 2)))) ∧
    (s.running = true → exec .tagWiredBusy s = .next (settle (raise 0x3902 0
      ((s.wr Reg.TAG.WSTAT.RESULT 1).inc Reg.TAG.WSTAT.BUSY_COUNT)))))

/-- Tamper (R167 to R173): a loop not enabled, or whose level stays, does nothing; a change with the core running is marked,
recorded and acted on, in DORMANT it waits in the FIFO of 16 and beyond that is counted; a dynamic loop counts the pulses
it missed, eight make it an open loop; a clear of sticky bits acknowledges their kinds and releases what has ended; a
battery window in DORMANT adds energy, counted and bypass time, and the highest current. -/
def Obligations.TamperIsSeenAndRecorded : Prop :=
  ∀ s : State,
    (∀ (t : Fin 4) (b : Bool), (s.flag Reg.TMP.CFG.EN t = false ∨ s.aon = false ∨ s.flag Reg.TMP.STATUS.OPEN t = b →
        exec (.tamperLoopChange t b) s = .next (settle s)) ∧
      ∀ u, s.flag Reg.TMP.CFG.EN t = true → s.aon = true → s.flag Reg.TMP.STATUS.OPEN t ≠ b →
        u = s.setFlag Reg.TMP.STATUS.OPEN t b →
        (s.mode ≠ 0 → exec (.tamperLoopChange t b) s = .next (settle (loopSeen t b false u.reading u))) ∧
        (s.mode = 0 → s.tmp.fifo.length < 16 → exec (.tamperLoopChange t b) s = .next (settle
          { (if b then u.setFlag Reg.TMP.STATUS.OPEN_STK t true else u) with tmp := { s.tmp with
            fifo := s.tmp.fifo ++ [((t.val : Nat), b, (if b then u.setFlag Reg.TMP.STATUS.OPEN_STK t true else u).reading)] } })) ∧
        (s.mode = 0 → 16 ≤ s.tmp.fifo.length → exec (.tamperLoopChange t b) s = .next (settle
          { (if b then u.setFlag Reg.TMP.STATUS.OPEN_STK t true else u) with tmp := { s.tmp with
            lost := min 65535 (s.tmp.lost + 1) } }))) ∧
    (∀ (t : Nat) (reading : Int), loopSeen t true false reading s = tamperApply 1 (raiseCause 0x5401 t
        ((tamperRecord 1 t 0 reading 0 (t < 2) s).setFlag Reg.TMP.STATUS.OPEN_STK t true)) ∧
      loopSeen t false false reading s = tamperRelease (setCause 0x5401 t false (tamperRecord 1 t 2 reading 0 (t < 2) s))) ∧
    (s.aon = false → ∀ f, exec (.tampDrvPulse f) s = .next (settle s)) ∧
    (∀ f : Fin 16, s.aon = true → exec (.tampDrvPulse f) s = .next (settle (forEach 4 (fun t s =>
      if s.flag Reg.TMP.CFG.EN t && s.flag Reg.TMP.CFG.DYN t then
        if Nat.testBit f t then setCause 0x5405 t false
          { s with tmp := { s.tmp with missed := mapSet (fun _ => 0) s.tmp.missed t 0 } }
        else { s with tmp := { s.tmp with
          missed := mapSet (fun _ => 0) s.tmp.missed t (min 8 (mapGet (fun _ => 0) s.tmp.missed t + 1)) } }
      else s) s))) ∧
    (∀ t : Fin 4, (s.aon = false ∨ mapGet (fun _ => 0) s.tmp.missed t < 8 → exec (.tmpLoop t) s = .next (settle s)) ∧
      (s.aon = true → 8 ≤ mapGet (fun _ => 0) s.tmp.missed t → s.mode ≠ 0 → exec (.tmpLoop t) s =
        .next (settle (loopChange t true (raiseCause 0x5405 t (s.setB Reg.TMP.STATUS.LOOP_STK true))))) ∧
      (s.aon = true → 8 ≤ mapGet (fun _ => 0) s.tmp.missed t → s.mode = 0 → exec (.tmpLoop t) s =
        .next (settle (loopChange t true (s.setB Reg.TMP.STATUS.LOOP_STK true))))) ∧
    (∀ a w, s.modeWrites = true → 1 ≤ s.level a → exec (.tmpStickyClear a w) s = .next (settle (tamperRelease
      (stickyKinds.foldl (fun s x => if Nat.testBit w x.1.lo then
          { s.setB x.1 false with tmp := { s.tmp with acked := x.2 :: s.tmp.acked.filter (· ≠ x.2) } } else s)
        (forEach 4 (fun t s => if Nat.testBit w (8 + t) then
          { s.setFlag Reg.TMP.STATUS.OPEN_STK t false with tmp := { s.tmp with acked := 1 :: s.tmp.acked.filter (· ≠ 1) } }
          else s) s))))) ∧
    (∀ i0 i1 i2 : Nat, (s.dormant = false ∨ s.tmp.battOn = false ∨ s.rd Reg.TMP.CFG.BATT_PERIOD = 0 →
        exec (.battWindow i0 i1 i2) s = .next (settle s)) ∧
      (∀ start va period top, s.dormant = true → s.tmp.battOn = true → period = s.rd Reg.TMP.CFG.BATT_PERIOD → period ≠ 0 →
        start = [i0, i1, i2].filter (s.tmp.battRated ≤ ·) → top = max (max (max 0 i0) i1) i2 →
        va = ((start.foldl (fun a i => a + i * s.tmp.battNom) 0 : Nat) : Rat) / 1000 →
        exec (.battWindow i0 i1 i2) s = .next (settle { s with tmp := { s.tmp with
          est := s.tmp.est + va * period / (36 / 10)
          counted := s.tmp.counted + (if start.isEmpty then 0 else period)
          byp := s.tmp.byp + (if s.rd Reg.TMP.CFG.BYP_I * s.tmp.battRated ≤ top then period else 0)
          ipeak := max s.tmp.ipeak top } })))

/-- The legal area and the seal (R9, R119 to R122): an RWL write with COMMISSIONING and the seal open makes its fields
pending, otherwise it raises SYS_SEALED_WRITE, below its level it is counted; a commit is refused with the first condition
that fails or starts, its end writes the records, clears the pending marks and leaves the set for the next boundary; the
seal's change is latched in DORMANT and else recorded, discards what is pending when it closes, and is a tamper when it
opens outside COMMISSIONING or is invalid. -/
def Obligations.LegalCommitsAndSeal : Prop :=
  ∀ s : State,
    (∀ a addr v, findReg addr = none → exec (.rwlFieldWrite a addr v) s = .next (settle s)) ∧
    (∀ a addr v d, findReg addr = some d → (d.fields.any fun f => f.acc = .rwl) = true → s.running = true →
      (s.level a < 1 → exec (.rwlFieldWrite a addr v) s = .next (settle (deny a s))) ∧
      (1 ≤ s.level a → ¬ (s.mode = 4 ∧ s.bit Reg.MET.SEAL.OPEN = true) →
        exec (.rwlFieldWrite a addr v) s = .next (settle (raise 0x0005 addr s))) ∧
      (1 ≤ s.level a → s.mode = 4 → s.bit Reg.MET.SEAL.OPEN = true →
        (addr < 0x11000 ∨ 0x13000 ≤ addr → exec (.rwlFieldWrite a addr v) s =
          .next (settle ((rwlStore d addr v s).setB Reg.LEGAL.STATUS.PENDING true))) ∧
        (0x11000 ≤ addr → addr < 0x13000 → exec (.rwlFieldWrite a addr v) s =
          .next (settle (((rwlStore d addr v s).setB Reg.LEGAL.STATUS.PENDING true).setB
            (Reg.MCH.STATUS.PENDING ((addr - 0x11000) / 0x40)) true))))) ∧
    (∀ a image set l conds, s.modeWrites = true → 1 ≤ s.level a → set = s.proposal image → l = s.changedBlocks set →
      conds = [((1 : Nat), s.bit Reg.MET.SEAL.OPEN), (2, decide (s.mode = 4)), (6, !s.bit Reg.LEGAL.STATUS.COMMITTING),
        (4, !l.isEmpty), (3, decide (l.length + 2 ≤ s.legalFree)),
        (5, ({ s with met := { s.met with set := set } } : State).setConsistent)] →
      (∀ code b, conds.find? (fun x => !x.2) = some (code, b) → exec (.legalCommitGo a image) s =
        .next (settle (raise 0x3C02 code (s.wr Reg.LEGAL.RESULT.CODE code)))) ∧
      (conds.find? (fun x => !x.2) = none → exec (.legalCommitGo a image) s = .next (settle
        (({ s with met := { s.met with commit := some (l, b2n image) } } : State).setB Reg.LEGAL.STATUS.COMMITTING true)))) ∧
    (s.met.commit = none → exec .legalCommitComplete s = .next (settle s)) ∧
    (∀ l src no crc u, s.running = true → s.met.commit = some (l, src) → no = s.rd Reg.LEGAL.COMMIT_NO.NUMBER + 1 →
      crc = s.commitCrc l →
      u = commitRecords l no src crc { s with met := { s.met with commit := none, next := some (l, no, crc) } } →
      exec .legalCommitComplete s = .next (settle (((forEach 128 (fun c s => s.setB (Reg.MCH.STATUS.PENDING c) false)
        (u.setB Reg.LEGAL.STATUS.PENDING false)).setB Reg.LEGAL.STATUS.COMMITTING false).wr Reg.LEGAL.RESULT.CODE 0))) ∧
    (∀ (st : Fin 3) (now : Nat), now = (if s.bit Reg.MET.SEAL.INVALID then 2 else if s.bit Reg.MET.SEAL.OPEN then 1 else 0) →
      (s.aon = false → exec (.sealChange st) s = .next (settle s)) ∧
      (s.aon = true → s.mode = 0 → s.met.sealLatch.getLast?.getD now = st.val → exec (.sealChange st) s = .next (settle s)) ∧
      (s.aon = true → s.mode = 0 → s.met.sealLatch.getLast?.getD now ≠ st.val → exec (.sealChange st) s =
        .next (settle { s with met := { s.met with sealLatch := s.met.sealLatch ++ [st.val] } })) ∧
      (s.aon = true → s.mode ≠ 0 → now = st.val → exec (.sealChange st) s = .next (settle s)) ∧
      (s.aon = true → s.mode ≠ 0 → now ≠ st.val → exec (.sealChange st) s = .next (settle (sealSeen st false s)))) ∧
    (sealSeen 0 false s = tamperRelease (setCause 0x5402 0 false (setCause 0x5007 0 false (pendingDiscard (sealRecord 0 false
      ((s.setB Reg.MET.SEAL.OPEN false).setB Reg.MET.SEAL.INVALID false)))))) ∧
    ∀ u, u = raiseCause 0x5402 0 ((raiseCause 0x5007 0 (pendingDiscard (sealRecord 2 false
        ((s.setB Reg.MET.SEAL.OPEN false).setB Reg.MET.SEAL.INVALID true)))).setB Reg.TMP.STATUS.SEAL_STK true) →
      sealSeen 2 false s = tamperApply 3 (tamperRecord 3 0 0 u.reading 0 true u)

/-- Key commands (R466 to R473): GENERATE, DERIVE, IMPORT_PUBLIC, IMPORT_WRAPPED, KEY_CHANGE, ERASE and READ_PUBLIC check
their conditions in order, refuse with the first that fails and else write the slot, empty it or give the public key.
A slot's write, the engines and the life cycle's cancel (R462, R468, R469, R474, R475, R478): a persistent key goes to
the copy not in force with GEN one more and becomes the one in force; an engine request takes the head of Q[13] and posts
to Q[14]; a failed entropy source stops the DRBG and raises KEY_ENTROPY; a cancel drops the pending transition. -/
def Obligations.KeysAreCheckedWrittenAndUsed : Prop :=
  (∀ (s : State) (a : Agent) (k aux : Fin 64),
    CommandAnswers (.keyGenerate a k) 1 [(1, decide (2 ≤ s.level a)), (2, s.lc ≠ 0 && s.lc ≠ 5), (4, decide (4 ≤ k.val)),
        (5, ((1 ≤ s.argKind && s.argKind ≤ 4) || s.argKind = 6) && s.argAttr < 256 && attrOk s.argKind s.argAttr),
        (10, s.bit Reg.KEY.STATUS.DRBG_OK)]
      (slotWriteKey k ((s.draw (8 * kindLen s.argKind)).2.newKey
        (beBytes (kindLen s.argKind) (s.draw (8 * kindLen s.argKind)).1)) (s.draw (8 * kindLen s.argKind)).2) s ∧
    CommandAnswers (.keyDerive a k aux) 2 [(1, decide (2 ≤ s.level a)), (2, s.lc ≠ 0 && s.lc ≠ 5), (4, decide (4 ≤ k.val)),
        (5, (1 ≤ s.argKind && s.argKind ≤ 3) && s.argAttr < 256 && attrOk s.argKind s.argAttr), (6, s.slotHas aux 5)]
      (slotWriteKey k (s.newKey (kdf (s.slot aux).material (s.keyArg 0 (min 16 (s.rd Reg.KEY.ATTR_ARG.LBL_LEN)))
        (s.keyArg 16 (min 32 (s.rd Reg.KEY.ATTR_ARG.CTX_LEN))) (8 * kindLen s.argKind))) s) s ∧
    CommandAnswers (.keyImportPublic a k) 3 [(1, decide ((if s.lc = 1 || s.lc = 2 then 2 else 1) ≤ s.level a)),
        (2, s.lc ≠ 0 && s.lc ≠ 5), (4, k.val ≠ 0 && k.val ≠ 3), (5, kindPublic s.argKind && attrOk s.argKind s.argAttr &&
          (!(k.val = 1 || k.val = 2) || (s.argKind = 5 && s.argAttr = 2 ^ 9)) && s.importAttr)]
      (slotWriteKey k { s.newKey (s.keyArg 0 (kindLen s.argKind)) with
        persist := s.bit Reg.KEY.ATTR_ARG.PERSIST || k.val < 4 } s) s ∧
    (∀ m, m = unwrapped s k aux →
      CommandAnswers (.keyImportWrapped a k aux) 4 [(1, decide (2 ≤ s.level a)), (2, s.lc ≠ 0 && s.lc ≠ 5),
          (4, decide (4 ≤ k.val)), (5, s.argKind ≠ 0 && attrOk s.argKind s.argAttr && s.importAttr), (6, s.slotHas aux 4),
          (7, m.isSome), (9, m.any fun m => kcvOf s.argKind m = s.rd (Reg.KEY.ARG.BYTES 63))]
        (slotWriteKey k (s.newKey (m.getD [])) s) s) ∧
    (∀ ok gen id m, keyChangeMsg s k = (ok, gen, id, m) →
      CommandAnswers (.keyChange a k) 5 [(1, decide (2 ≤ s.level a)), (2, s.lc ≠ 0 && s.lc ≠ 5), (4, k.val ≠ 0 && k.val ≠ 3),
          (5, ((s.slot k).kind = 3 || (s.slot k).kind = 5 || (s.slot k).kind = 7) &&
            (Nat.testBit (s.slot k).attr 8 || Nat.testBit (s.slot k).attr 9)), (7, ok), (8, decide (gen = (s.slot k).gen + 1))]
        (slotWriteKey k { s.slot k with keyId := id, material := m, persist := (s.slot k).persist || k.val < 4 } s) s) ∧
    CommandAnswers (.keyErase a k) 6 [(1, decide (2 ≤ s.level a)), (2, s.lc ≠ 0 && s.lc ≠ 5), (4, decide (4 ≤ k.val))]
      ((s.setSlot k KeySlot.empty).setKeyNv k KeyNv.empty) s ∧
    CommandAnswers (.keyReadPublic k) 7 [(5, decide (4 ≤ (s.slot k).kind))]
      (keyArgWrite (if kindPublic (s.slot k).kind then (s.slot k).material
        else Config.ecPublic (kindCurve (s.slot k).kind) (s.slot k).material) s) s) ∧
  (∀ s : State,
    (∀ k x y v gen, y = { x with kcv := kcvOf x.kind x.material } → v = s.keyNv k → gen = (v.gen + 1) % 2 ^ 32 →
      (x.persist = false → slotWriteKey k x s = s.setSlot k { y with gen := ((s.slot k).gen + 1) % 2 ^ 32, copy := 0 }) ∧
      (x.persist = true → v.sel = 1 → slotWriteKey k x s = (s.setKeyNv k
        { v with sel := 2, gen := gen, b := ({ y with gen := gen, copy := 1 } : KeySlot) }).setSlot k { y with gen := gen, copy := 1 }) ∧
      (x.persist = true → v.sel ≠ 1 → slotWriteKey k x s = (s.setKeyNv k
        { v with sel := 1, gen := gen, a := ({ y with gen := gen, copy := 0 } : KeySlot) }).setSlot k { y with gen := gen, copy := 0 })) ∧
    (s.running = true → exec .keyEntropy s = .next (settle (raiseCause 0x8C05 0
      ((s.setB Reg.KEY.STATUS.ENTROPY_OK false).setB Reg.KEY.STATUS.DRBG_OK false)))) ∧
    (∀ op slot, s.running = true →
      (takeHead 13 s = none → exec (.cryptoQueueRequest op slot) s = .next (settle s)) ∧
      (∀ i u p, takeHead 13 s = some (i, u) → p = (List.range 16).foldl (fun (acc : List Nat × State) _ =>
          (acc.1 ++ [acc.2.fresh.1 % 2 ^ 64], acc.2.fresh.2)) (([] : List Nat), u) →
        exec (.cryptoQueueRequest op slot) s = .next (settle (hwPost 14 p.1 p.2)))) ∧
    (∀ a p, p = s.rd Reg.KEY.STATUS.LC_PEND →
      (s.modeWrites = false → s.mode ≠ 1 → exec (.lcCancel a) s = .next (settle s)) ∧
      (s.modeWrites = true ∨ s.mode = 1 →
        (p = 15 → exec (.lcCancel a) s = .next (settle (keyResult 0xFF 0 s))) ∧
        (p ≠ 15 → s.level a < (lcLevel s.key.lc p).getD 3 → exec (.lcCancel a) s = .next (settle (keyResult 0xFF 1 s))) ∧
        (p ≠ 15 → (lcLevel s.key.lc p).getD 3 ≤ s.level a → exec (.lcCancel a) s =
          .next (settle (keyResult 0xFF 0 (s.wr Reg.KEY.STATUS.LC_PEND 15)))))))

/-- The update engine (R480 to R485): a colophon is refused with the first check that fails, otherwise its parts are staged
in the idle bank; the read-back leads to READY or is refused as check 9; READY is armed with a bind set, READY and ARMED
are abandoned, and a trial is confirmed by the runtime, or by 600 s without a Major or Grave fault. -/
def Obligations.UpdatesStageArmAndConfirm : Prop :=
  ∀ s : State,
    (∀ a c n, s.modeWrites = true → 2 ≤ s.level a →
      n = updChecks s c (decide (leAt c 0xC 4 ≤ c.length ∧ 0x800000 ≤ s.rd Reg.UPD.STAGE_ADDR.ADDR)) (partsMatch c)
        [1, 2, 3, 4, 5, 6, 7, 8, 9, 10, 11, 12] →
      (n = 1 → exec (.updVerify a c) s = .next (settle (raise 0x0D01 1 (s.wr Reg.UPD.RESULT.CHECK 1)))) ∧
      (1 < n → exec (.updVerify a c) s = .next (settle (raise 0x0D01 n ((updEnter 0 (updEnter 1 s)).wr Reg.UPD.RESULT.CHECK n)))) ∧
      (∀ u, n = 0 → u = ((updEnter 1 s).wr Reg.UPD.RESULT.CHECK 0).wr Reg.UPD.STATUS.POLICY (leAt c 0x16 1) →
        exec (.updVerify a c) s = .next (settle (updEnter 2
          (u.setBank u.idle { Bank.empty with region := colophonHead c, parts := u.stagedParts c }))))) ∧
    (∀ ok, s.running = true → s.rd Reg.UPD.STATUS.STATE ≠ 2 → exec (.stagingComplete ok) s = .next (settle s)) ∧
    (∀ c u, s.running = true → s.rd Reg.UPD.STATUS.STATE = 2 → c = (s.bank s.idle).region →
      u = (s.wr Reg.UPD.PROGRESS.PART (leAt c 0x14 1 - 1)).wr Reg.UPD.PROGRESS.KIB
        (((partEntries c).foldl (fun n p => n + p.length) 0) / 1024) →
      exec (.stagingComplete true) s = .next (settle (updEnter 3 (u.setBank u.idle { u.bank u.idle with st := 1 }))) ∧
      exec (.stagingComplete false) s = .next (settle (updRefuse 9 (updEnter 0 (u.setBank u.idle Bank.empty))))) ∧
    (∀ a p, s.modeWrites = true → 2 ≤ s.level a → p = s.rd Reg.UPD.STATUS.POLICY →
      (¬ (s.rd Reg.UPD.STATUS.STATE = 3 ∧ p < 2) → exec (.updArm a) s = .next (settle s)) ∧
      (s.rd Reg.UPD.STATUS.STATE = 3 → p < 2 →
        exec (.updArm a) s = .next (settle (updArmAs p (leAt (s.bank s.idle).region 0x18 8) s)))) ∧
    (∀ policy act bind, bind = engineSet 3 (if policy = 0 then 1 else if policy = 1 then 2 else 3) 0
        (if policy = 1 then (act + 999999999) / 1000000000 else act) s →
      (bind = none → updArmAs policy act s = s) ∧
      (∀ t u, bind = some t → u = (t.wr Reg.UPD.ACT_LO.NS (act % 2 ^ 32)).wr Reg.UPD.ACT_HI.NS (act / 2 ^ 32) →
        updArmAs policy act s = updEnter 4 (u.setBank u.idle { u.bank u.idle with armed := some (policy, act) }))) ∧
    (∀ a st, s.modeWrites = true → 2 ≤ s.level a → st = s.rd Reg.UPD.STATUS.STATE →
      (st ≠ 3 → st ≠ 4 → exec (.updAbandon a) s = .next (settle s)) ∧
      (st = 3 ∨ st = 4 → exec (.updAbandon a) s = .next (settle (updEnter 0
        (((freeOwner 3 (s.setBank s.idle Bank.empty)).wr Reg.UPD.ACT_LO.NS 0).wr Reg.UPD.ACT_HI.NS 0))))) ∧
    (exec (.updConfirm .host) s = .next (settle (s.inc Reg.HP.STATUS.DENIED))) ∧
    (s.modeWrites = true → exec (.updConfirm .runtime) s = .next (settle (updConfirmed s))) ∧
    (s.running = true → (¬ (s.mode = 4 ∨ s.mode = 5 ∨ s.mode = 6) ∨ (∃ e ∈ s.flt.table, 2 ≤ e.cls) →
        exec .updTrialConfirm s = .next (settle s)) ∧
      (s.mode = 4 ∨ s.mode = 5 ∨ s.mode = 6 → (∀ e ∈ s.flt.table, e.cls < 2) →
        exec .updTrialConfirm s = .next (settle (updConfirmed s)))) ∧
    (s.bit Reg.UPD.STATUS.TRIAL = false → updConfirmed s = s) ∧
    ∀ u, s.bit Reg.UPD.STATUS.TRIAL = true →
      u = s.setBank s.idle { s.bank s.idle with st := 3, gen := (s.bank s.active).gen } →
      updConfirmed s = (u.wr Reg.UPD.SVN.MIN_SVN (max (u.rd Reg.UPD.SVN.MIN_SVN)
        (leAt (s.bank s.active).region 0x24 4))).setB Reg.UPD.STATUS.TRIAL false

/-- Mode requests (R63, R65, R85): each is judged in the order of R65, and carried out: COMMISSIONING, SERVICE and
OPERATIONAL enter their mode, SHUTDOWN takes steps 1 to 5, WAKE and RELOAD enter LOADING, ACK closes Major entries. -/
def Obligations.ModeRequestsAnswer : Prop :=
  ∀ (s : State) (a : Agent) (lost : Bool),
    RequestAnswers (exec (.modeReqCommissioning a lost) s) a 1 2 lost (s.mode = 5 || s.mode = 6) s.energising false
      (setMode 4 0 0) s ∧
    RequestAnswers (exec (.modeReqOperational a lost) s) a 2 1 lost
      ((s.mode = 4 || s.mode = 7) && decide (1 ≤ s.lc ∧ s.lc ≤ 3)) false
      (if s.mode = 4 then !s.confirmed else s.bit Reg.MODE.STATUS.SHUT)
      (fun u => setMode (if u.mode = 4 then commissionDone u else u).opMode 0 0 (if u.mode = 4 then commissionDone u else u)) s ∧
    RequestAnswers (exec (.modeReqService a lost) s) a 3 1 lost (s.mode = 5 || s.mode = 6) s.energising false
      (setMode 7 0 0) s ∧
    RequestAnswers (exec (.modeReqShutdown a lost) s) a 4 1 lost (decide (5 ≤ s.mode ∧ s.mode ≤ 7)) false false
      (fun u => if u.bit Reg.MODE.STATUS.SHUT then u
        else { bbnSilence (shutDownSteps u) with sys := { (bbnSilence (shutDownSteps u)).sys with shutStep := 4 } }) s ∧
    (∀ f, RequestAnswers (exec (.modeReqWake a lost f) s) a 5 1 lost (s.mode = 7 && s.bit Reg.MODE.STATUS.PARKED) false false
      (enterLoading Reg.PWR.CAUSE.WAKE 0 f) s) ∧
    (∀ cool, s.running = true → RequestAnswers (exec (.modeReqAck a lost cool) s) a 6 1 lost ((diesCool cool s).mode = 10)
      false (diesCool cool s).majorCause (fun u => ackTo (warmStop (closeWhere (fun e => 2 ≤ e.cls) 2 u))) (diesCool cool s)) ∧
    (∀ f, RequestAnswers (exec (.modeReqReload a lost f) s) a 7 2 lost (s.mode = 1) false false
      (enterLoading Reg.PWR.CAUSE.RELOAD 0 f) s) ∧
    (shutDownSteps s = tagSnapshot (bdyAll (forEach 16 (fun n s => outRamp n 10 s)
      ((setMode 7 0 0 s).setB Reg.MODE.STATUS.SHUT true)))) ∧
    (∀ b, b = s.sys.baseMode → (b = 2 → ackTo s = restartTests 0 s) ∧
      (b = 5 ∨ b = 6 → 1 ≤ s.lc → s.lc ≤ 3 → s.commissioned = true → ackTo s = tamperSuspend (setMode s.opMode 0 0 s)) ∧
      (b = 5 ∨ b = 6 → ¬ (1 ≤ s.lc ∧ s.lc ≤ 3 ∧ s.commissioned = true) → ackTo s = setMode 4 0 0 s) ∧
      (b ≠ 2 → b ≠ 5 → b ≠ 6 → ackTo s = setMode b 0 0 s))

/-- The end of START_TEST and warm-through (R60, R62, R67, R81, R82, R509): passed tests lead to the mode of R60; an
application reset starts the timer and enters WARM_THROUGH, WARM_MAX suspends energising carrels, 60 s without a ready
runtime lead to SAFE_HOLD, and a ready runtime ends it.
The power-fail warning, its flush and ride-through (R84, R155, R156, R158 to R161, R454): an enabled source's warning
is stamped and counted, stops the tests, enters RIDE_THROUGH and starts a drain; the partial quantum is booked once, the
flush commits every folio; the sources' return goes back, and a folio's commit word is written in order. -/
def Obligations.WarmThroughAndPowerFail : Prop :=
  (∀ s : State,
    (∀ ms, (s.running = true ∧ s.mode = 2 ∧ s.sys.startStep = 8 ∧ s.bist.lane0 = none ∧ s.bist.lane1 = none →
        ∀ u v, u = (forEach 3 monitorJudge s).wr Reg.MODE.START.START_MS (min 65535 ms) →
          v = (if Nat.testBit (u.cfg 9 0 1) 2 then u.setB Reg.DPY.STATUS.REQ_ON true else u) →
          exec (.startTestPassed ms) s = .next (settle (startRecord v.afterTest (min 65535 ms)
            (tamperSuspend (setMode v.afterTest 5 0 v))))) ∧
      (¬ (s.running = true ∧ s.mode = 2 ∧ s.sys.startStep = 8 ∧ s.bist.lane0 = none ∧ s.bist.lane1 = none) →
        exec (.startTestPassed ms) s = .next (settle s))) ∧
    (s.running = false ∨ s.bit Reg.MODE.STATUS.PARKED = true → exec .runtimeReady s = .next (settle s) ∧
      exec .appClusterReset s = .next (settle s)) ∧
    (s.running = true → s.bit Reg.MODE.STATUS.PARKED = false →
      (∀ u v w, u = setCause 0x8304 0 false (warmStop (s.setB Reg.MODE.STATUS.APP_DOWN false)) →
        v = (if u.mode = 8 then modeBack u.sys.warmReturn 6 u else u) →
        w = (if 3 ≤ v.mode ∧ v.sys.startStep = 8 then { v with sys := { v.sys with startStep := 9 } } else v) →
        exec .runtimeReady s = .next (settle (vplDeliver w))) ∧
      ∀ u start, u = (s.inc Reg.MODE.WARM.APP_RESETS).setB Reg.MODE.STATUS.APP_DOWN true →
        start = (fun (back : Nat) => ({ u with sys := { u.sys with
          warmRun := true, warmMax := 0, warmLost := false, warmReturn := back } } : State)) →
        (4 ≤ u.mode → u.mode ≤ 7 → exec .appClusterReset s = .next (settle (warmShow (setMode 8 6 0 (start u.mode))))) ∧
        (u.mode = 9 → u.sys.warmRun = false → 4 ≤ u.sys.rideReturn → u.sys.rideReturn ≤ 7 →
          exec .appClusterReset s = .next (settle (start u.sys.rideReturn))) ∧
        (¬ (4 ≤ u.mode ∧ u.mode ≤ 7) → ¬ (u.mode = 9 ∧ u.sys.warmRun = false ∧ 4 ≤ u.sys.rideReturn ∧ u.sys.rideReturn ≤ 7) →
          exec .appClusterReset s = .next (settle u))) ∧
    ((s.running = false ∨ s.sys.warmRun = false ∨ s.sys.warmMax ≠ 0 ∨ (s.mode ≠ 8 ∧ s.mode ≠ 9)) →
      exec .warmMaxExpired s = .next (settle s)) ∧
    (s.running = true → s.sys.warmRun = true → s.sys.warmMax = 0 →
      (s.mode = 8 → exec .warmMaxExpired s = .next (settle (raise 0x4305 0 (suspendAll 9
        (warmShow { s with sys := { s.sys with warmMax := 2 } }))))) ∧
      (s.mode = 9 → exec .warmMaxExpired s = .next (settle { s with sys := { s.sys with warmMax := 1 } }))) ∧
    ((s.running = false ∨ s.sys.warmRun = false ∨ (s.mode ≠ 8 ∧ s.mode ≠ 9)) →
      exec .warmThroughTimeout s = .next (settle s)) ∧
    (s.running = true → s.sys.warmRun = true →
      (s.mode = 8 → exec .warmThroughTimeout s = .next (settle (reactTo 0x8304 2 (outputsSafe (setMode 10 4 0x8304
        (collect 0x8304 0 0 false (setCause 0x8304 0 true s))))).drainAt256)) ∧
      (s.mode = 9 → exec .warmThroughTimeout s = .next (settle { s with sys := { s.sys with warmLost := true } })))) ∧
  (∀ s : State,
    (∀ pf va now ms, s.running = false → exec (.powerFailWarning pf va now ms) s = .next (settle s)) ∧
    (∀ (pf va : Bool) (now : Fin 32768) (ms : Nat) (u v w : State), s.running = true →
      u = (if pf then s.setB Reg.PWR.STATUS.PF_PIN false else s) →
      v = (if va then u.setB Reg.PWR.STATUS.VAUX_OK false else u) →
      ((¬ (pf = true ∧ v.pfSrc % 2 = 1) ∧ ¬ (va = true ∧ v.pfSrc / 2 % 2 = 1)) ∨ v.bit Reg.MODE.STATUS.PF = true →
        exec (.powerFailWarning pf va now ms) s = .next (settle v)) ∧
      ((pf = true ∧ v.pfSrc % 2 = 1) ∨ (va = true ∧ v.pfSrc / 2 % 2 = 1) → v.bit Reg.MODE.STATUS.PF = false →
        ∀ x y, x = (v.setB Reg.MODE.STATUS.PF true).inc Reg.PWR.PF_STAT.COUNT →
          y = shutEnds (testsStop (pqCloseAll ms { x with
            tmp := { x.tmp with pfStamp := some (v.readingAt now * 10) }, sys := { x.sys with flushing := true } })) →
          (2 ≤ y.mode → y.mode ≤ 8 → exec (.powerFailWarning pf va now ms) s = .next (settle
            ((setMode 9 2 0 { y with sys := { y.sys with rideReturn := y.mode } }).wr Reg.MODE.WARM.REMAIN_MS 0).startDrain)) ∧
          (¬ (2 ≤ y.mode ∧ y.mode ≤ 8) → exec (.powerFailWarning pf va now ms) s = .next (settle y.startDrain)))) ∧
    (∀ d h, (s.running = true ∧ s.sys.flushing = true ∧ s.bit Reg.MET.STATUS.RUN = true ∧ (∀ x ∈ s.per.waiting, x.1.flush = false) →
        (s.nq = 0 → exec (.partialQuantumClose d h) s = .next (settle (persist true s))) ∧
        (s.nq ≠ 0 → ∀ u, u = bookQuantum true s.reading (closeQuantum true d h s) →
          exec (.partialQuantumClose d h) s = .next (settle (persist true { u with sys := { u.sys with splitQ := true } })))) ∧
      (¬ (s.running = true ∧ s.sys.flushing = true ∧ s.bit Reg.MET.STATUS.RUN = true ∧ (∀ x ∈ s.per.waiting, x.1.flush = false)) →
        exec (.partialQuantumClose d h) s = .next (settle s))) ∧
    (∀ us, (s.running = false ∨ s.sys.flushing = false → exec (.flushComplete us) s = .next (settle s)) ∧
      (∀ u, s.running = true → s.sys.flushing = true → u = drainEnds (commitAll s) → exec (.flushComplete us) s =
        .next (settle (tagSnapshot (({ u with sys := { u.sys with flushing := false } } : State).wr Reg.PWR.PF_STAT.LAST_US
          (min 65535 us)))))) ∧
    (s.running = false ∨ s.bit Reg.MODE.STATUS.PF = false → exec .rideThroughEnd s = .next (settle s)) ∧
    (∀ u v w, s.running = true → s.bit Reg.MODE.STATUS.PF = true → u = s.setB Reg.MODE.STATUS.PF false →
      v = (if u.pfSrc % 2 = 1 then u.setB Reg.PWR.STATUS.PF_PIN true else u) →
      w = (if v.pfSrc / 2 % 2 = 1 then v.setB Reg.PWR.STATUS.VAUX_OK true else v) →
      (w.mode ≠ 9 → exec .rideThroughEnd s = .next (settle w)) ∧
      (w.mode = 9 → w.sys.rideReturn = 2 → exec .rideThroughEnd s = .next (settle (restartTests 2 w))) ∧
      (w.mode = 9 → w.sys.rideReturn ≠ 2 → w.sys.warmRun = true → exec .rideThroughEnd s = .next (settle (warmResume w))) ∧
      (w.mode = 9 → w.sys.rideReturn ≠ 2 → w.sys.warmRun = false → exec .rideThroughEnd s =
        .next (settle (modeBack (if w.sys.rideReturn = 8 then w.sys.warmReturn else w.sys.rideReturn) 2 w)))) ∧
    (s.per.waiting = [] → exec .folioCommit s = .next (settle s)) ∧
    ∀ x r, s.per.waiting = x :: r →
      (x.1.flush = true ∨ s.sys.unpowered = true ∨ s.mode = 0 → exec .folioCommit s = .next (settle s)) ∧
      (x.1.flush = false → s.sys.unpowered = false → s.mode ≠ 0 → exec .folioCommit s =
        .next (settle (folioCommit1 x.1 { s with per := { s.per with waiting := r } }))))

/-- The shut-down test, PARKED, life-cycle requests, activations, junctions and supply monitors (R78, R83, R85, R86, R462,
R464, R486, R487, R523, R560, R563): each takes its effect in its step of the sequence only. -/
def Obligations.ShutdownAndActivation : Prop :=
  ∀ s : State,
    (s.running = true → exec .curatorReset s = .next (settle (raise 0xB40E 0 (curatorDrops s)))) ∧
    (∀ l, (s.running = true ∧ (s.mode = 7 ∨ s.mode = 10) ∧ s.sys.shutStep = 4 →
        ∀ p u, p = (([2, 3, 0, 1] : List Nat).zip l).foldl shutGroup (secretsClear s, decide (4 ≤ l.length)) →
          u = ({ p.1 with sys := { p.1.sys with shutStep := 6 }
                          key := { p.1.key with locked := p.1.bist.scan } } : State).setB Reg.BIST.STATUS.SHUT_PASS p.2 →
          (p.2 = true → exec (.shutdownTestDone l) s = .next (settle (creditWrite u))) ∧
          (p.2 = false → exec (.shutdownTestDone l) s = .next (settle (raise 0x4A05 0
            ((u.mapBist fun b => { b with spares := s.bist.spares }).setWord Reg.BIST.REPAIR.SOFT.addr
              (s.word Reg.BIST.REPAIR.SOFT.addr)))))) ∧
      (¬ (s.running = true ∧ (s.mode = 7 ∨ s.mode = 10) ∧ s.sys.shutStep = 4) →
        exec (.shutdownTestDone l) s = .next (settle s))) ∧
    (∀ u v, u = (s.setB Reg.MODE.STATUS.PARKED true).setB Reg.MODE.STATUS.APP_DOWN true →
      v = ({ u with sys := { u.sys with shutStep := 7 } } : State) →
      (¬ (s.running = true ∧ (s.mode = 7 ∨ s.mode = 10) ∧ s.sys.shutStep = 6) → exec .shutdownPark s = .next (settle s)) ∧
      (s.running = true → s.mode = 7 ∨ s.mode = 10 → s.sys.shutStep = 6 →
        (v.role = 0 → exec .shutdownPark s = .next (settle v)) ∧
        (v.role ≠ 0 → exec .shutdownPark s = .next (settle (bbnListen v))))) ∧
    (∀ f, (s.running = true ∧ s.mode = 7 ∧ s.bit Reg.MODE.STATUS.PARKED = true →
        exec (.parkMaxExpired f) s = .next (settle (enterLoading Reg.PWR.CAUSE.WAKE 4 f s))) ∧
      (¬ (s.running = true ∧ s.mode = 7 ∧ s.bit Reg.MODE.STATUS.PARKED = true) → exec (.parkMaxExpired f) s = .next (settle s))) ∧
    (∀ (a : Agent) (target : Fin 16) f u, u = lcRequest a target s →
      (u.running = true ∧ u.mode = 1 ∧ u.rd Reg.KEY.STATUS.LC_PEND ≠ 15 → exec (.lcRequest a target f) s =
        .next (settle (enterLoading Reg.PWR.CAUSE.RELOAD 0 f u))) ∧
      (¬ (u.running = true ∧ u.mode = 1 ∧ u.rd Reg.KEY.STATUS.LC_PEND ≠ 15) → exec (.lcRequest a target f) s = .next (settle u))) ∧
    (∀ a target, s.modeWrites = true ∨ s.mode = 1 → (lcLevel s.key.lc target = none → lcRequest a target s = keyResult 0xFF 11 s) ∧
      ∀ l, lcLevel s.key.lc target = some l → (s.level a < l → lcRequest a target s = keyResult 0xFF 1 s) ∧
        (l ≤ s.level a → target = 3 → s.mode ≠ 4 → lcRequest a target s = keyResult 0xFF 3 s) ∧
        (l ≤ s.level a → (target = 3 → s.mode = 4) →
          (lcCondition s.key.lc target s = false → lcRequest a target s = keyResult 0xFF 12 s) ∧
          (lcCondition s.key.lc target s = true → lcRequest a target s = keyResult 0xFF 0 (s.wr Reg.KEY.STATUS.LC_PEND target)))) ∧
    (∀ f d h (now : Fin 32768),
      (s.running = false ∨ s.rd Reg.UPD.STATUS.STATE ≠ 4 ∨ (s.rd Reg.UPD.STATUS.POLICY = 2 ∧ s.voteGood = false) →
        exec (.updActivation f d h now) s = .next (settle s)) ∧
      (s.running = true → s.rd Reg.UPD.STATUS.STATE = 4 → (s.rd Reg.UPD.STATUS.POLICY = 2 → s.voteGood = true) →
        (s.activationOk = false → exec (.updActivation f d h now) s = .next (settle (raise 0x4D05 0
          ((freeOwner 3 (updEnter 3 (s.setBank s.idle { s.bank s.idle with armed := none }))).wr Reg.UPD.RESULT.CHECK 13)))) ∧
        (s.activationOk = true → ∀ u v, u = shutDownSteps (updEnter 5 s) →
          v = (if u.bit Reg.MET.STATUS.RUN then commitAll (partialClose d h u) else u) →
          exec (.updActivation f d h now) s = .next (settle (enterLoading Reg.PWR.CAUSE.WAKE 0 f
            ((bankFlip { v with per := { v.per with planned := some (v.readingAt now * 10) } }).setB
              Reg.MODE.STATUS.PARKED true)))))) ∧
    (∀ (die : Fin 2) t, s.running = true →
      exec (.pwrTjHigh die t) s = .next (settle (raiseCause 0x4206 (die.val * 65536 + ofInt 16 t) s)) ∧
      exec (.pwrTjCrit die t) s = .next (settle (raiseCause 0x8207 (die.val * 65536 + ofInt 16 t) s))) ∧
    ∀ (k : Fin 4) ok, (s.sys.unpowered = true → exec (.supplyMonitorChange k ok) s = .next (settle s)) ∧
      ∀ u, s.sys.unpowered = false → u = s.setB (monitorBit k) ok →
        (u.running = false ∨ k = 3 ∨ (u.mode < 3 ∧ k ≠ 2) → exec (.supplyMonitorChange k ok) s = .next (settle u)) ∧
        (u.running = true → u.mode < 3 → k = 2 → exec (.supplyMonitorChange k ok) s = .next (settle (dpyJudge u))) ∧
        (u.running = true → 3 ≤ u.mode → (k = 2 → exec (.supplyMonitorChange k ok) s =
            .next (settle (dpyJudge (monitorJudge 2 u)))) ∧
          (k.val < 2 → exec (.supplyMonitorChange k ok) s = .next (settle (monitorJudge k u))))

/-- Supplies and RESET_N (R60, R64, R67, R68, R163, R165, R186): VBAT makes an unpowered device DORMANT and its loss clears
P/AON; supply good enters LOADING unless RESET_N is low; core under-voltage is stamped and leads to DORMANT; RESET_N holds
the core in reset, and its release enters LOADING; a core reset keeps P/AON, the stores and the fuses.
A start up to START_TEST (R60, R69, R74 to R78, R263, R464): LOADING resets the core, counts the cycle and restores
slots and banks; the latch and the life cycle lead to LOCKDOWN, the newer of two good copies is accepted, one bad copy is
raised and two end in SAFE_HOLD; modules take their outcome, the sections load, and START_TEST begins. -/
def Obligations.SuppliesResetsAndStarts : Prop :=
  (∀ s : State,
    (s.sys.unpowered = true → exec .vbatApplied s = .next (settle
      ((({ s with sys := { s.sys with unpowered := false } } : State).wr Reg.MODE.STATUS.MODE 0).setB Reg.PWR.STATUS.VBAT_OK true))) ∧
    (s.sys.unpowered = false → exec .vbatApplied s = .next (settle s)) ∧
    (s.dormant = true → exec .vbatRemoved s = .next (settle (aonLost (s.setB Reg.PWR.STATUS.VBAT_OK false)))) ∧
    (s.dormant = false → exec .vbatRemoved s = .next (settle s)) ∧
    (∀ f, ((s.mode ≠ 0 ∧ s.sys.unpowered = false) ∨ s.sys.resetLow = true → exec (.supplyGood f) s = .next (settle s)) ∧
      (s.mode = 0 ∨ s.sys.unpowered = true → s.sys.resetLow = false → ∀ u v,
        u = ({ s with sys := { s.sys with unpowered := false } } : State).wr Reg.MODE.STATUS.MODE 0 →
        v = ((u.setB Reg.PWR.STATUS.V08_OK true).setB Reg.PWR.STATUS.V18_OK true).setB Reg.PWR.STATUS.V33_OK true →
        exec (.supplyGood f) s = .next (settle (beginLoading Reg.PWR.CAUSE.POR 2 f (adjDiscard v))))) ∧
    (∀ now : Fin 32768, (s.sys.unpowered = true ∨ s.mode = 0 → exec (.coreUnderVoltage now) s = .next (settle s)) ∧
      ∀ u v w, s.sys.unpowered = false → s.mode ≠ 0 → u = adjDiscard (flushCut s) →
        v = coreReset false false { u with tmp := { u.tmp with
          uvStamp := some (s.readingAt now * 10), dormFrom := s.readingAt now * 10 } } →
        w = (((v.setB Reg.PWR.STATUS.V08_OK false).setB Reg.PWR.STATUS.V18_OK false).setB Reg.PWR.STATUS.V33_OK false).wr
          Reg.MODE.STATUS.MODE 0 →
        (w.bit Reg.PWR.STATUS.VBAT_OK = true → exec (.coreUnderVoltage now) s = .next (settle w)) ∧
        (w.bit Reg.PWR.STATUS.VBAT_OK = false → exec (.coreUnderVoltage now) s = .next (settle (aonLost w)))) ∧
    (∀ u, u = (if s.sys.unpowered = true ∨ s.mode = 0 then s else coreReset true false (adjDiscard (flushCut s))) →
      exec .resetNLow s = .next (settle { u with sys := { u.sys with resetLow := true } })) ∧
    (∀ f, (s.sys.resetLow = false → exec (.resetNRelease f) s = .next (settle s)) ∧
      ∀ u, s.sys.resetLow = true → u = ({ s with sys := { s.sys with resetLow := false } } : State) →
        (u.sys.unpowered = true ∨ u.mode = 0 → exec (.resetNRelease f) s = .next (settle u)) ∧
        (u.sys.unpowered = false → u.mode ≠ 0 → exec (.resetNRelease f) s =
          .next (settle (beginLoading Reg.PWR.CAUSE.RESET_PIN 3 f u)))) ∧
    ∀ held queue u, u = coreReset held queue s →
      u.cat = s.cat ∧ u.tmp = s.tmp ∧ u.rtc = s.rtc ∧ u.key = s.key ∧ u.upd = s.upd ∧ u.hp.ospi = s.hp.ospi ∧
      u.per.folio = s.per.folio ∧ u.sets = State.reset.sets ∧ u.outs = State.reset.outs ∧ u.saf = State.reset.saf ∧
      u.lsw = State.reset.lsw ∧ u.q 15 = (if queue then s.q 15 else Queue.empty) ∧ u.q 0 = Queue.empty) ∧
  (∀ s : State,
    (∀ cause trigger f, enterLoading cause trigger f s =
      beginLoading cause trigger f (coreReset true true (adjDiscard (recorderFinish s)))) ∧
    (∀ (cause : Fld) trigger f, beginLoading cause trigger f s = startLoading f (errUpdate (setMode 1 trigger 0
      (((s.setWord Reg.PWR.CAUSE.POR.addr 0).setB cause true).incWrap Reg.PWR.CYCLES.COUNT)))) ∧
    (∀ a b, ¬ (s.running = true ∧ s.mode = 1 ∧ s.sys.startStep = 4) → exec (.imageLoadComplete a b) s = .next (settle s)) ∧
    (∀ a b u, s.running = true → s.mode = 1 → s.sys.startStep = 4 → u = ({ s with sys := { s.sys with startStep := 5 } } : State) →
      (u.bit Reg.FLT.STATUS.LATCH = true → exec (.imageLoadComplete a b) s = .next (settle (lockdownAtStart 0xC805 u))) ∧
      (u.bit Reg.FLT.STATUS.LATCH = false → u.lc = 5 → exec (.imageLoadComplete a b) s =
        .next (settle (lockdownAtStart 0xC307 u))) ∧
      (u.bit Reg.FLT.STATUS.LATCH = false → u.lc = 0 → exec (.imageLoadComplete a b) s = .next (settle u)) ∧
      (u.bit Reg.FLT.STATUS.LATCH = false → u.lc ≠ 5 → u.lc ≠ 0 → ∀ ca cb v, ca = imageCheck u a → cb = imageCheck u b →
        v = ((imageRecord 1 cb b (imageRecord 0 ca a u)).setB Reg.MODE.START.COPY_A_BAD (ca ≠ 0)).setB
          Reg.MODE.START.COPY_B_BAD (cb ≠ 0) →
        (ca = 0 → cb = 0 → leAt a 0x10 4 < leAt b 0x10 4 → exec (.imageLoadComplete a b) s = .next (settle (imageAccept 1 b v))) ∧
        (ca = 0 → cb = 0 → leAt b 0x10 4 ≤ leAt a 0x10 4 → exec (.imageLoadComplete a b) s = .next (settle (imageAccept 0 a v))) ∧
        (ca = 0 → cb ≠ 0 → exec (.imageLoadComplete a b) s = .next (settle (raise 0x4301 1 (imageAccept 0 a v)))) ∧
        (ca ≠ 0 → cb = 0 → exec (.imageLoadComplete a b) s = .next (settle (raise 0x4301 0 (imageAccept 1 b v)))) ∧
        (ca ≠ 0 → cb ≠ 0 → exec (.imageLoadComplete a b) s = .next (settle (raiseCause 0x8302 0 v))))) ∧
    (∀ (bus : Fin 2) (node : Fin 128) bytes, s.running = true → ∀ off k old, off = 63 * leAt bytes 0 1 → k = 128 * bus.val + node.val →
      old = mapGet (fun _ => []) s.sys.unmatched k → exec (.shelfFrame bus node bytes) s = .next (settle { s with sys := { s.sys with
        unmatched := mapSet (fun _ => []) s.sys.unmatched k ((old ++ List.replicate (off - old.length) 0).take off ++
          bytes.drop 1 ++ old.drop (off + (bytes.length - 1))) } })) ∧
    (∀ bus node bytes, s.running = false → exec (.shelfFrame bus node bytes) s = .next (settle s)) ∧
    (∀ answers (sel : Fin 256),
      (¬ (s.running = true ∧ s.mode = 1 ∧ s.sys.startStep = 5 ∧ s.sys.imgValid = true) →
        exec (.shelfEnumerationComplete answers sel) s = .next (settle s)) ∧
      (s.running = true → s.mode = 1 → s.sys.startStep = 5 → s.sys.imgValid = true →
        exec (.shelfEnumerationComplete answers sel) s = .next (settle (startTest (setMode 2 5 0 (loadSections sel
          ((List.range s.shelfCount).foldl (fun s i => shelfEntry answers i s) s))))))) ∧
    ∀ u, u = ({ s with cat := { s.cat with credit := s.cat.credit.map fun c => { c with used := c.used || s.creditValid } },
                       sys := { s.sys with startStep := 6 } } : State) →
      startTest s = bistBegin s.creditValid ((u.setB Reg.MODE.STATUS.QUICK s.creditValid).setB Reg.MODE.STATUS.APP_DOWN true))

/-- Quantum boundaries and binding instants (R59, R70, R156, R198, R550, R551): each boundary does its work in the order of
R198; the first one restores the folio, the legal set, time, billing, outlets, carrels and sessions; a set binds when its
instant has come, is deferred in WARM_THROUGH and RIDE_THROUGH, and is refused in SAFE_HOLD or by a failing check. -/
def Obligations.BoundariesWorkInOrder : Prop :=
  ∀ s : State,
    (s.running = false → exec .quantumBoundary s = .next (settle s)) ∧
    (∀ stepped u, s.running = true → adjApply (boundaryTick (persistLate s)) = (stepped, u) →
      (u.bit Reg.MET.STATUS.RUN = false → exec .quantumBoundary s = .next (settle u)) ∧
      (u.bit Reg.MET.STATUS.RUN = true → exec .quantumBoundary s = .next (settle (quantumStarts (bilShow (bdyRequests
        (commitInForce (degradedEnds (boundaryWork stepped u))))))))) ∧
    (∀ stepped coming t u, t = carrelStep (s.carrelsWhere fun c => c.st = 5) (bookQuantum false s.reading s) →
      coming = t.armedDue s.reading → u = stepTariff coming s.reading (stepPeriod coming s.reading (stepDemand stepped coming s.reading t)) →
      ∀ v, v = bindBoundary s.reading u.tar.periodClosed u.tar.demandClosed u →
        boundaryWork stepped s = persist false (hwmAdvance s.reading
          { v with tar := { v.tar with periodClosed := false, demandClosed := false } })) ∧
    (∀ loads bad, (¬ (s.running = true ∧ s.mode = 2 ∧ s.sys.startStep = 7) →
        exec (.firstQuantumBoundary loads bad) s = .next (settle s)) ∧
      (s.running = true → s.mode = 2 → s.sys.startStep = 7 → ∀ t u v w x,
        t = ({ s.setB Reg.MET.STATUS.RUN true with sys := { s.sys with startStep := 8 } } : State) →
        u = legalSelect (timeRestore (folioRestore (boundaryTick t))) →
        v = billingStart (sealLatched (fifoWrite (battReport (lossCheck u)))) →
        w = forEach 256 (carrelRestore bad) (forEach 16 (outletStart loads) v) → x = crlWatch (sessionRestore bad w) →
        exec (.firstQuantumBoundary loads bad) s = .next (settle (quantumStarts (bdyRecover (tagStart (bbnStart (safStart x)))))))) ∧
    (∀ (k : Fin 4) b, b = s.bset k →
      (s.instantOk b = false ∨ b.st ≠ 2 ∨ 2 ≤ b.owner ∨ s.running = false ∨ s.mode = 11 →
        exec (.bindInstant k) s = .next (settle s)) ∧
      (s.instantOk b = true → b.st = 2 → b.owner < 2 → s.running = true → s.mode ≠ 11 →
        (b.heldBack = true → s.mode = 8 ∨ s.mode = 9 → exec (.bindInstant k) s =
          .next (settle (s.setBset k { b with deferred := true }))) ∧
        (b.heldBack = true → s.mode = 10 → exec (.bindInstant k) s = .next (settle (bindRefuse k s))) ∧
        (b.heldBack = false ∨ (s.mode ≠ 8 ∧ s.mode ≠ 9 ∧ s.mode ≠ 10) →
          (∀ a, checkFails s b.staged = some a → exec (.bindInstant k) s =
            .next (settle (bindRefuse k (s.wr Reg.BND.FAIL_ADDR.VALUE a)))) ∧
          (checkFails s b.staged = none → exec (.bindInstant k) s = .next (settle (bindFollow s b.staged
            ((putAll b.staged (s.setBset k BindSet.empty)).setFlag Reg.HP.IRQ_STATUS.SRC 1 true)))))))

/-- Sensor links and samples (R91, R93, R94, R96, R103, R104, R113, R172): a good frame is taken and a bad one counted, with
a hold on each of its channels; eight bad ones lose the link, whose phases are verified anew when it is back; elements,
fields and lost inputs raise their faults; a sample gives each enabled channel its output.
The close of a quantum (R108, R109, R112 to R114, R131, R139, R142, R143): the source of each phase follows the
rules in order; an energy is rounded with its carry, which stays within half a unit; verification, return and the accuracy
test end as their counts say; a selection of harmonics clears VALID. -/
def Obligations.SamplesAndQuanta : Prop :=
  (∀ s : State, s.running = true →
    (∀ (n : Fin 16) bytes, (s.bit Reg.MET.STATUS.RUN = false ∨ s.bit (Reg.SLK.STATUS.LOST n) = true →
        exec (.slFrameReceived n bytes) s = .next (settle s)) ∧
      (s.bit Reg.MET.STATUS.RUN = true → s.bit (Reg.SLK.STATUS.LOST n) = false →
        (bytes.length = 80 → beAt bytes 0 2 = 0xA5C3 → beAt bytes 78 2 = crc16 ((bytes.drop 2).take 76) →
          exec (.slFrameReceived n bytes) s = .next (settle (linkTake n (beValue bytes) s))) ∧
        (¬ (bytes.length = 80 ∧ beAt bytes 0 2 = 0xA5C3 ∧ beAt bytes 78 2 = crc16 ((bytes.drop 2).take 76)) →
          ∀ u, u = (s.inc (Reg.SLK.CRC_ERR.COUNT n)).setLink n { s.link n with bad := (s.link n).bad + 1 } →
            exec (.slFrameReceived n bytes) s =
              .next (settle ((u.linkChannels n).foldl (fun s c => s.inc (Reg.MCH.ERRCNT.HOLDS c)) u))))) ∧
    (∀ n : Fin 16, (8 ≤ (s.link n).bad → s.bit (Reg.SLK.STATUS.LOST n) = false → exec (.slkLinkLost n) s = .next (settle
        (raiseCause 0x5302 n ((s.setB (Reg.SLK.STATUS.LOST n) true).setB (Reg.SLK.STATUS.LINK_UP n) false)))) ∧
      ((s.link n).bad < 8 ∨ s.bit (Reg.SLK.STATUS.LOST n) = true → exec (.slkLinkLost n) s = .next (settle s)) ∧
      (∀ u, s.bit (Reg.SLK.STATUS.LOST n) = true →
        u = (s.setB (Reg.SLK.STATUS.LOST n) false).setB (Reg.SLK.STATUS.LINK_UP n) true →
        exec (.slLinkRetry n true) s = .next (settle (srcFlags (linkPhases n linkBack
          (setCause 0x5302 n false (u.setLink n { u.link n with bad := 0 })))))) ∧
      (s.bit (Reg.SLK.STATUS.LOST n) = false → exec (.slLinkRetry n true) s = .next (settle s)) ∧
      exec (.slLinkRetry n false) s = .next (settle s)) ∧
    (∀ x : MetPh, (x.src = 1 → Nat.testBit x.cause 1 = true → putBit x.cause 1 false = 0 →
        linkBack x = { x with cause := 0, src := 2, agree := 0 }) ∧
      (x.src ≠ 1 → linkBack x = { x with cause := putBit x.cause 1 false })) ∧
    (∀ n : Fin 96, (s.bit Reg.MET.STATUS.RUN = true →
        exec (.mchBitstreamLost n) s = .next (settle (raiseCause 0x5101 n (mbLost n true s)))) ∧
      (s.bit Reg.MET.STATUS.RUN = false → exec (.mchBitstreamLost n) s = .next (settle s)) ∧
      exec (.mbInputRestored n) s = .next (settle (setCause 0x5101 n false (mbLost n false s)))) ∧
    (∀ (n : Fin 16) (e : Fin 32), (s.bit Reg.MET.STATUS.RUN = false → exec (.slkElement n e) s = .next (settle s)) ∧
      ∀ u, s.bit Reg.MET.STATUS.RUN = true →
        u = (s.setFlag (Reg.SLK.ELEM_FAIL.ELEM n) e true).setB (Reg.SLK.STATUS.ELEM_STK n) true →
        (s.rd (Reg.SLK.ELEM_FAIL.ELEM n) = 0 → exec (.slkElement n e) s = .next (settle (raiseCause 0x5304 n u))) ∧
        (s.rd (Reg.SLK.ELEM_FAIL.ELEM n) ≠ 0 → exec (.slkElement n e) s = .next (settle u))) ∧
    (∀ n : Fin 16, (s.bit Reg.MET.STATUS.RUN = false ∨ (s.link n).fieldBad = true →
        exec (.slkField n) s = .next (settle s)) ∧
      ∀ u v ut, s.bit Reg.MET.STATUS.RUN = true → (s.link n).fieldBad = false →
        u = raiseCause 0x5303 n ((s.setLink n { s.link n with fieldBad := true }).setB (Reg.SLK.STATUS.FIELD_STK n) true) →
        ut = u.rd (Reg.SLK.FIELD.UT n) → v = (u.setB Reg.TMP.STATUS.MAGNET true).setB Reg.TMP.STATUS.MAGNET_STK true →
        (u.linkMeter n = some 16 → exec (.slkField n) s =
          .next (settle (tamperApply 2 (tamperRecord 2 n 0 v.reading ut true v)))) ∧
        (u.linkMeter n ≠ some 16 → exec (.slkField n) s = .next (settle (tamperRecord 2 n 0 u.reading ut false u)))) ∧
    (∀ mb ain, (s.bit Reg.MET.STATUS.RUN = false → exec (.metrologySample mb ain) s = .next (settle s)) ∧
      ∀ p, s.bit Reg.MET.STATUS.RUN = true → p = (List.range 128).foldl (fun acc c => sampleChannel mb ain c acc) (s, []) →
        exec (.metrologySample mb ain) s = .next (settle { p.1 with met := { p.1.met with run := p.1.met.run ++ [p.2] } })) ∧
    (∀ mb ain c row, (Nat.testBit (s.inForce (0x100 + c) 0 4) 31 = false ∨ s.rawSample mb ain c = none →
      sampleChannel mb ain c (s, row) = (s, row)))) ∧
  (∀ s : State,
    (∀ d h, s.running = true → (s.bit Reg.MET.STATUS.RUN = true → exec (.quantumClose d h) s = .next (settle
        (closeQuantum s.sys.splitQ d h { s with sys := { s.sys with splitQ := false } }))) ∧
      (s.bit Reg.MET.STATUS.RUN = false → exec (.quantumClose d h) s = .next (settle s))) ∧
    (∀ part d h u, u = publishHarm h (srcFlags (resetCounts (fundClose (forEach 17 (fun m s =>
        if s.meterType m = 0 then s else closeMeter m part d s) (forEach 128 closeChannel (forEach 16 closeLink s)))))) →
      closeQuantum part d h s = { u with met := { u.met with
        nqLast := u.nq, partLast := part, run := [], test := u.met.test.map fun t => { t with quanta := t.quanta + 1 } } }) ∧
    (∀ pU rU tenth, decideSource 0 true rU false = (0, 5) ∧ decideSource 0 true true true = (1, 4) ∧
      decideSource 0 true false true = (0, 4) ∧ decideSource 1 true true tenth = (1, 2) ∧ decideSource 1 true false tenth = (0, 2) ∧
      decideSource 2 true true tenth = (1, 3) ∧ decideSource 2 true false tenth = (0, 3) ∧
      ∀ src, decideSource src false true tenth = (1, 1) ∧ decideSource src false false tenth = (2, 1) ∧
        (pU = true ∨ rU = true → (decideSource src pU rU tenth).1 < 2)) ∧
    (∀ m ph q, bookEnergy m ph q none s = (0, s) ∧ ∀ e x out u, x = e + mapGet (fun _ => (0 : Rat)) s.met.carry (carryKey m ph q) →
      bookEnergy m ph q (some e) s = (out, u) → out = roundHalfAway x ∧
        mapGet (fun _ => (0 : Rat)) u.met.carry (carryKey m ph q) = x - out ∧
        -(1 / 2) ≤ x - out ∧ x - out ≤ 1 / 2 ∧ u.regs = s.regs) ∧
    (∀ e : Int, (0 < e → direction e = 1) ∧ (e = 0 → direction e = 0) ∧ (e < 0 → direction e = 2)) ∧
    (∀ (m : Fin 17) (p : Fin 3) x, s.running = true → x = s.phase m p →
      (10 ≤ x.dis → exec (.metDisagree m p) s = .next (settle (raiseCause 0x5008 (4 * m.val + p.val) s))) ∧
      (x.dis < 10 → exec (.metDisagree m p) s = .next (settle s)) ∧
      (x.src = 2 → 10 ≤ x.agree → exec (.verificationEnd m p) s =
        .next (settle (srcFlags (s.setPhase m p { x with src := 0, agree := 0, dis := 0 })))) ∧
      (¬ (x.src = 2 ∧ 10 ≤ x.agree) → exec (.verificationEnd m p) s = .next (settle s)) ∧
      (x.src = 1 → x.cause = 1 → 600 ≤ x.agree → exec (.returnToPrimary m p) s = .next (settle (srcFlags
        (setCause 0x5008 (4 * m.val + p.val) false (s.setPhase m p { x with src := 0, cause := 0, agree := 0, dis := 0 }))))) ∧
      (¬ (x.src = 1 ∧ x.cause = 1 ∧ 600 ≤ x.agree) → exec (.returnToPrimary m p) s = .next (settle s))) ∧
    (∀ a, s.modeWrites = true → 1 ≤ s.level a → exec (.metTestStart a) s = .next (settle (accStart s))) ∧
    (s.running = true → (s.cfg 3 2 2 = 0xFFFF → exec .accuracyTestTime s = .next (settle s)) ∧
      (s.cfg 3 2 2 ≠ 0xFFFF → exec .accuracyTestTime s = .next (settle (accStart s)))) ∧
    (s.mode = 9 ∨ s.bit Reg.MET.TEST_STAT.RUNNING = true ∨ s.bit Reg.MET.STATUS.RUN = false → accStart s = s) ∧
    (∀ l, s.mode ≠ 9 → s.bit Reg.MET.TEST_STAT.RUNNING = false → s.bit Reg.MET.STATUS.RUN = true →
      l = ((List.range 68).filter fun i => s.meterType (i / 4) ≠ 0 && i % 4 < s.phases (i / 4) &&
        (s.reference (i / 4) (i % 4)).isSome && (s.phase (i / 4) (i % 4)).src = 0) →
      accStart s = ({ s with met := { s.met with test := some ⟨l.map fun i => (i, 0, 0, 0), 0⟩ } } : State).setB
        Reg.MET.TEST_STAT.RUNNING true) ∧
    (s.running = true → (s.met.test = none → exec .accuracyTestEnd s = .next (settle s)) ∧
      ∀ t, s.met.test = some t →
        (6000 ≤ t.quanta ∨ (∀ x ∈ t.phases, 600 ≤ x.2.1) → exec .accuracyTestEnd s = .next (settle (accEnd t s))) ∧
        (t.quanta < 6000 → (∃ x ∈ t.phases, x.2.1 < 600) → exec .accuracyTestEnd s = .next (settle s))) ∧
    (∀ (a : Agent) (cur : Bool) (ph : Fin 4) (m : Fin 32), s.modeWrites = true → exec (.hselWrite a cur ph m) s = .next (settle
      ((((s.setB Reg.MET.HSEL.CUR cur).wr Reg.MET.HSEL.PHASE ph).wr Reg.MET.HSEL.METER m).setB Reg.MET.HSEL.VALID false))))

/-- Tracking, supervision and power quality (R132 to R135, R145 to R149): each cycle moves its meter's tracker, clamped to 45
to 65 Hz, and joins the sums; the nominal frequency is set once; sequence, neutral and frequency raise their faults; events
open once, take in what follows, and end with a record. -/
def Obligations.TrackingAndPowerQuality : Prop :=
  ∀ s : State, s.running = true →
    (∀ (m : Fin 17) ang n vals, (s.bit Reg.MET.STATUS.RUN = false ∨ s.meterType m = 0 ∨ s.meterType m = 3 →
        exec (.trackerCycle m ang n vals) s = .next (settle s)) ∧
      (s.bit Reg.MET.STATUS.RUN = true → s.meterType m ≠ 0 → s.meterType m ≠ 3 → ∀ x before u, x = s.meter m →
        before = min n x.runUsed →
        u = s.setMeter m { trackCycle ang x with runUsed := x.runUsed - before, doneN := x.doneN + (n - before) } →
        exec (.trackerCycle m ang n vals) s = .next (settle (forEach 6 (fun i s => { s with met := { s.met with
          fund := mapSet (fun _ => FundSt.init) s.met.fund (fundKey m (i / 2) (i % 2))
            (fundCycle n before (vals.getD i CycSum.zero)
              (mapGet (fun _ => FundSt.init) s.met.fund (fundKey m (i / 2) (i % 2)))) } }) u)))) ∧
    (∀ ang (x : MeterSt), 45 ≤ (trackCycle ang x).fEst ∧ (trackCycle ang x).fEst ≤ 65 ∧ (trackCycle ang x).xPrev = ang ∧
      (trackCycle ang x).cyc = x.cyc ++ [x.fEst * (1 + (wrapTurn (ang - x.xPrev) : Rat) / 2 ^ 32)]) ∧
    (∀ d, -(2 ^ 31) < wrapTurn d ∧ wrapTurn d ≤ 2 ^ 31 ∧ wrapTurn d % 2 ^ 32 = d % 2 ^ 32) ∧
    (s.bit Reg.MET.STATUS.RUN = true → exec .metFreqRange s = .next (settle (raise 0x5010 16 s))) ∧
    (s.bit Reg.MET.STATUS.RUN = false → exec .metFreqRange s = .next (settle s)) ∧
    (∀ f, (s.bit Reg.MET.STATUS.RUN = true → s.rd Reg.MET.FNOM.HZ = 0 →
        exec (.fnomSet f) s = .next (settle (s.wr Reg.MET.FNOM.HZ (if f < 55000 then 50 else 60)))) ∧
      (s.bit Reg.MET.STATUS.RUN = false ∨ s.rd Reg.MET.FNOM.HZ ≠ 0 → exec (.fnomSet f) s = .next (settle s))) ∧
    (∀ m : Fin 17, (s.meterType m = 2 → 2 ≤ s.rd (Reg.MET.MQ.STATUS.SEQ m) → exec (.metPhaseSeq m) s =
        .next (settle (raise 0x5011 m (s.setB (Reg.MET.MQ.STATUS.SEQ_STK m) true)))) ∧
      (s.meterType m ≠ 2 ∨ s.rd (Reg.MET.MQ.STATUS.SEQ m) < 2 → exec (.metPhaseSeq m) s = .next (settle s)) ∧
      (s.meterType m = 2 → s.bit (Reg.MET.MQ.STATUS.NEUTRAL m) = false → exec (.metNeutralLost m) s = .next (settle
        (forEach 16 (fun n s => if (n = m.val || m.val = 16) && s.isAc n then outRamp n 12 s else s)
          (addDegr 0x5012 m true (raiseCause 0x5012 m
            ((s.setB (Reg.MET.MQ.STATUS.NEUTRAL m) true).setB (Reg.MET.MQ.STATUS.NEUT_STK m) true)))))) ∧
      (s.meterType m ≠ 2 ∨ s.bit (Reg.MET.MQ.STATUS.NEUTRAL m) = true → exec (.metNeutralLost m) s = .next (settle s)) ∧
      exec (.neutralRestored m) s = .next (settle (dropDegr 0x5012 m (setCause 0x5012 m false
        (s.setB (Reg.MET.MQ.STATUS.NEUTRAL m) false))))) ∧
    (∀ (m : Fin 17) rms ms, (s.bit Reg.MET.STATUS.RUN = true → s.flag Reg.MET.PQ_EN.EN m = true →
        s.meterType m = 1 ∨ s.meterType m = 2 → exec (.cycleRmsRefresh m rms ms) s = .next (settle (pqVoltage m rms ms s))) ∧
      (s.bit Reg.MET.STATUS.RUN = false ∨ s.flag Reg.MET.PQ_EN.EN m = false ∨ (s.meterType m ≠ 1 ∧ s.meterType m ≠ 2) →
        exec (.cycleRmsRefresh m rms ms) s = .next (settle s))) ∧
    (∀ (k : Fin 3) (m : Fin 17) (b : Bool) (ph : Fin 8) ext ms,
      (s.bit Reg.MET.STATUS.RUN = false ∨ s.flag Reg.MET.PQ_EN.EN m = false ∨ (k = 0 ∧ m ≠ 16) →
        exec (.pqSlowEvent k m b ph ext ms) s = .next (settle s)) ∧
      (s.bit Reg.MET.STATUS.RUN = true → s.flag Reg.MET.PQ_EN.EN m = true → (k = 0 → m = 16) →
        (∀ x, s.pqOpen m (0x1B + k.val) = some x → exec (.pqSlowEvent k m true ph ext ms) s = .next (settle s) ∧
          exec (.pqSlowEvent k m false ph ext ms) s =
            .next (settle (pqEnd { x with phases := Nat.lor x.phases ph, extreme := ext } 0 ms s))) ∧
        (s.pqOpen m (0x1B + k.val) = none → exec (.pqSlowEvent k m false ph ext ms) s = .next (settle s) ∧
          exec (.pqSlowEvent k m true ph ext ms) s = .next (settle (pqStart m (0x1B + k.val) ph ext ms s))))) ∧
    (∀ (x : PqOpen) fl ms, pqEnd x fl ms s = pqRecord x fl ms (pqDrop x.meter x.ty s) ∧
      (pqDrop x.meter x.ty s).pqOpen x.meter x.ty = none)

/-- The tariff engine and billing commands (R176, R191, R192, R196): an arming is refused with its result, or holds the
calendar with its bind set; a disarming frees it; a close waits for the boundary; a selection latches its value.
Credit and vouchers (R211 to R213, R216, R223 to R226, R231): requests wait for the boundary, submissions enter a FIFO of
16 or are refused with code 11, verification makes a voucher pending or refuses it, the fifth MAC failure locks short
codes; a grant adds the amount once, the site stop follows its rule, and a serial is accepted once. -/
def Obligations.BillingCommandsAndCredit : Prop :=
  (∀ (s : State) (a : Agent),
    (s.modeWrites = false → exec (.tarArm a) s = .next (settle s)) ∧
    (s.modeWrites = true → s.level a < 2 → exec (.tarArm a) s =
      .next (settle (raise 0x1601 1 (tarShow (s.wr Reg.TAR.STATUS.ARM_RESULT 1))))) ∧
    (s.modeWrites = true → 2 ≤ s.level a → ∀ cal act, cal = readBytes s.tar.passive 0 2048 → act = s.rd Reg.TAR.ACT_SEC.SEC →
      (s.tar.armed ≠ none → exec (.tarArm a) s = .next (settle (raise 0x1601 7 (tarShow (s.wr Reg.TAR.STATUS.ARM_RESULT 7))))) ∧
      (∀ n, s.tar.armed = none → calCheck cal = n → n ≠ 0 → exec (.tarArm a) s =
        .next (settle (raise 0x1601 n (tarShow (s.wr Reg.TAR.STATUS.ARM_RESULT n))))) ∧
      (s.tar.armed = none → calCheck cal = 0 → engineSet 2 2 0 act s = none → exec (.tarArm a) s =
        .next (settle (raise 0x1601 6 (tarShow (s.wr Reg.TAR.STATUS.ARM_RESULT 6))))) ∧
      (∀ u, s.tar.armed = none → calCheck cal = 0 → engineSet 2 2 0 act s = some u → exec (.tarArm a) s =
        .next (settle (tarShow (({ u with tar := { u.tar with armed := some (cal, act), armedNv := some (cal, act) } } : State).wr
          Reg.TAR.STATUS.ARM_RESULT 0))))) ∧
    (s.modeWrites = true → 2 ≤ s.level a →
      (s.tar.armed = none → exec (.tarDisarm a) s = .next (settle s)) ∧
      (s.tar.armed ≠ none → exec (.tarDisarm a) s = .next (settle (tarShow (freeOwner 2
        { s with tar := { s.tar with armed := none, armedNv := none } })))) ∧
      exec (.bilCloseGo a) s = .next (settle { s with tar := { s.tar with closeGo := true } })) ∧
    (∀ (h m : Fin 32) (q : Fin 64) (r : Fin 32) u v, s.modeWrites = true →
      u = (((s.wr Reg.BIL.SEL.HIST h).wr Reg.BIL.SEL.METER m).wr Reg.BIL.SEL.QTY q).wr Reg.BIL.SEL.RATE r →
      v = u.bilValue h m q r →
      exec (.bilSelWrite a h m q r) s = .next (settle
        ((((u.setB Reg.BIL.STATUS.SEL_ERR v.isNone).wr Reg.BIL.VAL_LO.VALUE (v.getD (0, 0)).1).wr Reg.BIL.VAL_HI.VALUE
          ((v.getD (0, 0)).1 / 2 ^ 32)).wr Reg.BIL.VAL_STAMP.STAMP (v.getD (0, 0)).2)))) ∧
  (∀ s : State,
    (∀ a, s.modeWrites = true → 1 ≤ s.level a →
      exec (.emergencyRequest a) s = .next (settle { s with crd := { s.crd with asked := s.crd.asked + 1 } }) ∧
      (∀ carrel tag : Fin 256, exec (.voucherSubmit a carrel tag) s = .next (settle (submit ⟨0, tag, carrel, false, s.vchIn⟩ s)) ∧
        exec (.shortCodeSubmit a tag) s = .next (settle (submit ⟨0, tag, 0xFF, true, s.vchDigits⟩ s)))) ∧
    (∀ x, (s.crd.fifo.length < 16 → submit x s = { s with crd := { s.crd with fifo := s.crd.fifo ++ [x] } }) ∧
      (16 ≤ s.crd.fifo.length → submit x s = voucherRefuse x 0 0 (if x.short then 0xFF else x.carrel) 11 s)) ∧
    (∀ (src : Fin 4) (tag carrel : Fin 256) short data,
      (s.mode < 3 ∨ s.running = false ∨ takeHead 9 s = none →
        exec (.voucherQueueSubmission src tag carrel short data) s = .next (settle s)) ∧
      (∀ i u, 3 ≤ s.mode → s.running = true → takeHead 9 s = some (i, u) →
        exec (.voucherQueueSubmission src tag carrel short data) s =
          .next (settle (submit ⟨if src = 0 then 1 else src, tag, carrel, short, data⟩ u)))) ∧
    (s.running = true → (exec (.crdBalanceRead true) s = .next (settle ((s.wr Reg.CRD.OWED_LO.VALUE s.crd.nv.owed).wr
        Reg.CRD.OWED_HI.VALUE (s.crd.nv.owed / 2 ^ 32))) ∧
      exec (.crdBalanceRead false) s = .next (settle ((s.wr Reg.CRD.SITE_LO.VALUE (ofInt 64 s.crd.nv.c)).wr
        Reg.CRD.SITE_HI.VALUE (ofInt 64 s.crd.nv.c / 2 ^ 32))))) ∧
    (s.running = false ∨ s.mode < 3 ∨ s.crd.fifo = [] → exec .voucherVerify s = .next (settle s)) ∧
    (∀ x r u code v, s.running = true → 3 ≤ s.mode → s.crd.fifo = x :: r → u = ({ s with crd := { s.crd with fifo := r } } : State) →
      (if x.short then shortCheck x u else voucherCheck x u) = (code, v) →
      (code = 0 → exec .voucherVerify s = .next (settle (voucherReport x.src x.tag 1
        { u with crd := { u.crd with pend := u.crd.pend ++ [v] } }))) ∧
      (code ≠ 0 → ∀ w, w = voucherRefuse x v.issuer v.serial (if v.kind = 2 then x.carrel else 0xFF) code u →
        (x.short = true → code = 7 → exec .voucherVerify s = .next (settle (macFailure w))) ∧
        (¬ (x.short = true ∧ code = 7) → exec .voucherVerify s = .next (settle w)))) ∧
    (∀ now l, now = s.rd Reg.PWR.OPSEC.SECONDS → l = (s.crd.macFails.filter fun t => now < t + 3600) ++ [now] →
      (l.length < 5 → macFailure s = { s with crd := { s.crd with macFails := l } }) ∧
      (5 ≤ l.length → macFailure s = raiseCause 0x5902 0 { s with crd := { s.crd with macFails := l, lockEnd := some (now + 3600) } })) ∧
    (s.running = true → (s.crd.lockEnd = none → exec .shortCodeLockoutEnd s = .next (settle s)) ∧
      ∀ t, s.crd.lockEnd = some t → (s.rd Reg.PWR.OPSEC.SECONDS < t → exec .shortCodeLockoutEnd s = .next (settle s)) ∧
        (t ≤ s.rd Reg.PWR.OPSEC.SECONDS → exec .shortCodeLockoutEnd s = .next (settle (setCause 0x5902 0 false
          { s with crd := { s.crd with lockEnd := none, macFails := [] } })))) ∧
    (s.canGrant = true ↔ s.crdCfg 0x18 8 ≠ 0 ∧ s.crd.nv.owed = 0 ∧ s.crd.nv.c < s.crdCfg 0x10 8) ∧
    (∀ t, t = emergGrant s → s.canGrant = true → t = raise 0x1803 0 ((setCrd { s.crd.nv with
        c := s.crd.nv.c + s.crdCfg 0x18 8, owed := s.crdCfg 0x18 8 } s).inc Reg.CRD.COUNTS.GRANTS)) ∧
    (∀ g, (s.crd.nv.stopped = true → g = false → s.crd.nv.c ≤ s.crdCfg 8 8 → siteStop g s = s) ∧
      (s.crd.nv.stopped = false → g = true ∨ s.stopRule = false → siteStop g s = s) ∧
      (s.crd.nv.stopped = true → g = true ∨ (s.crdCfg 8 8 : Int) < s.crd.nv.c → siteStop g s = discHs hsAuto (setCause 0x5802 0 false
        ((setCrd { s.crd.nv with stopped := false } s).setB Reg.CRD.STATUS.STOPPED false))) ∧
      (s.crd.nv.stopped = false → g = false → s.stopRule = true → siteStop g s = discHs hsForce (suspendAll 7 (raiseCause 0x5802 0
        ((((setCrd { s.crd.nv with stopped := true } s).setB Reg.CRD.STATUS.STOPPED true).setB Reg.CRD.STATUS.STOP_STK true).inc
          Reg.CRD.COUNTS.STOPS))))) ∧
    (∀ id serial, (∀ h, s.windowHigh id = some h → serial + 1023 < h → s.replayCode id serial = 9) ∧
      (∀ h, s.windowHigh id = some h → h < serial → s.replayCode id serial = 0) ∧
      (∀ h, s.windowHigh id = some h → serial ≤ h → h ≤ serial + 1023 → serial ∈ s.pendSerials id → s.replayCode id serial = 8)))

/-- Self-test and counters (R515, R517 to R519, R521, R522, R525 to R528): a group's end records its verdict, repairs and
retires; slices run in their modes on their grant; a spare repairs while one is free; a counter's wrap is marked and
sampled; its clear and its read need their level. -/
def Obligations.SelfTestsAndCounters : Prop :=
  ∀ s : State,
    (∀ (g : Fin 8) r, (s.running = false ∨ s.mode ≠ 2 ∨ (s.bist.lane0 ≠ some g.val ∧ s.bist.lane1 ≠ some g.val) →
        exec (.bistGroupDone g r) s = .next (settle s)) ∧
      (s.running = true → s.mode = 2 → s.bist.lane0 = some g.val ∨ s.bist.lane1 = some g.val → ∀ t u used left ok v w,
        t = (s.mapBist fun b => { b with lane0 := if b.lane0 = some g.val then none else b.lane0
                                         lane1 := if b.lane1 = some g.val then none else b.lane1 }).setFlag
          Reg.BIST.STATUS.TESTED g true →
        ok = (decide (r.misr = r.expected) && r.mbistOk) → repairAll r.fails t = (u, used, left) →
        v = left.foldl (fun s x => unrepairable x s) (goodCount g left (bistRecord 0 g (bistVerdict ok used left) used r u)) →
        w = (if ok = true then v else raise 0x8A11 g (v.setFlag Reg.BIST.STATUS.FAIL g true)) →
        (w.mode ≠ 2 → exec (.bistGroupDone g r) s =
          .next (settle (runShow (w.mapBist fun b => { b with lane0 := none, lane1 := none, todo := [] })))) ∧
        (w.mode = 2 → (lanesFill w).bist.lane0 = none → (lanesFill w).bist.lane1 = none →
          exec (.bistGroupDone g r) s = .next (settle (bistEnd (lanesFill w)))) ∧
        (w.mode = 2 → (lanesFill w).bist.lane0 ≠ none ∨ (lanesFill w).bist.lane1 ≠ none →
          exec (.bistGroupDone g r) s = .next (settle (lanesFill w))))) ∧
    (∀ x used, used = mapGet (fun _ => 0) s.bist.spares (failKey x) → (failRoom x ≤ used → repair x s = none) ∧
      (used < failRoom x → ∃ t, repair x s = some t ∧ mapGet (fun _ => 0) t.bist.spares (failKey x) = used + 1)) ∧
    (s.running = true → (s.slicesRun = true → exec .sliceStart s = .next (settle
        ((s.setB Reg.BIST.STATUS.SLICES true).mapBist fun b => { b with sliceDue := true }))) ∧
      (s.slicesRun = false → exec .sliceStart s = .next (settle (s.setB Reg.BIST.STATUS.SLICES false)))) ∧
    (∀ c b x, s.running = true → (s.slicesRun = false ∨ s.bist.sliceDue = false → exec (.sliceRun c b x) s = .next (settle s)) ∧
      (s.slicesRun = true → s.bist.sliceDue = true → ∀ t u pos, t = s.mapBist (fun b => { b with sliceDue := false }) →
        pos = t.rd Reg.BIST.SLICE.POS →
        u = (if pos + 1 < 1296 then t.wr Reg.BIST.SLICE.POS (pos + 1)
          else (t.wr Reg.BIST.SLICE.POS 0).inc Reg.BIST.SLICE.PASSES) →
        (∀ loc, b = some loc → exec (.sliceRun c b x) s = .next (settle (raise1 (eccCode .critical) loc 0 false u))) ∧
        (∀ v, b = none → v = (if c then raise 0x0801 0 u else u) →
          (x = none → exec (.sliceRun c b x) s = .next (settle v)) ∧
          (∀ y w used left, x = some y → repairAll [y] v = (w, used, left) →
            ∀ z, z = bistRecord 1 (sliceGroup pos) (bistVerdict true used left) used ⟨0, 0, true, [y], 0⟩ w →
            (left = [] → exec (.sliceRun c b x) s = .next (settle (raise1 0x0A01 y.loc 0 false z))) ∧
            (left ≠ [] → exec (.sliceRun c b x) s = .next (settle (unrepairable y z))))))) ∧
    (∀ (k : Fin 48) tick loc, (s.pmcOn k = false → exec (.pmcWrap k tick loc) s = .next (settle s)) ∧
      (s.pmcOn k = true → ∀ u, u = (if k.val < 32 then s.setFlag Reg.PMC.OVF_LO.OVF k true
          else s.setFlag Reg.PMC.OVF_HI.OVF (k.val - 32) true) →
        (u.bit (Reg.PMC.CFG.SAMPLE k) = false → exec (.pmcWrap k tick loc) s = .next (settle (u.wr (Reg.PMC.CNT_LO.COUNT k) 0))) ∧
        (u.bit (Reg.PMC.CFG.SAMPLE k) = true → ∀ p v evt core w, p = u.rd (Reg.PMC.PERIOD.PERIOD k) →
          v = u.wr (Reg.PMC.CNT_LO.COUNT k) (2 ^ 48 - (if p = 0 then 2 ^ 32 else p)) → evt = v.rd (Reg.PMC.CFG.EVT k) →
          core = (if evt < 40 then evt / 10 else v.rd (Reg.PMC.CFG.CORE k)) →
          w = (if v.qRefuses 16 then v.inc Reg.PMC.SAMPLES.DROPPED else v.inc Reg.PMC.SAMPLES.POSTED) →
          exec (.pmcWrap k tick loc) s = .next (settle (hwPost 16
            [k.val * 2 ^ 58 + core * 2 ^ 56 + evt * 2 ^ 48 + tick % 2 ^ 32, loc % 2 ^ 64] w))))) ∧
    (∀ a (k : Fin 48), s.modeWrites = true → 2 ≤ s.level a →
      exec (.pmcClr a k) s = .next (settle (s.wr (Reg.PMC.CNT_LO.COUNT k) 0))) ∧
    (∀ a (k : Fin 48) count tick, s.running = true →
      (2 ≤ s.level a ∨ (s.level a = 1 ∧ s.bit Reg.PMC.CTL.OPERATOR = true) → exec (.pmcCountRead a k count tick) s =
        .next (settle (((s.wr (Reg.PMC.CNT_LO.COUNT k) count).wr (Reg.PMC.CNT_HI.COUNT k) (count / 2 ^ 32)).wr
          Reg.PMC.TICK.TICK tick))) ∧
      (s.level a < 1 ∨ (s.level a = 1 ∧ s.bit Reg.PMC.CTL.OPERATOR = false) →
        exec (.pmcCountRead a k count tick) s = .next (settle s)))

/-- A voucher for the site (R217): a voucher applied at a boundary repays first, and all pending ones are applied in their
order. -/
def Obligations.SiteVouchersRepayFirst : Prop :=
  ∀ s : State, (∀ (v : Voucher) (r : Nat), v.kind = 1 → r = min s.crd.nv.owed v.amount →
      (voucherApply v s).crd.nv.c = s.crd.nv.c + v.amount - r ∧ (voucherApply v s).crd.nv.owed = s.crd.nv.owed - r) ∧
    vouchersApply s = s.crd.pend.foldl (fun s v => voucherApply v s) { s with crd := { s.crd with pend := [] } }

/-- A starved request (R47): a request of P4 or P5 not granted within 50 µs is counted in SYS.FAB_STATUS.STARVE and raises
SYS_FAB_STARVE, a Minor fault. -/
def Obligations.StarvedRequestIsCountedAndRaised : Prop :=
  faultClass 0x4001 = 1 ∧ ∀ (s : State) (port : Nat), s.running = true → (∃ r ∈ s.fab.waiting, r.port = port ∧ 4 ≤ r.cls) →
    exec (.sysFabStarve port) s = .next (settle (raise 0x4001 port (s.inc Reg.SYS.FAB_STATUS.STARVE))) ∧
    (s.rd Reg.SYS.FAB_STATUS.STARVE + 1 < 2 ^ Reg.SYS.FAB_STATUS.STARVE.w → (s.inc Reg.SYS.FAB_STATUS.STARVE).rd Reg.SYS.FAB_STATUS.STARVE =
      s.rd Reg.SYS.FAB_STATUS.STARVE + 1)
end

