-- ==== Sys2Proof/Laws/Store.lean ====
section
/-!
SUPPORT. Laws of the canonical association lists: a read after a write, and that every operation keeps the canonical
form.
-/
namespace Sys2Proof.Machine

variable {α : Type}

/-! ### A read after a write -/

theorem mapGet_mapIns_same (d : Nat → α) (m : SMap α) (k : Nat) (v : α) : mapGet d (mapIns m k v) k = v := by
  induction m with
  | nil => simp [mapIns, mapGet]
  | cons x r ih =>
    obtain ⟨k', v'⟩ := x
    unfold mapIns
    split
    · simp [mapGet]
    · split
      · simp [mapGet]
      · rename_i h
        simp [mapGet, h, ih]

theorem mapGet_mapIns_ne (d : Nat → α) (m : SMap α) {k j : Nat} (v : α) (h : j ≠ k) :
    mapGet d (mapIns m k v) j = mapGet d m j := by
  induction m with
  | nil => simp [mapIns, mapGet, h]
  | cons x r ih =>
    obtain ⟨k', v'⟩ := x
    unfold mapIns
    split
    · simp [mapGet, h]
    · split
      · rename_i h'
        subst h'
        simp [mapGet, h]
      · simp only [mapGet, ih]

theorem mapGet_mapDel_same (d : Nat → α) (m : SMap α) (k : Nat) : mapGet d (mapDel m k) k = d k := by
  induction m with
  | nil => rfl
  | cons x r ih =>
    obtain ⟨k', v'⟩ := x
    unfold mapDel
    split
    · exact ih
    · rename_i h
      simp [mapGet, h, ih]

theorem mapGet_mapDel_ne (d : Nat → α) (m : SMap α) {k j : Nat} (h : j ≠ k) :
    mapGet d (mapDel m k) j = mapGet d m j := by
  induction m with
  | nil => rfl
  | cons x r ih =>
    obtain ⟨k', v'⟩ := x
    unfold mapDel
    split
    · rename_i h'
      subst h'
      simp [mapGet, h, ih]
    · simp only [mapGet, ih]

variable [DecidableEq α]

/-- The value written is read back. -/
@[simp] theorem mapGet_mapSet_same (d : Nat → α) (m : SMap α) (k : Nat) (v : α) : mapGet d (mapSet d m k v) k = v := by
  unfold mapSet
  split
  · rename_i h
    rw [mapGet_mapDel_same, h]
  · exact mapGet_mapIns_same d m k v

/-- A write leaves every other key as it was. -/
theorem mapGet_mapSet_ne (d : Nat → α) (m : SMap α) {k j : Nat} (v : α) (h : j ≠ k) :
    mapGet d (mapSet d m k v) j = mapGet d m j := by
  unfold mapSet
  split
  · exact mapGet_mapDel_ne d m h
  · exact mapGet_mapIns_ne d m v h

/-- A write followed by a read of any key. -/
theorem mapGet_mapSet (d : Nat → α) (m : SMap α) (k j : Nat) (v : α) :
    mapGet d (mapSet d m k v) j = if j = k then v else mapGet d m j := by
  split
  · rename_i h
    subst h
    simp
  · rename_i h
    exact mapGet_mapSet_ne d m v h

/-! ### The canonical form -/

theorem mapWfFrom_le (d : Nat → α) {a b : Nat} (m : SMap α) (h : a ≤ b) (w : mapWfFrom d b m = true) :
    mapWfFrom d a m = true := by
  cases m with
  | nil => rfl
  | cons x r =>
    simp only [mapWfFrom, Bool.and_eq_true, decide_eq_true_eq] at w ⊢
    exact ⟨⟨le_trans h w.1.1, w.1.2⟩, w.2⟩

theorem mapWfFrom_del (d : Nat → α) (m : SMap α) (k : Nat) :
    ∀ lo, mapWfFrom d lo m = true → mapWfFrom d lo (mapDel m k) = true := by
  induction m with
  | nil => intro lo _; rfl
  | cons x r ih =>
    obtain ⟨k', v'⟩ := x
    intro lo w
    simp only [mapWfFrom, Bool.and_eq_true, decide_eq_true_eq] at w
    unfold mapDel
    split
    · exact mapWfFrom_le d _ (by omega) (ih (k' + 1) w.2)
    · simp only [mapWfFrom, Bool.and_eq_true, decide_eq_true_eq]
      exact ⟨w.1, ih (k' + 1) w.2⟩

theorem mapWfFrom_ins (d : Nat → α) (m : SMap α) (k : Nat) (v : α) (hv : v ≠ d k) :
    ∀ lo, lo ≤ k → mapWfFrom d lo m = true → mapWfFrom d lo (mapIns m k v) = true := by
  induction m with
  | nil => intro lo h _; simp [mapIns, mapWfFrom, h, hv]
  | cons x r ih =>
    obtain ⟨k', v'⟩ := x
    intro lo h w
    simp only [mapWfFrom, Bool.and_eq_true, decide_eq_true_eq] at w
    unfold mapIns
    split
    · rename_i hk
      simp only [mapWfFrom, Bool.and_eq_true, decide_eq_true_eq]
      exact ⟨⟨h, hv⟩, ⟨hk, w.1.2⟩, w.2⟩
    · split
      · rename_i hk
        subst hk
        simp only [mapWfFrom, Bool.and_eq_true, decide_eq_true_eq]
        exact ⟨⟨h, hv⟩, w.2⟩
      · simp only [mapWfFrom, Bool.and_eq_true, decide_eq_true_eq]
        exact ⟨w.1, ih (k' + 1) (by omega) w.2⟩

/-- Every write keeps the canonical form. -/
theorem mapWf_mapSet (d : Nat → α) (m : SMap α) (k : Nat) (v : α) (w : mapWf d m = true) :
    mapWf d (mapSet d m k v) = true := by
  unfold mapWf at *
  unfold mapSet
  split
  · exact mapWfFrom_del d m k 0 w
  · rename_i h
    exact mapWfFrom_ins d m k v h 0 (Nat.zero_le _) w

theorem mapGet_below (d : Nat → α) (m : SMap α) : ∀ lo k, mapWfFrom d lo m = true → k < lo → mapGet d m k = d k := by
  induction m with
  | nil => intro _ _ _ _; rfl
  | cons x r ih =>
    obtain ⟨k', v'⟩ := x
    intro lo k w h
    simp only [mapWfFrom, Bool.and_eq_true, decide_eq_true_eq] at w
    rw [mapGet, if_neg (by omega)]
    exact ih (k' + 1) k w.2 (by omega)

theorem mapExt_from (d : Nat → α) : ∀ (m n : SMap α) (lo : Nat), mapWfFrom d lo m = true → mapWfFrom d lo n = true →
    (∀ k, mapGet d m k = mapGet d n k) → m = n := by
  intro m
  induction m with
  | nil =>
    intro n lo _ wn h
    cases n with
    | nil => rfl
    | cons y r =>
      obtain ⟨k, v⟩ := y
      simp only [mapWfFrom, Bool.and_eq_true, decide_eq_true_eq] at wn
      have := h k
      simp [mapGet] at this
      exact absurd this.symm wn.1.2
  | cons x r ih =>
    obtain ⟨k, v⟩ := x
    intro n lo wm wn h
    have wm' := wm
    simp only [mapWfFrom, Bool.and_eq_true, decide_eq_true_eq] at wm
    cases n with
    | nil =>
      have := h k
      simp [mapGet] at this
      exact absurd this wm.1.2
    | cons y q =>
      obtain ⟨j, w⟩ := y
      have wn' := wn
      simp only [mapWfFrom, Bool.and_eq_true, decide_eq_true_eq] at wn
      have hkj : k = j := by
        rcases Nat.lt_trichotomy k j with hlt | heq | hgt
        · have h1 := h k
          have h2 : mapGet d q k = d k := mapGet_below d q (j + 1) k wn.2 (by omega)
          simp only [mapGet, if_true, if_neg (by omega : k ≠ j)] at h1
          exact absurd (h1.trans h2) wm.1.2
        · exact heq
        · have h1 := h j
          have h2 : mapGet d r j = d j := mapGet_below d r (k + 1) j wm.2 (by omega)
          simp only [mapGet, if_true, if_neg (by omega : j ≠ k)] at h1
          exact absurd (h1.symm.trans h2) wn.1.2
      subst hkj
      have hv : v = w := by
        have := h k
        simpa [mapGet] using this
      subst hv
      have : r = q := by
        refine ih q (k + 1) wm.2 wn.2 (fun i => ?_)
        by_cases hi : i = k
        · subst hi
          rw [mapGet_below d r (i + 1) i wm.2 (by omega), mapGet_below d q (i + 1) i wn.2 (by omega)]
        · have := h i
          simpa [mapGet, hi] using this
      rw [this]

/-- Equal contents are equal lists. -/
theorem mapExt (d : Nat → α) (m n : SMap α) (wm : mapWf d m = true) (wn : mapWf d n = true)
    (h : ∀ k, mapGet d m k = mapGet d n k) : m = n := mapExt_from d m n 0 wm wn h

/-! ### Bytes -/

/-- A byte written is read back; every other byte is as it was. -/
theorem readByte_writeByte (m : Bytes) (a b : Nat) (v : Byte) :
    readByte (writeByte m a v) b = if b = a then v else readByte m b := mapGet_mapSet _ _ _ _ _

/-- Bytes outside those written are as they were. -/
theorem readByte_writeBytes_out (l : List Byte) : ∀ (m : Bytes) (a b : Nat), (b < a ∨ a + l.length ≤ b) →
    readByte (writeBytes m a l) b = readByte m b := by
  induction l with
  | nil => intro m a b _; rfl
  | cons v l ih =>
    intro m a b h
    simp only [List.length_cons] at h
    rw [writeBytes, ih (writeByte m a v) (a + 1) b (by omega), readByte_writeByte, if_neg (by omega)]

/-- The bytes written are read back. -/
theorem readBytes_writeBytes (l : List Byte) : ∀ (m : Bytes) (a : Nat),
    readBytes (writeBytes m a l) a l.length = l := by
  induction l with
  | nil => intro m a; rfl
  | cons v l ih =>
    intro m a
    simp only [List.length_cons, readBytes, writeBytes]
    rw [ih, readByte_writeBytes_out l _ _ _ (by omega), readByte_writeByte, if_pos rfl]

/-- Writing bytes keeps the canonical form. -/
theorem mapWf_writeBytes (l : List Byte) : ∀ (m : Bytes) (a : Nat), mapWf byteDefault m = true →
    mapWf byteDefault (writeBytes m a l) = true := by
  induction l with
  | nil => intro m a h; exact h
  | cons v l ih => intro m a h; exact ih _ _ (mapWf_mapSet _ _ _ _ h)

end Sys2Proof.Machine
end

