-- ==== Sys2Proof/Laws/State.lean ====
section
/-!
SUPPORT. Laws of reading and writing register fields and queues: what a write changes, and that it changes nothing else.
-/
namespace Sys2Proof.Machine

/-! ### Register fields -/

/-- The field written reads as the value cut to its width. -/
@[simp] theorem rd_wr_same (s : State) (f : Fld) (v : Nat) : (s.wr f v).rd f = v % 2 ^ f.w :=
  mapGet_mapSet_same _ _ _ _

/-- A write leaves every other field as it was. -/
theorem rd_wr_ne (s : State) (f g : Fld) (v : Nat) (h : g.key ≠ f.key) : (s.wr f v).rd g = s.rd g :=
  mapGet_mapSet_ne _ _ _ h

/-- A write followed by a read of any field. -/
theorem rd_wr (s : State) (f g : Fld) (v : Nat) :
    (s.wr f v).rd g = if g.key = f.key then v % 2 ^ f.w else s.rd g := mapGet_mapSet _ _ _ _ _

/-- A write of a field keeps the register file canonical. -/
theorem regs_wr_wf (s : State) (f : Fld) (v : Nat) (h : mapWf resetVal s.regs = true) :
    mapWf resetVal (s.wr f v).regs = true := mapWf_mapSet _ _ _ _ h

/-- The same two laws of the register file itself. -/
theorem RegFile.rd_wr_same (r : RegFile) (f : Fld) (v : Nat) : (r.wr f v).rd f = v % 2 ^ f.w := mapGet_mapSet_same _ _ _ _

theorem RegFile.rd_wr_ne (r : RegFile) (f g : Fld) (v : Nat) (h : g.key ≠ f.key) : (r.wr f v).rd g = r.rd g :=
  mapGet_mapSet_ne _ _ _ h

/-- A field reads the same in two states with the same register file. -/
theorem rd_congr {s t : State} (h : t.regs = s.regs) (f : Fld) : t.rd f = s.rd f := by
  unfold State.rd
  rw [h]

theorem setB_eq (s : State) (f : Fld) (b : Bool) : s.setB f b = s.wr f (b2n b) := rfl

theorem inc_eq (s : State) (f : Fld) : s.inc f = s.wr f (min (2 ^ f.w - 1) (s.rd f + 1)) := rfl

theorem setFlag_eq (s : State) (f : Fld) (n : Nat) (b : Bool) : s.setFlag f n b = s.wr f (putBit (s.rd f) n b) := rfl

/-- A one-bit field written reads back. -/
theorem bit_setB_same (s : State) (f : Fld) (b : Bool) (h : f.w = 1) : (s.setB f b).bit f = b := by
  cases b <;> simp [State.bit, State.setB, h, b2n]

/-- A write of a bit leaves every other field as it was. -/
theorem rd_setB_ne (s : State) (f g : Fld) (b : Bool) (h : g.key ≠ f.key) : (s.setB f b).rd g = s.rd g :=
  rd_wr_ne s f g _ h

@[simp] theorem wr_free (s : State) (f : Fld) (v : Nat) : (s.wr f v).free = s.free := rfl
@[simp] theorem wr_pending (s : State) (f : Fld) (v : Nat) : (s.wr f v).pending = s.pending := rfl
@[simp] theorem wr_sys (s : State) (f : Fld) (v : Nat) : (s.wr f v).sys = s.sys := rfl
@[simp] theorem wr_cat (s : State) (f : Fld) (v : Nat) : (s.wr f v).cat = s.cat := rfl
@[simp] theorem wr_flt (s : State) (f : Fld) (v : Nat) : (s.wr f v).flt = s.flt := rfl
@[simp] theorem wr_evr (s : State) (f : Fld) (v : Nat) : (s.wr f v).evr = s.evr := rfl
@[simp] theorem wr_qs (s : State) (f : Fld) (v : Nat) : (s.wr f v).qs = s.qs := rfl
@[simp] theorem wr_hostPort (s : State) (f : Fld) (v : Nat) : (s.wr f v).hostPort = s.hostPort := rfl
@[simp] theorem wr_rtPort (s : State) (f : Fld) (v : Nat) : (s.wr f v).rtPort = s.rtPort := rfl
@[simp] theorem wr_hp (s : State) (f : Fld) (v : Nat) : (s.wr f v).hp = s.hp := rfl
@[simp] theorem wr_sets (s : State) (f : Fld) (v : Nat) : (s.wr f v).sets = s.sets := rfl
@[simp] theorem wr_bindNo (s : State) (f : Fld) (v : Nat) : (s.wr f v).bindNo = s.bindNo := rfl
@[simp] theorem wr_fab (s : State) (f : Fld) (v : Nat) : (s.wr f v).fab = s.fab := rfl
@[simp] theorem wr_outs (s : State) (f : Fld) (v : Nat) : (s.wr f v).outs = s.outs := rfl
@[simp] theorem wr_crl (s : State) (f : Fld) (v : Nat) : (s.wr f v).crl = s.crl := rfl
@[simp] theorem wr_vpl (s : State) (f : Fld) (v : Nat) : (s.wr f v).vpl = s.vpl := rfl
@[simp] theorem wr_fft (s : State) (f : Fld) (v : Nat) : (s.wr f v).fft = s.fft := rfl
@[simp] theorem wr_bbn (s : State) (f : Fld) (v : Nat) : (s.wr f v).bbn = s.bbn := rfl
@[simp] theorem wr_dpy (s : State) (f : Fld) (v : Nat) : (s.wr f v).dpy = s.dpy := rfl
@[simp] theorem wr_bdy (s : State) (f : Fld) (v : Nat) : (s.wr f v).bdy = s.bdy := rfl
@[simp] theorem wr_lsw (s : State) (f : Fld) (v : Nat) : (s.wr f v).lsw = s.lsw := rfl
@[simp] theorem wr_saf (s : State) (f : Fld) (v : Nat) : (s.wr f v).saf = s.saf := rfl
@[simp] theorem wr_tmp (s : State) (f : Fld) (v : Nat) : (s.wr f v).tmp = s.tmp := rfl
@[simp] theorem wr_met (s : State) (f : Fld) (v : Nat) : (s.wr f v).met = s.met := rfl
@[simp] theorem wr_per (s : State) (f : Fld) (v : Nat) : (s.wr f v).per = s.per := rfl
@[simp] theorem wr_rtc (s : State) (f : Fld) (v : Nat) : (s.wr f v).rtc = s.rtc := rfl
@[simp] theorem wr_bil (s : State) (f : Fld) (v : Nat) : (s.wr f v).bil = s.bil := rfl
@[simp] theorem wr_tar (s : State) (f : Fld) (v : Nat) : (s.wr f v).tar = s.tar := rfl
@[simp] theorem wr_crd (s : State) (f : Fld) (v : Nat) : (s.wr f v).crd = s.crd := rfl
@[simp] theorem wr_key (s : State) (f : Fld) (v : Nat) : (s.wr f v).key = s.key := rfl
@[simp] theorem wr_upd (s : State) (f : Fld) (v : Nat) : (s.wr f v).upd = s.upd := rfl
@[simp] theorem wr_nfc (s : State) (f : Fld) (v : Nat) : (s.wr f v).nfc = s.nfc := rfl
@[simp] theorem wr_bist (s : State) (f : Fld) (v : Nat) : (s.wr f v).bist = s.bist := rfl
@[simp] theorem wr_pushed (s : State) (f : Fld) (v : Nat) : (s.wr f v).pushed = s.pushed := rfl
@[simp] theorem wr_moved (s : State) (f : Fld) (v : Nat) : (s.wr f v).moved = s.moved := rfl

@[simp] theorem setB_free (s : State) (f : Fld) (b : Bool) : (s.setB f b).free = s.free := rfl
@[simp] theorem setB_pending (s : State) (f : Fld) (b : Bool) : (s.setB f b).pending = s.pending := rfl
@[simp] theorem setB_sys (s : State) (f : Fld) (b : Bool) : (s.setB f b).sys = s.sys := rfl
@[simp] theorem setB_cat (s : State) (f : Fld) (b : Bool) : (s.setB f b).cat = s.cat := rfl
@[simp] theorem setB_flt (s : State) (f : Fld) (b : Bool) : (s.setB f b).flt = s.flt := rfl
@[simp] theorem setB_evr (s : State) (f : Fld) (b : Bool) : (s.setB f b).evr = s.evr := rfl
@[simp] theorem setB_qs (s : State) (f : Fld) (b : Bool) : (s.setB f b).qs = s.qs := rfl
@[simp] theorem setB_hostPort (s : State) (f : Fld) (b : Bool) : (s.setB f b).hostPort = s.hostPort := rfl
@[simp] theorem setB_rtPort (s : State) (f : Fld) (b : Bool) : (s.setB f b).rtPort = s.rtPort := rfl
@[simp] theorem setB_hp (s : State) (f : Fld) (b : Bool) : (s.setB f b).hp = s.hp := rfl
@[simp] theorem setB_sets (s : State) (f : Fld) (b : Bool) : (s.setB f b).sets = s.sets := rfl
@[simp] theorem setB_bindNo (s : State) (f : Fld) (b : Bool) : (s.setB f b).bindNo = s.bindNo := rfl
@[simp] theorem setB_fab (s : State) (f : Fld) (b : Bool) : (s.setB f b).fab = s.fab := rfl
@[simp] theorem setB_outs (s : State) (f : Fld) (b : Bool) : (s.setB f b).outs = s.outs := rfl
@[simp] theorem setB_crl (s : State) (f : Fld) (b : Bool) : (s.setB f b).crl = s.crl := rfl
@[simp] theorem setB_vpl (s : State) (f : Fld) (b : Bool) : (s.setB f b).vpl = s.vpl := rfl
@[simp] theorem setB_fft (s : State) (f : Fld) (b : Bool) : (s.setB f b).fft = s.fft := rfl
@[simp] theorem setB_bbn (s : State) (f : Fld) (b : Bool) : (s.setB f b).bbn = s.bbn := rfl
@[simp] theorem setB_dpy (s : State) (f : Fld) (b : Bool) : (s.setB f b).dpy = s.dpy := rfl
@[simp] theorem setB_bdy (s : State) (f : Fld) (b : Bool) : (s.setB f b).bdy = s.bdy := rfl
@[simp] theorem setB_lsw (s : State) (f : Fld) (b : Bool) : (s.setB f b).lsw = s.lsw := rfl
@[simp] theorem setB_saf (s : State) (f : Fld) (b : Bool) : (s.setB f b).saf = s.saf := rfl
@[simp] theorem setB_tmp (s : State) (f : Fld) (b : Bool) : (s.setB f b).tmp = s.tmp := rfl
@[simp] theorem setB_met (s : State) (f : Fld) (b : Bool) : (s.setB f b).met = s.met := rfl
@[simp] theorem setB_per (s : State) (f : Fld) (b : Bool) : (s.setB f b).per = s.per := rfl
@[simp] theorem setB_rtc (s : State) (f : Fld) (b : Bool) : (s.setB f b).rtc = s.rtc := rfl
@[simp] theorem setB_bil (s : State) (f : Fld) (b : Bool) : (s.setB f b).bil = s.bil := rfl
@[simp] theorem setB_tar (s : State) (f : Fld) (b : Bool) : (s.setB f b).tar = s.tar := rfl
@[simp] theorem setB_crd (s : State) (f : Fld) (b : Bool) : (s.setB f b).crd = s.crd := rfl
@[simp] theorem setB_key (s : State) (f : Fld) (b : Bool) : (s.setB f b).key = s.key := rfl
@[simp] theorem setB_upd (s : State) (f : Fld) (b : Bool) : (s.setB f b).upd = s.upd := rfl
@[simp] theorem setB_nfc (s : State) (f : Fld) (b : Bool) : (s.setB f b).nfc = s.nfc := rfl
@[simp] theorem setB_bist (s : State) (f : Fld) (b : Bool) : (s.setB f b).bist = s.bist := rfl
@[simp] theorem setB_pushed (s : State) (f : Fld) (b : Bool) : (s.setB f b).pushed = s.pushed := rfl
@[simp] theorem setB_moved (s : State) (f : Fld) (b : Bool) : (s.setB f b).moved = s.moved := rfl

@[simp] theorem inc_free (s : State) (f : Fld) : (s.inc f).free = s.free := rfl
@[simp] theorem inc_pending (s : State) (f : Fld) : (s.inc f).pending = s.pending := rfl
@[simp] theorem inc_sys (s : State) (f : Fld) : (s.inc f).sys = s.sys := rfl
@[simp] theorem inc_cat (s : State) (f : Fld) : (s.inc f).cat = s.cat := rfl
@[simp] theorem inc_flt (s : State) (f : Fld) : (s.inc f).flt = s.flt := rfl
@[simp] theorem inc_evr (s : State) (f : Fld) : (s.inc f).evr = s.evr := rfl
@[simp] theorem inc_qs (s : State) (f : Fld) : (s.inc f).qs = s.qs := rfl
@[simp] theorem inc_hostPort (s : State) (f : Fld) : (s.inc f).hostPort = s.hostPort := rfl
@[simp] theorem inc_rtPort (s : State) (f : Fld) : (s.inc f).rtPort = s.rtPort := rfl
@[simp] theorem inc_hp (s : State) (f : Fld) : (s.inc f).hp = s.hp := rfl
@[simp] theorem inc_sets (s : State) (f : Fld) : (s.inc f).sets = s.sets := rfl
@[simp] theorem inc_bindNo (s : State) (f : Fld) : (s.inc f).bindNo = s.bindNo := rfl
@[simp] theorem inc_fab (s : State) (f : Fld) : (s.inc f).fab = s.fab := rfl
@[simp] theorem inc_outs (s : State) (f : Fld) : (s.inc f).outs = s.outs := rfl
@[simp] theorem inc_crl (s : State) (f : Fld) : (s.inc f).crl = s.crl := rfl
@[simp] theorem inc_vpl (s : State) (f : Fld) : (s.inc f).vpl = s.vpl := rfl
@[simp] theorem inc_fft (s : State) (f : Fld) : (s.inc f).fft = s.fft := rfl
@[simp] theorem inc_bbn (s : State) (f : Fld) : (s.inc f).bbn = s.bbn := rfl
@[simp] theorem inc_dpy (s : State) (f : Fld) : (s.inc f).dpy = s.dpy := rfl
@[simp] theorem inc_bdy (s : State) (f : Fld) : (s.inc f).bdy = s.bdy := rfl
@[simp] theorem inc_lsw (s : State) (f : Fld) : (s.inc f).lsw = s.lsw := rfl
@[simp] theorem inc_saf (s : State) (f : Fld) : (s.inc f).saf = s.saf := rfl
@[simp] theorem inc_tmp (s : State) (f : Fld) : (s.inc f).tmp = s.tmp := rfl
@[simp] theorem inc_met (s : State) (f : Fld) : (s.inc f).met = s.met := rfl
@[simp] theorem inc_per (s : State) (f : Fld) : (s.inc f).per = s.per := rfl
@[simp] theorem inc_rtc (s : State) (f : Fld) : (s.inc f).rtc = s.rtc := rfl
@[simp] theorem inc_bil (s : State) (f : Fld) : (s.inc f).bil = s.bil := rfl
@[simp] theorem inc_tar (s : State) (f : Fld) : (s.inc f).tar = s.tar := rfl
@[simp] theorem inc_crd (s : State) (f : Fld) : (s.inc f).crd = s.crd := rfl
@[simp] theorem inc_key (s : State) (f : Fld) : (s.inc f).key = s.key := rfl
@[simp] theorem inc_upd (s : State) (f : Fld) : (s.inc f).upd = s.upd := rfl
@[simp] theorem inc_nfc (s : State) (f : Fld) : (s.inc f).nfc = s.nfc := rfl
@[simp] theorem inc_bist (s : State) (f : Fld) : (s.inc f).bist = s.bist := rfl
@[simp] theorem inc_pushed (s : State) (f : Fld) : (s.inc f).pushed = s.pushed := rfl
@[simp] theorem inc_moved (s : State) (f : Fld) : (s.inc f).moved = s.moved := rfl

@[simp] theorem wr_q (s : State) (f : Fld) (v n : Nat) : (s.wr f v).q n = s.q n := rfl
@[simp] theorem setB_q (s : State) (f : Fld) (b : Bool) (n : Nat) : (s.setB f b).q n = s.q n := rfl
@[simp] theorem inc_q (s : State) (f : Fld) (n : Nat) : (s.inc f).q n = s.q n := rfl

/-- The mode changes only by a write of MODE.STATUS.MODE. -/
theorem mode_wr (s : State) (f : Fld) (v : Nat) (h : Reg.MODE.STATUS.MODE.key ≠ f.key) : (s.wr f v).mode = s.mode :=
  rd_wr_ne s f _ v h

/-! ### Queues -/

/-- The queue replaced is read back. -/
@[simp] theorem q_setQ_same (s : State) (n : Nat) (x : Queue) : (s.setQ n x).q n = x := mapGet_mapSet_same _ _ _ _

/-- Another queue is as it was. -/
theorem q_setQ_ne (s : State) (n m : Nat) (x : Queue) (h : m ≠ n) : (s.setQ n x).q m = s.q m :=
  mapGet_mapSet_ne _ _ _ h

/-- A queue replaced leaves every register field as it was. -/
@[simp] theorem rd_setQ (s : State) (n : Nat) (x : Queue) (f : Fld) : (s.setQ n x).rd f = s.rd f := rfl

/-- The spill moves an item and leaves the level as it was. -/
@[simp] theorem level_spill (x : Queue) : x.spill.level = x.level := by
  unfold Queue.spill Queue.level
  cases h : x.tail <;> simp [h] <;> omega

/-- The refill moves an item and leaves the level as it was. -/
@[simp] theorem level_refill (x : Queue) : x.refill.level = x.level := by
  unfold Queue.refill Queue.level
  cases h : x.annex with
  | nil => simp [h]
  | cons i r =>
    by_cases hc : x.chain.length < 8
    · simp [hc]
      omega
    · simp [hc, h]

/-- A queue whose tail register is empty takes one more item. -/
theorem level_put (x : Queue) (i : Item) (h : x.tail = none) : (x.put i).level = x.level + 1 := by
  unfold Queue.put Queue.level
  split
  · simp [h]
    omega
  · simp [h]

end Sys2Proof.Machine
end

