-- ==== Sys2Proof/Laws/Books.lean ====
section
/-!
SUPPORT. What a record, a queue item and a fault of class Notice or Minor change: the books of the collector, the recorder
and the queues, and nothing else.
-/
namespace Sys2Proof.Machine

/-- `Booked`, with what it keeps of the waiting faults: nothing above Minor comes to wait. -/
structure Books (s t : State) : Prop where
  booked : Booked s t
  todo : MinorTodo s → MinorTodo t

theorem SameRegs.refl (b : Nat → Bool) (s : State) : SameRegs b s s := fun _ _ _ => rfl

theorem SameRegs.trans {b : Nat → Bool} {s t u : State} (h : SameRegs b s t) (k : SameRegs b t u) : SameRegs b s u :=
  fun f l hb => (k f l hb).trans (h f l hb)

theorem Booked.refl (s : State) : Booked s s := ⟨SameRegs.refl _ s, rfl⟩

theorem Booked.trans {s t u : State} (h : Booked s t) (k : Booked t u) : Booked s u :=
  ⟨h.regs.trans k.regs, k.rest.trans h.rest⟩

theorem Books.refl (s : State) : Books s s := ⟨Booked.refl s, id⟩

theorem Books.trans {s t u : State} (h : Books s t) (k : Books t u) : Books s u :=
  ⟨h.booked.trans k.booked, fun m => k.todo (h.todo m)⟩

/-- Fields of different words have different keys. -/
theorem key_ne {f g : Fld} (hf : f.lo < 32) (hg : g.lo < 32) (h : f.addr ≠ g.addr) : f.key ≠ g.key := by
  simp only [Fld.key]
  omega

/-- A write of a field of a block of the set. -/
theorem SameRegs.wr {b : Nat → Bool} (s : State) (g : Fld) (v : Nat) (hb : b (g.addr / 4096) = true) (hl : g.lo < 32) :
    SameRegs b s (s.wr g v) := fun f l hf =>
  rd_wr_ne s g f v (key_ne l hl (fun h => by rw [h, hb] at hf; exact absurd hf (by decide)))

theorem Books.wr (s : State) (g : Fld) (v : Nat) (hb : bookBlock (g.addr / 4096) = true) (hl : g.lo < 32) :
    Books s (s.wr g v) := ⟨⟨SameRegs.wr s g v hb hl, rfl⟩, id⟩

theorem Books.andWr {s t : State} (h : Books s t) (g : Fld) (v : Nat) (hb : bookBlock (g.addr / 4096) = true)
    (hl : g.lo < 32) : Books s (t.wr g v) := h.trans (Books.wr t g v hb hl)

theorem Books.andSetB {s t : State} (h : Books s t) (g : Fld) (v : Bool) (hb : bookBlock (g.addr / 4096) = true)
    (hl : g.lo < 32) : Books s (t.setB g v) := h.andWr g _ hb hl

theorem Books.andInc {s t : State} (h : Books s t) (g : Fld) (hb : bookBlock (g.addr / 4096) = true)
    (hl : g.lo < 32) : Books s (t.inc g) := h.andWr g _ hb hl

theorem Books.of (s t : State) (hr : t.regs = s.regs) (hu : t.unbooked = s.unbooked)
    (ht : MinorTodo s → MinorTodo t) : Books s t := ⟨⟨fun f _ _ => rd_congr hr f, hu⟩, ht⟩

theorem books_setQ (s : State) (n : Nat) (x : Queue) : Books s (s.setQ n x) := Books.of _ _ rfl rfl id

theorem books_recMs (s : State) : Books s s.recMs.2 := Books.of _ _ rfl rfl id

/-- The fields of a queue's own registers lie in block Q. -/
theorem qBlock {a i : Nat} (ha : 0x6000 ≤ a ∧ a < 0x6020) (h : i < 32) : bookBlock ((a + 0x20 * i) / 4096) = true := by
  have : (a + 0x20 * i) / 4096 = 6 := by omega
  rw [this]
  rfl

theorem books_crossing (s : State) (n was : Nat) (h : n < 32) : Books s (s.crossing n was) := by
  unfold State.crossing
  dsimp only
  split
  · exact ((((books_recMs s).andSetB (Reg.Q.STATUS.WM_STK n) true (qBlock (by decide) h) (by simp)).andWr
      (Reg.Q.WM_CAP.LEVEL n) _ (qBlock (by decide) h) (by simp)).andWr (Reg.Q.WM_CAP.MS n) _ (qBlock (by decide) h)
      (by simp)).andWr (Reg.Q.WM_TIME.OPSEC n) _ (qBlock (by decide) h) (by simp)
  · exact Books.refl s

theorem books_qAccept (s : State) (n : Nat) (i : Item) (h : n < 32) : Books s (s.qAccept n i) :=
  Books.trans (books_setQ s n _) (books_crossing _ n _ h)

theorem minorTodo_append {s : State} (x : Nat × Nat) (hx : faultClass x.1 ≤ 1) (t : State)
    (ht : t.flt.todo = s.flt.todo ++ [x]) (h : MinorTodo s) : MinorTodo t := by
  intro y hy
  rw [ht, List.mem_append, List.mem_singleton] at hy
  rcases hy with hy | hy
  · exact h y hy
  · rw [hy]; exact hx

theorem books_hwPush0 (s : State) (n : Nat) (i : Item) (h3 : 3 ≤ n) (h : n < 32) : Books s (s.hwPush0 n i) := by
  have hpre : ∀ s : State, Books s (if s.pushed.contains n then s.setQ n (s.q n).spill else s) := by
    intro s
    split
    · exact books_setQ _ _ _
    · exact Books.refl _
  unfold State.hwPush0
  dsimp only
  refine Books.trans (hpre s) ?_
  generalize (if s.pushed.contains n then s.setQ n (s.q n).spill else s) = t
  refine Books.trans (Books.of t { t with pushed := n :: t.pushed } rfl rfl id) ?_
  generalize ({ t with pushed := n :: t.pushed } : State) = u
  split
  · refine Books.trans (((Books.refl u).andInc (Reg.Q.COUNTS.DROPS n) (qBlock (by decide) h) (by simp)).andSetB
      (Reg.Q.STATUS.DROP_STK n) true (qBlock (by decide) h) (by simp)) ?_
    rw [if_neg (by omega)]
    split
    · exact Books.of _ _ rfl rfl (minorTodo_append (0x0601, n) (show faultClass 0x0601 ≤ 1 by decide) _ rfl)
    · exact Books.refl _
  · exact books_qAccept u n i h

/-! ### Records -/

theorem books_takeRno (s : State) : Books s s.takeRno.2 := by
  unfold State.takeRno
  dsimp only
  have h0 : ∀ n, Books s (if s.evr.rnoMark ≤ n then
      { s with evr := { s.evr with rnoMark := s.evr.rnoMark + 1024 } } else s) := by
    intro n
    split
    · exact Books.of _ _ rfl rfl id
    · exact Books.refl _
  have h := h0 (s.rd Reg.EVR.NEXT_RNO.RNO)
  dsimp only at h
  revert h
  generalize (ite (s.evr.rnoMark ≤ s.rd Reg.EVR.NEXT_RNO.RNO) _ s) = u
  intro h
  refine Books.trans h ?_
  refine Books.trans (Books.wr u Reg.EVR.NEXT_RNO.RNO (s.rd Reg.EVR.NEXT_RNO.RNO + 1) (by decide) (by decide)) ?_
  split
  · exact Books.wr _ Reg.EVR.STATUS.ACC_FULL _ (by decide) (by decide)
  · exact Books.refl _

theorem books_recPut (s : State) (r : Rec) : Books s (s.recPut r) :=
  Books.trans (books_setQ s 15 _) (books_qAccept _ 15 _ (by decide))

theorem books_lose (s : State) : Books s
    { (s.inc Reg.EVR.LOST.COUNT).setB Reg.EVR.STATUS.LOST_STK true with
      evr := { s.evr with lostSince := s.evr.lostSince + 1 } } :=
  (((Books.refl s).andInc Reg.EVR.LOST.COUNT (by decide) (by decide)).andSetB Reg.EVR.STATUS.LOST_STK true (by decide)
    (by decide)).trans (Books.of _ _ rfl rfl id)

/-- A record that is not legally relevant changes the books only (R501 to R505, R508). -/
theorem books_record (s : State) (ty payload : Nat) : Books s (s.record ty payload false) := by
  unfold State.record
  dsimp only
  refine Books.trans (books_recMs s) ?_
  split
  · split
    · exact books_lose _
    · exact books_recPut _ _
  · rw [if_neg (by simp)]
    split
    · exact books_lose _
    · exact Books.trans (books_takeRno _) (books_recPut _ _)

theorem books_evrLost (s : State) : Books s
    { s with
      evr := { s.evr with lostSince := 0 }
      flt := { s.flt with todo := s.flt.todo ++ [(0x4901, 0)] } } :=
  Books.of _ _ rfl rfl (minorTodo_append (0x4901, 0) (by decide) _ rfl)

theorem books_startDrain (s : State) : Books s s.startDrain := by
  unfold State.startDrain
  split
  · exact Books.refl _
  · refine Books.trans (Books.wr s Reg.EVR.STATUS.DRAINING (b2n true) (by decide) (by decide)) ?_
    dsimp only
    split
    · exact Books.refl _
    · refine Books.trans ?_ (books_evrLost _)
      refine Books.trans ?_ (books_recPut _ _)
      exact Books.trans (books_recMs _) (books_takeRno _)

theorem books_drainAt256 (s : State) : Books s s.drainAt256 := by
  unfold State.drainAt256
  split
  · exact books_startDrain s
  · exact Books.refl s

/-! ### Faults of class Notice and Minor -/

theorem books_faultRecord (code cls idx merged loc detail : Nat) (inj full : Bool) (s : State) :
    Books s (faultRecord code cls idx merged loc detail inj full s) := books_record s _ _

theorem books_collect (code loc detail : Nat) (inj : Bool) (s : State) : Books s (collect code loc detail inj s) := by
  unfold collect
  dsimp only
  split
  · refine Books.trans (Books.andInc ?_ Reg.FLT.COUNTS.MERGES (by decide) (by decide)) (books_faultRecord ..)
    split
    · refine Books.andSetB ?_ Reg.FLT.STATUS.FULL_STK true (by decide) (by decide)
      exact Books.of s _ rfl rfl id
    · exact Books.of s _ rfl rfl id
  · refine Books.trans ?_ (books_faultRecord ..)
    exact Books.of s _ rfl rfl id

theorem books_reactTo (code cls : Nat) (s : State) (h : cls ≤ 1) : Books s (reactTo code cls s) := by
  unfold reactTo
  dsimp only
  split
  · exact Books.refl s
  · have : cls = 1 := by omega
    rw [if_pos this]
    exact (((Books.refl s).andSetB Reg.FLT.STATUS.IRQ true (by decide) (by decide)).trans (books_startDrain _)).andInc
      Reg.FLT.COUNTS.MINOR (by decide) (by decide)

/-- A fault of class Notice or Minor changes the books only (R491, R495). -/
theorem books_raise1 (code loc detail : Nat) (inj : Bool) (s : State) (h : faultClass code ≤ 1) :
    Books s (raise1 code loc detail inj s) :=
  Books.trans (books_collect code loc detail inj s)
    (Books.trans (books_reactTo code (faultClass code) _ h) (books_drainAt256 _))

theorem books_raise (code detail : Nat) (s : State) (h : faultClass code ≤ 1) : Books s (raise code detail s) :=
  books_raise1 code 0 detail false s h

/-- The waiting faults of class Notice and Minor change the books only. -/
theorem books_raiseTodo : ∀ (n : Nat) (s : State), MinorTodo s → Books s (raiseTodo n s) := by
  intro n
  induction n with
  | zero => intro s _; exact Books.refl s
  | succ n ih =>
    intro s m
    unfold raiseTodo
    split
    · exact Books.refl s
    · rename_i c d r hr
      have m' : MinorTodo { s with flt := { s.flt with todo := r } } := fun x hx => m x (by rw [hr]; exact List.mem_cons_of_mem _ hx)
      have hc : faultClass c ≤ 1 := m (c, d) (by rw [hr]; exact List.mem_cons_self ..)
      have h1 := books_raise1 c 0 d false { s with flt := { s.flt with todo := r } } hc
      have h0 : Books s { s with flt := { s.flt with todo := r } } := Books.of _ _ rfl rfl (fun _ => m')
      exact Books.trans (Books.trans h0 h1) (ih _ (h1.todo m'))

end Sys2Proof.Machine
end

