-- ==== Sys2Proof/Laws/Settle.lean ====
section
/-!
SUPPORT. The end of a step: what it does to a state in which nothing waits, and that a record or a fault of class Notice
or Minor leaves such a state.
-/
namespace Sys2Proof.Machine

/-- Nothing is left for the end of the step to do. -/
structure Still (s : State) : Prop where
  todo : s.flt.todo = []
  still : s.moved = false
  pushed : s.pushed = []
  room : (s.q 15).level < 256
  open_ : s.outputsBarred = false

theorem Calm.still' {s : State} (h : Calm s) : Still s :=
  ⟨h.todo, h.still, h.pushed, by have := h.room; omega, by
    have h1 := h.low
    have h2 := h.high
    unfold State.outputsBarred
    simp only [Bool.or_eq_false_iff, decide_eq_false_iff_not]
    omega⟩

/-- The end of a step changes nothing where nothing waits. -/
theorem settle_still {s : State} (h : Still s) : settle s = s := by
  have h1 : ∀ n, raiseTodo n s = s := by
    intro n
    cases n with
    | zero => rfl
    | succ n =>
      unfold raiseTodo
      rw [h.todo]
  have h2 : settleRounds 8 s = s := by
    unfold settleRounds
    simp only [h1, h.still]
    rfl
  have h3 : s.drainAt256 = s := by
    unfold State.drainAt256
    rw [if_neg (by have := h.room; omega)]
  unfold settle
  simp only [h2, h3, h1]
  unfold permitOutputs
  rw [h.open_]
  have := h.pushed
  cases s
  simp_all

theorem Calm.settle {s : State} (h : Calm s) : settle s = s := settle_still h.still'

/-- A command whose effect leaves a calm state answers that state. -/
theorem done_calm {s : State} (h : Calm s) : done s = .next s := by
  unfold done
  rw [h.settle]

/-- A mode from 3 to 10 with the core running accepts writes (R57). -/
theorem Calm.modeWrites {s : State} (h : Calm s) : s.modeWrites = true := by
  have h1 := h.low
  have h2 := h.high
  unfold State.modeWrites
  simp only [h.run, Bool.true_and, Bool.and_eq_true, decide_eq_true_eq]
  omega

/-- A write at a sufficient level in a calm state takes its effect. -/
theorem gated_calm {s : State} (h : Calm s) (a : Agent) (min : Nat) (f : State → State) (hl : min ≤ s.level a) :
    gated a min f s = f s := by
  unfold gated
  rw [h.modeWrites]
  simp only [Bool.not_true, Bool.false_eq_true, if_false]
  rw [if_neg (by omega)]

/-- The system-controller marks and the mode decide whether the core runs. -/
theorem running_congr {s t : State} (hs : t.sys = s.sys) (hm : t.mode = s.mode) : t.running = s.running := by
  unfold State.running
  rw [hs, hm]

/-- A write of a field outside MODE.STATUS.MODE and SYS.CAP_ANNEX keeps a state calm. -/
theorem Calm.wr {s : State} (h : Calm s) (f : Fld) (v : Nat) (hm : Reg.MODE.STATUS.MODE.key ≠ f.key)
    (ha : Reg.SYS.CAP_ANNEX.SEG.key ≠ f.key) : Calm (s.wr f v) := by
  have e := mode_wr s f v hm
  refine ⟨(running_congr (s := s) (t := s.wr f v) rfl e).trans h.run, by rw [e]; exact h.low, by rw [e]; exact h.high, h.todo, h.still, h.pushed,
    h.kept, h.room, ?_⟩
  have : (s.wr f v).qCap 15 = s.qCap 15 := by
    unfold State.qCap State.flag
    rw [rd_wr_ne s f _ v ha]
  rw [this]
  exact h.cap

theorem Calm.setB {s : State} (h : Calm s) (f : Fld) (b : Bool) (hm : Reg.MODE.STATUS.MODE.key ≠ f.key)
    (ha : Reg.SYS.CAP_ANNEX.SEG.key ≠ f.key) : Calm (s.setB f b) := h.wr f _ hm ha

theorem Calm.inc {s : State} (h : Calm s) (f : Fld) (hm : Reg.MODE.STATUS.MODE.key ≠ f.key)
    (ha : Reg.SYS.CAP_ANNEX.SEG.key ≠ f.key) : Calm (s.inc f) := h.wr f _ hm ha

/-- Calm rests on these fields alone. -/
theorem Calm.congr {s t : State} (h : Calm s) (hr : t.regs = s.regs) (hs : t.sys = s.sys) (hf : t.flt.todo = s.flt.todo)
    (hm : t.moved = s.moved) (hp : t.pushed = s.pushed) (he : t.evr.lostSince = s.evr.lostSince)
    (hq : t.qs = s.qs) : Calm t := by
  have e : t.mode = s.mode := rd_congr hr _
  have q : t.q 15 = s.q 15 := by unfold State.q; rw [hq]
  refine ⟨(running_congr hs e).trans h.run, by rw [e]; exact h.low, by rw [e]; exact h.high, hf.trans h.todo,
    hm.trans h.still, hp.trans h.pushed, he.trans h.kept, by rw [q]; exact h.room, ?_⟩
  have : t.qCap 15 = s.qCap 15 := by
    unfold State.qCap State.flag
    rw [rd_congr hr]
  rw [this]
  exact h.cap

/-! ### Records and faults of class Notice and Minor in a calm state -/

/-- What a record or such a fault leaves in a calm state: nothing waits, and at most `k` items have joined the recorder
queue. -/
structure Tidy (k : Nat) (s t : State) : Prop where
  todo : t.flt.todo = s.flt.todo
  table : t.flt.table = s.flt.table
  moved : t.moved = s.moved
  pushed : t.pushed = s.pushed
  kept : t.evr.lostSince = s.evr.lostSince
  sys : t.sys = s.sys
  room : (t.q 15).level ≤ (s.q 15).level + k

theorem Tidy.refl (s : State) : Tidy 0 s s := ⟨rfl, rfl, rfl, rfl, rfl, rfl, Nat.le_refl _⟩

theorem Tidy.trans {j k : Nat} {s t u : State} (h : Tidy j s t) (g : Tidy k t u) : Tidy (j + k) s u :=
  ⟨g.todo.trans h.todo, g.table.trans h.table, g.moved.trans h.moved, g.pushed.trans h.pushed, g.kept.trans h.kept,
    g.sys.trans h.sys, by have := h.room; have := g.room; omega⟩

theorem tidy_wr (s : State) (f : Fld) (v : Nat) : Tidy 0 s (s.wr f v) := ⟨rfl, rfl, rfl, rfl, rfl, rfl, Nat.le_refl _⟩

theorem tidy_recMs (s : State) : Tidy 0 s s.recMs.2 := ⟨rfl, rfl, rfl, rfl, rfl, rfl, Nat.le_refl _⟩

theorem tidy_takeRno (s : State) : Tidy 0 s s.takeRno.2 := by
  unfold State.takeRno
  dsimp only
  split <;> split <;> exact ⟨rfl, rfl, rfl, rfl, rfl, rfl, Nat.le_refl _⟩

theorem tidy_crossing (s : State) (n was : Nat) : Tidy 0 s (s.crossing n was) := by
  unfold State.crossing
  dsimp only
  split
  · exact ⟨rfl, rfl, rfl, rfl, rfl, rfl, Nat.le_refl _⟩
  · exact Tidy.refl s

theorem level_put_le (x : Queue) (i : Item) : (x.put i).level ≤ x.level + 1 := by
  unfold Queue.put Queue.level
  split
  · simp
    omega
  · simp only [Option.isSome_some, if_true]
    split <;> omega

theorem tidy_qAccept (s : State) (i : Item) : Tidy 1 s (s.qAccept 15 i) := by
  unfold State.qAccept
  dsimp only
  refine Tidy.trans (j := 1) (k := 0) ?_ (tidy_crossing _ 15 _)
  exact ⟨rfl, rfl, rfl, rfl, rfl, rfl, by rw [q_setQ_same]; exact level_put_le _ _⟩

theorem tidy_recPut (s : State) (r : Rec) : Tidy 1 s (s.recPut r) := by
  unfold State.recPut
  refine Tidy.trans (j := 0) (k := 1) ?_ (tidy_qAccept _ _)
  exact ⟨rfl, rfl, rfl, rfl, rfl, rfl, by rw [q_setQ_same, level_spill]; omega⟩

theorem tidy_legalWrite (s : State) (r : Rec) : Tidy 0 s (s.legalWrite r) := by
  unfold State.legalWrite
  exact ⟨rfl, rfl, rfl, rfl, rfl, rfl, Nat.le_refl _⟩

/-- A record with room in the queue: one item joins, none is lost (R501 to R508). -/
theorem tidy_record (s : State) (ty payload : Nat) (legal : Bool) (h : (s.q 15).level < s.qCap 15) :
    Tidy 1 s (s.record ty payload legal) := by
  have hq : ¬ (s.recMs.2.qCap 15 ≤ (s.recMs.2.q 15).level) := Nat.not_le.mpr h
  unfold State.record
  dsimp only
  simp only [if_neg hq]
  split
  · exact Tidy.trans (j := 0) (tidy_recMs s) (tidy_recPut _ _)
  · split
    · refine Tidy.trans (j := 0) (k := 1) ?_ (tidy_recPut _ _)
      exact Tidy.trans (j := 0) (k := 0) (Tidy.trans (j := 0) (k := 0) (tidy_recMs s) (tidy_takeRno _))
        (tidy_legalWrite _ _)
    · refine Tidy.trans (j := 0) (k := 1) ?_ (tidy_recPut _ _)
      exact Tidy.trans (j := 0) (k := 0) (tidy_recMs s) (tidy_takeRno _)

/-- A drain that starts where no record was lost opens with no RECORDS_LOST record (R504, R505). -/
theorem tidy_startDrain (s : State) (h : s.evr.lostSince = 0) : Tidy 0 s s.startDrain := by
  unfold State.startDrain
  split
  · exact Tidy.refl s
  · dsimp only
    rw [if_pos (by exact h)]
    exact tidy_wr s _ _

/-- What a fault of class Notice or Minor does to a state with room: only the open table differs. -/
theorem tidy_collect (code loc detail : Nat) (inj : Bool) (s : State) (h : (s.q 15).level < s.qCap 15)
    (o : Opens code s) : ∃ rno, Tidy 1 { s with flt := { s.flt with table := s.flt.table ++
      [⟨freeEntry s.flt.table, code, faultClass code, 0, inj, rno, [(code, detail)]⟩] } }
      (collect code loc detail inj s) := by
  have h1 : s.flt.table.find? (fun e => decide (2 ≤ e.cls)) = none := by
    rw [List.find?_eq_none]
    intro e he
    have := o.minor e he
    simp only [decide_eq_true_eq]
    omega
  have h2 : s.flt.table.find? (fun e => decide (e.code = code)) = none := by
    rw [List.find?_eq_none]
    intro e he
    simpa using o.fresh e he
  have hm : mergeTarget s.flt.table code = none := by
    unfold mergeTarget
    simp only [h1, h2]
    rw [if_neg (by have := o.room; omega)]
  unfold collect
  simp only [hm]
  exact ⟨_, tidy_record _ _ _ _ h⟩

theorem tidy_reactTo (code cls : Nat) (s : State) (hc : cls ≤ 1) (h : s.evr.lostSince = 0) :
    Tidy 0 s (reactTo code cls s) := by
  unfold reactTo
  dsimp only
  split
  · exact Tidy.refl s
  · rw [if_pos (by omega)]
    exact Tidy.trans (j := 0) (k := 0) (Tidy.trans (j := 0) (k := 0) (tidy_wr s _ _) (tidy_startDrain _ h))
      (tidy_wr _ _ _)

theorem qCap_same {b : Nat → Bool} {s t : State} (h : SameRegs b s t) (hb : b 0 = false) (n : Nat) :
    t.qCap n = s.qCap n := by
  unfold State.qCap State.flag
  rw [h _ (by decide) (by simpa using hb)]

theorem mode_same {b : Nat → Bool} {s t : State} (h : SameRegs b s t) (hb : b 3 = false) : t.mode = s.mode :=
  h Reg.MODE.STATUS.MODE (by decide) (by simpa using hb)

/-- A fault of class Notice or Minor in a calm state opens its entry and leaves nothing waiting (R491, R495). -/
theorem raise1_calm (code loc detail : Nat) (inj : Bool) (s : State) (h : Calm s) (o : Opens code s)
    (hc : faultClass code ≤ 1) :
    OpenedBy inj code detail s (raise1 code loc detail inj s) ∧
      settle (raise1 code loc detail inj s) = raise1 code loc detail inj s := by
  have hb := books_raise1 code loc detail inj s hc
  have hr : (s.q 15).level < s.qCap 15 := by have := h.room; have := h.cap; omega
  obtain ⟨rno, t1⟩ := tidy_collect code loc detail inj s hr o
  have k1 : (collect code loc detail inj s).evr.lostSince = 0 := t1.kept.trans h.kept
  have t2 := tidy_reactTo code (faultClass code) (collect code loc detail inj s) hc k1
  have t12 := Tidy.trans t1 t2
  have k2 : ((reactTo code (faultClass code) (collect code loc detail inj s)).q 15).level < 256 := by
    have h1 := t12.room
    have h2 := h.room
    have h3 : (({ s with flt := { s.flt with table := s.flt.table ++
      [⟨freeEntry s.flt.table, code, faultClass code, 0, inj, rno, [(code, detail)]⟩] } } : State).q 15).level
        = (s.q 15).level := rfl
    omega
  have e : raise1 code loc detail inj s = reactTo code (faultClass code) (collect code loc detail inj s) := by
    unfold raise1 State.drainAt256
    rw [if_neg (by omega)]
  have hs : Still (raise1 code loc detail inj s) := by
    refine ⟨?_, ?_, ?_, by rw [e]; exact k2, ?_⟩
    · rw [e]; exact t12.todo.trans h.todo
    · rw [e]; exact t12.moved.trans h.still
    · rw [e]; exact t12.pushed.trans h.pushed
    · have hm : (raise1 code loc detail inj s).mode = s.mode := mode_same hb.booked.regs rfl
      have := h.still'.open_
      unfold State.outputsBarred at this ⊢
      rw [hm]
      exact this
  refine ⟨⟨⟨rno, ?_⟩, ?_, hb.booked⟩, settle_still hs⟩
  · rw [e]; exact t12.table
  · intro h1
    rw [e]
    unfold reactTo
    dsimp only
    rw [if_neg (by omega), if_pos h1]
    simp only [State.bit, State.inc]
    rw [rd_wr_ne _ _ _ _ (by decide)]
    unfold State.startDrain
    split
    · simp [State.setB, b2n]
    · dsimp only
      rw [if_pos (by exact k1)]
      simp only [State.setB]
      rw [rd_wr_ne _ _ _ _ (by decide)]
      simp [b2n]

/-- The same of a fault without a location path. -/
theorem raise_calm (code detail : Nat) (s : State) (h : Calm s) (o : Opens code s) (hc : faultClass code ≤ 1) :
    Opened code detail s (raise code detail s) ∧ settle (raise code detail s) = raise code detail s :=
  raise1_calm code 0 detail false s h o hc

end Sys2Proof.Machine
end

