-- ==== Sys2Proof/Laws/Outputs.lean ====
section
/-!
SUPPORT. The outputs that the end of a step leaves (R57).
-/
namespace Sys2Proof.Machine

theorem forEach_zero (f : Nat → State → State) (s : State) : forEach 0 f s = s := rfl

theorem forEach_succ (n : Nat) (f : Nat → State → State) (s : State) :
    forEach (n + 1) f s = f n (forEach n f s) := by
  unfold forEach
  rw [List.range_succ, List.foldl_append]
  rfl

/-- A property that every application keeps holds after all of them. -/
theorem forEach_keeps (P : State → Prop) (f : Nat → State → State) (n : Nat) (hf : ∀ i s, i < n → P s → P (f i s)) :
    ∀ s, P s → P (forEach n f s) := by
  induction n with
  | zero => intro s h; exact h
  | succ n ih =>
    intro s h
    rw [forEach_succ]
    exact hf n _ (Nat.lt_succ_self n) (ih (fun i s hi => hf i s (Nat.lt_succ_of_lt hi)) s h)

/-- What each application establishes for its own index, and keeps for the others, holds for all of them. -/
theorem forEach_all (Q : Nat → State → Prop) (P : State → Prop) (f : Nat → State → State) (n : Nat)
    (hp : ∀ i s, i < n → P s → P (f i s)) (hq : ∀ i s, i < n → P s → Q i (f i s))
    (hk : ∀ i j s, i < n → j < n → j ≠ i → Q j s → Q j (f i s)) :
    ∀ s, P s → ∀ j, j < n → Q j (forEach n f s) := by
  induction n with
  | zero => intro s _ j hj; omega
  | succ n ih =>
    intro s h j hj
    rw [forEach_succ]
    have hP : P (forEach n f s) := forEach_keeps P f n (fun i s hi => hp i s (by omega)) s h
    by_cases hjn : j = n
    · subst hjn
      exact hq j _ (by omega) hP
    · exact hk n j _ (by omega) hj hjn (ih (fun i s hi => hp i s (by omega)) (fun i s hi => hq i s (by omega))
        (fun i j s hi hj => hk i j s (by omega) (by omega)) s h j (by omega))

/-! ### Coils -/

theorem out_setOut_same (s : State) (n : Nat) (o : OutSt) : (s.setOut n o).out n = o := mapGet_mapSet_same _ _ _ _

theorem out_setOut_ne (s : State) (n m : Nat) (o : OutSt) (h : m ≠ n) : (s.setOut n o).out m = s.out m :=
  mapGet_mapSet_ne _ _ _ h

theorem barCoils_regs (n : Nat) (s : State) : (barCoils n s).regs = s.regs := by
  unfold barCoils
  split <;> rfl

theorem barCoils_saf (n : Nat) (s : State) : (barCoils n s).saf = s.saf := by
  unfold barCoils
  split <;> rfl

theorem barCoils_same (n : Nat) (s : State) : ((barCoils n s).out n).coils = false := by
  unfold barCoils
  split
  · rw [out_setOut_same]
  · rename_i h
    simpa using h

theorem barCoils_ne (n m : Nat) (s : State) (h : m ≠ n) : (barCoils n s).out m = s.out m := by
  unfold barCoils
  split
  · exact out_setOut_ne s n m _ h
  · rfl

/-! ### Channels -/

/-- Words that only a channel's own state machine writes: STATUS and PEND of some channel. -/
def hsWord (a : Nat) : Prop := ∃ i, a = 0x35110 + 0x20 * i ∨ a = 0x35114 + 0x20 * i

/-- Every register field outside the channels' STATUS and PEND reads the same. -/
def HsKept (s t : State) : Prop := ∀ f : Fld, f.lo < 32 → ¬ hsWord f.addr → t.rd f = s.rd f

theorem HsKept.refl (s : State) : HsKept s s := fun _ _ _ => rfl

theorem HsKept.trans {s t u : State} (h : HsKept s t) (k : HsKept t u) : HsKept s u :=
  fun f l a => (k f l a).trans (h f l a)

theorem hsKept_wr (s : State) (g : Fld) (v : Nat) (hl : g.lo < 32) (hg : hsWord g.addr) : HsKept s (s.wr g v) :=
  fun f l a => rd_wr_ne s g f v (key_ne l hl (fun h => a (by rw [h]; exact hg)))

theorem HsKept.andWr {s t : State} (h : HsKept s t) (g : Fld) (v : Nat) (hl : g.lo < 32) (hg : hsWord g.addr) :
    HsKept s (t.wr g v) := h.trans (hsKept_wr t g v hl hg)

theorem HsKept.andSetB {s t : State} (h : HsKept s t) (g : Fld) (v : Bool) (hl : g.lo < 32) (hg : hsWord g.addr) :
    HsKept s (t.setB g v) := h.andWr g _ hl hg

/-- The fields that decide whether the mode forces a channel off lie elsewhere. -/
theorem hsModeForced_kept {s t : State} (h : HsKept s t) (c : Nat) : t.hsModeForced c = s.hsModeForced c := by
  have hm : t.mode = s.mode := h _ (by decide) (by rintro ⟨i, hi | hi⟩ <;> simp at hi <;> omega)
  have h1 : ∀ n, n < 16 → t.rd (Reg.OUT.HS_MAP.LOCK n) = s.rd (Reg.OUT.HS_MAP.LOCK n) := fun n hn =>
    h _ (by simp) (by rintro ⟨i, hi | hi⟩ <;> simp at hi <;> omega)
  have h2 : ∀ n, n < 16 → t.rd (Reg.OUT.HS_MAP2.COOL n) = s.rd (Reg.OUT.HS_MAP2.COOL n) := fun n hn =>
    h _ (by simp) (by rintro ⟨i, hi | hi⟩ <;> simp at hi <;> omega)
  have hr : t.keepRole c = s.keepRole c := by
    unfold State.keepRole
    rw [Bool.eq_iff_iff]
    simp only [List.any_eq_true, List.mem_range]
    constructor
    · rintro ⟨n, hn, hv⟩
      exact ⟨n, hn, by rw [h1 n hn, h2 n hn] at hv; exact hv⟩
    · rintro ⟨n, hn, hv⟩
      exact ⟨n, hn, by rw [h1 n hn, h2 n hn]; exact hv⟩
  have hk : t.safeKeep c = s.safeKeep c := by
    unfold State.safeKeep State.bit
    rw [hr, h (Reg.LSW.CH.CFG.OWNER c) (by simp) (by rintro ⟨i, hi | hi⟩ <;> simp at hi <;> omega),
      h (Reg.LSW.CH.CFG.SAFE_KEEP c) (by simp) (by rintro ⟨i, hi | hi⟩ <;> simp at hi <;> omega)]
  unfold State.hsModeForced
  rw [hm, hk]

theorem hsForce_kept (c : Nat) (s : State) : HsKept s (hsForce c s) := by
  have hs : hsWord (0x35110 + 0x20 * c) := ⟨c, Or.inl rfl⟩
  have hp : hsWord (0x35114 + 0x20 * c) := ⟨c, Or.inr rfl⟩
  have h1 : HsKept s (unitForce (hsUnit c) s) := by
    unfold unitForce
    dsimp only
    split
    · exact (HsKept.refl s).andSetB _ _ (by simp [hsUnit]) hp
    · exact ((HsKept.refl s).andSetB _ _ (by simp [hsUnit]) hp).andWr _ _ (by simp [hsUnit]) hs
  exact (((h1.andWr _ _ (by simp) hs).andSetB _ _ (by simp) hs).andSetB _ _ (by simp) hs).andSetB _ _ (by simp) hs

/-- A forced channel is shutting down or resting (R53, R55). -/
theorem hsForce_state (c : Nat) (s : State) :
    (hsForce c s).rd (hsUnit c).st = (unitForce (hsUnit c) s).rd (hsUnit c).st := by
  unfold hsForce hsDark State.setB
  rw [rd_wr_ne _ _ _ _ (by simp [hsUnit, Fld.key]), rd_wr_ne _ _ _ _ (by simp [hsUnit, Fld.key]),
    rd_wr_ne _ _ _ _ (by simp [hsUnit, Fld.key]), rd_wr_ne _ _ _ _ (by simp [hsUnit, Fld.key])]

theorem hsForce_down (c : Nat) (s : State) : HsDown (hsForce c s) c := by
  have h : (unitForce (hsUnit c) s).rd (hsUnit c).st = 3 ∨ (unitForce (hsUnit c) s).rd (hsUnit c).st = 4 := by
    unfold unitForce State.setB
    dsimp only
    split
    · rename_i h
      rw [rd_wr_ne _ _ _ _ (by simp [hsUnit, Fld.key]; omega)]
      simp only [Bool.or_eq_true, decide_eq_true_eq] at h
      exact h
    · left
      rw [rd_wr_same]
      rfl
  have e := hsForce_state c s
  have e' : (hsForce c s).rd (Reg.LSW.CH.STATUS.STATE c) = (unitForce (hsUnit c) s).rd (hsUnit c).st := e
  unfold HsDown
  rw [e']
  omega

theorem hsForce_ne (c d : Nat) (s : State) (h : d ≠ c) :
    (hsForce c s).rd (Reg.LSW.CH.STATUS.STATE d) = s.rd (Reg.LSW.CH.STATUS.STATE d) := by
  unfold hsForce hsDark State.setB
  rw [rd_wr_ne _ _ _ _ (by simp [Fld.key]; omega), rd_wr_ne _ _ _ _ (by simp [Fld.key]; omega),
    rd_wr_ne _ _ _ _ (by simp [Fld.key]; omega), rd_wr_ne _ _ _ _ (by simp [Fld.key]; omega)]
  unfold unitForce State.setB
  dsimp only
  split
  · rw [rd_wr_ne _ _ _ _ (by simp [hsUnit, Fld.key]; omega)]
  · rw [rd_wr_ne _ _ _ _ (by simp [hsUnit, Fld.key]; omega), rd_wr_ne _ _ _ _ (by simp [hsUnit, Fld.key]; omega)]

theorem unitForce_rest (u : UnitRef) (s : State) : (unitForce u s).outs = s.outs ∧ (unitForce u s).saf = s.saf := by
  unfold unitForce
  dsimp only
  split <;> exact ⟨rfl, rfl⟩

theorem barHs_kept (c : Nat) (s : State) : HsKept s (barHs c s) := by
  unfold barHs
  split
  · exact hsForce_kept c s
  · exact HsKept.refl s

theorem barHs_rest (c : Nat) (s : State) : (barHs c s).outs = s.outs ∧ (barHs c s).saf = s.saf := by
  unfold barHs
  split
  · exact unitForce_rest (hsUnit c) s
  · exact ⟨rfl, rfl⟩

theorem barHs_same (c : Nat) (s : State) (h : s.hsModeForced c = true) : HsDown (barHs c s) c := by
  unfold barHs
  split
  · exact hsForce_down c s
  · rename_i hn
    simp only [h, Bool.true_and, Bool.or_eq_true, decide_eq_true_eq, not_or] at hn
    exact hn

theorem barHs_ne (c d : Nat) (s : State) (h : d ≠ c) :
    (barHs c s).rd (Reg.LSW.CH.STATUS.STATE d) = s.rd (Reg.LSW.CH.STATUS.STATE d) := by
  unfold barHs
  split
  · exact hsForce_ne c d s h
  · rfl

/-! ### All outputs -/

/-- The outputs left are those that R57 permits. -/
theorem permitOutputs_outputs (s : State) : Outputs (permitOutputs s) := by
  unfold permitOutputs
  split
  · generalize hu : forEach 16 barCoils (lseOff s) = u
    have husaf : u.saf = (lseOff s).saf := by
      rw [← hu]
      exact forEach_keeps (fun t => t.saf = (lseOff s).saf) barCoils 16
        (fun i t _ h => (barCoils_saf i t).trans h) _ rfl
    have hcoil : ∀ n, n < 16 → (u.out n).coils = false := by
      rw [← hu]
      exact forEach_all (fun n t => (t.out n).coils = false) (fun _ => True) barCoils 16 (fun _ _ _ _ => trivial)
        (fun i t _ _ => barCoils_same i t) (fun i j t _ _ hj h => by rw [barCoils_ne i j t hj]; exact h) _ trivial
    have hrest : ∀ t, t.outs = u.outs ∧ t.saf = u.saf →
        (forEach 40 barHs t).outs = u.outs ∧ (forEach 40 barHs t).saf = u.saf :=
      forEach_keeps (fun t => t.outs = u.outs ∧ t.saf = u.saf) barHs 40
        (fun i t _ h => ⟨(barHs_rest i t).1.trans h.1, (barHs_rest i t).2.trans h.2⟩)
    have hkept : HsKept u (forEach 40 barHs u) :=
      forEach_keeps (fun t => HsKept u t) barHs 40 (fun i t _ h => h.trans (barHs_kept i t)) u (HsKept.refl u)
    have ho : (forEach 40 barHs u).outs = u.outs := (hrest u ⟨rfl, rfl⟩).1
    have hsf : (forEach 40 barHs u).saf = (lseOff s).saf := (hrest u ⟨rfl, rfl⟩).2.trans husaf
    refine ⟨fun _ => ⟨fun n hn => ?_, ?_, ?_, ?_, ?_⟩, fun c hc hf => ?_⟩
    · unfold State.out
      rw [ho]
      exact hcoil n hn
    · rw [hsf]; rfl
    · rw [hsf]; rfl
    · rw [hsf]; rfl
    · rw [hsf]; rfl
    · rw [hsModeForced_kept hkept c] at hf
      refine forEach_all (fun c t => u.hsModeForced c = true → HsDown t c) (fun t => HsKept u t) barHs 40
        (fun i t _ h => h.trans (barHs_kept i t)) (fun i t _ h hf => barHs_same i t (by rw [hsModeForced_kept h i]; exact hf))
        (fun i j t _ _ hj h hf => ?_) u (HsKept.refl u) c hc hf
      have := h hf
      unfold HsDown at this ⊢
      rw [barHs_ne i j t hj]
      exact this
  · rename_i hb
    refine ⟨fun h => absurd h hb, fun c _ hf => absurd ?_ hb⟩
    unfold State.hsModeForced at hf
    unfold State.outputsBarred
    simp only [Bool.or_eq_true, Bool.and_eq_true, decide_eq_true_eq] at hf ⊢
    tauto

theorem outputs_pushed {s : State} (h : Outputs s) : Outputs { s with pushed := [] } := h

/-- Outputs that the mode permits are left as they are. -/
theorem permitOutputs_kept {s : State} (h : Outputs s) : permitOutputs s = s := by
  unfold permitOutputs
  split
  · rename_i hb
    obtain ⟨hc, h1, h2, h3, h4⟩ := h.1 hb
    have e0 : lseOff s = s := by
      unfold lseOff
      cases s with
      | mk regs free pending sys cat flt evr qs hostPort rtPort hp sets bindNo fab outs crl vpl fft bbn dpy bdy lsw saf =>
        obtain ⟨cur, kpr⟩ := saf
        cases cur
        cases kpr
        simp_all
    have e1 : forEach 16 barCoils s = s := by
      refine forEach_keeps (fun t => t = s) barCoils 16 (fun i t hi ht => ?_) s rfl
      subst ht
      unfold barCoils
      rw [if_neg (by rw [hc i hi]; decide)]
    have e2 : forEach 40 barHs s = s := by
      refine forEach_keeps (fun t => t = s) barHs 40 (fun i t hi ht => ?_) s rfl
      subst ht
      unfold barHs
      rw [if_neg]
      intro hx
      simp only [Bool.and_eq_true, Bool.or_eq_true, decide_eq_true_eq] at hx
      have := h.2 i hi hx.1
      unfold HsDown at this
      rcases hx.2 with e | e
      · exact this.1 e
      · exact this.2 e
    rw [e0, e1, e2]
  · rfl

/-- A state at rest is what the end of a step leaves. -/
theorem settle_rest {s : State} (h : AtRest s) : settle s = s := by
  have h1 : ∀ n, raiseTodo n s = s := by
    intro n
    cases n with
    | zero => rfl
    | succ n =>
      unfold raiseTodo
      rw [h.todo]
  have h2 : settleRounds 8 s = s := by
    unfold settleRounds
    simp only [h1, h.still]
    rfl
  have h3 : s.drainAt256 = s := by
    unfold State.drainAt256
    rw [if_neg (by have := h.room; omega)]
  unfold settle
  simp only [h2, h3, h1, permitOutputs_kept h.outputs]
  have := h.pushed
  cases s
  simp_all

/-- The end of every step leaves the outputs that R57 permits. -/
theorem settle_outputs (s : State) : Outputs (settle s) := by
  unfold settle
  exact outputs_pushed (permitOutputs_outputs _)

end Sys2Proof.Machine
end

