-- ==== Sys2Proof/Laws/Exec.lean ====
section
/-!
SUPPORT. What every command's meaning has in common: it ends with the end of a step.
-/
namespace Sys2Proof.Machine

/-- Every command answers a next state, which the end of the step has settled. -/
theorem exec_settles (c : Instr) (s : State) : ∃ u, exec c s = .next (settle u) := by
  cases c <;> exact ⟨_, rfl⟩

theorem ends_if {c : Instr} {s f x : State} (hr : s.running = true) (e : exec c s = done (if s.running then f else s))
    (k : f = x) : exec c s = .next (settle x) := by
  rw [e, hr, if_pos rfl, k]
  rfl

theorem ends {c : Instr} {s f x : State} (e : exec c s = done f) (k : f = x) : exec c s = .next (settle x) := by
  rw [e, k]
  rfl

theorem ends_gated {c : Instr} {a : Agent} {n : Nat} {s x : State} {f : State → State} (hw : s.modeWrites = true)
    (hl : n ≤ s.level a) (e : exec c s = done (gated a n f s)) (k : f s = x) : exec c s = .next (settle x) := by
  rw [e]
  unfold gated
  rw [hw, if_neg (by decide), if_neg (by omega), k]
  rfl

end Sys2Proof.Machine
end

