-- ==== Sys2Proof/Laws/React.lean ====
section
/-!
SUPPORT. What the shared reactions change: the blocks of the outlets, the vehicle link, the channels, the user display, the
reader, and the books. The mode, the life-cycle state and every block of another unit stay as they were.
-/
namespace Sys2Proof.Machine

/-- What a reaction keeps: every register outside its blocks, the system-controller marks, and the mark of a change of
mode; nothing above Minor comes to wait. -/
structure Reacts (s t : State) : Prop where
  regs : SameRegs reactBlock s t
  sys : t.sys = s.sys
  moved : t.moved = s.moved
  todo : MinorTodo s → MinorTodo t
  rest : t.unreacted = s.unreacted

theorem Reacts.refl (s : State) : Reacts s s := ⟨SameRegs.refl _ s, rfl, rfl, id, rfl⟩

theorem Reacts.trans {s t u : State} (h : Reacts s t) (k : Reacts t u) : Reacts s u :=
  ⟨h.regs.trans k.regs, k.sys.trans h.sys, k.moved.trans h.moved, fun m => k.todo (h.todo m),
    k.rest.trans h.rest⟩

/-- What the books leave as it was, a reaction leaves. -/
theorem Booked.unreacted {s t : State} (h : Booked s t) : t.unreacted = s.unreacted := by
  unfold State.unreacted
  rw [h.rest]

/-- The books are among the blocks of a reaction. -/
theorem Books.reacts {s t : State} (h : Books s t) : Reacts s t := by
  have hs := congrArg State.sys h.booked.rest
  have hm := congrArg State.moved h.booked.rest
  refine ⟨fun f l hb => h.booked.regs f l ?_, hs, hm, h.todo, h.booked.unreacted⟩
  unfold reactBlock at hb
  simp only [Bool.or_eq_false_iff] at hb
  exact hb.1.1.1.1.1

theorem Reacts.of (s t : State) (hr : t.regs = s.regs) (hs : t.sys = s.sys) (hm : t.moved = s.moved)
    (ht : t.flt.todo = s.flt.todo) (hx : t.unreacted = s.unreacted := by rfl) : Reacts s t :=
  ⟨fun f _ _ => rd_congr hr f, hs, hm, fun h x hx => h x (by rw [← ht]; exact hx), hx⟩

theorem Reacts.andWr {s t : State} (h : Reacts s t) (g : Fld) (v : Nat) (hb : reactBlock (g.addr / 4096) = true)
    (hl : g.lo < 32) : Reacts s (t.wr g v) := h.trans ⟨SameRegs.wr t g v hb hl, rfl, rfl, id, rfl⟩

theorem Reacts.andSetB {s t : State} (h : Reacts s t) (g : Fld) (v : Bool) (hb : reactBlock (g.addr / 4096) = true)
    (hl : g.lo < 32) : Reacts s (t.setB g v) := h.andWr g _ hb hl

theorem Reacts.andInc {s t : State} (h : Reacts s t) (g : Fld) (hb : reactBlock (g.addr / 4096) = true)
    (hl : g.lo < 32) : Reacts s (t.inc g) := h.andWr g _ hb hl

/-- A write of a channel's register. -/
theorem Reacts.lsw {s t : State} (h : Reacts s t) {c : Nat} (hc : c < 40) {a lo w : Nat}
    (ha : 0x35100 ≤ a ∧ a < 0x35120) (hl : lo < 32) (v : Nat) : Reacts s (t.wr ⟨a + 0x20 * c, lo, w⟩ v) := by
  refine h.andWr _ v ?_ hl
  have : (a + 0x20 * c) / 4096 = 0x35 := by omega
  show reactBlock ((a + 0x20 * c) / 4096) = true
  rw [this]
  rfl

theorem Reacts.lswB {s t : State} (h : Reacts s t) {c : Nat} (hc : c < 40) {a lo w : Nat}
    (ha : 0x35100 ≤ a ∧ a < 0x35120) (hl : lo < 32) (v : Bool) : Reacts s (t.setB ⟨a + 0x20 * c, lo, w⟩ v) :=
  h.lsw hc ha hl _

/-- A write of an outlet's register. -/
theorem Reacts.out {s t : State} (h : Reacts s t) {n : Nat} (hn : n < 16) {a lo w : Nat}
    (ha : 0x20000 ≤ a ∧ a < 0x21000) (hl : lo < 32) (v : Nat) : Reacts s (t.wr ⟨a + 0x1000 * n, lo, w⟩ v) := by
  refine h.andWr _ v ?_ hl
  have : (a + 0x1000 * n) / 4096 = 0x20 + n := by omega
  show reactBlock ((a + 0x1000 * n) / 4096) = true
  rw [this]
  unfold reactBlock
  rw [show decide (0x20 ≤ 0x20 + n ∧ 0x20 + n < 0x30) = true from decide_eq_true (by omega)]
  simp

theorem Reacts.outB {s t : State} (h : Reacts s t) {n : Nat} (hn : n < 16) {a lo w : Nat}
    (ha : 0x20000 ≤ a ∧ a < 0x21000) (hl : lo < 32) (v : Bool) : Reacts s (t.setB ⟨a + 0x1000 * n, lo, w⟩ v) :=
  h.out hn ha hl _

/-- A write of a register of a Green PHY instance. -/
theorem Reacts.vpl {s t : State} (h : Reacts s t) {n : Nat} (hn : n < 16) {a lo w : Nat}
    (ha : 0x31100 ≤ a ∧ a < 0x31140) (hl : lo < 32) (v : Nat) : Reacts s (t.wr ⟨a + 0x40 * n, lo, w⟩ v) := by
  refine h.andWr _ v ?_ hl
  have : (a + 0x40 * n) / 4096 = 0x31 := by omega
  show reactBlock ((a + 0x40 * n) / 4096) = true
  rw [this]
  rfl

theorem reacts_setHs (s : State) (c : Nat) (x : HsSt) : Reacts s (s.setHs c x) := Reacts.of _ _ rfl rfl rfl rfl
theorem reacts_setOut (s : State) (n : Nat) (x : OutSt) : Reacts s (s.setOut n x) := Reacts.of _ _ rfl rfl rfl rfl
theorem reacts_setVpl (s : State) (n : Nat) (x : VplSt) : Reacts s (s.setVpl n x) := Reacts.of _ _ rfl rfl rfl rfl
theorem reacts_setCar (s : State) (c : Nat) (x : Carrel) : Reacts s (s.setCar c x) := Reacts.of _ _ rfl rfl rfl rfl
theorem reacts_mapDpy (s : State) (f : DpySt → DpySt) : Reacts s (s.mapDpy f) := Reacts.of _ _ rfl rfl rfl rfl
theorem reacts_setCause (c d : Nat) (on : Bool) (s : State) : Reacts s (setCause c d on s) := Reacts.of _ _ rfl rfl rfl rfl
theorem reacts_lseOff (s : State) : Reacts s (lseOff s) := Reacts.of _ _ rfl rfl rfl rfl
theorem reacts_draw (s : State) (b : Nat) : Reacts s (s.draw b).2 := Reacts.of _ _ rfl rfl rfl rfl

theorem reacts_push (s : State) (n : Nat) (i : Item) (h3 : 3 ≤ n) (h : n < 32) : Reacts s (s.hwPush0 n i) :=
  (books_hwPush0 s n i h3 h).reacts

theorem reacts_forEach (n : Nat) (f : Nat → State → State) (hf : ∀ i s, i < n → Reacts s (f i s)) (s : State) :
    Reacts s (forEach n f s) :=
  forEach_keeps (fun t => Reacts s t) f n (fun i t hi h => h.trans (hf i t hi)) s (Reacts.refl s)

/-! ### Channels -/

theorem reacts_hsDark (c : Nat) (s : State) (h : c < 40) : Reacts s (hsDark c s) := by
  unfold hsDark
  refine Reacts.lswB ?_ h (by decide) (by decide) _
  refine Reacts.lswB ?_ h (by decide) (by decide) _
  refine Reacts.lswB ?_ h (by decide) (by decide) _
  exact Reacts.lsw (Reacts.refl s) h (by decide) (by decide) _

theorem reacts_hsTurnOn (c : Nat) (s : State) (h : c < 40) : Reacts s (hsTurnOn c s) := by
  unfold hsTurnOn
  refine Reacts.trans ?_ (reacts_setCause ..)
  refine Reacts.trans ?_ (reacts_setHs ..)
  refine Reacts.lswB ?_ h (by decide) (by decide) _
  exact Reacts.lswB (Reacts.refl s) h (by decide) (by decide) _

/-- A unit whose three registers lie in the blocks of a reaction. -/
structure UnitIn (u : UnitRef) : Prop where
  st : ∀ s t v, Reacts s t → Reacts s (t.wr u.st v)
  pend : ∀ s t v, Reacts s t → Reacts s (t.setB u.pend v)
  disc : ∀ s t v, Reacts s t → Reacts s (t.wr u.disc v)

theorem hsUnit_in {c : Nat} (h : c < 40) : UnitIn (hsUnit c) :=
  ⟨fun _ _ _ r => Reacts.lsw r h (by decide) (by decide) _, fun _ _ _ r => Reacts.lswB r h (by decide) (by decide) _,
    fun _ _ _ r => Reacts.lsw r h (by decide) (by decide) _⟩

theorem vplUnit_in {n : Nat} (h : n < 16) : UnitIn (vplUnit n) :=
  ⟨fun _ _ _ r => Reacts.vpl r h (by decide) (by decide) _, fun _ _ _ r => Reacts.vpl r h (by decide) (by decide) _,
    fun _ _ _ r => Reacts.vpl r h (by decide) (by decide) _⟩

theorem dpyUnit_in : UnitIn dpyUnit :=
  ⟨fun _ _ _ r => r.andWr _ _ (by decide) (by decide), fun _ _ _ r => r.andSetB _ _ (by decide) (by decide),
    fun _ _ _ r => r.andWr _ _ (by decide) (by decide)⟩

theorem reacts_unitEnable (u : UnitRef) (f : Bool) (s : State) (h : UnitIn u) : Reacts s (unitEnable u f s).2 := by
  unfold unitEnable
  dsimp only
  split
  · split
    · exact Reacts.refl s
    · exact h.st _ _ _ (Reacts.refl s)
  · split
    · split
      · split
        · exact Reacts.refl s
        · exact h.disc _ _ _ (Reacts.refl s)
      · split
        · exact Reacts.refl s
        · exact h.pend _ _ _ (Reacts.refl s)
    · exact Reacts.refl s

theorem reacts_unitDisable (u : UnitRef) (s : State) (h : UnitIn u) : Reacts s (unitDisable u s) := by
  unfold unitDisable
  dsimp only
  split
  · exact Reacts.refl s
  · split
    · exact h.pend _ _ _ (Reacts.refl s)
    · exact h.st _ _ _ (Reacts.refl s)

theorem reacts_unitForce (u : UnitRef) (s : State) (h : UnitIn u) : Reacts s (unitForce u s) := by
  unfold unitForce
  dsimp only
  split
  · exact h.pend _ _ _ (Reacts.refl s)
  · exact h.st _ _ _ (h.pend _ _ _ (Reacts.refl s))

/-- The state after a choice is a reaction where both choices are. -/
theorem Reacts.ite {s t u : State} {p : Prop} [Decidable p] (h : Reacts s t) (k : Reacts s u) :
    Reacts s (if p then t else u) := by
  split
  · exact h
  · exact k

theorem reacts_hsEnable (c : Nat) (s : State) (h : c < 40) : Reacts s (hsEnable c s).2 := by
  unfold hsEnable
  have h1 := reacts_unitEnable (hsUnit c) (s.hsForced c) s (hsUnit_in h)
  generalize unitEnable (hsUnit c) (s.hsForced c) s = x at h1
  obtain ⟨a, t⟩ := x
  dsimp only
  have h2 : Reacts s (if (decide (a = .accepted) || decide (a = .latched)) = true then
      t.setB (Reg.LSW.CH.STATUS.REQ_ON c) true else t) :=
    Reacts.ite (Reacts.lswB h1 h (by decide) (by decide) _) h1
  exact Reacts.ite (h2.trans (reacts_hsTurnOn c _ h)) h2

theorem reacts_hsDisable (c : Nat) (s : State) (h : c < 40) : Reacts s (hsDisable c s) := by
  unfold hsDisable
  dsimp only
  have h0 : Reacts s (s.setB (Reg.LSW.CH.STATUS.REQ_ON c) false) :=
    Reacts.lswB (Reacts.refl s) h (by decide) (by decide) _
  have h1 : Reacts s ((unitDisable (hsUnit c) (s.setB (Reg.LSW.CH.STATUS.REQ_ON c) false)).wr
      (Reg.LSW.CH.STATUS.RESTARTS c) 0) :=
    Reacts.lsw (h0.trans (reacts_unitDisable (hsUnit c) _ (hsUnit_in h))) h (by decide) (by decide) _
  exact Reacts.ite (h1.trans (reacts_hsDark c _ h)) h1

theorem reacts_hsForce (c : Nat) (s : State) (h : c < 40) : Reacts s (hsForce c s) :=
  (reacts_unitForce (hsUnit c) s (hsUnit_in h)).trans (reacts_hsDark c _ h)

theorem reacts_hsAuto (c : Nat) (s : State) (h : c < 40) : Reacts s (hsAuto c s) := by
  unfold hsAuto
  dsimp only
  refine Reacts.ite ?_ (Reacts.refl s)
  refine Reacts.trans ?_ (reacts_hsEnable c _ h)
  refine Reacts.ite ?_ (Reacts.refl s)
  refine Reacts.trans ?_ (reacts_setHs ..)
  exact Reacts.lsw (Reacts.refl s) h (by decide) (by decide) _

theorem reacts_hsDrive (c : Nat) (on : Bool) (s : State) : Reacts s (hsDrive c on s) := by
  unfold hsDrive
  split
  · exact Reacts.refl s
  · split
    · exact reacts_hsEnable c s (by omega)
    · exact reacts_hsDisable c s (by omega)

/-! ### Vehicle link and pilots -/

theorem reacts_vplEvent (n ev d w : Nat) (s : State) : Reacts s (vplEvent n ev d w s) :=
  reacts_push s 6 _ (by decide) (by decide)

theorem reacts_outEvent (n ev d w : Nat) (s : State) : Reacts s (outEvent n ev d w s) :=
  reacts_push s 4 _ (by decide) (by decide)

theorem reacts_vplEnter (n st : Nat) (s : State) (h : n < 16) : Reacts s (vplEnter n st s) := by
  unfold vplEnter
  dsimp only
  refine Reacts.trans ?_ (reacts_vplEvent ..)
  have h1 : Reacts s (s.wr (Reg.VPL.STATUS.STATE n) st) := Reacts.vpl (Reacts.refl s) h (by decide) (by decide) _
  have h2 : ∀ t, Reacts s t → Reacts s ((t.wr (Reg.VPL.EV_MAC_LO.BYTES n) 0).wr (Reg.VPL.EV_MAC_HI.BYTES n) 0) :=
    fun t ht => Reacts.vpl (Reacts.vpl ht h (by decide) (by decide) _) h (by decide) (by decide) _
  have h3 : ∀ t, Reacts s t → Reacts s (t.wr (Reg.VPL.STATUS.PROTO n) 0) :=
    fun t ht => Reacts.vpl ht h (by decide) (by decide) _
  have h4 := fun p [Decidable p] => Reacts.ite (p := p) h1 (h2 _ h1)
  exact Reacts.ite (h4 _) (h3 _ (h4 _))

theorem reacts_vplStarting (n : Nat) (s : State) (h : n < 16) : Reacts s (vplStarting n s) := by
  unfold vplStarting
  dsimp only
  refine Reacts.trans ?_ (reacts_vplEnter n 1 _ h)
  exact Reacts.trans (reacts_draw s 128) (reacts_setVpl ..)

theorem reacts_vplStopping (n : Nat) (s : State) (h : n < 16) : Reacts s (vplStopping n s) := by
  unfold vplStopping
  dsimp only
  exact Reacts.trans (reacts_setVpl ..) (reacts_vplEnter n 7 _ h)

theorem reacts_vplEnable (n : Nat) (s : State) (h : n < 16) : Reacts s (vplEnable n s) := by
  unfold vplEnable
  have h1 := reacts_unitEnable (vplUnit n) (s.vplForced n) s (vplUnit_in h)
  generalize unitEnable (vplUnit n) (s.vplForced n) s = x at h1
  obtain ⟨a, t⟩ := x
  dsimp only
  exact Reacts.ite (h1.trans (reacts_vplStarting n _ h)) (Reacts.ite (h1.trans (reacts_vplEvent ..)) h1)

theorem reacts_vplDisable (n : Nat) (s : State) (h : n < 16) : Reacts s (vplDisable n s) := by
  unfold vplDisable
  dsimp only
  have h1 := reacts_unitDisable (vplUnit n) s (vplUnit_in h)
  exact Reacts.ite (h1.trans (reacts_vplStopping n _ h)) h1

theorem reacts_vplForce (n : Nat) (s : State) (h : n < 16) : Reacts s (vplForce n s) := by
  unfold vplForce
  dsimp only
  have h1 := (vplUnit_in h).pend s s false (Reacts.refl s)
  exact Reacts.ite (h1.trans (reacts_vplStopping n _ h)) h1

theorem reacts_vplFollow (n : Nat) (s : State) (h : n < 16) : Reacts s (vplFollow n s) := by
  unfold vplFollow
  dsimp only
  refine Reacts.ite (Reacts.refl s) ?_
  refine Reacts.ite ?_ ?_
  · exact Reacts.trans (reacts_setVpl ..) (reacts_vplEnable n _ h)
  · exact Reacts.trans (reacts_setVpl ..) (reacts_vplDisable n _ h)

theorem reacts_pilotF (n : Nat) (s : State) (h : n < 16) : Reacts s (pilotF n s) := by
  unfold pilotF
  dsimp only
  refine Reacts.ite (reacts_setOut ..) ?_
  have h1 : ∀ x, Reacts s ((s.setOut n x).wr (Reg.OUT.STATUS.PILOT n) 5) := fun x =>
    Reacts.out (reacts_setOut s n x) h (by decide) (by decide) _
  exact Reacts.ite (h1 _) (Reacts.trans (h1 _) (reacts_outEvent ..))

theorem reacts_pilotApply (n : Nat) (s : State) (h : n < 16) : Reacts s (pilotApply n s) := by
  unfold pilotApply
  split
  · exact Reacts.refl s
  · dsimp only
    refine Reacts.trans ?_ (reacts_vplFollow n _ h)
    have h1 : ∀ m d, Reacts s ((s.wr (Reg.OUT.CP_MEAS.MODE n) m).wr (Reg.OUT.CP_MEAS.DUTY n) d) := fun m d =>
      Reacts.out (Reacts.out (Reacts.refl s) h (by decide) (by decide) _) h (by decide) (by decide) _
    exact Reacts.ite ((h1 _ _).trans (reacts_pilotF n _ h)) (h1 _ _)

/-! ### Outlets -/

theorem reacts_crlOutletStop (n r : Nat) (s : State) : Reacts s (crlOutletStop n r s) := by
  unfold crlOutletStop
  split
  · exact Reacts.refl s
  · dsimp only
    split
    · split <;> exact reacts_setCar ..
    · exact Reacts.refl s

theorem reacts_outEnter (n st : Nat) (s : State) (h : n < 16) : Reacts s (outEnter n st s) := by
  unfold outEnter
  dsimp only
  refine Reacts.trans ?_ (reacts_pilotApply n _ h)
  refine Reacts.trans ?_ (reacts_outEvent ..)
  have h1 : Reacts s (s.wr (Reg.OUT.STATUS.STATE n) st) := Reacts.out (Reacts.refl s) h (by decide) (by decide) _
  exact Reacts.ite h1 (h1.trans (reacts_setOut ..))

theorem reacts_coilsSet (n : Nat) (on : Bool) (s : State) : Reacts s (coilsSet n on s) := by
  unfold coilsSet
  dsimp only
  refine Reacts.trans ?_ (reacts_setOut ..)
  exact Reacts.trans (reacts_hsDrive _ on s) (reacts_hsDrive _ on _)

theorem reacts_outOpen (n : Nat) (s : State) (h : n < 16) : Reacts s (outOpen n s) := by
  unfold outOpen
  exact Reacts.trans (reacts_coilsSet n false s) (reacts_outEnter n 9 _ h)

theorem reacts_outClearPend (n : Nat) (s : State) (h : n < 16) : Reacts s (outClearPend n s) := by
  unfold outClearPend
  exact Reacts.out (Reacts.outB (Reacts.refl s) h (by decide) (by decide) _) h (by decide) (by decide) _

theorem reacts_outForce (n r : Nat) (s : State) (h : n < 16) : Reacts s (outForce n r s) := by
  unfold outForce
  dsimp only
  refine Reacts.ite (Reacts.refl s) ?_
  have h1 := reacts_outClearPend n s h
  refine Reacts.ite h1 ?_
  refine Reacts.trans ?_ (reacts_outOpen n _ h)
  refine Reacts.trans ?_ (reacts_crlOutletStop ..)
  exact Reacts.out h1 h (by decide) (by decide) _

/-! ### Display and reader -/

theorem reacts_dpyShow (s : State) : Reacts s (dpyShow s) := by
  unfold dpyShow
  dsimp only
  have h1 : ∀ b, Reacts s (s.setB Reg.DPY.STATUS.BLACK b) := fun b =>
    (Reacts.refl s).andSetB Reg.DPY.STATUS.BLACK b (by decide) (by decide)
  refine Reacts.ite ?_ (h1 _)
  exact Reacts.trans ((h1 _).andWr Reg.DPY.STATUS.RAILS _ (by decide) (by decide)) (reacts_mapDpy ..)

theorem reacts_dpyTurnOn (s : State) : Reacts s (dpyTurnOn s) := by
  unfold dpyTurnOn
  refine Reacts.trans ?_ (reacts_dpyShow _)
  exact Reacts.trans ((Reacts.refl s).andWr Reg.DPY.STATUS.RAILS _ (by decide) (by decide)) (reacts_mapDpy ..)

theorem reacts_dpyEnable (s : State) : Reacts s (dpyEnable s) := by
  unfold dpyEnable
  have h1 := reacts_unitEnable dpyUnit (s.dpyCauses ≠ 0) s dpyUnit_in
  generalize unitEnable dpyUnit (decide (s.dpyCauses ≠ 0)) s = x at h1
  obtain ⟨a, t⟩ := x
  dsimp only
  have h2 : Reacts s (if (decide (a = .accepted) || decide (a = .latched)) = true then
      t.setB Reg.DPY.STATUS.REQ_ON true else t) :=
    Reacts.ite (h1.andSetB _ _ (by decide) (by decide)) h1
  exact Reacts.ite (h2.trans (reacts_dpyTurnOn _)) h2

theorem reacts_dpyJudge (s : State) : Reacts s (dpyJudge s) := by
  unfold dpyJudge
  dsimp only
  have h1 : ∀ f v, Reacts s ((s.mapDpy f).wr Reg.DPY.STATUS.CAUSE v) := fun f v =>
    (reacts_mapDpy s f).andWr Reg.DPY.STATUS.CAUSE v (by decide) (by decide)
  refine Reacts.ite ?_ (Reacts.ite ?_ (h1 _ _))
  · exact Reacts.trans ((h1 _ _).trans (reacts_unitForce dpyUnit _ dpyUnit_in)) (reacts_dpyShow _)
  · exact (h1 _ _).trans (reacts_dpyEnable _)

theorem reacts_nfcDetect (s : State) : Reacts s (nfcDetect s) := by
  unfold nfcDetect
  refine Reacts.trans ((Reacts.refl s).andWr Reg.NFC.STATUS.STATE 1 (by decide) (by decide)) ?_
  exact Reacts.of _ _ rfl rfl rfl rfl

theorem reacts_nfcJudge (s : State) : Reacts s (nfcJudge s) := by
  unfold nfcJudge
  refine Reacts.ite (Reacts.ite (reacts_nfcDetect s) (Reacts.refl s)) ?_
  exact (Reacts.refl s).andWr Reg.NFC.STATUS.STATE 0 (by decide) (by decide)

/-! ### The end of a step -/

/-- What the end of a step keeps: every register outside the blocks of a reaction. -/
structure Ends (s t : State) : Prop where
  regs : SameRegs reactBlock s t
  todo : MinorTodo t
  rest : t.unreacted = s.unreacted

theorem Ends.trans {s t u : State} (h : Ends s t) (k : Ends t u) : Ends s u := ⟨h.regs.trans k.regs, k.todo, k.rest.trans h.rest⟩

theorem Reacts.ends {s t : State} (h : Reacts s t) (m : MinorTodo s) : Ends s t := ⟨h.regs, h.todo m, h.rest⟩

theorem reacts_pilotsApply (s : State) : Reacts s (pilotsApply s) := reacts_forEach 16 _ (fun i t h => reacts_pilotApply i t h) s

theorem modeFollow_ends (s : State) (m : MinorTodo s) (h : s.sealFine = true) :
    Ends s (modeFollow s) ∧ (modeFollow s).moved = false := by
  have hs : sealCheck s = dropDegr 0x7405 0 (setCause 0x7405 0 false s) := by
    unfold State.sealFine at h
    unfold sealCheck
    simp only [Bool.not_eq_true'] at h
    simp only [h, Bool.false_and, Bool.false_eq_true, if_false, Bool.not_false, if_true]
  unfold modeFollow
  rw [hs]
  generalize hu : ({ dropDegr 0x7405 0 (setCause 0x7405 0 false s) with moved := false } : State) = u
  have h0 : Ends s u := by
    subst hu
    exact ⟨fun f _ _ => rfl, m, rfl⟩
  have hm : u.moved = false := by subst hu; rfl
  have h1 : Reacts u (nfcJudge (dpyJudge (forEach 40 hsAuto (pilotsApply u)))) :=
    (reacts_pilotsApply u).trans ((reacts_forEach 40 _ (fun i t hi => reacts_hsAuto i t hi) _).trans
      ((reacts_dpyJudge _).trans (reacts_nfcJudge _)))
  exact ⟨h0.trans (h1.ends h0.todo), h1.moved.trans hm⟩

theorem SameRegs.sealFine {s t : State} (h : SameRegs reactBlock s t) : t.sealFine = s.sealFine := by
  unfold State.sealFine State.bit State.mode
  rw [h Reg.SAF.STATUS.SEAL_OPEN (by decide) (by decide), h Reg.SAF.STATUS.SEAL_INVALID (by decide) (by decide),
    h Reg.MODE.STATUS.MODE (by decide) (by decide)]

theorem settleRounds_ends : ∀ (n : Nat) (s : State), MinorTodo s → s.sealFine = true → Ends s (settleRounds n s) := by
  intro n
  induction n with
  | zero => intro s m _; exact ⟨SameRegs.refl _ s, m, rfl⟩
  | succ n ih =>
    intro s m h
    unfold settleRounds
    dsimp only
    have h1 := (books_raiseTodo 64 s m).reacts.ends m
    split
    · have h2 := modeFollow_ends (raiseTodo 64 s) h1.todo (by rw [h1.regs.sealFine]; exact h)
      have h3 := ih (modeFollow (raiseTodo 64 s)) h2.1.todo (by rw [(h1.trans h2.1).regs.sealFine]; exact h)
      exact (h1.trans h2.1).trans h3
    · exact h1

theorem reacts_barHs (c : Nat) (s : State) (h : c < 40) : Reacts s (barHs c s) := by
  unfold barHs
  split
  · exact reacts_hsForce c s h
  · exact Reacts.refl s

theorem reacts_barCoils (n : Nat) (s : State) : Reacts s (barCoils n s) := by
  unfold barCoils
  split
  · exact reacts_setOut ..
  · exact Reacts.refl s

theorem reacts_permitOutputs (s : State) : Reacts s (permitOutputs s) := by
  unfold permitOutputs
  split
  · exact (reacts_lseOff s).trans ((reacts_forEach 16 _ (fun i t _ => reacts_barCoils i t) _).trans
      (reacts_forEach 40 _ (fun i t hi => reacts_barHs i t hi) _))
  · exact Reacts.refl s

/-- Where no fault above Minor waits and the safety seal gives no fault, the end of a step changes registers in the
blocks of a reaction only: in particular, not the mode. -/
theorem settle_ends (s : State) (m : MinorTodo s) (h : s.sealFine = true) : Ends s (settle s) := by
  unfold settle
  have h1 := settleRounds_ends 8 s m h
  have h2 := (books_drainAt256 (settleRounds 8 s)).reacts.ends h1.todo
  have h3 := (books_raiseTodo 64 _ h2.todo).reacts.ends h2.todo
  have h4 := (reacts_permitOutputs (raiseTodo 64 (settleRounds 8 s).drainAt256)).ends h3.todo
  have h5 := ((h1.trans h2).trans h3).trans h4
  dsimp only
  generalize permitOutputs (raiseTodo 64 (settleRounds 8 s).drainAt256) = u at h5
  exact ⟨fun f l hb => h5.regs f l hb, h5.todo, h5.rest⟩

theorem settle_mode (s : State) (m : MinorTodo s) (h : s.sealFine = true) : (settle s).mode = s.mode :=
  (settle_ends s m h).regs Reg.MODE.STATUS.MODE (by decide) (by decide)

end Sys2Proof.Machine
end

