-- ==== Sys2Proof/Laws/Modes.lean ====
section
/-!
SUPPORT. What entering a mode and raising a Major or Grave fault change (R60, R355, R495).
-/
namespace Sys2Proof.Machine

theorem SameRegs.widen {p q : Nat → Bool} {s t : State} (h : SameRegs p s t) (w : ∀ b, q b = false → p b = false) :
    SameRegs q s t := fun f l hb => h f l (w _ hb)

theorem modeBlock_react (b : Nat) (h : modeBlock b = false) : reactBlock b = false := by
  unfold modeBlock at h
  simp only [Bool.or_eq_false_iff] at h
  exact h.1.1.1

/-- What a change of mode and the safe outputs leave as it was. -/
structure ModeFrame (s t : State) : Prop where
  regs : SameRegs modeBlock s t
  rest : t.unreacted = s.unreacted

theorem ModeFrame.trans {s t u : State} (h : ModeFrame s t) (k : ModeFrame t u) : ModeFrame s u :=
  ⟨h.regs.trans k.regs, k.rest.trans h.rest⟩

theorem Reacts.modeFrame {s t : State} (h : Reacts s t) : ModeFrame s t := ⟨h.regs.widen modeBlock_react, h.rest⟩

theorem ModeFrame.wr (s : State) (g : Fld) (v : Nat) (hb : modeBlock (g.addr / 4096) = true) (hl : g.lo < 32) :
    ModeFrame s (s.wr g v) := ⟨SameRegs.wr s g v hb hl, rfl⟩

/-- The fields that a change of mode, and what follows it, write once: each keeps its value through every reaction. -/
structure Holds (m prev : Nat) (s : State) : Prop where
  mode : s.mode = m
  prev : s.rd Reg.MODE.STATUS.PREV = prev

theorem Holds.reacts {m p : Nat} {s t : State} (h : Holds m p s) (r : Reacts s t) : Holds m p t :=
  ⟨(r.regs Reg.MODE.STATUS.MODE (by decide) (by decide)).trans h.mode,
    (r.regs Reg.MODE.STATUS.PREV (by decide) (by decide)).trans h.prev⟩

theorem Holds.ends {m p : Nat} {s t : State} (h : Holds m p s) (r : Ends s t) : Holds m p t :=
  ⟨(r.regs Reg.MODE.STATUS.MODE (by decide) (by decide)).trans h.mode,
    (r.regs Reg.MODE.STATUS.PREV (by decide) (by decide)).trans h.prev⟩

/-- A change of mode shows the new mode and the one it leaves, and nothing above Minor comes to wait. -/
theorem setMode_holds (m trig code : Nat) (s : State) (hm : m < 16) (hs : s.mode < 16) (hne : s.mode ≠ m) :
    Holds m s.mode (setMode m trig code s) ∧ (MinorTodo s → MinorTodo (setMode m trig code s)) ∧
      ModeFrame s (setMode m trig code s) := by
  unfold setMode
  dsimp only
  rw [if_neg hne]
  generalize hu : ({ (((s.wr Reg.MODE.STATUS.PREV s.mode).wr Reg.MODE.STATUS.MODE m).setFlag Reg.HP.IRQ_STATUS.SRC 2 true)
    with
    sys := { (((s.wr Reg.MODE.STATUS.PREV s.mode).wr Reg.MODE.STATUS.MODE m).setFlag Reg.HP.IRQ_STATUS.SRC 2 true).sys with
      baseMode := if (decide (m = 8) || decide (m = 9) || decide (m = 10)) = true then
        (((s.wr Reg.MODE.STATUS.PREV s.mode).wr Reg.MODE.STATUS.MODE m).setFlag Reg.HP.IRQ_STATUS.SRC 2 true).sys.baseMode
        else m }
    moved := true } : State) = u
  have hr : u.regs = (((s.wr Reg.MODE.STATUS.PREV s.mode).wr Reg.MODE.STATUS.MODE m).setFlag
      Reg.HP.IRQ_STATUS.SRC 2 true).regs := by subst hu; rfl
  have ht : u.flt = s.flt := by subst hu; rfl
  have h1 : Holds m s.mode u := by
    constructor
    · show u.rd Reg.MODE.STATUS.MODE = m
      rw [rd_congr hr]
      unfold State.setFlag
      rw [rd_wr_ne _ _ _ _ (by decide), rd_wr_same]
      exact Nat.mod_eq_of_lt hm
    · rw [rd_congr hr]
      unfold State.setFlag
      rw [rd_wr_ne _ _ _ _ (by decide), rd_wr_ne _ _ _ _ (by decide), rd_wr_same]
      exact Nat.mod_eq_of_lt hs
  have h2 : SameRegs modeBlock s u := by
    intro f l hb
    rw [rd_congr hr]
    have e1 := SameRegs.wr (b := modeBlock) s Reg.MODE.STATUS.PREV s.mode (by decide) (by decide)
    have e2 := SameRegs.wr (b := modeBlock) (s.wr Reg.MODE.STATUS.PREV s.mode) Reg.MODE.STATUS.MODE m (by decide) (by decide)
    have e3 := SameRegs.wr (b := modeBlock) ((s.wr Reg.MODE.STATUS.PREV s.mode).wr Reg.MODE.STATUS.MODE m)
      Reg.HP.IRQ_STATUS.SRC (putBit (((s.wr Reg.MODE.STATUS.PREV s.mode).wr Reg.MODE.STATUS.MODE m).rd
        Reg.HP.IRQ_STATUS.SRC) 2 true) (by decide) (by decide)
    exact (e1.trans (e2.trans e3)) f l hb
  have hb := (books_record u 0x05 (payloadOf [(0, s.mode), (1, m), (2, trig), (4, code)])).reacts
  refine ⟨h1.reacts hb, fun k => hb.todo (fun x hx => k x (by rw [← ht]; exact hx)),
    ModeFrame.trans ⟨h2, ?_⟩ hb.modeFrame⟩
  subst hu
  rfl

/-- The safe outputs of a mode other than LOCKDOWN are a reaction. -/
theorem reacts_outputsSafe (s : State) (h : s.mode ≠ 11) : Reacts s (outputsSafe s) := by
  unfold outputsSafe
  dsimp only
  have h1 : Reacts s (forEach 16 (fun n s => outForce n 14 s) (lseOff s)) :=
    (reacts_lseOff s).trans (reacts_forEach 16 _ (fun i t hi => reacts_outForce i 14 t hi) _)
  have h2 : ∀ t, Reacts t (forEach 40 (fun c s =>
      let s := s.setB (Reg.LSW.CH.STATUS.REQ_ON c) false
      if s.hsModeForced c then hsForce c s else s) t) := by
    intro t
    refine reacts_forEach 40 _ (fun i u hi => ?_) t
    dsimp only
    have e : Reacts u (u.setB (Reg.LSW.CH.STATUS.REQ_ON i) false) :=
      Reacts.lswB (Reacts.refl u) hi (by decide) (by decide) _
    exact Reacts.ite (e.trans (reacts_hsForce i _ hi)) e
  have h3 : ∀ t, Reacts t ((forEach 16 (fun n s => s.setB (Reg.VPL.PEND.PEND n) false) t).setB
      Reg.DPY.PEND.PEND false) := by
    intro t
    refine Reacts.andSetB ?_ _ _ (by decide) (by decide)
    exact reacts_forEach 16 _ (fun i u hi => Reacts.vpl (Reacts.refl u) hi (by decide) (by decide) _) t
  have h4 := h1.trans ((h2 _).trans ((h3 _).trans (reacts_pilotsApply _)))
  rw [if_neg]
  · exact h4
  · have : _ = s.mode := h4.regs Reg.MODE.STATUS.MODE (by decide) (by decide)
    intro hc
    exact h (this.symm.trans hc)

/-- The safe outputs of any mode: registers of the mode's blocks only, and not the mode. -/
theorem outputsSafe_holds (m p : Nat) (s : State) (h : Holds m p s) :
    Holds m p (outputsSafe s) ∧ (MinorTodo s → MinorTodo (outputsSafe s)) ∧ ModeFrame s (outputsSafe s) := by
  by_cases hm : s.mode = 11
  · unfold outputsSafe
    dsimp only
    have h1 : Reacts s (forEach 16 (fun n s => outForce n 14 s) (lseOff s)) :=
      (reacts_lseOff s).trans (reacts_forEach 16 _ (fun i t hi => reacts_outForce i 14 t hi) _)
    have h2 : ∀ t, Reacts t (forEach 40 (fun c s =>
        let s := s.setB (Reg.LSW.CH.STATUS.REQ_ON c) false
        if s.hsModeForced c then hsForce c s else s) t) := by
      intro t
      refine reacts_forEach 40 _ (fun i u hi => ?_) t
      dsimp only
      have e : Reacts u (u.setB (Reg.LSW.CH.STATUS.REQ_ON i) false) :=
        Reacts.lswB (Reacts.refl u) hi (by decide) (by decide) _
      exact Reacts.ite (e.trans (reacts_hsForce i _ hi)) e
    have h3 : ∀ t, Reacts t ((forEach 16 (fun n s => s.setB (Reg.VPL.PEND.PEND n) false) t).setB
        Reg.DPY.PEND.PEND false) := by
      intro t
      refine Reacts.andSetB ?_ _ _ (by decide) (by decide)
      exact reacts_forEach 16 _ (fun i u hi => Reacts.vpl (Reacts.refl u) hi (by decide) (by decide) _) t
    have h4 := h1.trans ((h2 _).trans ((h3 _).trans (reacts_pilotsApply _)))
    generalize pilotsApply _ = u at h4
    have hu : u.mode = 11 := (h4.regs Reg.MODE.STATUS.MODE (by decide) (by decide)).trans hm
    rw [if_pos hu]
    have key : ∀ v, Holds m p v → (MinorTodo s → MinorTodo v) → ModeFrame s v →
        Holds m p (forEach 16 vplForce v) ∧ (MinorTodo s → MinorTodo (forEach 16 vplForce v)) ∧
          ModeFrame s (forEach 16 vplForce v) := by
      intro v hv tv rv
      have k := reacts_forEach 16 vplForce (fun i t hi => reacts_vplForce i t hi) v
      exact ⟨hv.reacts k, fun x => k.todo (tv x), rv.trans k.modeFrame⟩
    split
    · refine key _ ?_ (fun x => h4.todo x) ?_
      · have k := h.reacts h4
        exact ⟨(rd_wr_ne _ _ _ _ (by decide)).trans k.mode, (rd_wr_ne _ _ _ _ (by decide)).trans k.prev⟩
      · exact h4.modeFrame.trans (ModeFrame.wr u Reg.BBN.STATUS.ROLE 3 (by decide) (by decide))
    · exact key _ (h.reacts h4) (fun x => h4.todo x) h4.modeFrame
  · have k := reacts_outputsSafe s hm
    exact ⟨h.reacts k, k.todo, k.modeFrame⟩

theorem modeBlock_book (b : Nat) (h : modeBlock b = false) : bookBlock b = false := by
  have := modeBlock_react b h
  unfold reactBlock at this
  simp only [Bool.or_eq_false_iff] at this
  exact this.1.1.1.1.1

theorem AlarmRegs.trans {s t u : State} (h : AlarmRegs s t) (k : AlarmRegs t u) : AlarmRegs s u :=
  fun f l hb hf hl => (k f l hb hf hl).trans (h f l hb hf hl)

/-- What a Major or Grave fault leaves as it was. -/
structure AlarmFrame (s t : State) : Prop where
  regs : AlarmRegs s t
  rest : t.unreacted = s.unreacted

theorem AlarmFrame.trans {s t u : State} (h : AlarmFrame s t) (k : AlarmFrame t u) : AlarmFrame s u :=
  ⟨h.regs.trans k.regs, k.rest.trans h.rest⟩

theorem ModeFrame.alarm {s t : State} (h : ModeFrame s t) : AlarmFrame s t := ⟨fun f l hb _ _ => h.regs f l hb, h.rest⟩

theorem Books.alarm {s t : State} (h : Books s t) : AlarmFrame s t := h.reacts.modeFrame.alarm

/-- What follows the records of a Major or Grave fault before the mode changes: the books, ERR_N and the force lines. -/
def alarm (code cls : Nat) (s : State) : State :=
  let s := (s.setB Reg.FLT.STATUS.IRQ true).startDrain
  let s := if cls = 2 then s.inc Reg.FLT.COUNTS.MAJOR else s
  let s := (s.wr Reg.FLT.LAST.CODE code).setB Reg.FLT.STATUS.ERR_LOW true
  forceLines { s with
    flt := { s.flt with errMin := true }
    cat := { s.cat with credit := s.cat.credit.map fun c => { c with spoiled := true } } }

/-- The alarm sets the force lines; it reaches the books and SAF alone, and changes no mode. -/
theorem alarm_spec (code cls : Nat) (s : State) :
    (alarm code cls s).mode = s.mode ∧ (alarm code cls s).rd Reg.SAF.STATUS.FORCE = 1 ∧
      (MinorTodo s → MinorTodo (alarm code cls s)) ∧
      AlarmFrame s (alarm code cls s) := by
  have h1 : Books s ((s.setB Reg.FLT.STATUS.IRQ true).startDrain) :=
    ((Books.refl s).andSetB Reg.FLT.STATUS.IRQ true (by decide) (by decide)).trans (books_startDrain _)
  have h2 : Books s (if cls = 2 then ((s.setB Reg.FLT.STATUS.IRQ true).startDrain).inc Reg.FLT.COUNTS.MAJOR
      else (s.setB Reg.FLT.STATUS.IRQ true).startDrain) := by
    split
    · exact h1.andInc _ (by decide) (by decide)
    · exact h1
  unfold alarm
  dsimp only
  generalize (if cls = 2 then ((s.setB Reg.FLT.STATUS.IRQ true).startDrain).inc Reg.FLT.COUNTS.MAJOR
      else (s.setB Reg.FLT.STATUS.IRQ true).startDrain) = u at h2
  have h3 : Books s ((u.wr Reg.FLT.LAST.CODE code).setB Reg.FLT.STATUS.ERR_LOW true) :=
    (h2.andWr _ _ (by decide) (by decide)).andSetB _ _ (by decide) (by decide)
  generalize (u.wr Reg.FLT.LAST.CODE code).setB Reg.FLT.STATUS.ERR_LOW true = v at h3
  generalize hw : ({ v with
    flt := { v.flt with errMin := true }
    cat := { v.cat with credit := v.cat.credit.map fun c => { c with spoiled := true } } } : State) = w
  have hr : w.regs = v.regs := by subst hw; rfl
  have ht : w.flt.todo = v.flt.todo := by subst hw; rfl
  have h4 : SameRegs bookBlock s w := by
    intro f l hb
    rw [rd_congr hr]
    exact h3.booked.regs f l hb
  have hx : w.unreacted = s.unreacted := by
    refine Eq.trans ?_ h3.booked.unreacted
    subst hw
    rfl
  have h5 : AlarmRegs s (w.wr Reg.SAF.STATUS.FORCE 1) := fun f l hb hf _ =>
    (rd_wr_ne _ _ _ _ hf).trans (h4 f l (modeBlock_book _ hb))
  refine ⟨?_, ?_, ?_, h5, ?_⟩
  · exact (mode_wr w Reg.SAF.STATUS.FORCE 1 (by decide)).trans (mode_same h4 rfl)
  · exact (rd_wr_same w Reg.SAF.STATUS.FORCE 1).trans (by decide)
  · intro k x hx
    exact h3.todo k x (by rw [← ht]; exact hx)
  · exact hx

theorem reactTo_major (code : Nat) (s : State) (h2 : 2 ≤ s.mode) (h9 : s.mode ≤ 9) :
    reactTo code 2 s = enterSafeHold code (alarm code 2 s) := by
  have h := (alarm_spec code 2 s).1
  unfold reactTo
  dsimp only
  rw [if_neg (by decide), if_neg (by decide), if_pos rfl]
  show (if (decide (2 ≤ (alarm code 2 s).mode) && decide ((alarm code 2 s).mode ≤ 9)) = true then
    enterSafeHold code (alarm code 2 s) else alarm code 2 s) = _
  rw [h, if_pos (by simp only [Bool.and_eq_true, decide_eq_true_eq]; exact ⟨h2, h9⟩)]

theorem reactTo_grave (code : Nat) (s : State) (h1 : 1 ≤ s.mode) (h10 : s.mode ≤ 10) :
    reactTo code 3 s = enterLockdown 1 code (alarm code 3 s) := by
  have h := (alarm_spec code 3 s).1
  unfold reactTo
  dsimp only
  rw [if_neg (by decide), if_neg (by decide), if_neg (by decide)]
  show (if (decide (1 ≤ (alarm code 3 s).mode) && decide ((alarm code 3 s).mode ≤ 10)) = true then
    enterLockdown 1 code (alarm code 3 s) else _) = _
  rw [h, if_pos (by simp only [Bool.and_eq_true, decide_eq_true_eq]; exact ⟨h1, h10⟩)]

/-- What a Major or Grave fault leaves: its mode with the one it left, the force lines active, nothing above Minor
waiting. -/
structure Alarmed (m : Nat) (s t : State) : Prop where
  holds : Holds m s.mode t
  force : t.rd Reg.SAF.STATUS.FORCE = 1
  todo : MinorTodo s → MinorTodo t
  frame : AlarmFrame s t

/-- A Major fault in modes 2 to 9 enters SAFE_HOLD (R60, R495). -/
theorem raise1_major (code loc detail : Nat) (inj : Bool) (s : State) (hc : faultClass code = 2) (h2 : 2 ≤ s.mode) (h9 : s.mode ≤ 9) :
    Alarmed 10 s (raise1 code loc detail inj s) := by
  have b1 := books_collect code loc detail inj s
  have hm : (collect code loc detail inj s).mode = s.mode := mode_same b1.booked.regs rfl
  unfold raise1
  rw [hc, reactTo_major code _ (by omega) (by omega)]
  generalize collect code loc detail inj s = u at b1 hm
  have a := alarm_spec code 2 u
  unfold enterSafeHold
  have k := setMode_holds 10 1 code (alarm code 2 u) (by decide) (by rw [a.1]; omega) (by rw [a.1]; omega)
  have o := outputsSafe_holds 10 _ _ k.1
  have d := books_drainAt256 (outputsSafe (setMode 10 1 code (alarm code 2 u)))
  have e : (alarm code 2 u).mode = s.mode := a.1.trans hm
  rw [e] at o
  refine ⟨o.1.reacts d.reacts, ?_, fun x => d.todo (o.2.1 (k.2.1 (a.2.2.1 (b1.todo x)))), ?_⟩
  · rw [d.booked.regs _ (by decide) (by decide), o.2.2.regs _ (by decide) (by decide),
      k.2.2.regs _ (by decide) (by decide)]
    exact a.2.1
  · exact b1.alarm.trans (a.2.2.2.trans (k.2.2.alarm.trans (o.2.2.alarm.trans d.alarm)))

/-- A Grave fault in modes 1 to 10 enters LOCKDOWN with the latches set (R60, R355, R495). -/
theorem raise1_grave (code loc detail : Nat) (inj : Bool) (s : State) (hc : faultClass code = 3) (h1 : 1 ≤ s.mode) (h10 : s.mode ≤ 10) :
    Alarmed 11 s (raise1 code loc detail inj s) ∧ (raise1 code loc detail inj s).rd Reg.SAF.STATUS.LATCHED = 1 := by
  have b1 := books_collect code loc detail inj s
  have hm : (collect code loc detail inj s).mode = s.mode := mode_same b1.booked.regs rfl
  unfold raise1
  rw [hc, reactTo_grave code _ (by omega) (by omega)]
  generalize collect code loc detail inj s = u at b1 hm
  have a := alarm_spec code 3 u
  unfold enterLockdown
  generalize hv : ((alarm code 3 u).setB Reg.FLT.STATUS.LATCH true).setB Reg.SAF.STATUS.LATCHED true = v
  have e : v.mode = s.mode := by
    subst hv
    exact (rd_setB_ne _ _ _ _ (by decide)).trans ((rd_setB_ne _ _ _ _ (by decide)).trans (a.1.trans hm))
  have hl : v.rd Reg.SAF.STATUS.LATCHED = 1 := by
    subst hv
    exact (rd_wr_same _ Reg.SAF.STATUS.LATCHED 1).trans (by decide)
  have hf : v.rd Reg.SAF.STATUS.FORCE = 1 := by
    subst hv
    exact (rd_setB_ne _ _ _ _ (by decide)).trans ((rd_setB_ne _ _ _ _ (by decide)).trans a.2.1)
  have hr : AlarmFrame (alarm code 3 u) v := by
    subst hv
    refine ⟨fun f l hb _ hn => ?_, rfl⟩
    exact (rd_setB_ne _ _ _ _ hn).trans (rd_setB_ne _ _ _ _ (key_ne l (by decide) (fun h => by
      rw [h] at hb; exact absurd hb (by decide))))
  have ht : MinorTodo (alarm code 3 u) → MinorTodo v := by
    subst hv
    exact id
  have k := setMode_holds 11 1 code v (by decide) (by omega) (by omega)
  have o := outputsSafe_holds 11 _ _ k.1
  have d := books_drainAt256 (outputsSafe (setMode 11 1 code v))
  rw [e] at o
  refine ⟨⟨o.1.reacts d.reacts, ?_, fun x => d.todo (o.2.1 (k.2.1 (ht (a.2.2.1 (b1.todo x))))), ?_⟩, ?_⟩
  · rw [d.booked.regs _ (by decide) (by decide), o.2.2.regs _ (by decide) (by decide),
      k.2.2.regs _ (by decide) (by decide)]
    exact hf
  · exact b1.alarm.trans (a.2.2.2.trans (hr.trans (k.2.2.alarm.trans (o.2.2.alarm.trans d.alarm))))
  · rw [d.booked.regs _ (by decide) (by decide), o.2.2.regs _ (by decide) (by decide),
      k.2.2.regs _ (by decide) (by decide)]
    exact hl

end Sys2Proof.Machine
end

