-- ==== Sys2Proof/Laws/Commands.lean ====
section
/-!
SUPPORT. What a command answers in a calm state, by the way its effect ends: writes alone, an item posted, a record, a
fault of each class.
-/
namespace Sys2Proof.Machine

/-- A state that has nothing left to do is what the step answers. -/
theorem done_still {s : State} (h : Still s) : done s = .next s := by
  unfold done
  rw [settle_still h]

/-- An event of the core die acts in a calm state. -/
theorem live_calm {s : State} (h : Calm s) (f : State → State) : live f s = f s := by
  unfold live
  rw [h.run, if_pos rfl]

/-- A write at a sufficient level in a calm state is its effect, settled. -/
theorem go_gated {s : State} (h : Calm s) {c : Instr} {a : Agent} {n : Nat} {f : State → State} (hl : n ≤ s.level a)
    (e : exec c s = done (gated a n f s)) : exec c s = done (f s) := by
  rw [e, gated_calm h a n f hl]

/-- An event of the core die in a calm state is its effect, settled. -/
theorem go_live {s : State} (h : Calm s) {c : Instr} {f : State → State} (e : exec c s = done (live f s)) :
    exec c s = done (f s) := by
  rw [e, live_calm h]

/-- Opening an entry rests on the open table alone. -/
theorem Opens.congr {c : Nat} {s t : State} (h : Opens c s) (e : t.flt.table = s.flt.table) : Opens c t :=
  ⟨by rw [e]; exact h.minor, by rw [e]; exact h.fresh, by rw [e]; exact h.room⟩

/-- A crossing of a watermark keeps a state calm. -/
theorem Calm.crossing {s : State} (h : Calm s) (n was : Nat) (hn : n < 32) : Calm (s.crossing n was) := by
  unfold State.crossing
  dsimp only
  split
  · have h1 : Calm s.recMs.2 := h.congr rfl rfl rfl rfl rfl rfl rfl
    refine Calm.wr (Calm.wr (Calm.wr (Calm.setB h1 _ _ ?_ ?_) _ _ ?_ ?_) _ _ ?_ ?_) _ _ ?_ ?_ <;>
      · simp only [Fld.key]
        omega
  · exact h

/-- A queue other than the recorder's replaced keeps a state calm. -/
theorem Calm.setQ {s : State} (h : Calm s) (n : Nat) (x : Queue) (hn : n ≠ 15) : Calm (s.setQ n x) :=
  ⟨h.run, h.low, h.high, h.todo, h.still, h.pushed, h.kept, by rw [q_setQ_ne _ _ _ _ (by omega)]; exact h.room, h.cap⟩

/-- An item accepted by a queue other than the recorder's keeps a state calm. -/
theorem Calm.qAccept {s : State} (h : Calm s) (n : Nat) (i : Item) (hn : n < 32) (h15 : n ≠ 15) :
    Calm (s.qAccept n i) := (h.setQ n _ h15).crossing n _ hn

/-- The state with other marks of the step's pushes. -/
def marked (p : List Nat) (s : State) : State := { s with pushed := p }

theorem crossing_pushed (s : State) (p : List Nat) (n was : Nat) :
    ({ s with pushed := p } : State).crossing n was = { s.crossing n was with pushed := p } := by
  show (marked p s).crossing n was = marked p (s.crossing n was)
  unfold State.crossing
  dsimp only
  rw [apply_ite (marked p)]
  rfl

theorem qAccept_pushed (s : State) (p : List Nat) (n : Nat) (i : Item) :
    ({ s with pushed := p } : State).qAccept n i = { s.qAccept n i with pushed := p } :=
  crossing_pushed (s.setQ n ((s.q n).put i)) p n _

/-- Where nothing waits, the end of a step clears the marks of its pushes and changes nothing else. -/
theorem settle_marks {u : State} (ht : u.flt.todo = []) (hm : u.moved = false) (hq : (u.q 15).level < 256)
    (ho : u.outputsBarred = false) : settle u = { u with pushed := [] } := by
  have h1 : ∀ n, raiseTodo n u = u := by
    intro n
    cases n with
    | zero => rfl
    | succ n =>
      unfold raiseTodo
      rw [ht]
  have h2 : settleRounds 8 u = u := by
    unfold settleRounds
    simp only [h1, hm]
    rfl
  have h3 : u.drainAt256 = u := by
    unfold State.drainAt256
    rw [if_neg (by omega)]
  unfold settle
  simp only [h2, h3, h1]
  unfold permitOutputs
  rw [ho]
  rfl

/-- The marks of a step's pushes are cleared at its end. -/
theorem settle_pushed {s : State} (h : Calm s) (p : List Nat) : settle { s with pushed := p } = s := by
  have hs := h.still'
  rw [settle_marks (u := { s with pushed := p }) hs.todo hs.still hs.room hs.open_]
  have := hs.pushed
  cases s
  simp_all

/-- An item posted where the queue takes it. -/
theorem hwPush0_calm {s : State} (h : Calm s) (n : Nat) (i : Item) (hr : s.qRefuses n = false) :
    s.hwPush0 n i = { s.qAccept n i with pushed := [n] } := by
  have hr' : (marked [n] s).qRefuses n = false := hr
  unfold State.hwPush0
  simp only [h.pushed, List.contains_nil, Bool.false_eq_true, if_false]
  split
  · rename_i e
    exact absurd (hr'.symm.trans e) (by decide)
  · exact qAccept_pushed s [n] n i

/-- A command that ends with an item posted to a queue that takes it. -/
theorem done_push {s : State} (h : Calm s) (n : Nat) (i : Item) (hn : n < 32) (h15 : n ≠ 15)
    (hr : s.qRefuses n = false) : done (s.hwPush0 n i) = .next (s.qAccept n i) := by
  unfold done
  rw [hwPush0_calm h n i hr, settle_pushed (h.qAccept n i hn h15)]

/-- What a record or a fault leaves in a calm state has nothing left to do. -/
theorem Tidy.still {k : Nat} {s t : State} (h : Tidy k s t) (c : Calm s) (hk : k ≤ 16) (m : t.mode = s.mode) :
    Still t := by
  refine ⟨h.todo.trans c.todo, h.moved.trans c.still, h.pushed.trans c.pushed, ?_, ?_⟩
  · have := h.room
    have := c.room
    omega
  · have := c.still'.open_
    unfold State.outputsBarred at this ⊢
    rw [m]
    exact this

theorem Calm.queueRoom {s : State} (h : Calm s) : (s.q 15).level < s.qCap 15 := by
  have := h.room
  have := h.cap
  omega

theorem Calm.minorTodo {s : State} (h : Calm s) : MinorTodo s := by
  intro x hx
  rw [h.todo] at hx
  cases hx

/-- What a fault of class Notice or Minor that merges leaves in a calm state (R492). -/
theorem raise_merges {s : State} (h : Calm s) (code detail : Nat) (e : Entry) (full : Bool)
    (hm : mergeTarget s.flt.table code = some (e, full)) (hc : faultClass code ≤ 1) :
    Still (raise code detail s) ∧ Booked s (raise code detail s) ∧
      (raise code detail s).flt.table = s.flt.table.map fun x =>
        if x.idx = e.idx then { e with
            cls := max e.cls (faultClass code), merged := min 255 (e.merged + 1),
            members := e.members ++ [(code, detail)] }
        else x := by
  have hb := books_raise code detail s hc
  generalize hu : ({ s with flt := { s.flt with table := s.flt.table.map fun x =>
        if x.idx = e.idx then { e with
            cls := max e.cls (faultClass code), merged := min 255 (e.merged + 1),
            members := e.members ++ [(code, detail)] }
        else x } } : State) = u
  have hut : u.flt.table = s.flt.table.map fun x =>
        if x.idx = e.idx then { e with
            cls := max e.cls (faultClass code), merged := min 255 (e.merged + 1),
            members := e.members ++ [(code, detail)] }
        else x := by rw [← hu]
  have hcu : Calm u := by
    subst hu
    exact h.congr rfl rfl rfl rfl rfl rfl rfl
  have hf : Tidy 0 u (if full then u.setB Reg.FLT.STATUS.FULL_STK true else u) := by
    split
    · exact tidy_wr _ _ _
    · exact Tidy.refl u
  have hi := Tidy.trans hf (tidy_wr (if full then u.setB Reg.FLT.STATUS.FULL_STK true else u)
    Reg.FLT.COUNTS.MERGES (min (2 ^ Reg.FLT.COUNTS.MERGES.w - 1) ((if full then u.setB Reg.FLT.STATUS.FULL_STK true
      else u).rd Reg.FLT.COUNTS.MERGES + 1)))
  have hv : Calm ((if full then u.setB Reg.FLT.STATUS.FULL_STK true else u).inc Reg.FLT.COUNTS.MERGES) := by
    refine Calm.inc ?_ _ (by decide) (by decide)
    split
    · exact hcu.setB _ _ (by decide) (by decide)
    · exact hcu
  have hcol : ∃ ty p, collect code 0 detail false s =
      ((if full then u.setB Reg.FLT.STATUS.FULL_STK true else u).inc Reg.FLT.COUNTS.MERGES).record ty p false := by
    unfold collect
    simp only [hm]
    rw [← hu]
    exact ⟨_, _, rfl⟩
  obtain ⟨ty, p, hcol⟩ := hcol
  have hr := tidy_record _ ty p false hv.queueRoom
  have t1 : Tidy 1 u (collect code 0 detail false s) := by
    rw [hcol]
    exact Tidy.trans hi hr
  have t2 := tidy_reactTo code (faultClass code) _ hc (t1.kept.trans hcu.kept)
  have t12 := Tidy.trans t1 t2
  have e1 : raise code detail s = reactTo code (faultClass code) (collect code 0 detail false s) := by
    unfold raise raise1 State.drainAt256
    rw [if_neg]
    have := t12.room
    have := hcu.room
    omega
  have em : u.mode = s.mode := by subst hu; rfl
  refine ⟨?_, hb.booked, by rw [e1]; exact t12.table.trans hut⟩
  rw [e1]
  refine t12.still hcu (by decide) ?_
  rw [← e1, em]
  exact mode_same hb.booked.regs rfl

/-- A command that ends with a record. -/
theorem done_record {s : State} (h : Calm s) (ty payload : Nat) :
    done (s.record ty payload false) = .next (s.record ty payload false) :=
  done_still ((tidy_record s ty payload false h.queueRoom).still h (by decide)
    (mode_same (books_record s ty payload).booked.regs rfl))

/-- A command that ends with a fault of class Notice or Minor. -/
theorem done_raise {s : State} (h : Calm s) (code detail : Nat) (o : Opens code s) (hc : faultClass code ≤ 1) :
    done (raise code detail s) = .next (raise code detail s) := by
  unfold done
  rw [(raise_calm code detail s h o hc).2]

/-- The same with a location path, or injected. -/
theorem done_raise1 {s : State} (h : Calm s) (code loc detail : Nat) (inj : Bool) (o : Opens code s)
    (hc : faultClass code ≤ 1) :
    done (raise1 code loc detail inj s) = .next (raise1 code loc detail inj s) := by
  unfold done
  rw [(raise1_calm code loc detail inj s h o hc).2]

/-- A fault of class Notice or Minor that ends a command's effect opens its entry. -/
theorem opens_entry {s : State} (h : Calm s) (code detail : Nat) (o : Opens code s) (hc : faultClass code ≤ 1) :
    ∃ t, done (raise code detail s) = .next t ∧ Opened code detail s t :=
  ⟨_, done_raise h code detail o hc, (raise_calm code detail s h o hc).1⟩

/-- A lasting cause noted keeps a state calm. -/
theorem Calm.setCause {s : State} (h : Calm s) (c d : Nat) (on : Bool) : Calm (setCause c d on s) :=
  h.congr rfl rfl rfl rfl rfl rfl rfl

/-- The same fault with its lasting cause. -/
theorem opens_cause {s : State} (h : Calm s) (code detail : Nat) (o : Opens code s) (hc : faultClass code ≤ 1) :
    ∃ t, done (raiseCause code detail s) = .next t ∧ Opened code detail (setCause code detail true s) t :=
  opens_entry (h.setCause code detail true) code detail (o.congr rfl) hc

/-- What the end of a step leaves of an alarm. -/
theorem Alarmed.halted {m : Nat} {s t : State} (a : Alarmed m s t) (k : MinorTodo s) (hf : t.sealFine = true) :
    Halted m s (settle t) := by
  have e := settle_ends t (a.todo k) hf
  have h := a.holds.ends e
  refine ⟨h.mode, h.prev, (e.regs _ (by decide) (by decide)).trans a.force, settle_outputs t, a.frame.regs.trans ?_,
    e.rest.trans a.frame.rest⟩
  exact fun f l hb _ _ => e.regs f l (modeBlock_react _ hb)

theorem AlarmRegs.sealFine {s t : State} (h : AlarmRegs s t) (k : SealShut s) : t.sealFine = true := by
  have h1 : t.bit Reg.SAF.STATUS.SEAL_OPEN = false := by
    rw [← k.1]; unfold State.bit; rw [h _ (by decide) (by decide) (by decide) (by decide)]
  have h2 : t.bit Reg.SAF.STATUS.SEAL_INVALID = false := by
    rw [← k.2]; unfold State.bit; rw [h _ (by decide) (by decide) (by decide) (by decide)]
  unfold State.sealFine
  rw [h1, h2]
  rfl

/-- A command that ends with a Major fault in modes 2 to 9. -/
theorem done_major {s : State} (code loc detail : Nat) (inj : Bool) (hc : faultClass code = 2) (h2 : 2 ≤ s.mode)
    (h9 : s.mode ≤ 9) (k : MinorTodo s) (hs : SealShut s) :
    ∃ t, done (raise1 code loc detail inj s) = .next t ∧ Halted 10 s t :=
  have a := raise1_major code loc detail inj s hc h2 h9
  ⟨_, rfl, a.halted k (a.frame.regs.sealFine hs)⟩

/-- A command that ends with a Grave fault in modes 1 to 10. -/
theorem done_grave {s : State} (code loc detail : Nat) (inj : Bool) (hc : faultClass code = 3) (h1 : 1 ≤ s.mode)
    (h10 : s.mode ≤ 10) (k : MinorTodo s) (hs : SealShut s) :
    ∃ t, done (raise1 code loc detail inj s) = .next t ∧ Halted 11 s t ∧ t.rd Reg.SAF.STATUS.LATCHED = 1 := by
  have a := raise1_grave code loc detail inj s hc h1 h10
  have f := a.1.frame.regs.sealFine hs
  refine ⟨_, rfl, a.1.halted k f, ?_⟩
  exact ((settle_ends _ (a.1.todo k) f).regs _ (by decide) (by decide)).trans a.2

/-- Calm rests on these parts of the state alone. -/
theorem Calm.upd {s t : State} (h : Calm s) (hr : t.regs = s.regs) (hu : t.sys.unpowered = s.sys.unpowered)
    (hl : t.sys.resetLow = s.sys.resetLow) (hf : t.flt.todo = s.flt.todo) (hm : t.moved = s.moved)
    (hp : t.pushed = s.pushed) (he : t.evr.lostSince = s.evr.lostSince) (hq : t.qs = s.qs) : Calm t := by
  have e : t.mode = s.mode := rd_congr hr _
  have q : t.q 15 = s.q 15 := by unfold State.q; rw [hq]
  refine ⟨?_, by rw [e]; exact h.low, by rw [e]; exact h.high, hf.trans h.todo,
    hm.trans h.still, hp.trans h.pushed, he.trans h.kept, by rw [q]; exact h.room, ?_⟩
  · have := h.run
    unfold State.running at this ⊢
    rw [hu, hl, e]
    exact this
  · have : t.qCap 15 = s.qCap 15 := by
      unfold State.qCap State.flag
      rw [rd_congr hr]
    rw [this]
    exact h.cap

/-- A choice between calm states is calm. -/
theorem Calm.ite {s t : State} {p : Prop} [Decidable p] (h : Calm s) (k : Calm t) : Calm (if p then s else t) := by
  split
  · exact h
  · exact k

/-- An event of a running core is its effect, settled. -/
theorem go_if {s : State} (h : Calm s) {c : Instr} {f : State} (e : exec c s = done (if s.running then f else s)) :
    exec c s = done f := by
  rw [e, h.run, if_pos rfl]

/-- The same where the meaning asks whether the core stands still. -/
theorem go_unless {s : State} (h : Calm s) {c : Instr} {f : State} (e : exec c s = done (if !s.running then s else f)) :
    exec c s = done f := by
  rw [e, h.run]
  rfl

end Sys2Proof.Machine
end

