-- ==== Sys2Proof/Laws/Units.lean ====
section
/-!
SUPPORT. What the end of a step leaves of a reaction, and the units of R50: high-side channels, Green PHY instances, the
user display.
-/
namespace Sys2Proof.Machine

/-- Where no mode has changed and no output is barred, the end of a step changes the books alone. -/
theorem settle_booked {u : State} (m : MinorTodo u) (hm : u.moved = false) (ho : u.outputsBarred = false) :
    Booked u (settle u) := by
  have h1 := books_raiseTodo 64 u m
  have hm1 : (raiseTodo 64 u).moved = false := (h1.reacts.moved).trans hm
  have e : settleRounds 8 u = raiseTodo 64 u := by
    unfold settleRounds
    dsimp only
    rw [hm1]
    rfl
  have h2 := h1.trans (books_drainAt256 (raiseTodo 64 u))
  have h3 := h2.trans (books_raiseTodo 64 _ (h2.todo m))
  unfold settle
  rw [e]
  dsimp only
  generalize raiseTodo 64 (raiseTodo 64 u).drainAt256 = v at h3
  have hv : v.outputsBarred = false := by
    rw [← ho]
    unfold State.outputsBarred
    rw [mode_same h3.booked.regs rfl]
  have : permitOutputs v = v := by
    unfold permitOutputs
    rw [hv]
    rfl
  rw [this]
  exact ⟨fun f l b => h3.booked.regs f l b, h3.booked.rest⟩

theorem Calm.barred {s : State} (h : Calm s) : s.outputsBarred = false := h.still'.open_

/-- A command whose effect is a reaction in a calm state answers that effect, but for what the books hold. -/
theorem answers {s u : State} (h : Calm s) (r : Reacts s u) : ∃ t, done u = .next t ∧ Booked u t := by
  refine ⟨_, rfl, settle_booked (r.todo h.minorTodo) (r.moved.trans h.still) ?_⟩
  have : u.mode = s.mode := mode_same r.regs rfl
  rw [← h.barred]
  unfold State.outputsBarred
  rw [this]

theorem hsTurnOn_calm {s : State} (h : Calm s) (c : Nat) : Calm (hsTurnOn c s) := by
  unfold hsTurnOn
  refine Calm.setCause ?_ _ _ _
  refine Calm.upd (s := (s.setB (Reg.LSW.CH.STATUS.INRUSH c) (s.rd (Reg.LSW.CH.CFG.INRUSH_T c) ≠ 0)).setB
    (Reg.LSW.CH.STATUS.OPEN_LOAD c) false) ?_ rfl rfl rfl rfl rfl rfl rfl rfl
  repeat' first | assumption | (refine Calm.wr ?_ _ _ ?_ ?_) | (refine Calm.setCause ?_ _ _ _) | (refine Calm.ite ?_ ?_) | decide | (simp only [Fld.key]; omega)

theorem hsDark_calm {s : State} (h : Calm s) (c : Nat) : Calm (hsDark c s) := by
  unfold hsDark
  repeat' first | assumption | (refine Calm.wr ?_ _ _ ?_ ?_) | (refine Calm.setCause ?_ _ _ _) | (refine Calm.ite ?_ ?_) | decide | (simp only [Fld.key]; omega)

theorem lswResult_calm {s : State} (h : Calm s) (c r : Nat) : Calm (lswResult c r s) := by
  unfold lswResult
  repeat' first | assumption | (refine Calm.wr ?_ _ _ ?_ ?_) | (refine Calm.setCause ?_ _ _ _) | (refine Calm.ite ?_ ?_) | decide | (simp only [Fld.key]; omega)

theorem hsEnable_off {s : State} {c : Nat} (hf : s.hsForced c = false) (h : s.rd (Reg.LSW.CH.STATUS.STATE c) = 0) :
    hsEnable c s = (.accepted, hsTurnOn c ((s.wr (Reg.LSW.CH.STATUS.STATE c) 1).setB (Reg.LSW.CH.STATUS.REQ_ON c) true)) := by
  unfold hsEnable unitEnable hsUnit
  dsimp only
  rw [h, hf]
  rfl

theorem hsEnable_on {s : State} {c : Nat} (h : s.rd (Reg.LSW.CH.STATUS.STATE c) = 1 ∨ s.rd (Reg.LSW.CH.STATUS.STATE c) = 2) :
    hsEnable c s = (.accepted, s.setB (Reg.LSW.CH.STATUS.REQ_ON c) true) := by
  unfold hsEnable unitEnable hsUnit
  dsimp only
  rcases h with h | h <;> (rw [h]; rfl)

theorem hsEnable_wait {s : State} {c : Nat} (hf : s.hsForced c = false) (h : s.rd (Reg.LSW.CH.STATUS.STATE c) = 3 ∨ s.rd (Reg.LSW.CH.STATUS.STATE c) = 4)
    (hp : s.bit (Reg.LSW.CH.PEND.PEND c) = false) :
    hsEnable c s = (.latched, (s.setB (Reg.LSW.CH.PEND.PEND c) true).setB (Reg.LSW.CH.STATUS.REQ_ON c) true) := by
  unfold hsEnable unitEnable hsUnit
  dsimp only
  rcases h with h | h <;> (rw [h, hf, hp]; rfl)

theorem hsEnable_drop {s : State} {c : Nat} (hf : s.hsForced c = false) (h : s.rd (Reg.LSW.CH.STATUS.STATE c) = 3 ∨ s.rd (Reg.LSW.CH.STATUS.STATE c) = 4)
    (hp : s.bit (Reg.LSW.CH.PEND.PEND c) = true) :
    hsEnable c s = (.discarded, s.inc (Reg.LSW.CH.PEND.DISCARDS c)) := by
  unfold hsEnable unitEnable hsUnit
  dsimp only
  rcases h with h | h <;> (rw [h, hf, hp]; rfl)

theorem hsEnable_no {s : State} {c : Nat} (hf : s.hsForced c = true) (h : s.rd (Reg.LSW.CH.STATUS.STATE c) = 0 ∨ s.rd (Reg.LSW.CH.STATUS.STATE c) = 3 ∨ s.rd (Reg.LSW.CH.STATUS.STATE c) = 4) :
    hsEnable c s = (.refused, s) := by
  unfold hsEnable unitEnable hsUnit
  dsimp only
  rcases h with h | h | h <;> (rw [h, hf]; cases s.bit (Reg.LSW.CH.PEND.PEND c) <;> rfl)

theorem hsApply_calm {s : State} (h : Calm s) (c : Nat) : Calm (hsApply c s) := by
  unfold hsApply
  repeat' first | assumption | (refine Calm.wr ?_ _ _ ?_ ?_) | (refine Calm.setCause ?_ _ _ _) | (refine Calm.ite ?_ ?_) | decide | (simp only [Fld.key]; omega)

theorem hsForce_calm {s : State} (h : Calm s) {c : Nat} (hc : c < 40) : Calm (hsForce c s) := by
  unfold hsForce
  refine hsDark_calm ?_ c
  unfold unitForce hsUnit
  dsimp only
  repeat' first | assumption | (refine Calm.wr ?_ _ _ ?_ ?_) | (refine Calm.setCause ?_ _ _ _) | (refine Calm.ite ?_ ?_) | decide | (simp only [Fld.key]; omega)

theorem setHs_calm {s : State} (h : Calm s) (c : Nat) (x : HsSt) : Calm (s.setHs c x) :=
  Calm.upd h rfl rfl rfl rfl rfl rfl rfl rfl

theorem hsForce_table (c : Nat) (s : State) : (hsForce c s).flt.table = s.flt.table := by
  unfold hsForce hsDark unitForce
  dsimp only
  split <;> rfl

theorem notice_class {code n k : Nat} (h : n < k) (hc : code / 16384 % 4 ≤ 1) (hk : code % 16384 + k ≤ 16384) :
    faultClass (code + n) ≤ 1 := by
  unfold faultClass
  omega

theorem hsLatch_done {s : State} (h : Calm s) {c code : Nat} (hc : c < 40) (o : Opens code s) (hk : faultClass code ≤ 1) :
    ∃ t, done (hsLatch c code s) = .next t ∧ Opened code c (setCause code c true (hsForce c
      ((s.setB (Reg.LSW.CH.STATUS.LATCHED c) true).setB (Reg.LSW.CH.STATUS.REQ_ON c) false))) t := by
  unfold hsLatch
  refine opens_cause (hsForce_calm ?_ hc) _ _ (o.congr ?_) hk
  · repeat' first | assumption | (refine Calm.wr ?_ _ _ ?_ ?_) | (refine Calm.setCause ?_ _ _ _) | (refine Calm.ite ?_ ?_) | decide | (simp only [Fld.key]; omega)
  · rw [hsForce_table]
    rfl

theorem reacts_raiseCause (code d : Nat) (s : State) (h : faultClass code ≤ 1) : Reacts s (raiseCause code d s) :=
  (reacts_setCause code d true s).trans (books_raise code d _ h).reacts

theorem reacts_foldl {α : Type} (l : List α) (f : State → α → State) (hf : ∀ a s, a ∈ l → Reacts s (f s a)) (s : State) :
    Reacts s (l.foldl f s) := by
  induction l generalizing s with
  | nil => exact Reacts.refl s
  | cons a l ih =>
    exact (hf a s (List.mem_cons_self ..)).trans (ih (fun b t hb => hf b t (List.mem_cons_of_mem _ hb)) _)

theorem reacts_hsLatch (c code : Nat) (s : State) (hc : c < 40) (h : faultClass code ≤ 1) : Reacts s (hsLatch c code s) := by
  unfold hsLatch
  refine Reacts.trans ?_ (reacts_raiseCause _ _ _ h)
  refine Reacts.trans ?_ (reacts_hsForce c _ hc)
  exact Reacts.lswB (Reacts.lswB (Reacts.refl s) hc (by decide) (by decide) _) hc (by decide) (by decide) _

theorem reacts_groupOff (g : Nat) (s : State) (hg : g < 5) : Reacts s (groupOff g s) := by
  unfold groupOff
  dsimp only
  refine Reacts.trans ?_ (reacts_forEach 16 _ (fun n t hn => Reacts.ite (reacts_outForce n 14 t hn) (Reacts.refl t)) _)
  refine Reacts.trans ?_ (reacts_foldl (groupChannels g) _ ?_ _)
  · refine Reacts.andInc ?_ _ ?_ ?_
    · exact ((Reacts.refl s).andWr _ _ (by decide) (by decide)).andWr _ _ (by decide) (by decide)
    · show reactBlock ((Reg.LSW.VLS.UV_OFFS g).addr / 4096) = true
      have : (Reg.LSW.VLS.UV_OFFS g).addr / 4096 = 0x35 := by simp only; omega
      rw [this]; rfl
    · simp only; omega
  · intro c t hc
    unfold groupChannels at hc
    rw [List.mem_map] at hc
    obtain ⟨j, hj, rfl⟩ := hc
    have hj := List.mem_range.1 hj
    refine Reacts.ite ?_ ?_
    · exact reacts_hsLatch _ _ _ (by omega) (notice_class (k := 64) (by omega) (by decide) (by decide))
    · exact (reacts_setHs ..).trans (reacts_hsForce _ _ (by omega))

theorem noteDegr_booked {s t : State} (h : Booked s t) (c i : Nat) (r : Bool) :
    Booked (noteDegr c i r s) (noteDegr c i r t) := by
  refine ⟨fun f l b => h.regs f l b, ?_⟩
  have e := h.rest
  have ts := congrArg State.sys e
  have key : ∀ z, ({ t with sys := z } : State).unbooked = ({ s with sys := z } : State).unbooked :=
    fun z => congrArg (fun x : State => { x with sys := z }) e
  unfold noteDegr
  rw [show t.sys = s.sys from ts]
  exact key _

theorem reacts_hsGroupRestart (c : Nat) (s : State) (hc : c < 40) : Reacts s (hsGroupRestart c s) := by
  unfold hsGroupRestart
  refine Reacts.ite (Reacts.refl s) ?_
  dsimp only
  refine Reacts.trans ?_ (reacts_hsEnable c _ hc)
  refine Reacts.ite ?_ (Reacts.refl s)
  exact (Reacts.lsw (Reacts.refl s) hc (by decide) (by decide) _).trans (reacts_setHs ..)

theorem reacts_hsApply (c : Nat) (s : State) (hc : c < 40) : Reacts s (hsApply c s) := by
  unfold hsApply
  exact Reacts.ite (Reacts.lsw (Reacts.refl s) hc (by decide) (by decide) _) (Reacts.refl s)

theorem reacts_heaterRule (h : Nat) (s : State) (hh : h < 8) : Reacts s (heaterRule h s) := by
  unfold heaterRule
  dsimp only
  refine Reacts.ite (Reacts.refl s) ?_
  have h1 : ∀ b, Reacts s (s.setB (Reg.LSW.HEAT.STATE.WANT h) b) := by
    intro b
    refine (Reacts.refl s).andSetB _ b ?_ (by simp only; omega)
    have : (Reg.LSW.HEAT.STATE.WANT h).addr / 4096 = 0x35 := by simp only; omega
    rw [this]; rfl
  have h2 : ∀ (p : Prop) [Decidable p] (b v : Bool) (c : Nat), Reacts s (if p then s.setB (Reg.LSW.HEAT.STATE.WANT h) b else hsDrive c v (s.setB (Reg.LSW.HEAT.STATE.WANT h) b)) :=
    fun p _ b v c => Reacts.ite (h1 b) ((h1 b).trans (reacts_hsDrive ..))
  split
  · exact (h2 _ _ _ _).trans (reacts_hsApply _ _ (by assumption))
  · exact h2 _ _ _ _

end Sys2Proof.Machine
end

