-- ==== Sys2Proof/Laws/Bindery.lean ====
section
/-!
SUPPORT. The bindery, the clock, time requests and the fabric in a calm state.
-/
namespace Sys2Proof.Machine

theorem Calm.bnd {s : State} (h : Calm s) (k m c : Nat) : Calm (bndResult k m c s) := by
  unfold bndResult
  repeat' first | assumption | (refine Calm.wr ?_ _ _ ?_ ?_) | (refine Calm.setCause ?_ _ _ _) | (refine Calm.ite ?_ ?_) | decide | (simp only [Fld.key]; omega)

theorem Calm.setBset {s : State} (h : Calm s) (k : Nat) (b : BindSet) : Calm (s.setBset k b) := h.congr rfl rfl rfl rfl rfl rfl rfl

theorem freeRun_calm {s : State} (h : Calm s) (b : Bool) : Calm (freeRun b s) := by
  unfold freeRun
  dsimp only
  refine Calm.upd (s := (s.setB Reg.CLK.STATUS.RTC_OK (!b)).setB Reg.RTC.STATUS.FREE b) ?_ rfl rfl rfl rfl rfl rfl rfl rfl
  repeat' first | assumption | (refine Calm.wr ?_ _ _ ?_ ?_) | (refine Calm.setCause ?_ _ _ _) | (refine Calm.ite ?_ ?_) | decide | (simp only [Fld.key]; omega)

theorem adjShow_calm {s : State} (h : Calm s) (a b : Nat) (d : Int) : Calm (adjShow a b d s) := by
  unfold adjShow
  repeat' first | assumption | (refine Calm.wr ?_ _ _ ?_ ?_) | (refine Calm.setCause ?_ _ _ _) | (refine Calm.ite ?_ ?_) | decide | (simp only [Fld.key]; omega)

theorem slewShow_calm {s : State} (h : Calm s) : Calm (slewShow s) := by
  unfold slewShow
  split <;> repeat' first | assumption | (refine Calm.wr ?_ _ _ ?_ ?_) | (refine Calm.setCause ?_ _ _ _) | (refine Calm.ite ?_ ?_) | decide | (simp only [Fld.key]; omega)

theorem timeAccept_calm {s : State} (h : Calm s) (a : Nat) : Calm (timeAccept a s) := by
  unfold timeAccept
  refine Calm.wr ?_ _ _ (by decide) (by decide)
  exact Calm.upd h rfl rfl rfl rfl rfl rfl rfl rfl

theorem slewBegin_calm {s : State} (h : Calm s) (a : Nat) (d : Int) : Calm (slewBegin a d s) := by
  have c : Calm ((adjShow a 1 d s).inc Reg.RTC.COUNTS.SLEWS) := Calm.inc (adjShow_calm h _ _ _) _ (by decide) (by decide)
  unfold slewBegin
  exact slewShow_calm (Calm.upd c rfl rfl rfl rfl rfl rfl rfl rfl)

theorem stepWait_calm {s : State} (h : Calm s) (a : Nat) (d : Int) : Calm (stepWait a d s) := by
  unfold stepWait
  exact Calm.upd (adjShow_calm h a 2 d) rfl rfl rfl rfl rfl rfl rfl rfl

theorem adjDiscard_calm {s : State} (h : Calm s) : Calm (adjDiscard s) := by
  unfold adjDiscard
  split
  · exact h
  · exact slewShow_calm (Calm.upd h rfl rfl rfl rfl rfl rfl rfl rfl)

theorem slewShow_limit (s : State) : (slewShow s).rd Reg.RTC.CFG.LIMIT = s.rd Reg.RTC.CFG.LIMIT := by
  unfold slewShow
  split <;> (simp only [setB_eq]; rw [rd_wr_ne _ _ _ _ (by decide), rd_wr_ne _ _ _ _ (by decide), rd_wr_ne _ _ _ _ (by decide)])

theorem adjDiscard_limit (s : State) : (adjDiscard s).rd Reg.RTC.CFG.LIMIT = s.rd Reg.RTC.CFG.LIMIT := by
  unfold adjDiscard
  split
  · rfl
  · exact slewShow_limit _

theorem fabBeat_calm {s : State} (h : Calm s) : Calm (fabBeat s) := by
  unfold fabBeat
  dsimp only
  split
  · exact Calm.upd h rfl rfl rfl rfl rfl rfl rfl rfl
  · rename_i r _
    split
    · rename_i hc
      refine Calm.wr ?_ _ _ ?_ ?_
      · exact Calm.upd h rfl rfl rfl rfl rfl rfl rfl rfl
      · simp only [Bool.and_eq_true, decide_eq_true_eq] at hc
        simp only [Fld.key]
        omega
      · simp only [Bool.and_eq_true, decide_eq_true_eq] at hc
        simp only [Fld.key]
        omega
    · exact Calm.upd h rfl rfl rfl rfl rfl rfl rfl rfl

theorem fabRun_calm : ∀ (n : Nat) {s : State}, Calm s → Calm (fabRun n s) := by
  intro n
  induction n with
  | zero => intro s h; exact h
  | succ n ih =>
    intro s h
    unfold fabRun
    split
    · exact h
    · exact ih (fabBeat_calm h)

theorem fabTo_calm {s : State} (h : Calm s) (now : Nat) : Calm (fabTo now s) :=
  Calm.upd (fabRun_calm (now - s.fab.beat) h) rfl rfl rfl rfl rfl rfl rfl rfl

end Sys2Proof.Machine
end

