-- ==== Sys2Proof/Laws/Outlets.lean ====
section
/-!
SUPPORT. Effects that bring no change of mode and no fault above Minor: the shared operations of outlets and carrels are
such, and a command with such an effect answers it, but for what the books hold.
-/
namespace Sys2Proof.Machine

/-- The effect changes no mode and leaves nothing above Minor waiting. -/
structure Quiet (s t : State) : Prop where
  mode : t.mode = s.mode
  moved : t.moved = s.moved
  todo : MinorTodo s → MinorTodo t

theorem Quiet.refl (s : State) : Quiet s s := ⟨rfl, rfl, id⟩

theorem Quiet.trans {s t u : State} (h : Quiet s t) (k : Quiet t u) : Quiet s u :=
  ⟨k.mode.trans h.mode, k.moved.trans h.moved, fun m => k.todo (h.todo m)⟩

/-- A change of parts other than the registers, the waiting faults and the mark of a change of mode. -/
theorem Quiet.of {s t u : State} (h : Quiet s t) (hr : u.regs = t.regs) (hm : u.moved = t.moved)
    (hf : u.flt.todo = t.flt.todo) : Quiet s u :=
  h.trans ⟨rd_congr hr _, hm, fun m x hx => m x (by rw [← hf]; exact hx)⟩

theorem Quiet.wr {s t : State} (h : Quiet s t) (f : Fld) (v : Nat) (hm : Reg.MODE.STATUS.MODE.key ≠ f.key) :
    Quiet s (t.wr f v) := h.trans ⟨mode_wr t f v hm, rfl, id⟩

theorem Reacts.quiet {s t : State} (h : Reacts s t) : Quiet s t := ⟨mode_same h.regs rfl, h.moved, h.todo⟩

theorem Books.quiet {s t : State} (h : Books s t) : Quiet s t := h.reacts.quiet

theorem Quiet.ite {s t u : State} {p : Prop} [Decidable p] (h : Quiet s t) (k : Quiet s u) :
    Quiet s (if p then t else u) := by
  split
  · exact h
  · exact k

theorem quiet_foldl {α : Type} (l : List α) (f : State → α → State) (hf : ∀ a s, a ∈ l → Quiet s (f s a)) (s : State) :
    Quiet s (l.foldl f s) := by
  induction l generalizing s with
  | nil => exact Quiet.refl s
  | cons a l ih =>
    exact (hf a s (List.mem_cons_self ..)).trans (ih (fun b t hb => hf b t (List.mem_cons_of_mem _ hb)) _)

theorem quiet_forEach (n : Nat) (f : Nat → State → State) (hf : ∀ i s, i < n → Quiet s (f i s)) (s : State) :
    Quiet s (forEach n f s) := quiet_foldl _ _ (fun a t ha => hf a t (List.mem_range.1 ha)) s

theorem quiet_raise (code d : Nat) (s : State) (h : faultClass code ≤ 1) : Quiet s (raise code d s) :=
  (books_raise code d s h).quiet

theorem quiet_raiseCause (code d : Nat) (s : State) (h : faultClass code ≤ 1) : Quiet s (raiseCause code d s) :=
  (reacts_raiseCause code d s h).quiet

/-- A command whose effect is quiet answers it in a calm state, but for what the books hold. -/
theorem answers_quiet {s u : State} (h : Calm s) (q : Quiet s u) : ∃ t, done u = .next t ∧ Booked u t := by
  refine ⟨_, rfl, settle_booked (q.todo h.minorTodo) (q.moved.trans h.still) ?_⟩
  rw [← h.barred]
  unfold State.outputsBarred
  rw [q.mode]

/-- A fault of an outlet is Minor or a Notice where that of OUT[0] is. -/
theorem outCode_class {c n : Nat} (hn : n < 16) (h : c % 16384 + 4096 ≤ 16384) (hc : c / 16384 % 4 ≤ 1) :
    faultClass (outCode c n) ≤ 1 := by
  unfold faultClass outCode
  omega

/-! ### The operations that outlets and carrels share -/

theorem quiet_setCar (s : State) (c : Nat) (r : Carrel) : Quiet s (s.setCar c r) := (Quiet.refl s).of rfl rfl rfl
theorem quiet_setOut (s : State) (n : Nat) (x : OutSt) : Quiet s (s.setOut n x) := (Quiet.refl s).of rfl rfl rfl

theorem quiet_unbind (n : Nat) (s : State) (h : n < 16) : Quiet s (unbind n s) := by
  unfold unbind
  exact ((Quiet.refl s).wr _ _ (by simp only [Fld.key]; omega)).wr _ _ (by simp only [Fld.key]; omega)

theorem quiet_outRecap (n : Nat) (s : State) (h : n < 16) : Quiet s (outRecap n s) := by
  unfold outRecap
  exact ((Quiet.refl s).wr _ _ (by simp only [Fld.key]; omega)).trans (reacts_pilotApply n _ h).quiet

theorem quiet_outReason (n r : Nat) (s : State) (h : n < 16) : Quiet s (outReason n r s) :=
  (Quiet.refl s).wr _ _ (by simp only [Fld.key]; omega)

theorem quiet_outEnter (n st : Nat) (s : State) (h : n < 16) : Quiet s (outEnter n st s) := (reacts_outEnter n st s h).quiet

theorem quiet_outEvent (n ev d w : Nat) (s : State) : Quiet s (outEvent n ev d w s) := (reacts_outEvent n ev d w s).quiet

theorem quiet_hsDrive (c : Nat) (on : Bool) (s : State) : Quiet s (hsDrive c on s) := (reacts_hsDrive c on s).quiet

theorem quiet_coilsSet (n : Nat) (on : Bool) (s : State) : Quiet s (coilsSet n on s) := (reacts_coilsSet n on s).quiet

theorem quiet_outIdle (n : Nat) (s : State) (h : n < 16) : Quiet s (outIdle n s) :=
  (quiet_hsDrive _ _ s).trans (quiet_outEnter n 1 _ h)

theorem quiet_outToConnected (n : Nat) (s : State) (h : n < 16) : Quiet s (outToConnected n s) := by
  unfold outToConnected rcmStart
  dsimp only
  refine Quiet.trans ?_ (quiet_setOut ..)
  refine Quiet.of (t := outEnter n 2 (s.setB (Reg.OUT.SUPV.RCM_OK n) false)) ?_ rfl rfl rfl
  exact ((Quiet.refl s).wr _ _ (by simp only [Fld.key]; omega)).trans (quiet_outEnter n 2 _ h)

theorem quiet_outFromReady (n r : Nat) (s : State) (h : n < 16) : Quiet s (outFromReady n r s) := by
  unfold outFromReady
  dsimp only
  have h1 := (quiet_outReason n r s h).trans (quiet_outToConnected n _ h)
  exact Quiet.ite (h1.trans (quiet_outIdle n _ h)) h1

theorem quiet_crlOutletStop (n r : Nat) (s : State) : Quiet s (crlOutletStop n r s) := (reacts_crlOutletStop n r s).quiet

theorem quiet_outOpen (n : Nat) (s : State) (h : n < 16) : Quiet s (outOpen n s) := (reacts_outOpen n s h).quiet

theorem quiet_outClearPend (n : Nat) (s : State) (h : n < 16) : Quiet s (outClearPend n s) := (reacts_outClearPend n s h).quiet

theorem quiet_outForce (n r : Nat) (s : State) (h : n < 16) : Quiet s (outForce n r s) := (reacts_outForce n r s h).quiet

theorem quiet_outRamp (n r : Nat) (s : State) (h : n < 16) : Quiet s (outRamp n r s) := by
  unfold outRamp
  dsimp only
  have h1 := (quiet_outReason n r s h).trans (quiet_crlOutletStop n r _)
  refine Quiet.ite (Quiet.trans ?_ (quiet_outEnter n 8 _ h)) (Quiet.ite (quiet_outFromReady n r s h) (Quiet.refl s))
  exact Quiet.ite (h1.trans (quiet_setOut ..)) h1

theorem quiet_outOpenStop (n r : Nat) (s : State) (h : n < 16) : Quiet s (outOpenStop n r s) := by
  unfold outOpenStop
  dsimp only
  have h1 := (quiet_outReason n r s h).trans (quiet_crlOutletStop n r _)
  refine Quiet.ite (Quiet.trans ?_ (quiet_outOpen n _ h)) (Quiet.refl s)
  split
  · exact Quiet.ite ((h1.wr _ _ (by simp only [Fld.key]; omega)).wr _ _ (by simp only [Fld.key]; omega)) h1
  · exact h1

theorem quiet_outFault (n : Nat) (s : State) (h : n < 16) : Quiet s (outFault n s) :=
  (quiet_outClearPend n s h).trans (quiet_outEnter n 10 _ h)

theorem quiet_crlWatch (s : State) : Quiet s (crlWatch s) := by
  unfold crlWatch
  dsimp only
  refine Quiet.ite (Quiet.ite (Quiet.trans ?_ (quiet_raiseCause _ _ _ (by decide))) (Quiet.refl s)) (Quiet.ite (Quiet.refl s) ?_)
  · exact (Quiet.refl s).of rfl rfl rfl
  · exact (Quiet.refl s).of rfl rfl rfl

theorem quiet_crlLeaves (c : Nat) (s : State) : Quiet s (crlLeaves c s) := by
  unfold crlLeaves
  dsimp only
  split
  · exact Quiet.refl s
  · rename_i h
    have h : (s.car c).outlet < 16 := by omega
    generalize (s.car c).outlet = n at h
    refine Quiet.trans ?_ (quiet_outRecap n _ h)
    have h1 : Quiet s (if (decide (s.outSt n = 9) && s.bit (Reg.OUT.PEND.PEND n) && decide (s.rd (Reg.OUT.PEND.CARREL n) = c)) = true
        then if (outClearPend n s).bound n = some c then unbind n (outClearPend n s) else outClearPend n s else s) :=
      Quiet.ite (Quiet.ite ((quiet_outClearPend n s h).trans (quiet_unbind n _ h)) (quiet_outClearPend n s h)) (Quiet.refl s)
    revert h1
    generalize (if (decide (s.outSt n = 9) && s.bit (Reg.OUT.PEND.PEND n) && decide (s.rd (Reg.OUT.PEND.CARREL n) = c)) = true
        then if (outClearPend n s).bound n = some c then unbind n (outClearPend n s) else outClearPend n s else s) = u
    intro h1
    have h2 : Quiet s (if u.bound n = some c then if u.outSt n = 3 then outFromReady n 1 (unbind n u)
        else if (s.car c).st = 6 then unbind n u else u else u) :=
      h1.trans (Quiet.ite (Quiet.ite ((quiet_unbind n u h).trans (quiet_outFromReady n 1 _ h))
        (Quiet.ite (quiet_unbind n u h) (Quiet.refl u))) (Quiet.refl u))
    exact Quiet.ite (h2.trans (quiet_outIdle n _ h)) h2

theorem quiet_postClose (r : Carrel) (s : State) : Quiet s (postClose r s) :=
  (reacts_push s 5 _ (by decide) (by decide)).quiet

theorem quiet_closeRecord (c : Nat) (r : Carrel) (s : State) : Quiet s (closeRecord c r s) :=
  (books_record s _ _).quiet

theorem quiet_crlClosed (c : Nat) (r : Option Nat) (s : State) : Quiet s (crlClosed c r s) := by
  unfold crlClosed
  dsimp only
  refine Quiet.trans ?_ (quiet_crlLeaves c _)
  refine Quiet.trans ?_ (quiet_closeRecord ..)
  refine Quiet.trans ?_ (quiet_postClose ..)
  exact (quiet_setCar ..).wr _ _ (by decide)

theorem quiet_crlClosing (c r : Nat) (s : State) : Quiet s (crlClosing c r s) :=
  (quiet_setCar ..).trans (quiet_crlLeaves c _)

theorem quiet_crlVehicleGone (n : Nat) (s : State) : Quiet s (crlVehicleGone n s) :=
  quiet_foldl _ _ (fun _ _ _ => quiet_crlClosing ..) s

theorem quiet_outBind (n c : Nat) (s : State) (h : n < 16) : Quiet s (outBind n c s) := by
  unfold outBind
  dsimp only
  refine Quiet.trans ?_ (quiet_outRecap n _ h)
  refine Quiet.trans ?_ (quiet_foldl _ _ (fun _ _ _ => quiet_crlClosing ..) _)
  exact ((Quiet.refl s).wr _ _ (by simp only [Fld.key]; omega)).wr _ _ (by simp only [Fld.key]; omega)

theorem quiet_crlEnergising (n : Nat) (s : State) : Quiet s (crlEnergising n s) := by
  unfold crlEnergising
  split
  · exact Quiet.refl s
  · dsimp only
    refine Quiet.ite (Quiet.trans ?_ (quiet_setCar ..)) (Quiet.refl s)
    exact Quiet.ite ((Quiet.refl s).of rfl rfl rfl) (Quiet.refl s)

theorem quiet_outConnect (n : Nat) (s : State) (h : n < 16) : Quiet s (outConnect n s) := by
  unfold outConnect
  exact Quiet.trans (Quiet.ite (quiet_hsDrive ..) (Quiet.refl s)) (quiet_outToConnected n _ h)

theorem quiet_tryClose (n : Nat) (s : State) (h : n < 16) : Quiet s (tryClose n s) := by
  unfold tryClose
  dsimp only
  refine Quiet.ite (Quiet.ite (Quiet.ite (quiet_setOut ..) (Quiet.refl s)) (Quiet.ite ?_ ?_)) (Quiet.refl s)
  · refine Quiet.trans ?_ (quiet_outEnter n 4 _ h)
    refine Quiet.trans ?_ (quiet_hsDrive ..)
    refine Quiet.trans ?_ (quiet_coilsSet ..)
    refine Quiet.trans ?_ (quiet_crlEnergising n _)
    exact ((Quiet.refl s).wr _ _ (by simp only [Fld.key]; omega)).trans (quiet_setOut ..)
  · refine Quiet.trans ?_ (quiet_raise _ _ _ (outCode_class h (by decide) (by decide)))
    refine Quiet.trans ?_ (quiet_outFault n _ h)
    exact ((Quiet.refl s).wr _ _ (by simp only [Fld.key]; omega)).trans (quiet_setOut ..)

theorem quiet_outReady (n c : Nat) (s : State) (h : n < 16) : Quiet s (outReady n c s) := by
  unfold outReady
  dsimp only
  exact (((quiet_outBind n c s h).trans (quiet_outEnter n 3 _ h)).trans (quiet_setOut ..)).trans (quiet_tryClose n _ h)

theorem quiet_outPresence (n : Nat) (s : State) (h : n < 16) : Quiet s (outPresence n s) := by
  unfold outPresence
  dsimp only
  have h1 := quiet_outFromReady n 3 s h
  refine Quiet.ite (quiet_outConnect n s h) (Quiet.ite (Quiet.ite h1 (h1.trans (quiet_crlVehicleGone n _))) ?_)
  have h2 : Quiet s (if (s.vehicle n || decide (s.rd (Reg.OUT.STATUS.PILOT n) = 5)) = true then s else crlVehicleGone n s) :=
    Quiet.ite (Quiet.refl s) (quiet_crlVehicleGone n s)
  exact Quiet.ite (h2.trans (quiet_outIdle n _ h)) h2

/-! ### Register fields beside the outlets' -/

/-- The pages that an outlet's changes reach beside its own: the books, the vehicle links, the channels. -/
def sideBlock (b : Nat) : Bool := bookBlock b || b = 0x31 || b = 0x35

theorem SameRegs.andWr {p : Nat → Bool} {s t : State} (h : SameRegs p s t) (g : Fld) (v : Nat) (hb : p (g.addr / 4096) = true)
    (hl : g.lo < 32) : SameRegs p s (t.wr g v) := h.trans (SameRegs.wr t g v hb hl)

theorem SameRegs.ite {b : Nat → Bool} {s t u : State} {p : Prop} [Decidable p] (h : SameRegs b s t) (k : SameRegs b s u) :
    SameRegs b s (if p then t else u) := by
  split
  · exact h
  · exact k

theorem SameRegs.of {b : Nat → Bool} {s t u : State} (h : SameRegs b s t) (e : u.regs = t.regs) : SameRegs b s u :=
  fun f l hf => (rd_congr e f).trans (h f l hf)

theorem side_books {s t : State} (h : Books s t) : SameRegs sideBlock s t :=
  h.booked.regs.widen (by
    intro b hb
    unfold sideBlock at hb
    simp only [Bool.or_eq_false_iff] at hb
    exact hb.1.1)

theorem side_push (s : State) (n : Nat) (i : Item) (h3 : 3 ≤ n) (h : n < 32) : SameRegs sideBlock s (s.hwPush0 n i) :=
  side_books (books_hwPush0 s n i h3 h)

theorem side_outEvent (n ev d w : Nat) (s : State) : SameRegs sideBlock s (outEvent n ev d w s) :=
  side_push s 4 _ (by decide) (by decide)

theorem side_vplEvent (n ev d w : Nat) (s : State) : SameRegs sideBlock s (vplEvent n ev d w s) :=
  side_push s 6 _ (by decide) (by decide)

theorem side_unitEnable (u : UnitRef) (forced : Bool) (s : State) (h1 : sideBlock (u.st.addr / 4096) = true)
    (h2 : sideBlock (u.pend.addr / 4096) = true) (h3 : sideBlock (u.disc.addr / 4096) = true) (l1 : u.st.lo < 32)
    (l2 : u.pend.lo < 32) (l3 : u.disc.lo < 32) : SameRegs sideBlock s (unitEnable u forced s).2 := by
  unfold unitEnable
  dsimp only
  have r := SameRegs.refl sideBlock s
  repeat' split
  all_goals first | exact r | exact r.andWr _ _ (by assumption) (by assumption)

theorem side_unitDisable (u : UnitRef) (s : State) (h1 : sideBlock (u.st.addr / 4096) = true)
    (h2 : sideBlock (u.pend.addr / 4096) = true) (l1 : u.st.lo < 32) (l2 : u.pend.lo < 32) :
    SameRegs sideBlock s (unitDisable u s) := by
  unfold unitDisable
  dsimp only
  have r := SameRegs.refl sideBlock s
  repeat' split
  all_goals first | exact r | exact r.andWr _ _ (by assumption) (by assumption)

theorem side_vplEnter (n st : Nat) (s : State) (h : n < 16) : SameRegs sideBlock s (vplEnter n st s) := by
  unfold vplEnter
  dsimp only
  refine SameRegs.trans ?_ (side_vplEvent n 1 st 0 _)
  repeat' first | assumption | exact SameRegs.refl _ _ | (refine SameRegs.ite ?_ ?_) | (refine SameRegs.andWr ?_ _ _ (by first | rfl | decide | (simp only [sideBlock, bookBlock, Bool.or_eq_true, Bool.or_eq_false_iff, decide_eq_true_eq, decide_eq_false_iff_not]; omega)) (by first | decide | (simp only; omega)))

theorem side_vplStarting (n : Nat) (s : State) (h : n < 16) : SameRegs sideBlock s (vplStarting n s) := by
  unfold vplStarting
  dsimp only
  exact SameRegs.trans (SameRegs.of (SameRegs.refl _ s) rfl) (side_vplEnter n 1 _ h)

theorem side_vplStopping (n : Nat) (s : State) (h : n < 16) : SameRegs sideBlock s (vplStopping n s) := by
  unfold vplStopping
  dsimp only
  exact SameRegs.trans (SameRegs.of (SameRegs.refl _ s) rfl) (side_vplEnter n 7 _ h)

theorem side_vplEnable (n : Nat) (s : State) (h : n < 16) : SameRegs sideBlock s (vplEnable n s) := by
  unfold vplEnable
  have h1 := side_unitEnable (vplUnit n) (s.vplForced n) s (by unfold vplUnit; (first | rfl | decide | (simp only [sideBlock, bookBlock, Bool.or_eq_true, Bool.or_eq_false_iff, decide_eq_true_eq, decide_eq_false_iff_not]; omega))) (by unfold vplUnit; (first | rfl | decide | (simp only [sideBlock, bookBlock, Bool.or_eq_true, Bool.or_eq_false_iff, decide_eq_true_eq, decide_eq_false_iff_not]; omega))) (by unfold vplUnit; (first | rfl | decide | (simp only [sideBlock, bookBlock, Bool.or_eq_true, Bool.or_eq_false_iff, decide_eq_true_eq, decide_eq_false_iff_not]; omega)))
    (by unfold vplUnit; (first | decide | (simp only; omega))) (by unfold vplUnit; (first | decide | (simp only; omega))) (by unfold vplUnit; (first | decide | (simp only; omega)))
  generalize unitEnable (vplUnit n) (s.vplForced n) s = x at h1
  obtain ⟨t, u⟩ := x
  dsimp only at h1 ⊢
  exact SameRegs.ite (h1.trans (side_vplStarting n _ h)) (SameRegs.ite (h1.trans (side_vplEvent _ _ _ _ _)) h1)

theorem side_vplDisable (n : Nat) (s : State) (h : n < 16) : SameRegs sideBlock s (vplDisable n s) := by
  unfold vplDisable
  dsimp only
  have h1 := side_unitDisable (vplUnit n) s (by unfold vplUnit; (first | rfl | decide | (simp only [sideBlock, bookBlock, Bool.or_eq_true, Bool.or_eq_false_iff, decide_eq_true_eq, decide_eq_false_iff_not]; omega))) (by unfold vplUnit; (first | rfl | decide | (simp only [sideBlock, bookBlock, Bool.or_eq_true, Bool.or_eq_false_iff, decide_eq_true_eq, decide_eq_false_iff_not]; omega))) (by unfold vplUnit; (first | decide | (simp only; omega))) (by unfold vplUnit; (first | decide | (simp only; omega)))
  exact SameRegs.ite (h1.trans (side_vplStopping n _ h)) h1

theorem side_vplFollow (n : Nat) (s : State) (h : n < 16) : SameRegs sideBlock s (vplFollow n s) := by
  unfold vplFollow
  dsimp only
  refine SameRegs.ite (SameRegs.refl _ s) (SameRegs.ite ?_ ?_)
  · exact SameRegs.trans (SameRegs.of (SameRegs.refl _ s) rfl) (side_vplEnable n _ h)
  · exact SameRegs.trans (SameRegs.of (SameRegs.refl _ s) rfl) (side_vplDisable n _ h)

/-- Every register field but PILOT and CP_MEAS of OUT[n], outside the pages beside the outlets', reads the same. -/
def Piloted (n : Nat) (s t : State) : Prop :=
  ∀ f : Fld, f.lo < 32 → sideBlock (f.addr / 4096) = false → f.key ≠ (Reg.OUT.STATUS.PILOT n).key →
    f.key ≠ (Reg.OUT.CP_MEAS.MODE n).key → f.key ≠ (Reg.OUT.CP_MEAS.DUTY n).key → t.rd f = s.rd f

theorem Piloted.refl (n : Nat) (s : State) : Piloted n s s := fun _ _ _ _ _ _ => rfl

theorem Piloted.trans {n : Nat} {s t u : State} (h : Piloted n s t) (k : Piloted n t u) : Piloted n s u :=
  fun f l b p m d => (k f l b p m d).trans (h f l b p m d)

theorem Piloted.side {n : Nat} {s t : State} (h : SameRegs sideBlock s t) : Piloted n s t := fun f l b _ _ _ => h f l b

theorem piloted_pilotF (n : Nat) (s : State) : Piloted n s (pilotF n s) := by
  unfold pilotF
  dsimp only
  split
  · exact Piloted.side (SameRegs.of (SameRegs.refl _ s) rfl)
  · have h1 : ∀ x, Piloted n s ((s.setOut n x).wr (Reg.OUT.STATUS.PILOT n) 5) :=
      fun x f l b p m d => (rd_wr_ne _ _ _ _ p).trans rfl
    split
    · exact h1 _
    · exact (h1 _).trans (Piloted.side (side_outEvent _ _ _ _ _))

theorem piloted_pilotApply (n : Nat) (s : State) (h : n < 16) : Piloted n s (pilotApply n s) := by
  unfold pilotApply
  split
  · exact Piloted.refl n s
  · dsimp only
    refine Piloted.trans ?_ (Piloted.side (side_vplFollow n _ h))
    have h1 : ∀ m d, Piloted n s ((s.wr (Reg.OUT.CP_MEAS.MODE n) m).wr (Reg.OUT.CP_MEAS.DUTY n) d) :=
      fun x y f l b p m d => (rd_wr_ne _ _ _ _ d).trans (rd_wr_ne _ _ _ _ m)
    split
    · exact (h1 _ _).trans (piloted_pilotF n _)
    · exact h1 _ _

theorem outEnter_reads (n st : Nat) (s : State) (h : n < 16) : Piloted n (s.wr (Reg.OUT.STATUS.STATE n) st) (outEnter n st s) := by
  unfold outEnter
  dsimp only
  refine Piloted.trans ?_ (piloted_pilotApply n _ h)
  refine Piloted.trans ?_ (Piloted.side (side_outEvent _ _ _ _ _))
  split
  · exact Piloted.refl n _
  · exact Piloted.side (SameRegs.of (SameRegs.refl _ _) rfl)

theorem outEnter_st (n st : Nat) (s : State) (h : n < 16) (hs : st < 16) : (outEnter n st s).outSt n = st := by
  unfold State.outSt
  rw [outEnter_reads n st s h _ (by first | decide | (simp only; omega)) (by first | rfl | decide | (simp only [sideBlock, bookBlock, Bool.or_eq_true, Bool.or_eq_false_iff, decide_eq_true_eq, decide_eq_false_iff_not]; omega)) (by (first | decide | (simp only [Fld.key]; omega))) (by (first | decide | (simp only [Fld.key]; omega))) (by (first | decide | (simp only [Fld.key]; omega))), rd_wr_same]
  exact Nat.mod_eq_of_lt hs

theorem side_hsEnable (c : Nat) (s : State) (h : c < 40) : SameRegs sideBlock s (hsEnable c s).2 := by
  unfold hsEnable
  have h1 := side_unitEnable (hsUnit c) (s.hsForced c) s (by unfold hsUnit; (first | rfl | decide | (simp only [sideBlock, bookBlock, Bool.or_eq_true, Bool.or_eq_false_iff, decide_eq_true_eq, decide_eq_false_iff_not]; omega))) (by unfold hsUnit; (first | rfl | decide | (simp only [sideBlock, bookBlock, Bool.or_eq_true, Bool.or_eq_false_iff, decide_eq_true_eq, decide_eq_false_iff_not]; omega))) (by unfold hsUnit; (first | rfl | decide | (simp only [sideBlock, bookBlock, Bool.or_eq_true, Bool.or_eq_false_iff, decide_eq_true_eq, decide_eq_false_iff_not]; omega)))
    (by unfold hsUnit; (first | decide | (simp only; omega))) (by unfold hsUnit; (first | decide | (simp only; omega))) (by unfold hsUnit; (first | decide | (simp only; omega)))
  generalize unitEnable (hsUnit c) (s.hsForced c) s = x at h1
  obtain ⟨t, u⟩ := x
  dsimp only at h1 ⊢
  have h2 : SameRegs sideBlock s (if t = .accepted ∨ t = .latched then u.setB (Reg.LSW.CH.STATUS.REQ_ON c) true else u) :=
    SameRegs.ite (h1.andWr _ _ (by first | rfl | decide | (simp only [sideBlock, bookBlock, Bool.or_eq_true, Bool.or_eq_false_iff, decide_eq_true_eq, decide_eq_false_iff_not]; omega)) (by first | decide | (simp only; omega))) h1
  simp only [Bool.or_eq_true, decide_eq_true_eq]
  refine SameRegs.ite ?_ h2
  unfold hsTurnOn
  refine SameRegs.of (SameRegs.of (t := ((if t = .accepted ∨ t = .latched then u.setB (Reg.LSW.CH.STATUS.REQ_ON c) true else u).setB (Reg.LSW.CH.STATUS.INRUSH c) _).setB
    (Reg.LSW.CH.STATUS.OPEN_LOAD c) false) ?_ rfl) rfl
  repeat' first | assumption | exact SameRegs.refl _ _ | (refine SameRegs.ite ?_ ?_) | (refine SameRegs.andWr ?_ _ _ (by first | rfl | decide | (simp only [sideBlock, bookBlock, Bool.or_eq_true, Bool.or_eq_false_iff, decide_eq_true_eq, decide_eq_false_iff_not]; omega)) (by first | decide | (simp only; omega)))

theorem side_hsDisable (c : Nat) (s : State) (h : c < 40) : SameRegs sideBlock s (hsDisable c s) := by
  unfold hsDisable
  dsimp only
  have h1 := (SameRegs.refl sideBlock s).andWr (Reg.LSW.CH.STATUS.REQ_ON c) (b2n false) (by first | rfl | decide | (simp only [sideBlock, bookBlock, Bool.or_eq_true, Bool.or_eq_false_iff, decide_eq_true_eq, decide_eq_false_iff_not]; omega)) (by first | decide | (simp only; omega))
  have h2 := (h1.trans (side_unitDisable (hsUnit c) _ (by unfold hsUnit; (first | rfl | decide | (simp only [sideBlock, bookBlock, Bool.or_eq_true, Bool.or_eq_false_iff, decide_eq_true_eq, decide_eq_false_iff_not]; omega))) (by unfold hsUnit; (first | rfl | decide | (simp only [sideBlock, bookBlock, Bool.or_eq_true, Bool.or_eq_false_iff, decide_eq_true_eq, decide_eq_false_iff_not]; omega))) (by unfold hsUnit; (first | decide | (simp only; omega))) (by unfold hsUnit; (first | decide | (simp only; omega))))).andWr
    (Reg.LSW.CH.STATUS.RESTARTS c) 0 (by first | rfl | decide | (simp only [sideBlock, bookBlock, Bool.or_eq_true, Bool.or_eq_false_iff, decide_eq_true_eq, decide_eq_false_iff_not]; omega)) (by first | decide | (simp only; omega))
  unfold hsDark
  refine SameRegs.ite ?_ h2
  exact (((h2.andWr _ _ (by first | rfl | decide | (simp only [sideBlock, bookBlock, Bool.or_eq_true, Bool.or_eq_false_iff, decide_eq_true_eq, decide_eq_false_iff_not]; omega)) (by first | decide | (simp only; omega))).andWr _ _ (by first | rfl | decide | (simp only [sideBlock, bookBlock, Bool.or_eq_true, Bool.or_eq_false_iff, decide_eq_true_eq, decide_eq_false_iff_not]; omega)) (by first | decide | (simp only; omega))).andWr _ _ (by first | rfl | decide | (simp only [sideBlock, bookBlock, Bool.or_eq_true, Bool.or_eq_false_iff, decide_eq_true_eq, decide_eq_false_iff_not]; omega)) (by first | decide | (simp only; omega))).andWr _ _ (by first | rfl | decide | (simp only [sideBlock, bookBlock, Bool.or_eq_true, Bool.or_eq_false_iff, decide_eq_true_eq, decide_eq_false_iff_not]; omega)) (by first | decide | (simp only; omega))

theorem side_hsDrive (c : Nat) (on : Bool) (s : State) : SameRegs sideBlock s (hsDrive c on s) := by
  unfold hsDrive
  split
  · exact SameRegs.refl _ s
  · exact SameRegs.ite (side_hsEnable c s (by omega)) (side_hsDisable c s (by omega))

theorem side_coilsSet (n : Nat) (on : Bool) (s : State) : SameRegs sideBlock s (coilsSet n on s) := by
  unfold coilsSet
  dsimp only
  exact SameRegs.of ((side_hsDrive _ on s).trans (side_hsDrive _ on _)) rfl

end Sys2Proof.Machine
end

