-- ==== Sys2Proof/Laws/Carrels.lean ====
section
/-!
SUPPORT. The carrel commands in a calm state.
-/
namespace Sys2Proof.Machine

theorem crlWatch_crl (s : State) : (crlWatch s).crl.recs = s.crl.recs ∧ (crlWatch s).outs = s.outs ∧
    SameRegs bookBlock s (crlWatch s) := by
  have aux : ∀ u : State, u.crl.recs = s.crl.recs → u.outs = s.outs → u.regs = s.regs →
      u.crl.recs = s.crl.recs ∧ u.outs = s.outs ∧ SameRegs bookBlock s u :=
    fun u h1 h2 h3 => ⟨h1, h2, fun f _ _ => rd_congr h3 f⟩
  unfold crlWatch
  dsimp only
  split
  · split
    · unfold raiseCause
      generalize hu : setCause 0x3002 0 true { s with crl := { s.crl with fewArmed := false } } = u
      have b := (books_raise 0x3002 0 u (by decide)).booked
      have e := b.rest
      have h1 := congrArg (fun x : State => x.crl.recs) e
      have h2 := congrArg (fun x : State => x.outs) e
      subst hu
      exact ⟨h1, h2, fun f l k => b.regs f l k⟩
    · exact aux _ rfl rfl rfl
  · split
    · exact aux _ rfl rfl rfl
    · exact aux _ rfl rfl rfl

theorem booked_crl {s t : State} (b : Booked s t) : t.crl = s.crl ∧ t.outs = s.outs := by
  have e := b.rest
  have h1 := congrArg State.crl e
  have h2 := congrArg State.outs e
  exact ⟨h1, h2⟩

theorem car_congr {s t : State} (h : t.crl.recs = s.crl.recs) (d : Nat) : t.car d = s.car d := by
  unfold State.car
  rw [h]

theorem setCar_car (s : State) (c d : Nat) (r : Carrel) : (s.setCar c r).car d = if d = c then r else s.car d := by
  unfold State.car State.setCar
  dsimp only
  rw [mapGet_mapSet]

theorem answers_watch {s u : State} (h : Calm s) (q : Quiet s u) : ∃ t, done (crlWatch u) = .next t ∧
    (∀ d, t.car d = u.car d) ∧ t.outs = u.outs ∧ (∀ f : Fld, f.lo < 32 → bookBlock (f.addr / 4096) = false → t.rd f = u.rd f) := by
  obtain ⟨t, e, b⟩ := answers_quiet h (q.trans (quiet_crlWatch u))
  have w := crlWatch_crl u
  have k := booked_crl b
  exact ⟨t, e, fun d => car_congr ((congrArg CrlSt.recs k.1).trans w.1) d, k.2.trans w.2.1,
    fun f l hb => (b.regs f l hb).trans (w.2.2 f l hb)⟩

theorem crlJudge_ok {s : State} (h : Calm s) {a : Agent} (hl : 1 ≤ s.level a) {cmd : Nat} (hm : crlModeOk cmd s = true)
    {c : Nat} {conds : List (Nat × Bool)} (hf : conds.find? (fun x => !x.2) = none) (act : State → State) :
    crlJudge a c cmd conds act s = crlWatch (act s) := by
  unfold crlJudge
  rw [h.modeWrites, hm, if_neg (by decide), if_neg (by omega), if_neg (by decide), hf]

theorem reserveConds_ok {s : State} {n : Nat} {free : Bool} {ex : Option Nat} (l : List (Nat × Bool))
    (hn : s.newCarrels = true) (hk : s.rd (Reg.OUT.CFG.KIND n) ≠ 0) (ho : s.outSt n ≠ 0) (h4 : s.outletCarrels n ex < 4)
    (hf : free = true → s.freeCarrel.isSome = true ∧ s.rd Reg.CRL.NEXT_SESSION.SESSION ≠ 0)
    (hl : l.find? (fun x => !x.2) = none) : (reserveConds s n free ex ++ l).find? (fun x => !x.2) = none := by
  unfold reserveConds
  rw [List.find?_append, hl]
  have e : (!free || (s.freeCarrel.isSome && decide (s.rd Reg.CRL.NEXT_SESSION.SESSION ≠ 0))) = true := by
    cases free with
    | false => rfl
    | true => simp [hf rfl]
  simp only [List.find?, hn, e, hk, ho, h4, ne_eq, not_false_eq_true, decide_true, Bool.and_true, Bool.not_true, Bool.true_and, List.find?_nil, Option.none_or]

theorem quiet_takeSession (s : State) : Quiet s (takeSession s).2 := by
  unfold takeSession
  dsimp only
  exact Quiet.of ((Quiet.refl s).wr Reg.CRL.NEXT_SESSION.SESSION _ (by decide)) rfl rfl rfl

theorem quiet_crlResult (c m k : Nat) (s : State) : Quiet s (crlResult c m k s) := by
  unfold crlResult
  exact (((Quiet.refl s).wr _ _ (by decide)).wr _ _ (by decide)).wr _ _ (by decide)

theorem takeSession_next {s : State} {k : Nat} (e : k = s.rd Reg.CRL.NEXT_SESSION.SESSION) :
    (takeSession s).1 = k ∧ (takeSession s).2.crl.recs = s.crl.recs ∧ (takeSession s).2.outs = s.outs ∧
      (takeSession s).2.rd Reg.CRL.NEXT_SESSION.SESSION = (k + 1) % 2 ^ 32 := by
  subst e
  refine ⟨rfl, rfl, rfl, ?_⟩
  show RegFile.rd (RegFile.wr s.regs _ _) _ = _
  rw [RegFile.rd_wr_same]
  have hb : s.rd Reg.CRL.NEXT_SESSION.SESSION < 2 ^ 32 ∨ 2 ^ 32 ≤ s.rd Reg.CRL.NEXT_SESSION.SESSION := by omega
  split
  · rename_i h
    rw [h]
    rfl
  · rfl

theorem takeSession_rd (s : State) (f : Fld) (h : f.key ≠ Reg.CRL.NEXT_SESSION.SESSION.key) :
    (takeSession s).2.rd f = s.rd f := by
  show RegFile.rd (RegFile.wr s.regs _ _) _ = _
  rw [RegFile.rd_wr_ne _ _ _ _ h]
  rfl

theorem takeSession_sec (s : State) : (takeSession s).2.rtcSec = s.rtcSec := by
  unfold State.rtcSec State.reading
  rw [takeSession_rd s _ (by decide)]
  rfl

theorem authorised_take (s : State) (n k : Nat) : authorised (takeSession s).2 n k = authorised s n k := by
  have f : ∀ j, j < 16 → (takeSession s).2.form j = s.form j := by
    intro j hj
    exact takeSession_rd s _ (by simp only [Fld.key]; omega)
  unfold authorised
  rw [takeSession_sec]
  simp only [f 0 (by decide), f 1 (by decide), f 2 (by decide), f 3 (by decide), f 4 (by decide), f 5 (by decide), f 6 (by decide),
    f 7 (by decide), f 8 (by decide), f 9 (by decide), f 10 (by decide)]

theorem crl_make {s : State} (h : Calm s) (u : State) (c cmd : Nat) (r : Carrel) (q : Quiet s u) :
    ∃ t, done (crlWatch (crlResult c cmd 0 (u.setCar c r))) = .next t ∧
      (∀ d, t.car d = if d = c then r else u.car d) ∧
      t.rd Reg.CRL.NEXT_SESSION.SESSION = u.rd Reg.CRL.NEXT_SESSION.SESSION ∧ t.rd Reg.CRL.RESULT.CARREL = c % 256 ∧
      t.rd Reg.CRL.RESULT.CMD = cmd % 256 ∧ t.rd Reg.CRL.RESULT.CODE = 0 ∧ t.outs = u.outs := by
  obtain ⟨t, e, hc, ho, hr⟩ := answers_watch h ((q.trans (quiet_setCar u c r)).trans (quiet_crlResult c cmd 0 _))
  refine ⟨t, e, fun d => (hc d).trans (setCar_car u c d r), (hr _ (by decide) rfl).trans ?_, (hr _ (by decide) rfl).trans ?_,
    (hr _ (by decide) rfl).trans ?_, (hr _ (by decide) rfl).trans ?_, ho⟩
  all_goals unfold crlResult
  · simp (disch := first | assumption | decide | (simp only [Fld.key]; omega)) only [State.bit, State.mode, State.rdI, State.rd, State.wr, State.setB, State.inc, State.incWrap, State.wrI, State.setFlag, State.flag, setCause, RegFile.rd_wr_same, RegFile.rd_wr_ne]
    rfl
  · simp (disch := first | assumption | decide | (simp only [Fld.key]; omega)) only [State.bit, State.mode, State.rdI, State.rd, State.wr, State.setB, State.inc, State.incWrap, State.wrI, State.setFlag, State.flag, setCause, RegFile.rd_wr_same, RegFile.rd_wr_ne]
    rfl
  · simp (disch := first | assumption | decide | (simp only [Fld.key]; omega)) only [State.bit, State.mode, State.rdI, State.rd, State.wr, State.setB, State.inc, State.incWrap, State.wrI, State.setFlag, State.flag, setCause, RegFile.rd_wr_same, RegFile.rd_wr_ne]
    rfl
  · simp (disch := first | assumption | decide | (simp only [Fld.key]; omega)) only [State.bit, State.mode, State.rdI, State.rd, State.wr, State.setB, State.inc, State.incWrap, State.wrI, State.setFlag, State.flag, setCause, RegFile.rd_wr_same, RegFile.rd_wr_ne]
    rfl

theorem freeCarrel_lt {s : State} {c : Nat} (h : s.freeCarrel = some c) : c < 256 := by
  unfold State.freeCarrel at h
  exact List.mem_range.1 (List.mem_of_find?_eq_some h)

end Sys2Proof.Machine
end

