-- ==== Sys2Proof/Laws/Contactless.lean ====
section
/-!
SUPPORT. Commands of the tag: a frame acts where the tag runs and has a field, a command of R450 in OPEN and SECURED.
-/
namespace Sys2Proof.Machine

theorem ends_frame {c : Instr} {f : State → State} {s x : State} (hl : s.tagLive = true) (hf : s.bit Reg.TAG.STATUS.FIELD = true)
    (e : exec c s = done (tagFrame f s)) (k : f s = x) : exec c s = .next (settle x) := by
  rw [e]
  unfold tagFrame
  rw [hl, hf, if_pos (by rfl), k]
  rfl

theorem tagOpen_eq (s : State) : s.tagOpen = true ↔ s.tagSt = 3 ∨ s.tagSt = 4 := by
  unfold State.tagOpen
  simp

theorem ends_command {c : Instr} {f : State → State} {s x : State} (hl : s.tagLive = true) (hf : s.bit Reg.TAG.STATUS.FIELD = true)
    (ho : s.tagSt = 3 ∨ s.tagSt = 4) (e : exec c s = done (tagCommand f s)) (k : f s = x) : exec c s = .next (settle x) := by
  exact ends_frame hl hf e ((if_pos ((tagOpen_eq s).2 ho)).trans k)

end Sys2Proof.Machine
end

