-- ==== Sys2Proof/Laws/Displays.lean ====
section
/-!
SUPPORT. The displays in a calm state.
-/
namespace Sys2Proof.Machine

theorem mapDpy_calm {s : State} (h : Calm s) (f : DpySt → DpySt) : Calm (s.mapDpy f) := Calm.upd h rfl rfl rfl rfl rfl rfl rfl rfl

theorem mapBdy_calm {s : State} (h : Calm s) (f : BdySt → BdySt) : Calm (s.mapBdy f) := Calm.upd h rfl rfl rfl rfl rfl rfl rfl rfl

theorem dpyShow_calm {s : State} (h : Calm s) : Calm (dpyShow s) := by
  unfold dpyShow
  dsimp only
  refine Calm.ite (mapDpy_calm ?_ _) ?_ <;> repeat' first | assumption | (refine Calm.wr ?_ _ _ ?_ ?_) | (refine Calm.setCause ?_ _ _ _) | (refine Calm.ite ?_ ?_) | decide | (simp only [Fld.key]; omega)

theorem dpyTurnOn_calm {s : State} (h : Calm s) : Calm (dpyTurnOn s) := by
  unfold dpyTurnOn
  refine dpyShow_calm (mapDpy_calm ?_ _)
  repeat' first | assumption | (refine Calm.wr ?_ _ _ ?_ ?_) | (refine Calm.setCause ?_ _ _ _) | (refine Calm.ite ?_ ?_) | decide | (simp only [Fld.key]; omega)

theorem unitForce_dpy_calm {s : State} (h : Calm s) : Calm (unitForce dpyUnit s) := by
  unfold unitForce dpyUnit
  dsimp only
  repeat' first | assumption | (refine Calm.wr ?_ _ _ ?_ ?_) | (refine Calm.setCause ?_ _ _ _) | (refine Calm.ite ?_ ?_) | decide | (simp only [Fld.key]; omega)

theorem dpyEnable_calm {s : State} (h : Calm s) : Calm (dpyEnable s) := by
  have h1 : Calm (unitEnable dpyUnit (s.dpyCauses ≠ 0) s).2 := by
    unfold unitEnable dpyUnit
    dsimp only
    repeat' split
    all_goals repeat' first | assumption | (refine Calm.wr ?_ _ _ ?_ ?_) | (refine Calm.setCause ?_ _ _ _) | (refine Calm.ite ?_ ?_) | decide | (simp only [Fld.key]; omega)
  unfold dpyEnable
  generalize unitEnable dpyUnit (s.dpyCauses ≠ 0) s = x at h1
  obtain ⟨t, u⟩ := x
  dsimp only at h1 ⊢
  have h2 : ∀ (p : Prop) [Decidable p], Calm (if p then u.setB Reg.DPY.STATUS.REQ_ON true else u) := by
    intro p _
    repeat' first | assumption | (refine Calm.wr ?_ _ _ ?_ ?_) | (refine Calm.setCause ?_ _ _ _) | (refine Calm.ite ?_ ?_) | decide | (simp only [Fld.key]; omega)
  exact Calm.ite (dpyTurnOn_calm (h2 _)) (h2 _)

theorem dpyJudge_calm {s : State} (h : Calm s) : Calm (dpyJudge s) := by
  unfold dpyJudge
  dsimp only
  have h1 : Calm ((s.mapDpy fun d => { d with causes := s.dpyCauses }).wr Reg.DPY.STATUS.CAUSE (lowestCause s.dpyCauses)) := by
    have := mapDpy_calm h (fun d => { d with causes := s.dpyCauses })
    repeat' first | assumption | (refine Calm.wr ?_ _ _ ?_ ?_) | (refine Calm.setCause ?_ _ _ _) | (refine Calm.ite ?_ ?_) | decide | (simp only [Fld.key]; omega)
  exact Calm.ite (dpyShow_calm (unitForce_dpy_calm h1)) (Calm.ite (dpyEnable_calm h1) h1)

theorem dpyShow_flt (s : State) : (dpyShow s).flt = s.flt := by
  unfold dpyShow
  dsimp only
  split <;> rfl

theorem unitForce_dpy_flt (s : State) : (unitForce dpyUnit s).flt = s.flt := by
  unfold unitForce
  dsimp only
  split <;> rfl

theorem unitEnable_flt (u : UnitRef) (f : Bool) (s : State) : (unitEnable u f s).2.flt = s.flt := by
  unfold unitEnable
  dsimp only
  repeat' split
  all_goals rfl

theorem dpyEnable_flt (s : State) : (dpyEnable s).flt = s.flt := by
  have h1 := unitEnable_flt dpyUnit (s.dpyCauses ≠ 0) s
  unfold dpyEnable
  generalize unitEnable dpyUnit (s.dpyCauses ≠ 0) s = x at h1
  obtain ⟨t, u⟩ := x
  dsimp only at h1 ⊢
  rw [← h1]
  have h2 : ∀ (p : Prop) [Decidable p], (if p then u.setB Reg.DPY.STATUS.REQ_ON true else u).flt = u.flt := by
    intro p _; split <;> rfl
  split
  · unfold dpyTurnOn; rw [dpyShow_flt]; exact h2 _
  · exact h2 _

theorem dpyJudge_flt (s : State) : (dpyJudge s).flt = s.flt := by
  unfold dpyJudge
  dsimp only
  split
  · rw [dpyShow_flt, unitForce_dpy_flt]; rfl
  · split
    · rw [dpyEnable_flt]; rfl
    · rfl

theorem bdyDrive_none (p : Bool) (q : Nat) (t : State) (h : t.bdyRun q = none) : bdyDrive p q t = t := by
  unfold bdyDrive
  rw [h]

theorem bdyDrive_run (p : Bool) (r q : Nat) (t : State) (h : q ≠ r) : (bdyDrive p r t).bdyRun q = t.bdyRun q := by
  unfold bdyDrive
  split
  · rfl
  · split
    · rfl
    · unfold State.bdyRun State.mapBdy
      dsimp only
      rw [wr_bdy]
      exact mapGet_mapSet_ne _ _ _ h

theorem bdyDrive_one (p : Bool) (r : Nat) (u : State) (h : ∀ q, q < 8 → q ≠ r → u.bdyRun q = none) :
    ∀ n, n ≤ 8 → forEach n (bdyDrive p) u = if r < n then bdyDrive p r u else u := by
  intro n
  induction n with
  | zero => intro _; rfl
  | succ n ih =>
    intro hn
    rw [forEach_succ, ih (by omega)]
    by_cases h1 : r < n
    · rw [if_pos h1, if_pos (by omega)]
      exact bdyDrive_none _ _ _ ((bdyDrive_run p r n u (by omega)).trans (h n (by omega) (by omega)))
    · rw [if_neg h1]
      by_cases h2 : r = n
      · subst h2
        rw [if_pos (by omega)]
      · rw [if_neg (by omega)]
        exact bdyDrive_none _ _ _ (h n (by omega) (by omega))

theorem bdyRequest_calm {s : State} (h : Calm s) {r : Nat} (hr : r < 8) : Calm (bdyRequest r s) := by
  unfold bdyRequest
  dsimp only
  refine Calm.ite h (mapBdy_calm ?_ _)
  repeat' first | assumption | (refine Calm.wr ?_ _ _ ?_ ?_) | (refine Calm.setCause ?_ _ _ _) | (refine Calm.ite ?_ ?_) | decide | (simp only [Fld.key]; omega)

theorem bdyRecover_calm {s : State} (h : Calm s) : Calm (bdyRecover s) := by
  unfold bdyRecover
  refine Calm.ite h (mapBdy_calm ?_ _)
  repeat' first | assumption | (refine Calm.wr ?_ _ _ ?_ ?_) | (refine Calm.setCause ?_ _ _ _) | (refine Calm.ite ?_ ?_) | decide | (simp only [Fld.key]; omega)

end Sys2Proof.Machine
end

