-- ==== Sys2Proof/Laws/Recorder.lean ====
section
/-!
SUPPORT. Closing entries, what a record adds to the recorder-input queue, and what a drain leaves.
-/
namespace Sys2Proof.Machine

/-- The registers of the books and of SAF. -/
theorem SameRegs.books {s t : State} (h : Books s t) : SameRegs (fun b => bookBlock b || b = 0x34) s t :=
  h.booked.regs.widen (fun b hb => by simp only [Bool.or_eq_false_iff] at hb; exact hb.1)

/-- An open entry closes in a calm state: its record is queued, the entry goes, and with no Major or Grave entry left the
force lines and ERR_HOLD are released (R493, R496). -/
theorem closeEntry_calm {s : State} (h : Calm s) (idx how : Nat) (hx : (s.flt.table.any fun e => e.idx = idx) = true) :
    Still (closeEntry idx how s) ∧ ((closeEntry idx how s).flt.table = s.flt.table.filter fun e => decide (e.idx ≠ idx)) ∧
      ((closeEntry idx how s).majorOpen = false →
        (closeEntry idx how s).rd Reg.SAF.STATUS.FORCE = 0 ∧ (closeEntry idx how s).rd Reg.FLT.CTL.ERR_HOLD = 0) ∧
      SameRegs (fun b => bookBlock b || b = 0x34) s (closeEntry idx how s) ∧
      (closeEntry idx how s).unbooked = s.unbooked := by
  have hf : ∃ e, s.flt.table.find? (fun e => decide (e.idx = idx)) = some e := by
    cases hc : s.flt.table.find? (fun e => decide (e.idx = idx)) with
    | some e => exact ⟨e, rfl⟩
    | none =>
      rw [List.find?_eq_none] at hc
      rw [List.any_eq_true] at hx
      obtain ⟨x, hm, hd⟩ := hx
      exact absurd hd (hc x hm)
  obtain ⟨e, hf⟩ := hf
  generalize hu : ({ s with flt := { s.flt with table := s.flt.table.filter fun x => x.idx ≠ idx } } : State) = u
  have hut : u.flt.table = s.flt.table.filter fun x => x.idx ≠ idx := by rw [← hu]
  have hcu : Calm u := by
    subst hu
    exact h.congr rfl rfl rfl rfl rfl rfl rfl
  have hsu : SameRegs (fun b => bookBlock b || b = 0x34) s u := by
    subst hu
    exact fun f _ _ => rfl
  have hru : u.unbooked = s.unbooked := by
    subst hu
    rfl
  have hmu : u.mode = s.mode := by subst hu; rfl
  have hcl : ∃ p, closeEntry idx how s = afterClose (u.record 0x02 p false) := by
    unfold closeEntry
    simp only [hf]
    rw [← hu]
    exact ⟨_, rfl⟩
  obtain ⟨p, hcl⟩ := hcl
  have t1 := tidy_record u 0x02 p false hcu.queueRoom
  have b1 := books_record u 0x02 p
  rw [hcl]
  generalize u.record 0x02 p false = v at t1 b1
  have ht : v.flt.table = s.flt.table.filter fun e => decide (e.idx ≠ idx) := t1.table.trans hut
  have hm : v.mode = u.mode := mode_same b1.booked.regs rfl
  unfold afterClose
  split
  · rename_i ho
    exact ⟨t1.still hcu (by decide) hm, ht, fun hn => absurd (hn.symm.trans ho) (by decide),
      hsu.trans (SameRegs.books b1), b1.booked.rest.trans hru⟩
  · have hkey : ∀ w b, Calm u → Tidy 1 u v →
        w = (v.setB Reg.SAF.STATUS.FORCE false).setB Reg.FLT.CTL.ERR_HOLD false →
        Still (w.setB Reg.FLT.STATUS.ERR_LOW b) ∧ (w.setB Reg.FLT.STATUS.ERR_LOW b).rd Reg.SAF.STATUS.FORCE = 0 ∧
          (w.setB Reg.FLT.STATUS.ERR_LOW b).rd Reg.FLT.CTL.ERR_HOLD = 0 ∧
          SameRegs (fun b => bookBlock b || b = 0x34) v (w.setB Reg.FLT.STATUS.ERR_LOW b) ∧
          (w.setB Reg.FLT.STATUS.ERR_LOW b).unbooked = v.unbooked ∧
          (w.setB Reg.FLT.STATUS.ERR_LOW b).flt.table = v.flt.table := by
      intro w b cu tu hw
      have t2 := Tidy.trans (j := 1) (k := 0) tu (tidy_wr v Reg.SAF.STATUS.FORCE (b2n false))
      have t3 := Tidy.trans (j := 1) (k := 0) t2 (tidy_wr _ Reg.FLT.CTL.ERR_HOLD (b2n false))
      have t4 := Tidy.trans (j := 1) (k := 0) t3 (tidy_wr _ Reg.FLT.STATUS.ERR_LOW (b2n b))
      subst hw
      have r1 := SameRegs.wr (b := fun b => bookBlock b || b = 0x34) v Reg.SAF.STATUS.FORCE (b2n false) (by decide)
        (by decide)
      have r2 := SameRegs.wr (b := fun b => bookBlock b || b = 0x34) (v.setB Reg.SAF.STATUS.FORCE false)
        Reg.FLT.CTL.ERR_HOLD (b2n false) (by decide) (by decide)
      have r3 := SameRegs.wr (b := fun b => bookBlock b || b = 0x34)
        ((v.setB Reg.SAF.STATUS.FORCE false).setB Reg.FLT.CTL.ERR_HOLD false) Reg.FLT.STATUS.ERR_LOW (b2n b) (by decide)
        (by decide)
      have r := r1.trans (r2.trans r3)
      refine ⟨t4.still cu (by decide) ((mode_same r rfl).trans hm), ?_, ?_, r, rfl, rfl⟩
      · exact (rd_setB_ne _ _ _ _ (by decide)).trans ((rd_setB_ne _ _ _ _ (by decide)).trans
          ((rd_wr_same _ Reg.SAF.STATUS.FORCE _).trans (by decide)))
      · exact (rd_setB_ne _ _ _ _ (by decide)).trans ((rd_wr_same _ Reg.FLT.CTL.ERR_HOLD _).trans (by decide))
    obtain ⟨k1, k2, k3, k4, k5, k6⟩ := hkey _ _ hcu t1 rfl
    exact ⟨k1, k6.trans ht, fun _ => ⟨k2, k3⟩, hsu.trans ((SameRegs.books b1).trans k4),
      k5.trans (b1.booked.rest.trans hru)⟩

/-! ### What a record adds -/

theorem items_spill (x : Queue) : x.spill.items = x.items := by
  unfold Queue.spill Queue.items
  cases h : x.tail <;> simp [h]

theorem tail_spill (x : Queue) : x.spill.tail = none := by
  unfold Queue.spill
  cases h : x.tail <;> simp [h]

theorem items_put (x : Queue) (i : Item) (h : x.tail = none) : (x.put i).items = x.items ++ [i] := by
  unfold Queue.put Queue.items
  split
  · rename_i hc
    simp only [Bool.and_eq_true, decide_eq_true_eq, List.isEmpty_iff] at hc
    simp [hc.1.2, h]
  · simp [h]

theorem crossing_q (s : State) (n was m : Nat) : (s.crossing n was).q m = s.q m := by
  unfold State.crossing
  dsimp only
  split <;> rfl

/-- A record joins the recorder-input queue behind the items there. -/
theorem recPut_items (s : State) (r : Rec) : ((s.recPut r).q 15).items = (s.q 15).items ++ [r.toItem] := by
  unfold State.recPut State.qAccept
  dsimp only
  rw [crossing_q, q_setQ_same, q_setQ_same, items_put _ _ (tail_spill _), items_spill]

/-- The crossing of a watermark leaves the registers outside the queues' block as they are. -/
theorem crossing_rd (s : State) (n was : Nat) (hn : n < 32) (f : Fld) (hl : f.lo < 32) (hf : f.addr / 4096 ≠ 6) :
    (s.crossing n was).rd f = s.rd f := by
  unfold State.crossing
  dsimp only
  split
  · have k : ∀ (g : Fld), g.addr / 4096 = 6 → g.lo < 32 → f.key ≠ g.key := fun g hg gl =>
      key_ne hl gl (fun h => hf (by rw [h]; exact hg))
    rw [rd_wr_ne _ _ _ _ (k _ (by simp; omega) (by simp)), rd_wr_ne _ _ _ _ (k _ (by simp; omega) (by simp)),
      rd_wr_ne _ _ _ _ (k _ (by simp; omega) (by simp)), rd_setB_ne _ _ _ _ (k _ (by simp; omega) (by simp))]
    rfl
  · rfl

/-- A record that is not legally relevant, created while the recorder runs with room in its queue (R501, R502, R504). -/
theorem record_items (s : State) (ty payload : Nat) (hrun : s.bit Reg.EVR.STATUS.RUN = true)
    (hq : (s.q 15).level < s.qCap 15) (hn : s.rd Reg.EVR.NEXT_RNO.RNO + 1 < 2 ^ 32) :
    ∃ ms, ms < 1000 ∧ ((s.record ty payload false).q 15).items = (s.q 15).items ++
        [Rec.toItem ⟨s.rd Reg.EVR.NEXT_RNO.RNO, ty, 0, ms, s.rd Reg.PWR.CYCLES.COUNT, s.rd Reg.PWR.OPSEC.SECONDS, payload⟩] ∧
      (s.record ty payload false).rd Reg.EVR.NEXT_RNO.RNO = s.rd Reg.EVR.NEXT_RNO.RNO + 1 := by
  have hq' : ¬ (s.recMs.2.qCap 15 ≤ (s.recMs.2.q 15).level) := Nat.not_le.mpr hq
  have hr' : s.recMs.2.bit Reg.EVR.STATUS.RUN = true := hrun
  unfold State.record
  dsimp only
  simp only [if_neg hq', hr', Bool.not_true, Bool.false_and, Bool.false_eq_true, if_false]
  refine ⟨s.recMs.1, Nat.mod_lt _ (by decide), ?_, ?_⟩
  · rw [recPut_items]
    have e1 : (s.recMs.2.takeRno.2.q 15) = s.q 15 := by
      unfold State.takeRno
      dsimp only
      split <;> split <;> rfl
    rw [e1]
    rfl
  · unfold State.recPut State.qAccept
    dsimp only
    rw [crossing_rd _ _ _ (by decide) _ (by decide) (by decide)]
    show s.recMs.2.takeRno.2.rd Reg.EVR.NEXT_RNO.RNO = _
    unfold State.takeRno
    dsimp only
    have e : s.recMs.2.rd Reg.EVR.NEXT_RNO.RNO = s.rd Reg.EVR.NEXT_RNO.RNO := rfl
    rw [e]
    split
    · rw [rd_setB_ne _ _ _ _ (by decide), rd_wr_same]
      exact Nat.mod_eq_of_lt hn
    · rw [rd_wr_same]
      exact Nat.mod_eq_of_lt hn

/-! ### Drains -/

theorem slotWrite_calm {s : State} (h : Calm s) (r : Rec) : Calm (slotWrite s r) := by
  unfold slotWrite
  split
  · exact h.congr rfl rfl rfl rfl rfl rfl rfl
  · refine Calm.wr ?_ Reg.EVR.CIRC_HEAD.SLOT _ (by decide) (by decide)
    exact h.congr rfl rfl rfl rfl rfl rfl rfl

theorem slotWrites_calm (l : List Rec) : ∀ s : State, Calm s → Calm (l.foldl slotWrite s) := by
  induction l with
  | nil => exact fun s h => h
  | cons r l ih => exact fun s h => ih _ (slotWrite_calm h r)

theorem poisonSeen_clean (l : List Item) (n : Nat) : ∀ s : State, (∀ i ∈ l, i.poison = 0) →
    l.foldl (fun s i => poisonSeen n i s) s = s := by
  induction l with
  | nil => exact fun s _ => rfl
  | cons i l ih =>
    intro s h
    have e : poisonSeen n i s = s := by
      unfold poisonSeen
      rw [if_pos (h i (List.mem_cons_self ..))]
    show l.foldl (fun s i => poisonSeen n i s) (poisonSeen n i s) = s
    rw [e]
    exact ih s (fun j hj => h j (List.mem_cons_of_mem _ hj))

end Sys2Proof.Machine
end

