-- ==== Sys2Proof/Laws/HostPort.lean ====
section
/-!
SUPPORT. The host port: a calm state under a loop and under a descriptor's return, and the words that transactions read
from and write to the reading room.
-/
namespace Sys2Proof.Machine

theorem forEach_calm {s : State} (h : Calm s) (n : Nat) (f : Nat → State → State) (hf : ∀ i t, i < n → Calm t → Calm (f i t)) : Calm (forEach n f s) :=
  forEach_keeps Calm f n hf s h

theorem readWord_room (a : Nat) (s : State) (h1 : 0x100000 ≤ a) (h2 : a < 0x200000) :
    readWord .host (a % 2 ^ 32) s = (leValue (readBytes s.hp.rroom (a - 0x100000) 4), s) := by
  have e : a % 2 ^ 32 = a := Nat.mod_eq_of_lt (by omega)
  rw [e]
  unfold readWord
  rw [if_neg (by omega), if_pos ⟨h1, h2⟩]

theorem readWords_succ (n a : Nat) (s t : State) (w : Nat) (h : readWord .host (a % 2 ^ 32) s = (w, t)) :
    readWords (n + 1) a s = (w :: (readWords n (a + 4) t).1, (readWords n (a + 4) t).2) := by
  show (let (w, s) := readWord .host (a % 2 ^ 32) s; let (l, s) := readWords n (a + 4) s; (w :: l, s)) = _
  rw [h]

theorem room_succ (a : Nat) (m : Bytes) (h1 : 0x100000 ≤ a) : ((fun i => leValue (readBytes m (a - 0x100000 + 4 * i) 4)) ∘ Nat.succ) = fun i => leValue (readBytes m (a + 4 - 0x100000 + 4 * i) 4) := by
      have e2 : ∀ i, a - 0x100000 + 4 * (i + 1) = a + 4 - 0x100000 + 4 * i := by intro i; omega
      funext i
      exact congrArg (fun x => leValue (readBytes m x 4)) (e2 i)

theorem readWords_step (n : Nat) (ih : ∀ (a : Nat) (s : State), 0x100000 ≤ a → a + 4 * n ≤ 0x200000 →
    readWords n a s = ((List.range n).map (fun i => leValue (readBytes s.hp.rroom (a - 0x100000 + 4 * i) 4)), s)) (a : Nat) (s : State) (h1 : 0x100000 ≤ a) (h2 : a + 4 * (n + 1) ≤ 0x200000) :
   readWords (n+1) a s = (leValue (readBytes s.hp.rroom (a - 0x100000) 4) :: (List.range n).map (fun i => leValue (readBytes s.hp.rroom (a + 4 - 0x100000 + 4 * i) 4)), s) := by
    rw [readWords_succ _ _ _ _ _ (readWord_room a s h1 (by omega)), ih (a + 4) s (by omega) (by omega)]

theorem map_range_succ (f : Nat → Nat) (n : Nat) : (List.range (n+1)).map f = f 0 :: (List.range n).map (f ∘ Nat.succ) := by
    rw [List.range_succ_eq_map, List.map_cons, List.map_map]

theorem readWords_room (n : Nat) : ∀ (a : Nat) (s : State), 0x100000 ≤ a → a + 4 * n ≤ 0x200000 →
    readWords n a s = ((List.range n).map (fun i => leValue (readBytes s.hp.rroom (a - 0x100000 + 4 * i) 4)), s) := by
  induction n with
  | zero => intro a s _ _; rfl
  | succ n ih =>
    intro a s h1 h2
    have f0 : leValue (readBytes s.hp.rroom (a - 0x100000 + 4 * 0) 4) = leValue (readBytes s.hp.rroom (a - 0x100000) 4) :=
      congrArg (fun x => leValue (readBytes s.hp.rroom x 4)) (by omega : a - 0x100000 + 4 * 0 = a - 0x100000)
    have e4 := map_range_succ (fun i => leValue (readBytes s.hp.rroom (a - 0x100000 + 4 * i) 4)) n
    rw [room_succ a _ h1, f0] at e4
    exact (readWords_step n ih a s h1 h2).trans (congrArg (fun l => (l, s)) e4.symm)

theorem writeWords_room (l : List Nat) : ∀ (a : Nat) (s : State), Calm s → 0x100000 ≤ a → a + 4 * l.length ≤ 0x200000 → s.hp.active = none → s.hp.handed = [] →
    writeWords a l s = (false, { s with hp := { s.hp with rroom := writeBytes s.hp.rroom (a - 0x100000) (l.flatMap fun w => leBytes 4 (w % 2 ^ 32)) } }) := by
  induction l with
  | nil => intro a s _ _ _ _ _; rfl
  | cons w l ih =>
    intro a s h h1 h2 h3 h4
    simp only [List.length_cons] at h2
    have e : a % 2 ^ 32 = a := Nat.mod_eq_of_lt (by omega)
    have hp : s.pageOwned a = false := by
      unfold State.pageOwned
      rw [h3, h4]
      rfl
    have e1 : busWrite .host (a % 2 ^ 32) w s = (false, { s with hp := { s.hp with rroom := writeBytes s.hp.rroom (a - 0x100000) (leBytes 4 (w % 2 ^ 32)) } }) := by
      unfold busWrite
      dsimp only
      have := h.low
      have := h.high
      rw [e, h.run, if_neg (by decide), if_neg (by omega), if_pos (by omega), if_neg (by simp; omega), if_neg (by rw [hp]; simp)]
      rfl
    show (let (e, s) := busWrite .host (a % 2 ^ 32) w s; let (e', s) := writeWords (a + 4) l (settle s); (e || e', s)) = _
    rw [e1]
    dsimp only
    have c : Calm ({ s with hp := { s.hp with rroom := writeBytes s.hp.rroom (a - 0x100000) (leBytes 4 (w % 2 ^ 32)) } } : State) := h.congr rfl rfl rfl rfl rfl rfl rfl
    rw [c.settle, ih (a + 4) _ c (by omega) (by omega) h3 h4]
    have key : ∀ (x y : List Byte) (m : Bytes) (b : Nat), x.length = 4 → writeBytes (writeBytes m b x) (b + 4) y = writeBytes m b (x ++ y) := by
      intro x y m b hx
      match x, hx with
      | [p, q, r, t], _ => rfl
    rw [List.flatMap_cons, ← key _ _ _ _ (show (leBytes 4 (w % 2 ^ 32)).length = 4 from rfl)]
    rw [show a + 4 - 0x100000 = a - 0x100000 + 4 by omega]
    rfl

theorem handBack_calm {s : State} (h : Calm s) (d r l : Nat) : Calm (handBack d r l s) := by
  unfold handBack State.setFlag
  refine Calm.wr (Calm.setB (Calm.wr (Calm.wr h _ _ ?_ ?_) _ _ ?_ ?_) _ _ ?_ ?_) _ _ ?_ ?_ <;> (simp only [Fld.key]; omega)

theorem Calm.mapPort {s : State} (h : Calm s) (a : Agent) (f : Port → Port) : Calm (s.mapPort a f) := by
  cases a <;> exact h.congr rfl rfl rfl rfl rfl rfl rfl

theorem consumes_ne {s : State} {a : Agent} {n : Nat} (h : s.consumes a n = true) : n ≠ 15 := by
  rintro rfl
  revert h
  unfold State.consumes
  simp

theorem qready_chain (x : Queue) : x.ready.chain.head? = x.items.head? := by
  obtain ⟨ch, tl, an⟩ := x
  cases ch with
  | cons a l => rfl
  | nil => cases tl <;> cases an <;> simp [Queue.ready, Queue.spill, Queue.refill, Queue.items]

theorem portOp_calm {s : State} (h : Calm s) {a : Agent} (role : State → Agent → Nat → Bool) (act : Nat → State → State)
    (hl : 1 ≤ s.level a) (hc : ¬ ((s.port a).copyOf = some (s.port a).sel ∧ (s.port a).invalid = true))
    (hr : role s a (s.port a).sel = true) : portOp a role act s = act (s.port a).sel s := by
  unfold portOp
  rw [h.modeWrites]
  rw [if_neg (by decide), if_neg (by omega)]
  dsimp only
  rw [if_neg, if_neg (by rw [hr]; decide)]
  intro x
  simp only [Bool.and_eq_true, decide_eq_true_eq] at x
  exact hc x

theorem Calm.setQLevel {s : State} (h : Calm s) (n : Nat) (x : Queue) (hx : x.level = (s.q n).level) : Calm (s.setQ n x) := by
  refine ⟨h.run, h.low, h.high, h.todo, h.still, h.pushed, h.kept, ?_, h.cap⟩
  by_cases hn : n = 15
  · subst hn
    rw [q_setQ_same, hx]
    exact h.room
  · rw [q_setQ_ne _ _ _ _ (by omega)]
    exact h.room

end Sys2Proof.Machine
end

