-- ==== Sys2Proof/Laws/OutletCommands.lean ====
section
/-!
SUPPORT. The commands and events of the outlets in a calm state.
-/
namespace Sys2Proof.Machine

theorem outResult_calm {s : State} (h : Calm s) (n c m k : Nat) : Calm (outResult n c m k s) := by
  unfold outResult
  repeat' first | assumption | (refine Calm.wr ?_ _ _ ?_ ?_) | (refine Calm.setCause ?_ _ _ _) | (refine Calm.ite ?_ ?_) | decide | (simp only [Fld.key]; omega)

theorem setOut_calm {s : State} (h : Calm s) (n : Nat) (x : OutSt) : Calm (s.setOut n x) :=
  Calm.upd h rfl rfl rfl rfl rfl rfl rfl rfl

theorem quiet_outResult (n c m k : Nat) (s : State) : Quiet s (outResult n c m k s) := by
  unfold outResult
  exact (((Quiet.refl s).wr _ _ (by (first | decide | (simp only [Fld.key]; omega)))).wr _ _ (by (first | decide | (simp only [Fld.key]; omega)))).wr _ _ (by (first | decide | (simp only [Fld.key]; omega)))

theorem side_keep {p : Nat → Bool} {s t : State} {f : Fld} (h : SameRegs p s t) (hl : f.lo < 32) (hb : p (f.addr / 4096) = false) :
    t.rd f = s.rd f := h f hl hb

theorem outCmd_ok {a : Agent} {n cmd : Nat} {ok : State → Bool} {act : State → State} {s : State} (h : Calm s)
    (hl : 1 ≤ s.level a) (e : ok s = true) : outCmd a n cmd ok act s = outResult n 0 cmd 0 (act s) := by
  unfold outCmd
  rw [gated_calm h a 1 _ hl, if_pos e]

theorem outCmd_no {a : Agent} {n cmd : Nat} {ok : State → Bool} {act : State → State} {s : State} (h : Calm s)
    (hl : 1 ≤ s.level a) (e : ok s = false) : outCmd a n cmd ok act s = outResult n 0 cmd 30 s := by
  unfold outCmd
  rw [gated_calm h a 1 _ hl, if_neg (by rw [e]; decide)]

theorem outResult_reads (n c m k : Nat) (s : State) (f : Fld) (h1 : f.key ≠ (Reg.OUT.RESULT.CARREL n).key)
    (h2 : f.key ≠ (Reg.OUT.RESULT.CMD n).key) (h3 : f.key ≠ (Reg.OUT.RESULT.CODE n).key) :
    (outResult n c m k s).rd f = s.rd f := by
  unfold outResult
  rw [rd_wr_ne _ _ _ _ h3, rd_wr_ne _ _ _ _ h2, rd_wr_ne _ _ _ _ h1]

theorem quiet_acdStart (n dir : Nat) (s : State) (h : n < 16) : Quiet s (acdStart n dir s) := by
  unfold acdStart
  dsimp only
  refine Quiet.trans ?_ (quiet_outEvent ..)
  refine Quiet.trans ?_ ((quiet_setOut ..).wr _ _ (by (first | decide | (simp only [Fld.key]; omega))))
  exact (quiet_hsDrive ..).trans (quiet_hsDrive ..)

theorem booked_out {s t : State} (b : Booked s t) : t.outs = s.outs := (booked_crl b).2

theorem outs_out {s t : State} (h : t.outs = s.outs) (n : Nat) : t.out n = s.out n := by
  unfold State.out
  rw [h]

theorem setOut_out (s : State) (n : Nat) (x : OutSt) : (s.setOut n x).out n = x := by
  unfold State.out State.setOut
  dsimp only
  rw [mapGet_mapSet, if_pos rfl]

theorem acdStart_facts (n dir : Nat) (s : State) (h : n < 16) (hd : dir < 4) :
    (acdStart n dir s).rd (Reg.OUT.SUPV.ACD n) = 2 ∧ ((acdStart n dir s).out n).acdMove = dir := by
  unfold acdStart
  dsimp only
  generalize hsDrive _ (decide (dir = 2)) _ = v
  constructor
  · rw [side_keep (side_outEvent n 13 2 0 _) (by first | decide | (simp only; omega)) (by first | rfl | decide | (simp only [sideBlock, bookBlock, Bool.or_eq_true, Bool.or_eq_false_iff, decide_eq_true_eq, decide_eq_false_iff_not]; omega)), rd_wr_same]
    rfl
  · generalize hu : (v.setOut n _).wr (Reg.OUT.SUPV.ACD n) 2 = u
    have e : (outEvent n 13 2 0 u).outs = u.outs := booked_out (books_hwPush0 u 4 _ (by decide) (by decide)).booked
    rw [outs_out e n, ← hu]
    show ((v.setOut n _).out n).acdMove = dir
    rw [setOut_out]

theorem outRamp_st (n r : Nat) (s : State) (h : n < 16) (h4 : 4 ≤ s.outSt n) (h7 : s.outSt n ≤ 7) : (outRamp n r s).outSt n = 8 := by
  unfold outRamp
  dsimp only
  rw [if_pos (by simp only [Bool.and_eq_true, decide_eq_true_eq]; exact ⟨h4, h7⟩)]
  exact outEnter_st n 8 _ h (by decide)

theorem quiet_outLatchStop (n r : Nat) (s : State) (h : n < 16) : Quiet s (outLatchStop n r s) := by
  unfold outLatchStop
  exact Quiet.ite (quiet_outOpenStop n r s h) (quiet_outForce n r s h)

theorem quiet_pilotError (n : Nat) (s : State) (h : n < 16) : Quiet s (pilotError n s) := by
  unfold pilotError
  refine Quiet.ite (Quiet.refl s) ?_
  exact ((quiet_setOut ..).trans (quiet_outLatchStop n 4 _ h)).trans (quiet_raise _ _ _ (outCode_class h (by decide) (by decide)))

theorem quiet_vplFollow (n : Nat) (s : State) (h : n < 16) : Quiet s (vplFollow n s) := (reacts_vplFollow n s h).quiet

theorem quiet_pilotDecoded (n old new : Nat) (s : State) (h : n < 16) : Quiet s (pilotDecoded n old new s) := by
  unfold pilotDecoded
  dsimp only
  refine Quiet.trans ?_ (quiet_tryClose n _ h)
  refine Quiet.trans ?_ (quiet_outPresence n _ h)
  have h0 : Quiet s (vplFollow n (outEvent n 2 new (s.rd (Reg.OUT.CP_MEAS.DUTY n)) (s.wr (Reg.OUT.STATUS.PILOT n) new))) :=
    (((Quiet.refl s).wr _ _ (by (first | decide | (simp only [Fld.key]; omega)))).trans (quiet_outEvent ..)).trans (quiet_vplFollow n _ h)
  refine Quiet.ite (h0.trans (quiet_pilotError n _ h)) (Quiet.ite ?_ h0)
  exact Quiet.ite (h0.trans (quiet_outOpenStop n 2 _ h)) (Quiet.ite (h0.trans (quiet_outOpenStop n 3 _ h))
    (Quiet.ite (h0.trans (quiet_outOpenStop n 4 _ h)) h0))

theorem quiet_leaveFault (n : Nat) (s : State) (h : n < 16) : Quiet s (leaveFault n s) := by
  unfold leaveFault
  dsimp only
  have h0 := ((quiet_hsDrive (s.rd (Reg.OUT.HS_MAP.TRIP n)) false s).trans (quiet_setOut _ n { (hsDrive (s.rd (Reg.OUT.HS_MAP.TRIP n)) false s).out n with weldBad := false, pilotErr := false, precloseBad := false, recheck := false })).wr
    (Reg.OUT.SUPV.RCM_TRIP n) (b2n false) (by (first | decide | (simp only [Fld.key]; omega)))
  exact Quiet.ite (h0.trans (quiet_outToConnected n _ h)) (h0.trans ((quiet_outIdle n _ h).trans (quiet_outPresence n _ h)))

theorem quiet_openingEnds (n : Nat) (s : State) (h : n < 16) : Quiet s (openingEnds n s) := by
  unfold openingEnds
  dsimp only
  have h0 := quiet_setOut s n { s.out n with coolDue := true }
  refine Quiet.ite (h0.trans (quiet_outFault n _ h)) (Quiet.ite ?_ (Quiet.ite (h0.trans (quiet_outToConnected n _ h)) (h0.trans (quiet_outIdle n _ h))))
  exact (h0.trans (quiet_outClearPend n _ h)).trans (quiet_outReady n _ _ h)

theorem quiet_weldMark (n : Nat) (s : State) (h : n < 16) : Quiet s (weldMark n s) := by
  unfold weldMark
  dsimp only
  refine Quiet.trans ?_ (quiet_outFault n _ h)
  exact ((quiet_hsDrive ..).trans (quiet_hsDrive ..)).trans (quiet_setOut ..)

theorem quiet_welded (n : Nat) (s : State) (h : n < 16) (ht : s.rd (Reg.OUT.HS_MAP.TRIP n) < 40) : Quiet s (welded n s) := by
  unfold welded
  rw [if_pos ht]
  exact (quiet_weldMark n s h).trans (quiet_raise _ _ _ (outCode_class h (by decide) (by decide)))

theorem quiet_acdEnd (n pos : Nat) (s : State) (h : n < 16) : Quiet s (acdEnd n pos s) := by
  unfold acdEnd
  dsimp only
  refine Quiet.trans ?_ (quiet_outEvent ..)
  refine Quiet.trans ?_ ((quiet_setOut ..).wr _ _ (by (first | decide | (simp only [Fld.key]; omega))))
  exact (quiet_hsDrive ..).trans (quiet_hsDrive ..)

theorem quiet_setCause (c d : Nat) (on : Bool) (s : State) : Quiet s (setCause c d on s) := (Quiet.refl s).of rfl rfl rfl

theorem quiet_moduleStatus (n k : Nat) (b : List Byte) (s : State) (h : n < 16) (hk : k < 4) : Quiet s (moduleStatus n k b s) := by
  unfold moduleStatus
  dsimp only
  refine Quiet.trans ?_ (quiet_outEvent ..)
  refine Quiet.trans ?_ (quiet_setCause ..)
  exact (((quiet_setOut s n _).wr _ _ (by (first | decide | (simp only [Fld.key]; omega)))).wr _ _ (by (first | decide | (simp only [Fld.key]; omega)))).wr _ _ (by (first | decide | (simp only [Fld.key]; omega)))

theorem quiet_statusTake (bus node : Nat) (b : List Byte) (s : State) : Quiet s (statusTake bus node b s) :=
  quiet_forEach 16 _ (fun n s hn => quiet_forEach 4 _ (fun k s hk => Quiet.ite (quiet_moduleStatus n k b s hn hk) (Quiet.refl s)) s) s

theorem quiet_isoTake (n : Nat) (r o : Int) (w b : Bool) (s : State) (h : n < 16) : Quiet s (isoTake n r o w b s) := by
  unfold isoTake
  dsimp only
  exact Quiet.trans (((((Quiet.refl s).wr _ _ (by (first | decide | (simp only [Fld.key]; omega)))).wr _ _ (by (first | decide | (simp only [Fld.key]; omega)))).wr _ _ (by (first | decide | (simp only [Fld.key]; omega)))).wr _ _ (by (first | decide | (simp only [Fld.key]; omega)))) (quiet_setOut ..)

theorem quiet_isoJudge (n : Nat) (r o : Int) (s : State) (h : n < 16) : Quiet s (isoJudge n r o s) := by
  unfold isoJudge
  dsimp only
  have h0 := quiet_isoTake n r o (decide (o < (s.outCfg n 0x20 2 : Int))) (decide (o < (s.outCfg n 0x22 2 : Int))) s h
  generalize isoTake n r o _ _ s = u at h0
  generalize hw : decide (o < (s.outCfg n 0x20 2 : Int)) = warn
  have h1 : ∀ v, Quiet s v → Quiet s (if warn = true then raise (outCode 0x2005 n) n v else v) := fun v q =>
    Quiet.ite (q.trans (quiet_raise _ _ _ (outCode_class h (by decide) (by decide)))) q
  have h2 := h1 (if (warn || s.bit (Reg.OUT.SUPV.ISO_WARN n)) = true then outEvent n 8 (if decide (o < (s.outCfg n 0x22 2 : Int)) = true then 2 else b2n warn) (sat16 o) u else u)
    (Quiet.ite (h0.trans (quiet_outEvent ..)) h0)
  refine Quiet.ite ?_ h2
  exact (h2.trans (quiet_outRamp n 6 _ h)).trans (quiet_raise _ _ _ (outCode_class h (by decide) (by decide)))

theorem outOpen_st (n : Nat) (s : State) (h : n < 16) : (outOpen n s).outSt n = 9 := outEnter_st n 9 _ h (by decide)

theorem outOpenStop_st (n r : Nat) (s : State) (h : n < 16) (h4 : 4 ≤ s.outSt n) (h8 : s.outSt n ≤ 8) :
    (outOpenStop n r s).outSt n = 9 := by
  unfold outOpenStop
  dsimp only
  rw [if_pos (by simp only [Bool.and_eq_true, decide_eq_true_eq]; exact ⟨h4, h8⟩)]
  exact outOpen_st n _ h

theorem booked_st {s t : State} (b : Booked s t) {n : Nat} (h : n < 16) : t.outSt n = s.outSt n :=
  b.regs (Reg.OUT.STATUS.STATE n) (by first | decide | (simp only; omega)) (by first | rfl | decide | (simp only [sideBlock, bookBlock, Bool.or_eq_true, Bool.or_eq_false_iff, decide_eq_true_eq, decide_eq_false_iff_not]; omega))

theorem raise_st (code d n : Nat) (s : State) (h : n < 16) (hc : faultClass code ≤ 1) : (raise code d s).outSt n = s.outSt n :=
  booked_st (books_raise code d s hc).booked h

theorem outEvent_out (n ev d w : Nat) (s : State) (m : Nat) : (outEvent n ev d w s).out m = s.out m :=
  outs_out (booked_out (books_hwPush0 s 4 _ (by decide) (by decide)).booked) m

theorem key_page {f g : Fld} (hf : f.lo < 32) (hg : g.lo < 32) (h : f.addr / 4096 ≠ g.addr / 4096) : f.key ≠ g.key := by
  unfold Fld.key
  intro e
  have : f.addr = g.addr := by omega
  exact h (by rw [this])

theorem crlOutletStop_regs (n r : Nat) (s : State) : (crlOutletStop n r s).regs = s.regs := by
  unfold crlOutletStop
  split
  · rfl
  · dsimp only
    split
    · split <;> rfl
    · rfl

/-- The fields of an outlet that a stop changes leave every other field as it was. -/

theorem outLatchStop_reads (n r : Nat) (s : State) (h : n < 16) (f : Fld) (hl : f.lo < 32)
    (hb : sideBlock (f.addr / 4096) = false) (h1 : f.key ≠ (Reg.OUT.STATUS.PILOT n).key)
    (h2 : f.key ≠ (Reg.OUT.CP_MEAS.MODE n).key) (h3 : f.key ≠ (Reg.OUT.CP_MEAS.DUTY n).key)
    (h4 : f.key ≠ (Reg.OUT.STATUS.STATE n).key) (h5 : f.key ≠ (Reg.OUT.STATUS.STOP n).key)
    (h6 : f.key ≠ (Reg.OUT.PEND.PEND n).key) (h7 : f.key ≠ (Reg.OUT.PEND.CARREL n).key) :
    (outLatchStop n r s).rd f = s.rd f := by
  have open_ : ∀ u : State, (outOpen n u).rd f = u.rd f := by
    intro u
    unfold outOpen
    rw [outEnter_reads n 9 _ h f hl hb h1 h2 h3, rd_wr_ne _ _ _ _ h4, side_coilsSet n false u f hl hb]
  have stop : ∀ u : State, (crlOutletStop n r (outReason n r u)).rd f = u.rd f := by
    intro u
    rw [rd_congr (crlOutletStop_regs n r _)]
    exact rd_wr_ne _ _ _ _ h5
  have pend : ∀ (u : State) (b : Nat) (c : Nat), ((u.wr (Reg.OUT.PEND.PEND n) b).wr (Reg.OUT.PEND.CARREL n) c).rd f = u.rd f :=
    fun u b c => (rd_wr_ne _ _ _ _ h7).trans (rd_wr_ne _ _ _ _ h6)
  unfold outLatchStop
  split
  · unfold outOpenStop
    dsimp only
    split
    · rw [open_]
      split
      · split
        · exact (pend _ _ _).trans (stop s)
        · exact stop s
      · exact stop s
    · rfl
  · unfold outForce
    dsimp only
    split
    · rfl
    · split
      · exact pend s _ _
      · rw [open_, stop]
        exact pend s _ _

theorem quiet_rcmTrip (n : Nat) (s u : State) (h : n < 16)
    (hu : u = outEvent n 6 0 0 ((s.setB (Reg.OUT.SUPV.RCM_TRIP n) true).inc (Reg.OUT.SUPV.RCM_TRIPS n))) :
    Quiet s (raise (outCode 0x6003 n) n (outLatchStop n 5 (coilsSet n false u))) := by
  subst hu
  refine Quiet.trans ?_ (quiet_raise _ _ _ (outCode_class h (by decide) (by decide)))
  refine Quiet.trans ?_ (quiet_outLatchStop n 5 _ h)
  refine Quiet.trans ?_ (quiet_coilsSet ..)
  exact (((Quiet.refl s).wr _ _ (by (first | decide | (simp only [Fld.key]; omega)))).wr _ _ (by (first | decide | (simp only [Fld.key]; omega)))).trans (quiet_outEvent ..)

theorem isoTake_calm {s : State} (h : Calm s) (n : Nat) (r o : Int) (w b : Bool) : Calm (isoTake n r o w b s) := by
  unfold isoTake
  refine setOut_calm ?_ _ _
  repeat' first | assumption | (refine Calm.wr ?_ _ _ ?_ ?_) | (refine Calm.setCause ?_ _ _ _) | (refine Calm.ite ?_ ?_) | decide | (simp only [Fld.key]; omega)

end Sys2Proof.Machine
end

