-- ==== Sys2Proof/Laws/Vehicle.lean ====
section
/-!
SUPPORT. The vehicle link: its operations bring no change of mode and no fault above Minor, and what they leave in the
registers; the engines keep a calm state calm.
-/
namespace Sys2Proof.Machine

theorem any_pos {α : Type} {l : List α} {p : α → Bool} (h : ∃ x, x ∈ l ∧ p x = true) : l.any p = true := List.any_eq_true.2 h

theorem any_neg {α : Type} {l : List α} {p : α → Bool} (h : ∀ x, x ∈ l → p x = false) : l.any p = false :=
  List.any_eq_false.2 fun x k e => Bool.false_ne_true ((h x k).symm.trans e)

theorem setVpl_calm {s : State} (h : Calm s) (n : Nat) (x : VplSt) : Calm (s.setVpl n x) :=
  Calm.upd h rfl rfl rfl rfl rfl rfl rfl rfl

theorem quiet_setVpl (s : State) (n : Nat) (x : VplSt) : Quiet s (s.setVpl n x) := (reacts_setVpl s n x).quiet

theorem setVpl_vplAt (s : State) (n : Nat) (x : VplSt) : (s.setVpl n x).vplAt n = x := by
  unfold State.vplAt State.setVpl
  dsimp only
  rw [mapGet_mapSet, if_pos rfl]

theorem vpl_class {c n : Nat} (hn : n < 16) (h : c % 16384 + 16 ≤ 16384) (hc : c / 16384 % 4 ≤ 1) :
    faultClass (c + n) ≤ 1 := by
  unfold faultClass
  omega

theorem quiet_vplEvent (n ev d w : Nat) (s : State) : Quiet s (vplEvent n ev d w s) := (reacts_vplEvent ..).quiet

theorem quiet_vplEnter (n st : Nat) (s : State) (h : n < 16) : Quiet s (vplEnter n st s) := (reacts_vplEnter n st s h).quiet

theorem quiet_vplStarting (n : Nat) (s : State) (h : n < 16) : Quiet s (vplStarting n s) := (reacts_vplStarting n s h).quiet

theorem quiet_vplFail (n k : Nat) (s : State) (h : n < 16) : Quiet s (vplFail n k s) := by
  unfold vplFail
  exact (((Quiet.refl s).wr _ _ (by (first | decide | (simp only [Fld.key]; omega)))).trans (quiet_vplEvent ..)).trans (quiet_raise _ _ _ (vpl_class h (by decide) (by decide)))

theorem vplEnter_st (n st : Nat) (s : State) (h : n < 16) (hs : st < 16) : (vplEnter n st s).rd (Reg.VPL.STATUS.STATE n) = st := by
  unfold vplEnter
  dsimp only
  unfold vplEvent
  rw [(books_hwPush0 _ 6 _ (by decide) (by decide)).booked.regs (Reg.VPL.STATUS.STATE n) (by first | decide | (simp only; omega)) (by first | rfl | decide | (simp only [sideBlock, bookBlock, Bool.or_eq_true, Bool.or_eq_false_iff, decide_eq_true_eq, decide_eq_false_iff_not]; omega))]
  have e : ((s.wr (Reg.VPL.STATUS.STATE n) st)).rd (Reg.VPL.STATUS.STATE n) = st := by
    rw [rd_wr_same]
    exact Nat.mod_eq_of_lt hs
  split <;> split <;> simp (disch := (first | decide | (simp only [Fld.key]; omega))) only [rd_wr_ne, e]

theorem vplFail_reads (n k : Nat) (s : State) (h : n < 16) (hk : k < 16) : (vplFail n k s).rd (Reg.VPL.STATUS.LAST_FAIL n) = k ∧
    (vplFail n k s).rd (Reg.VPL.STATUS.STATE n) = s.rd (Reg.VPL.STATUS.STATE n) := by
  unfold vplFail
  have b := (books_raise (0x3140 + n) k (vplEvent n 3 k 0 (s.wr (Reg.VPL.STATUS.LAST_FAIL n) k)) (vpl_class h (by decide) (by decide))).booked.regs
  refine ⟨?_, ?_⟩
  · rw [b (Reg.VPL.STATUS.LAST_FAIL n) (by first | decide | (simp only; omega)) (by first | rfl | decide | (simp only [sideBlock, bookBlock, Bool.or_eq_true, Bool.or_eq_false_iff, decide_eq_true_eq, decide_eq_false_iff_not]; omega))]
    unfold vplEvent
    rw [(books_hwPush0 _ 6 _ (by decide) (by decide)).booked.regs (Reg.VPL.STATUS.LAST_FAIL n) (by first | decide | (simp only; omega)) (by first | rfl | decide | (simp only [sideBlock, bookBlock, Bool.or_eq_true, Bool.or_eq_false_iff, decide_eq_true_eq, decide_eq_false_iff_not]; omega)), rd_wr_same]
    exact Nat.mod_eq_of_lt hk
  · rw [b (Reg.VPL.STATUS.STATE n) (by first | decide | (simp only; omega)) (by first | rfl | decide | (simp only [sideBlock, bookBlock, Bool.or_eq_true, Bool.or_eq_false_iff, decide_eq_true_eq, decide_eq_false_iff_not]; omega))]
    unfold vplEvent
    rw [(books_hwPush0 _ 6 _ (by decide) (by decide)).booked.regs (Reg.VPL.STATUS.STATE n) (by first | decide | (simp only; omega)) (by first | rfl | decide | (simp only [sideBlock, bookBlock, Bool.or_eq_true, Bool.or_eq_false_iff, decide_eq_true_eq, decide_eq_false_iff_not]; omega)), rd_wr_ne _ _ _ _ (by (first | decide | (simp only [Fld.key]; omega)))]

theorem quiet_slacMatching (n : Nat) (s : State) (h : n < 16) : Quiet s (slacMatching n s) := by
  unfold slacMatching
  dsimp only
  exact ((((Quiet.refl s).wr _ _ (by (first | decide | (simp only [Fld.key]; omega)))).wr _ _ (by (first | decide | (simp only [Fld.key]; omega)))).trans (quiet_setVpl ..)).trans (quiet_vplEnter n 4 _ h)

theorem vplEnter_sounds (n st : Nat) (s : State) (h : n < 16) :
    (vplEnter n st s).rd (Reg.VPL.STATUS.SOUNDS n) = s.rd (Reg.VPL.STATUS.SOUNDS n) := by
  unfold vplEnter
  dsimp only
  unfold vplEvent
  rw [(books_hwPush0 _ 6 _ (by decide) (by decide)).booked.regs (Reg.VPL.STATUS.SOUNDS n) (by first | decide | (simp only; omega)) (by first | rfl | decide | (simp only [sideBlock, bookBlock, Bool.or_eq_true, Bool.or_eq_false_iff, decide_eq_true_eq, decide_eq_false_iff_not]; omega))]
  split <;> split <;> simp (disch := (first | decide | (simp only [Fld.key]; omega))) only [rd_wr_ne]

theorem fftGrant_calm {s : State} (now : Nat) : ∀ (k : Nat) (s : State), Calm s → Calm (fftGrant k now s)
  | 0, s, h => h
  | k + 1, s, h => by
    unfold fftGrant
    split
    · exact h
    · dsimp only
      split
      · refine fftGrant_calm (s := s) now k _ ?_
        refine Calm.wr ?_ _ _ (by (first | decide | (simp only [Fld.key]; omega))) (by (first | decide | (simp only [Fld.key]; omega)))
        exact Calm.upd h rfl rfl rfl rfl rfl rfl rfl rfl
      · exact h

theorem fftGrant_table (now : Nat) : ∀ (k : Nat) (s : State), (fftGrant k now s).flt = s.flt
  | 0, s => rfl
  | k + 1, s => by
    unfold fftGrant
    split
    · rfl
    · dsimp only
      split
      · rw [fftGrant_table now k]
        rfl
      · rfl

end Sys2Proof.Machine
end

