-- ==== Sys2Proof/Tests/Slice0.lean ====
section
/-!
SUPPORT. The package's own tests: ill-formed commands that the check refuses, steps whose results the spec's tables give,
and for each statement a witness: concrete states and operands that meet the hypotheses of its clauses, at the ends of
their ranges where they have ranges. Every register not named reads its reset value.
-/
namespace Sys2Proof.Tests
open Sys2Proof.Machine

set_option Elab.async false

/-! ### Small states -/

/-- A powered unit in OPERATIONAL with a host session at Supplier level. -/
def base : State :=
  ({ State.reset with sys := { State.reset.sys with unpowered := false } }.wr Reg.MODE.STATUS.MODE 5).wr Reg.HP.STATUS.LEVEL 3

/-- `base` with some register fields written. -/
def st (l : List (Fld × Nat)) : State := l.foldl (fun s x => s.wr x.1 x.2) base

/-- `Calm` as a computation. -/
def calmB (s : State) : Bool :=
  s.running && decide (3 ≤ s.mode) && decide (s.mode ≤ 9) && s.flt.todo.isEmpty && !s.moved && s.pushed.isEmpty &&
    decide (s.evr.lostSince = 0) && decide ((s.q 15).level < 240) && decide (256 ≤ s.qCap 15)

theorem calm_iff (s : State) : Calm s ↔ calmB s = true := by
  simp only [calmB, Bool.and_eq_true, decide_eq_true_eq, Bool.not_eq_true', List.isEmpty_iff]
  exact ⟨fun ⟨a, b, c, d, e, f, g, h, i⟩ => ⟨⟨⟨⟨⟨⟨⟨⟨a, b⟩, c⟩, d⟩, e⟩, f⟩, g⟩, h⟩, i⟩,
    fun ⟨⟨⟨⟨⟨⟨⟨⟨a, b⟩, c⟩, d⟩, e⟩, f⟩, g⟩, h⟩, i⟩ => ⟨a, b, c, d, e, f, g, h, i⟩⟩

theorem opens_iff (code : Nat) (s : State) : Opens code s ↔
    (s.flt.table.all (fun e => decide (e.cls < 2)) && s.flt.table.all (fun e => decide (e.code ≠ code)) &&
      decide (s.flt.table.length < 32)) = true := by
  simp only [Bool.and_eq_true, List.all_eq_true, decide_eq_true_eq]
  exact ⟨fun ⟨a, b, c⟩ => ⟨⟨a, b⟩, c⟩, fun ⟨⟨a, b⟩, c⟩ => ⟨a, b, c⟩⟩

/-- `Outputs` as a computation. -/
def outputsB (s : State) : Bool :=
  (!s.outputsBarred || ((List.range 16).all (fun n => !(s.out n).coils) && decide (s.saf.cur.lse = 0) &&
    decide (s.saf.kpr.lse = 0) && !s.saf.cur.pmi && !s.saf.kpr.pmi)) &&
  (List.range 40).all fun c => !s.hsModeForced c || (decide (s.rd (Reg.LSW.CH.STATUS.STATE c) ≠ 1) &&
    decide (s.rd (Reg.LSW.CH.STATUS.STATE c) ≠ 2))

theorem outputs_of {s : State} (h : outputsB s = true) : Outputs s := by
  simp only [outputsB, Bool.and_eq_true, Bool.or_eq_true, Bool.not_eq_true', List.all_eq_true, List.mem_range,
    decide_eq_true_eq] at h
  refine ⟨fun hb => ?_, fun c hc hf => ?_⟩
  · rcases h.1 with h1 | ⟨⟨⟨⟨h1, h2⟩, h3⟩, h4⟩, h5⟩
    · rw [hb] at h1; cases h1
    · exact ⟨h1, h2, h3, h4, h5⟩
  · rcases h.2 c hc with h1 | h1
    · rw [hf] at h1; cases h1
    · exact h1

theorem atRest_of {s : State} (h : (s.flt.todo.isEmpty && !s.moved && s.pushed.isEmpty && decide ((s.q 15).level < 256) &&
    outputsB s) = true) : AtRest s := by
  simp only [Bool.and_eq_true, Bool.not_eq_true', List.isEmpty_iff, decide_eq_true_eq] at h
  obtain ⟨⟨⟨⟨h1, h2⟩, h3⟩, h4⟩, h5⟩ := h
  exact ⟨h1, h2, h3, h4, outputs_of h5⟩


/-! ### Ill-formed commands are refused -/

/-- The same fields with nothing found bad. -/
def noFacts : StartFacts := ⟨[], [], [], true⟩

theorem test_ill_formed_words :
    (Instr.registerWrite .host (2 ^ 32) 0).wf = false ∧ (Instr.registerWrite .host 0 (2 ^ 32)).wf = false ∧
    (Instr.registerWrite .host (2 ^ 32 - 1) (2 ^ 32 - 1)).wf = true ∧ (Instr.unitStartComplete (.hs 39) 65536).wf = false ∧
    (Instr.fabricRequest 0 32 0 0 false).wf = false ∧ (Instr.requestAged 32).wf = false ∧
    (Instr.powerFailWarning false false 0 0).wf = false ∧ (Instr.powerFailWarning true false 0 0).wf = true ∧
    (Instr.pmcCountRead .host 0 (2 ^ 64) 0).wf = false ∧ (Instr.testPulse 0 (2 ^ 48) true).wf = false ∧
    (Instr.beacon (2 ^ 128) none 0).wf = false ∧ (Instr.cmSlacMatchReq 0 0 (2 ^ 48)).wf = false := by decide

theorem test_ill_formed_lists :
    (Instr.slFrameReceived 0 (List.replicate 79 0)).wf = false ∧ (Instr.hpWrite 0 [] 0).wf = false ∧
    (Instr.hpWrite 0 [2 ^ 32] 0).wf = false ∧ (Instr.hpWrite 0 [1] 0).wf = true ∧
    (Instr.energise .host 0 0 [0, 0, 0, 0]).wf = false ∧ (Instr.energise .host 0 0 [2 ^ 32]).wf = false ∧
    (Instr.runtimeRecord 0x80 []).wf = false ∧ (Instr.tagSelect [0]).wf = false ∧ (Instr.folioWrite 0 0 []).wf = false ∧
    (Instr.tagChallenge 0 []).wf = false ∧ (Instr.tagProve []).wf = false ∧ (Instr.admitA 0 []).wf = false ∧
    (Instr.admitB 0 [] []).wf = false ∧ (Instr.admitC []).wf = false ∧ (Instr.selectiveAckReceived 0 []).wf = true ∧
    (Instr.voucherQueueSubmission 0 0 0 true (List.replicate 96 0)).wf = false ∧
    (Instr.voucherQueueSubmission 0 0 0 true (List.replicate 24 0)).wf = true := by decide

theorem test_ill_formed_parts :
    (Instr.supplyGood ⟨[2], [], [], true⟩).wf = false ∧ (Instr.supplyGood ⟨[], [2], [], true⟩).wf = false ∧
    (Instr.supplyGood ⟨[], [], [64], true⟩).wf = false ∧ (Instr.supplyGood noFacts).wf = true ∧
    (Instr.links 0 [⟨4096, 0, 0, 0⟩]).wf = false ∧ (Instr.toneMap 0 ⟨6, 0, 0, 0, 0, []⟩).wf = false ∧
    (Instr.quantumClose (List.replicate 18 ⟨0, []⟩) ⟨0, []⟩).wf = false ∧
    (Instr.quantumClose [⟨0, List.replicate 4 ⟨0, 0, 0, 0, 0, [], []⟩⟩] ⟨0, []⟩).wf = false ∧
    (Instr.metrologySample [(96, 0)] []).wf = false ∧ (Instr.firstQuantumBoundary [] [1024]).wf = false ∧
    (Instr.voteCall 0 0 0 0 [4096]).wf = false ∧ (Instr.contactlessCommand (List.replicate 17 0) false).wf = false := by
  decide

/-! ### Witnesses: steps, writes, queues, faults -/

/-- An open entry of a Major fault, of a Minor one, and a Notice. -/
def major : Entry := ⟨0, 0x8302, 2, 0, false, 1, [(0x8302, 0)]⟩

def minor : Entry := ⟨31, 0x4001, 1, 0, false, 2, [(0x4001, 0)]⟩

def notice : Entry := ⟨0, 0x0806, 0, 0, false, 3, [(0x0806, 0)]⟩

/-- `base` with open entries. -/
def withTable (l : List Entry) : State := { base with flt := { base.flt with table := l } }

/-- An empty queue. -/
theorem witness_StepRunsTheFrontCommandOrIdles :
    State.reset.pending = [] := by decide

/-- A step from the states that the invariant allows, one with outputs barred and one without. -/
theorem witness_EveryStepKeepsPermittedOutputs :
    (Outputs State.reset ∧ ∃ t, step { State.reset with pending := [.hpTimeout] } = .next t) ∧
    (Outputs base ∧ ∃ t, step { base with pending := [.hpTimeout] } = .next t) :=
  ⟨⟨outputs_of (by decide), _, rfl⟩, outputs_of (by decide), _, rfl⟩

/-- Reset accepts no writes and rests; an Observer session is below every level of a write. -/
theorem witness_WritesNeedTheirModeAndLevel :
    (gateOf (.bndPeek .host 0) = some (.host, 0) ∧ State.reset.modeWrites = false ∧ AtRest State.reset) ∧
    (gateOf (.tarDisarm .host) = some (.host, 2) ∧ (st [(Reg.HP.STATUS.LEVEL, 1)]).rd Reg.HP.STATUS.LEVEL < 2 ∧
      Calm (st [(Reg.HP.STATUS.LEVEL, 1)])) :=
  ⟨⟨by decide, by decide, atRest_of (by decide)⟩, by decide, by decide, (calm_iff _).2 (by decide)⟩

/-- An empty tail register, and a queue with an item. -/
theorem witness_QueuesAreFirstInFirstOut :
    Queue.empty.tail = none ∧ (⟨[⟨[1], 0⟩], none, []⟩ : Queue).chain ≠ [] := by decide

/-- A free entry with other faults open; a Major entry; one of the same code; a full table. -/
theorem witness_NoticeAndMinorFaultsOpenOrMerge :
    Calm (withTable [minor]) ∧ Opens 0x0806 (withTable [minor]) ∧ faultClass 0x0806 ≤ 1 ∧
    faultClass 0x7FFF ≤ 1 ∧ Calm (withTable [minor, major]) ∧
    (withTable [minor, major]).flt.table.find? (fun x => decide (2 ≤ x.cls)) = some major ∧
    Calm (withTable [minor, notice]) ∧
    (withTable [minor, notice]).flt.table.find? (fun x => decide (2 ≤ x.cls)) = none ∧
    (withTable [minor, notice]).flt.table.find? (fun x => decide (x.code = 0x0806)) = some notice ∧
    (withTable (List.replicate 32 minor)).flt.table.find? (fun x => decide (2 ≤ x.cls)) = none ∧
    (withTable (List.replicate 32 minor)).flt.table.find? (fun x => decide (x.code = 0x0806)) = none ∧
    32 ≤ (withTable (List.replicate 32 minor)).flt.table.length ∧
    (withTable (List.replicate 32 minor)).flt.table.head? = some minor ∧
    Calm (withTable (List.replicate 32 minor)) := by
  simp only [calm_iff, opens_iff]
  decide

/-- The lowest and highest mode of each clause. -/
theorem witness_MajorAndGraveFaultsMakeTheOutputsSafe :
    faultClass 0x8302 = 2 ∧ (st [(Reg.MODE.STATUS.MODE, 2)]).running = true ∧
    2 ≤ (st [(Reg.MODE.STATUS.MODE, 2)]).mode ∧ (st [(Reg.MODE.STATUS.MODE, 9)]).mode ≤ 9 ∧
    (st [(Reg.MODE.STATUS.MODE, 9)]).running = true ∧ MinorTodo base ∧ SealShut base ∧
    MinorTodo (st [(Reg.MODE.STATUS.MODE, 9)]) ∧ SealShut (st [(Reg.MODE.STATUS.MODE, 10)]) ∧
    faultClass 0xC307 = 3 ∧ (st [(Reg.MODE.STATUS.MODE, 1)]).running = true ∧
    (st [(Reg.MODE.STATUS.MODE, 10)]).mode ≤ 10 ∧ (st [(Reg.MODE.STATUS.MODE, 10)]).running = true ∧
    MinorTodo (st [(Reg.MODE.STATUS.MODE, 1)]) ∧ SealShut (st [(Reg.MODE.STATUS.MODE, 1)]) := by
  simp only [MinorTodo, SealShut]
  decide

/-- A Notice entry, a Minor one under a session of Operator level, neither, and a Major one. -/
theorem witness_EntriesCloseAndReleaseErrorPin :
    Calm (withTable [notice, major]) ∧
    ((withTable [notice, major]).flt.table.any fun e => e.idx = 0 && e.cls = 0) = true ∧
    Calm (withTable [minor]) ∧
    ((withTable [minor]).flt.table.any fun e => e.idx = 31 && e.cls = 1) = true ∧
    1 ≤ base.level .host ∧ 1 ≤ base.level .runtime ∧
    ((withTable [minor]).flt.table.any fun e => e.idx = 31 && e.cls = 0) = false ∧
    (withTable [major]).majorOpen = true ∧ Calm (withTable [major]) ∧
    (withTable [minor]).majorOpen = false := by
  simp only [calm_iff]
  decide

/-- FACTORY_TEST, another mode, and the seal shut. -/
theorem witness_InjectionAndMemoryErrors :
    Calm (st [(Reg.MODE.STATUS.MODE, 3)]) ∧ (st [(Reg.MODE.STATUS.MODE, 3)]).mode = 3 ∧
    1 ≤ (st [(Reg.MODE.STATUS.MODE, 3)]).level .host ∧ faultClass 0x0001 ≤ 1 ∧
    Opens 0x0001 (st [(Reg.MODE.STATUS.MODE, 3)]) ∧ base.mode ≠ 3 ∧ Opens 0x0806 base ∧ Calm base ∧
    Opens 0x0801 base ∧ Opens 0x4802 base ∧ SealShut base := by
  simp only [calm_iff, opens_iff, SealShut]
  decide

/-- The recorder runs, draining or not; a record at the border of the areas. -/
theorem witness_RecordsAreQueuedAndDrained :
    Calm (st [(Reg.EVR.STATUS.RUN, 1)]) ∧
    (st [(Reg.EVR.STATUS.RUN, 1)]).bit Reg.EVR.STATUS.RUN = true ∧
    (st [(Reg.EVR.STATUS.RUN, 1)]).rd Reg.EVR.NEXT_RNO.RNO + 1 < 2 ^ 32 ∧
    (st [(Reg.EVR.STATUS.RUN, 1)]).bit Reg.EVR.STATUS.DRAINING = false ∧ 1 ≤ base.level .host ∧
    Calm (st [(Reg.EVR.STATUS.RUN, 1), (Reg.EVR.STATUS.DRAINING, 1)]) ∧
    (st [(Reg.EVR.STATUS.RUN, 1), (Reg.EVR.STATUS.DRAINING, 1)]).bit Reg.EVR.STATUS.DRAINING = true ∧
    (∀ i ∈ ((st [(Reg.EVR.STATUS.RUN, 1), (Reg.EVR.STATUS.DRAINING, 1)]).q 15).items, i.poison = 0) ∧
    ({ Rec.empty with rno := 4096 } : Rec).rno ≤ 4096 ∧
    4096 < ({ Rec.empty with rno := 4097 } : Rec).rno ∧ base.evr.retired = [] := by
  simp only [calm_iff]
  decide

/-- A port that is locked, and one that is not. -/
theorem witness_SessionsAndChallenges_Challenge :
    Calm base ∧ base.bit Reg.HP.STATUS.LOCKED = false ∧ Calm (st [(Reg.HP.STATUS.LOCKED, 1)]) ∧
    (st [(Reg.HP.STATUS.LOCKED, 1)]).bit Reg.HP.STATUS.LOCKED = true := by
  simp only [calm_iff]
  decide

/-- A unit in life cycle 3 whose slot 3 holds the Supplier key, with a challenge drawn 9 s ago. -/
def challenged : State :=
  let s := (st [(Reg.MODE.STATUS.LC, 3), (Reg.RTC.TICK.SECONDS, 9)]).setSlot 3 { KeySlot.empty with kind := 1, attr := 2 }
  { s with hp := { s.hp with challenge := some (7, 0) } }

/-- A challenge 9 s old, the key of the level in its slot; two failures before. Whether the response is the HMAC rests
on an opaque constant; one of the two clauses applies. -/
theorem witness_SessionsAndChallenges_Response :
    Calm challenged ∧ (3 : Fin 4) ≠ 0 ∧ challenged.lc ≠ 0 ∧
    challenged.bit Reg.HP.STATUS.LOCKED = false ∧ challenged.hp.challenge = some (7, 0) ∧
    challenged.rd Reg.RTC.TICK.SECONDS < 0 + 10 ∧ challenged.levelSlot 3 < 64 ∧
    challenged.slotHas (challenged.levelSlot 3) 1 = true ∧ challenged.key.locked = false ∧
    challenged.rd Reg.HP.STATUS.FAILS < 2 ∧
    2 ≤ (challenged.wr Reg.HP.STATUS.FAILS 2).rd Reg.HP.STATUS.FAILS ∧ Opens 0x0501 challenged ∧
    Calm (challenged.wr Reg.HP.STATUS.FAILS 2) := by
  simp only [calm_iff, opens_iff]
  decide

/-- The ends of the reading room and an unaligned register; the trap window excluded. -/
theorem witness_RegisterWritesFollowAccessCodes :
    ¬ (0x5020 ≤ 0x501C ∧ 0x501C < 0x5030) ∧ ¬ (0x5020 ≤ 0x5030 ∧ 0x5030 < 0x5030) ∧
    Acc.rw ≠ Acc.w1c ∧ Acc.ro ≠ Acc.rw ∧ Acc.ro ≠ Acc.w1c ∧ Calm base ∧ 0x3FFFF < 0x40000 ∧
    0x3FFFF % 4 ≠ 0 ∧ 0x100000 ≤ 0x1FFFFC ∧ 0x1FFFFC < 0x200000 ∧ base.pageOwned 0x100000 = false ∧
    base.pageOwned 0x1FFFFC = false := by
  simp only [calm_iff]
  decide

/-- A read and a write at the end of the reading room, with a right CRC and with a wrong one. -/
theorem witness_TransactionsAnswer :
    Calm base ∧ 0x100000 ≤ 0x1FFC00 ∧ 0x1FFC00 + 4 * ((255 : Fin 256).val + 1) ≤ 0x200000 ∧
    [1] ≠ ([] : List Nat) ∧ [1].length ≤ 256 ∧ 0x1FFFFC + 4 * [1].length ≤ 0x200000 ∧
    base.hp.active = none ∧ base.hp.handed = [] := by
  simp only [calm_iff]
  decide

/-- A canonical buffer. -/
theorem witness_BuffersReadWhatWasWritten :
    mapWf byteDefault ([(0, 1), (1048575, 2)] : Bytes) = true ∧
    mapWf byteDefault ([] : Bytes) = true := by decide

/-- A CRC that is not the one of the words. -/
theorem witness_TransactionsAnswer_Crc :
    crc16 (leBytes 1 0x02 ++ beBytes 4 0x100000 ++ leBytes 1 ([1].length - 1) ++ [1].flatMap (beBytes 4)) ≠ 0 := by decide +kernel

/-! ### Witnesses: descriptors, queue ports, bindery -/

/-- `base` with the descriptors handed over and the active one. -/
def withDesc (handed : List Nat) (active : Option Nat) (l : List (Fld × Nat)) : State :=
  { st l with hp := { (st l).hp with handed := handed, active := active } }

/-- `base` with queue `n` holding items. -/
def withQ (n : Nat) (q : Queue) : State := base.setQ n q

/-- An access port with queue `n` selected. -/
def selected (n : Nat) (copy : Option Nat) (invalid : Bool) : Port := ⟨n, 0, 0, [], copy, invalid⟩

/-- `base` with the runtime's port. -/
def withPort (p : Port) : State := { base with rtPort := p }

/-- A bind set opened by the host. -/
def hostSet (l : List (Nat × Nat × Nat)) (ovf : Bool) : BindSet := { BindSet.empty with st := 1, owner := 1, staged := l, overflow := ovf }

/-- `base` with the host's set 0. -/
def withSet (l : List (Nat × Nat × Nat)) (ovf : Bool) : State := base.setBset 0 (hostSet l ovf)

/-- A descriptor of either side, a kind within and above the level, a range that fits and one that does not, pages
free and taken. -/
theorem witness_DescriptorsAndTransfers_Handover :
    Calm base ∧ base.bit (Reg.HP.DESC0.OWN 31) = false ∧ kindLevel 3 = some 2 ∧
    2 ≤ base.level .host ∧ kindLevel 0x80 = some 0 ∧
    (st [(Reg.HP.STATUS.LEVEL, 1)]).level .host < 2 ∧
    (∀ l, kindLevel 3 = some l → (st [(Reg.HP.STATUS.LEVEL, 1)]).level .host < l) ∧
    kindLevel 4 = none ∧ (st [(Reg.HP.DESC0.OWN 31, 1)]).bit (Reg.HP.DESC0.OWN 31) = true ∧
    Calm (st [(Reg.HP.DESC0.OWN 31, 1)]) ∧
    Calm (withDesc [31] none [(Reg.HP.DESC0.KIND 31, 1), (Reg.HP.DESC2.ARG 31, 9216)]) ∧
    (withDesc [31] none []).hp.active = none ∧ (withDesc [31] none []).hp.handed = 31 :: [] ∧
    (withDesc [31] none [(Reg.HP.DESC0.KIND 31, 1), (Reg.HP.DESC2.ARG 31, 9216)]).descRange 31 = false ∧
    (withDesc [31] none [(Reg.HP.DESC0.KIND 31, 1), (Reg.HP.DESC2.ARG 31, 9215)]).descRange 31 = true ∧
    (withDesc [] none [(Reg.HP.DESC0.KIND 31, 1), (Reg.HP.DESC2.ARG 31, 9215)]).descFree 31 = true ∧
    (withDesc [30] none [(Reg.HP.DESC0.KIND 31, 1), (Reg.HP.DESC2.ARG 31, 9215)]).descFree 31 = false := by
  simp only [calm_iff]
  decide

/-- An active descriptor of each kind. -/
theorem witness_DescriptorsAndTransfers_Done :
    Calm (withDesc [] (some 0) [(Reg.HP.DESC0.KIND 0, 1)]) ∧
    (withDesc [] (some 0) []).hp.active = some 0 ∧
    (withDesc [] (some 0) [(Reg.HP.DESC0.KIND 0, 1)]).rd (Reg.HP.DESC0.KIND 0) = 1 ∧
    (withDesc [] (some 0) [(Reg.HP.DESC0.KIND 0, 3)]).rd (Reg.HP.DESC0.KIND 0) = 3 ∧
    (withDesc [] (some 0) [(Reg.HP.DESC0.KIND 0, 2)]).rd (Reg.HP.DESC0.KIND 0) = 2 ∧
    (withDesc [] (some 0) [(Reg.HP.DESC0.KIND 0, 2)]).descRoom 0 = 4096 ∧
    Calm (withDesc [] (some 0) [(Reg.HP.DESC0.KIND 0, 2)]) ∧
    Calm (withDesc [] (some 0) [(Reg.HP.DESC0.KIND 0, 3)]) := by
  simp only [calm_iff]
  decide

/-- A consumer of an empty queue and of one with an item, poisoned or not. -/
theorem witness_QueuePorts_Consumer :
    Calm (withPort (selected 31 none false)) ∧ 1 ≤ base.level .runtime ∧
    base.consumes .runtime 31 = true ∧
    (withPort (selected 31 none false)).port .runtime = selected 31 none false ∧
    ¬ ((selected 31 none false).copyOf = some 31 ∧ (selected 31 none false).invalid = true) ∧
    (base.q 31).items = [] ∧ ((withQ 31 ⟨[⟨[5], 0⟩], none, []⟩).q 31).ready.chain = ⟨[5], 0⟩ :: [] ∧
    Calm (withQ 31 ⟨[⟨[5], 0⟩], none, []⟩) := by
  simp only [calm_iff]
  decide

/-- A producer of a queue with room, of a full one, and of the recorder input with a type of the runtime. -/
theorem witness_QueuePorts_Producer :
    Calm (withPort (selected 8 none false)) ∧ base.produces .runtime 8 = true ∧
    base.produces .runtime 15 = true ∧ base.produces .runtime 31 = true ∧ base.qRefuses 8 = false ∧
    (withQ 8 ⟨[], some ⟨[1], 0⟩, []⟩).qRefuses 8 = true ∧ Calm (withQ 8 ⟨[], some ⟨[1], 0⟩, []⟩) ∧
    base.qRefuses 15 = false ∧
    0x80 ≤ (({ selected 15 none false with item := [(0, 0x80 * 2 ^ 32)] } : Port).words 15).getD 0 0 / 2 ^ 32 % 256 := by
  simp only [calm_iff]
  decide +kernel

/-- A session of level 0, a copy that a flush made invalid, a queue in which the agent has no role. -/
theorem witness_QueuePorts_Refusals :
    (st [(Reg.HP.STATUS.LEVEL, 0)]).level .host < 1 ∧ Calm (st [(Reg.HP.STATUS.LEVEL, 0)]) ∧
    ((withPort (selected 7 (some 7) true)).port .runtime).copyOf = some 7 ∧
    ((withPort (selected 7 (some 7) true)).port .runtime).invalid = true ∧
    Calm (withPort (selected 7 (some 7) true)) ∧ base.consumes .runtime 2 = false ∧
    base.produces .runtime 2 = false ∧ Calm (withPort (selected 2 none false)) := by
  simp only [calm_iff]
  decide

/-- The flush of the lowest and highest queue that allows it, by role and by level, and the ones that ignore it. -/
theorem witness_QueuePorts_Flush :
    Calm base ∧ 3 ≤ (3 : Fin 32).val ∧ (3 : Fin 32).val ≠ 15 ∧ base.consumes .host 20 = true ∧
    2 ≤ base.level .host ∧ base.consumes .runtime 31 = true ∧ (2 : Fin 32).val < 3 ∧
    (15 : Fin 32).val = 15 := by
  simp only [calm_iff]
  decide

/-- An annex with an item and room in the chain; a full chain; the Ethernet gate open and shut. -/
theorem witness_AnnexAndEthernet :
    Calm (withQ 31 ⟨[], none, [⟨[5], 0⟩]⟩) ∧
    ((withQ 31 ⟨[], none, [⟨[5], 0⟩]⟩).q 31).annex = ⟨[5], 0⟩ :: [] ∧
    ((withQ 31 ⟨[], none, [⟨[5], 0⟩]⟩).q 31).chain.length < 8 ∧ (base.q 31).annex = [] ∧
    8 ≤ ((withQ 31 ⟨List.replicate 8 ⟨[5], 0⟩, none, [⟨[6], 0⟩]⟩).q 31).chain.length ∧
    Calm (withQ 31 ⟨List.replicate 8 ⟨[5], 0⟩, none, [⟨[6], 0⟩]⟩) ∧
    (st [(Reg.CLK.GATE.ETH, 1)]).bit Reg.CLK.GATE.ETH = true ∧
    (st [(Reg.CLK.GATE.ETH, 1)]).qRefuses 17 = false ∧ Calm (st [(Reg.CLK.GATE.ETH, 1)]) ∧
    (st [(Reg.CLK.GATE.ETH, 0)]).bit Reg.CLK.GATE.ETH = false ∧ Calm (st [(Reg.CLK.GATE.ETH, 0)]) := by
  simp only [calm_iff]
  decide

/-- Every bind set pending for the runtime. -/
def allSets : State :=
  (List.range 4).foldl (fun s k => s.setBset k { BindSet.empty with st := 2, owner := 0, kind := 1 }) base

/-- No set, an open one, an overflowed one, one whose value is out of its range, no free one; cancels of a free set,
of another agent's and of the own. -/
theorem witness_BinderyAnswersItsCommands :
    Calm base ∧ 1 ≤ base.level .host ∧ base.openSet .host = none ∧ base.freeBset = some 0 ∧
    Calm (withSet [] false) ∧ (withSet [] false).openSet .host = some 0 ∧
    ((withSet [] true).bset 0).overflow = true ∧ ((withSet [] false).bset 0).overflow = false ∧
    (withSet [] true).openSet .host = some 0 ∧
    checkFails (withSet [] false).ahead ((withSet [] false).bset 0).staged = none ∧
    checkFails (withSet [(Reg.DPY.RAIL.ELVSS.addr, 63, 63)] false).ahead [] = none ∧
    allSets.freeBset = none ∧ allSets.openSet .host = none ∧ Calm allSets ∧ (base.bset 3).st = 0 ∧
    ((withSet [] false).bset 0).st ≠ 0 ∧ ((withSet [] false).bset 0).owner ≠ ownerOf .runtime ∧
    ((withSet [] false).bset 0).owner = ownerOf .host := by
  simp only [calm_iff]
  decide

/-- A register with RWS fields, with an open set and without; sets below and at 256 registers. -/
theorem witness_WritesOfRwsFieldsAreStaged :
    Calm (withSet [] false) ∧ rwsMask Reg.DPY.RAIL.ELVSS.addr ≠ 0 ∧
    writeLevel Reg.DPY.RAIL.ELVSS.addr ≤ base.level .host ∧
    (withSet [] false).openSet .host = some 0 ∧ base.openSet .host = none ∧ Calm base ∧
    1 ≤ base.level .host ∧ Reg.DPY.RAIL.ELVSS.addr < 2 ^ 18 ∧ Reg.DPY.RAIL.ELVSS.addr % 4 = 0 ∧
    (((withSet [(Reg.DPY.RAIL.ELVSS.addr, 63, 5)] false).bset 0).staged.find? fun x => x.1 = Reg.DPY.RAIL.ELVSS.addr) = some (Reg.DPY.RAIL.ELVSS.addr, 63, 5) ∧
    ((base.openSet .host).bind fun k => (base.bset k).staged.find? fun x => x.1 = Reg.DPY.RAIL.ELVSS.addr) = none ∧
    (∀ x ∈ (hostSet (List.replicate 255 (4, 0, 0)) false).staged, x.1 ≠ 8) ∧
    (hostSet (List.replicate 255 (4, 0, 0)) false).staged.length < 256 ∧
    256 ≤ (hostSet (List.replicate 256 (4, 0, 0)) false).staged.length ∧
    ((hostSet [(4, 0, 0), (8, 0, 0)] false).staged.map (·.1)).Nodup := by
  simp only [calm_iff]
  decide +kernel

/-! ### Witnesses: clock, time, fabric, channels, displays -/

/-- `base` with a section of the image. -/
def withSection (k : Nat) (b : List Byte) (s : State) : State :=
  { s with sys := { s.sys with sections := mapSet (fun _ => []) s.sys.sections k b } }

/-- A section whose bytes are 0 but for the ones given. -/
def bytesAt (n : Nat) (l : List (Nat × Byte)) : List Byte := (List.range n).map fun i => ((l.find? fun x => x.1 = i).map (·.2)).getD 0

/-- A waiting request of class P4. -/
def waitingReq (aged : Bool) : FabReq := ⟨31, 4, 1, 0, aged, false⟩

/-- `base` with fabric requests waiting. -/
def withReqs (l : List FabReq) : State := { base with fab := { base.fab with waiting := l } }

/-- A second at the end of the range and beyond it; two and three bad seconds before. -/
theorem witness_ClockCountsAndFails :
    Calm (st [(Reg.CLK.STATUS.RTC_OK, 1)]) ∧ base.sys.unpowered = false ∧
    base.sys.resetLow = false ∧ (st [(Reg.CLK.STATUS.RTC_OK, 1)]).bit Reg.CLK.STATUS.RTC_OK = true ∧
    decide (299970000 ≤ 300030000 ∧ 300030000 ≤ 300030000) = true ∧
    decide (299970000 ≤ 300030001 ∧ 300030001 ≤ 300030000) = false ∧ Opens 0x4E02 base ∧
    Opens 0x4103 base ∧
    3 ≤ ({ base with sys := { base.sys with discBad := 3 } } : State).sys.discBad ∧
    Calm { base with sys := { base.sys with discBad := 3 } } ∧ base.sys.discBad < 3 ∧
    SealShut base ∧ Calm base := by
  simp only [calm_iff, opens_iff, SealShut]
  decide

/-- `base` with enabled time sources, VALID, LIMIT and the requested second. -/
def asking (en valid limit sec : Nat) : State :=
  st [(Reg.RTC.CFG.SRC_EN, en), (Reg.RTC.STATUS.VALID, valid), (Reg.RTC.CFG.LIMIT, limit), (Reg.RTC.SET_SEC.SEC, sec)]

/-- A disabled source, one held off, and an enabled one with requests on both sides of 1 s and of LIMIT, with a valid
reading and without. -/
theorem witness_TimeRequestsSlewOrStep :
    Calm (asking 0 1 5 0) ∧ 2 ≤ (asking 0 1 5 0).level .host ∧
    (asking 0 1 5 0).flag Reg.RTC.CFG.SRC_EN 2 = false ∧ Opens 0x0E04 (asking 0 1 5 0) ∧
    (asking 7 1 5 0).flag Reg.RTC.CFG.SRC_EN 2 = true ∧
    (asking 7 1 5 0).bit Reg.RTC.STATUS.VALID = true ∧ (asking 7 1 5 0).heldOff 3 = false ∧
    ({ asking 7 1 5 0 with rtc := { (asking 7 1 5 0).rtc with hold := [(1, 1)] } } : State).heldOff 3 = true ∧
    (((asking 7 1 5 0).rd Reg.RTC.SET_SEC.SEC * 32768 + 32 : Nat) : Int) - (asking 7 1 5 0).readingAt 0 = 32 ∧
    ((32 : Int).natAbs) * 1000 < 32768 ∧ 32768 ≤ ((33 : Int).natAbs) * 1000 ∧
    (33 : Int).natAbs ≤ (asking 7 1 5 0).rd Reg.RTC.CFG.LIMIT * 32768 ∧
    (asking 7 1 5 6).rd Reg.RTC.CFG.LIMIT * 32768 < (((asking 7 1 5 6).rd Reg.RTC.SET_SEC.SEC * 32768 : Nat) - (asking 7 1 5 6).readingAt 0 : Int).natAbs ∧
    (asking 7 0 5 0).bit Reg.RTC.STATUS.VALID = false ∧ Calm (asking 7 0 5 0) ∧
    Calm (asking 7 1 5 6) := by
  simp only [calm_iff, opens_iff]
  decide

/-- No request of the port, one that can age, one aged; a grant. -/
theorem witness_FabricRequestsAreGrantedByRank :
    Calm base ∧ (base.fab.waiting.any fun r => r.port = 31) = false ∧
    Calm (withReqs [waitingReq false]) ∧
    ((withReqs [waitingReq false]).fab.waiting.any fun r => r.port = 31) = true ∧
    ((withReqs [waitingReq false]).fab.waiting.find? fun r => r.port = 31 && 4 ≤ r.cls && !r.aged) = some (waitingReq false) ∧
    ((withReqs [waitingReq true]).fab.waiting.any fun r => r.port = 31 && 4 ≤ r.cls) = true ∧
    Opens 0x4001 (withReqs [waitingReq true]) ∧ Calm (withReqs [waitingReq true]) ∧
    (⟨0, [waitingReq false], []⟩ : FabSt).pick false 0 = some (waitingReq false) := by
  simp only [calm_iff, opens_iff]
  decide

/-- `base` with channel 39 in a state and MODE 1. -/
def chan (state : Nat) (l : List (Fld × Nat)) : State := st ([(Reg.LSW.CH.STATUS.STATE 39, state), (Reg.LSW.CH.CFG.MODE 39, 1)] ++ l)

/-- A channel owned by an outlet; a free one in each state, forced and not, with a remembered enable and without;
START_ON. -/
theorem witness_ChannelsFollowTheirRequests :
    Calm (chan 0 [(Reg.LSW.CH.CFG.OWNER 39, 1)]) ∧
    lswRefusal 39 (chan 0 [(Reg.LSW.CH.CFG.OWNER 39, 1)]) = some 4 ∧
    lswRefusal 39 (chan 0 []) = none ∧ Calm (chan 0 []) ∧ 1 ≤ (chan 0 []).level .host ∧
    (chan 0 []).hsForced 39 = false ∧ (chan 0 []).rd (Reg.LSW.CH.STATUS.STATE 39) = 0 ∧
    (chan 2 []).rd (Reg.LSW.CH.STATUS.STATE 39) = 2 ∧
    (chan 1 []).rd (Reg.LSW.CH.STATUS.STATE 39) = 1 ∧
    (chan 3 []).rd (Reg.LSW.CH.STATUS.STATE 39) = 3 ∧
    (chan 4 []).rd (Reg.LSW.CH.STATUS.STATE 39) = 4 ∧
    (chan 4 []).bit (Reg.LSW.CH.PEND.PEND 39) = false ∧
    (chan 4 [(Reg.LSW.CH.PEND.PEND 39, 1)]).bit (Reg.LSW.CH.PEND.PEND 39) = true ∧
    (chan 4 []).hsForced 39 = false ∧
    (chan 0 [(Reg.LSW.CH.STATUS.LATCHED 39, 1)]).hsForced 39 = true ∧
    lswRefusal 39 (chan 0 [(Reg.LSW.CH.STATUS.LATCHED 39, 1)]) = none ∧ Calm (chan 4 []) ∧
    Calm (chan 2 []) ∧
    (((chan 0 []).setHs 39 { (chan 0 []).hs 39 with startOn := true }).hs 39).startOn = true ∧
    Calm ((chan 0 []).setHs 39 { (chan 0 []).hs 39 with startOn := true }) := by
  simp only [calm_iff]
  decide

/-- Channel 39 and the user display in the states of each clause. -/
theorem witness_UnitsFollowTheirTable :
    Calm (chan 1 []) ∧ (chan 1 []).rd (Reg.LSW.CH.STATUS.STATE 39) = 1 ∧
    (chan 3 []).rd (Reg.LSW.CH.STATUS.STATE 39) = 3 ∧
    (chan 2 []).rd (Reg.LSW.CH.STATUS.STATE 39) ≠ 3 ∧
    (chan 2 []).rd (Reg.LSW.CH.STATUS.STATE 39) ≠ 4 ∧
    (chan 4 [(Reg.LSW.CH.PEND.PEND 39, 1)]).bit (Reg.LSW.CH.PEND.PEND 39) = true ∧
    (chan 4 []).bit (Reg.LSW.CH.PEND.PEND 39) = false ∧
    (chan 4 []).bit (Reg.LSW.CH.STATUS.REQ_ON 39) = false ∧
    (st [(Reg.DPY.STATUS.STATE, 1)]).rd Reg.DPY.STATUS.STATE = 1 ∧
    Calm (st [(Reg.DPY.STATUS.STATE, 1)]) ∧
    (st [(Reg.DPY.STATUS.STATE, 3)]).rd Reg.DPY.STATUS.STATE = 3 ∧
    (st [(Reg.DPY.STATUS.STATE, 2)]).rd Reg.DPY.STATUS.STATE = 2 ∧
    Calm (st [(Reg.DPY.STATUS.STATE, 2)]) ∧ Calm (st [(Reg.DPY.STATUS.STATE, 3)]) ∧
    Calm (chan 4 [(Reg.LSW.CH.PEND.PEND 39, 1)]) ∧ 1 ≤ base.level .host := by
  simp only [calm_iff]
  decide

/-- The seventh and the eighth restart, heat, fold-back and inrush on and off, an open-load verdict with its fault
raised and not. -/
theorem witness_ChannelsProtectThemselves :
    Calm (chan 2 [(Reg.LSW.CH.STATUS.RESTARTS 39, 7)]) ∧
    (chan 2 [(Reg.LSW.CH.STATUS.RESTARTS 39, 7)]).rd (Reg.LSW.CH.STATUS.RESTARTS 39) ≠ 8 ∧
    (chan 2 [(Reg.LSW.CH.STATUS.RESTARTS 39, 8)]).rd (Reg.LSW.CH.STATUS.RESTARTS 39) = 8 ∧
    Opens (0x7540 + 39) (chan 2 [(Reg.LSW.CH.STATUS.RESTARTS 39, 8)]) ∧
    Calm (chan 2 [(Reg.LSW.CH.STATUS.RESTARTS 39, 8)]) ∧
    (chan 2 [(Reg.LSW.CH.STATUS.FOLDBACK 39, 1)]).bit (Reg.LSW.CH.STATUS.FOLDBACK 39) = true ∧
    (chan 4 [(Reg.LSW.CH.STATUS.THERMAL 39, 1)]).bit (Reg.LSW.CH.STATUS.THERMAL 39) = true ∧
    (chan 4 [(Reg.LSW.CH.STATUS.THERMAL 39, 1)]).bit (Reg.LSW.CH.STATUS.REQ_ON 39) = false ∧
    (chan 2 []).bit (Reg.LSW.CH.STATUS.THERMAL 39) = false ∧ Opens (0x7580 + 39) (chan 2 []) ∧
    (chan 2 []).rd (Reg.LSW.CH.STATUS.STATE 39) = 2 ∧
    (chan 2 []).bit (Reg.LSW.CH.STATUS.INRUSH 39) = false ∧
    (chan 2 []).bit (Reg.LSW.CH.STATUS.FOLDBACK 39) = false ∧
    (chan 2 [(Reg.LSW.CH.STATUS.INRUSH 39, 1)]).bit (Reg.LSW.CH.STATUS.INRUSH 39) = true ∧
    (chan 3 []).rd (Reg.LSW.CH.STATUS.STATE 39) = 3 ∧ Opens (0x3540 + 39) (chan 3 []) ∧
    (chan 0 [(Reg.LSW.CH.CFG.OL_EN 39, 1)]).bit (Reg.LSW.CH.CFG.OL_EN 39) = true ∧
    (chan 0 [(Reg.LSW.CH.CFG.OL_EN 39, 1)]).floats 39 = false ∧
    ((chan 0 []).hs 39).openRaised = false ∧
    (((chan 0 []).setHs 39 { (chan 0 []).hs 39 with openRaised := true }).hs 39).openRaised = true ∧
    Opens (0x3500 + 39) (chan 0 [(Reg.LSW.CH.CFG.OL_EN 39, 1)]) ∧
    Calm (chan 0 [(Reg.LSW.CH.CFG.OL_EN 39, 1)]) := by
  simp only [calm_iff, opens_iff]
  decide

/-- `base` with heater 7 on channel 39 and the body of sensor 0, all offsets 0. -/
def heated (fallback : Nat) : State :=
  let s := st [(Reg.LSW.HEAT.CFG.CHANNEL 7, 39), (Reg.LSW.HEAT.CFG.SENSOR 7, 0), (Reg.LSW.HEAT.STATE.FALLBACK 7, fallback)]
  { s with sys := { s.sys with shelfBody := [(0, List.replicate 8 0)] } }

/-- A group with supply and without, channels that restart, a budget at its limit and beyond, a sensor whose reading
stays in its range, a heater on fallback. -/
theorem witness_GroupsBudgetAndHeaters :
    (st [(Reg.LSW.STATUS.UV, 16)]).flag Reg.LSW.STATUS.UV 4 = true ∧
    Calm (st [(Reg.LSW.STATUS.UV, 16)]) ∧ base.flag Reg.LSW.STATUS.UV 4 = false ∧
    (st [(Reg.MODE.STATUS.MODE, 6)]).mode ≠ 5 ∧ Calm (st [(Reg.MODE.STATUS.MODE, 6)]) ∧
    mapGet (fun _ => []) ({ base with lsw := { base.lsw with restart := [(4, [39])] } } : State).lsw.restart 4 = 39 :: [] ∧
    Calm { base with lsw := { base.lsw with restart := [(4, [39])] } } ∧
    mapGet (fun _ => []) base.lsw.restart 4 = [] ∧
    (∀ c ∈ groupChannels 4, base.bit (Reg.LSW.CH.STATUS.REQ_ON c) = false) ∧ 4000 ≤ 4000 ∧
    4000 < 4001 ∧ Opens 0x7578 base ∧ 4 ≤ (heated 0).mode ∧
    (heated 0).rd (Reg.LSW.HEAT.CFG.CHANNEL 7) ≠ 0xFF ∧
    (heated 0).sensorBody 7 = List.replicate 8 0 ∧ List.replicate 8 (0 : Byte) ≠ [] ∧
    (-4500 : Int) = -4500 + toInt 16 (leAt (List.replicate 8 0) 6 2) ∧
    (10000 : Int) = (10000 : Int) + toInt 16 (leAt (List.replicate 8 0) 4 2) ∧
    (heated 0).bit (Reg.LSW.HEAT.STATE.FALLBACK 7) = false ∧
    (heated 1).bit (Reg.LSW.HEAT.STATE.FALLBACK 7) = true ∧ Calm (heated 0) ∧ Calm (heated 1) := by
  simp only [calm_iff, opens_iff]
  decide

/-! ### Witnesses: displays, carrels, outlets -/

/-- `base` with the user display in a state, its module matched as entry 0 with the body given, and USER_EN. -/
def display (state : Nat) (body : List Byte) (l : List (Fld × Nat)) : State :=
  let s := withSection 9 [3] (withSection 2 (bytesAt 16 [(2, 4)]) (st ([(Reg.DPY.STATUS.STATE, state)] ++ l)))
  { s with sys := { s.sys with shelf := [.matched], shelfBody := [(0, body)] } }

/-- A body with crack limits of 100 Ω and 200 Ω and a light sensor. -/
def dpyModule : List Byte := bytesAt 32 [(0xB, 1), (0xC, 100), (0xE, 200)]

/-- The display off and on, with no cause and with one, in modes that keep it and in RIDE_THROUGH. -/
theorem witness_UserDisplayFollowsItsRules_Requests :
    Calm (display 0 dpyModule [(Reg.PWR.STATUS.VDISP_OK, 1)]) ∧
    1 ≤ (display 0 dpyModule []).level .host ∧ (display 0 dpyModule []).mode ≠ 8 ∧
    (display 0 dpyModule []).mode ≠ 9 ∧ (display 0 dpyModule []).rd Reg.DPY.STATUS.STATE = 0 ∧
    (display 0 dpyModule [(Reg.PWR.STATUS.VDISP_OK, 1)]).dpyCauses = 0 ∧
    (display 0 dpyModule [(Reg.PWR.STATUS.VDISP_OK, 0)]).dpyCauses ≠ 0 ∧
    (display 2 dpyModule []).rd Reg.DPY.STATUS.STATE = 2 ∧
    (display 0 dpyModule [(Reg.MODE.STATUS.MODE, 9)]).mode = 9 ∧
    Calm (display 0 dpyModule [(Reg.MODE.STATUS.MODE, 9)]) ∧ Calm (display 2 dpyModule []) := by
  simp only [calm_iff]
  decide

/-- Cracks at and below the limits with one, two and three measurements, an underrun raised and not, blink off and on,
readings of the light sensor. -/
theorem witness_UserDisplayFollowsItsRules_Faults :
    ((display 2 dpyModule []).dpyBody.getD []) = dpyModule ∧ leAt dpyModule 0xC 2 ≤ 100 ∧
    200 ≤ leAt dpyModule 0xE 2 ∧ 99 < leAt dpyModule 0xC 2 ∧
    (display 2 dpyModule []).dpy.crackRun < 2 ∧
    2 ≤ ((display 2 dpyModule []).mapDpy fun d => { d with crackRun := 2 }).dpy.crackRun ∧
    (display 2 dpyModule []).bit Reg.DPY.CRACK.CRACKED = false ∧
    Opens 0x7602 (display 2 dpyModule []) ∧ Opens 0x7601 (display 2 dpyModule []) ∧
    (display 2 dpyModule []).dpy.underrun = false ∧
    ((display 2 dpyModule []).mapDpy fun d => { d with underrun := true }).dpy.underrun = true ∧
    Opens 0x3603 (display 2 dpyModule []) ∧
    (display 2 dpyModule []).bit (Reg.BLINK.CTL.EN 7) = false ∧
    (display 2 dpyModule [(Reg.BLINK.CTL.EN 7, 1)]).bit (Reg.BLINK.CTL.EN 7) = true ∧
    (display 2 dpyModule []).bit Reg.DPY.BRIGHT.MAN = false ∧
    leAt ((display 2 dpyModule []).dpyBody.getD []) 0xB 1 ≠ 0xFF ∧
    (display 2 dpyModule []).dpy.alsBad < 2 ∧
    2 ≤ ((display 2 dpyModule []).mapDpy fun d => { d with alsBad := 2 }).dpy.alsBad ∧
    (display 2 dpyModule []).bit Reg.DPY.STATUS.ALS_FB = false ∧
    Opens 0x3604 (display 2 dpyModule []) := by
  simp only [opens_iff]
  decide

/-- `base` with the legal display's region 7 of kind 5, and its unit in the state given. -/
def legal (b : BdySt) (l : List (Fld × Nat)) : State :=
  { withSection 9 (bytesAt 0x100 [(0, 3), (0x68, 5)]) (st l) with bdy := b }

/-- A region that the runtime draws and one that it does not, a request that waits, an update that runs in either
polarity and one at its end, rails good and bad. -/
theorem witness_LegalDisplayFollowsItsRules :
    (legal BdySt.init []).region 7 0 = 5 ∧ (legal BdySt.init []).region 6 0 ≠ 5 ∧
    Calm (legal BdySt.init []) ∧ 1 ≤ (legal BdySt.init []).level .host ∧
    (legal { BdySt.init with wait := [(7, some 5)] } []).bdyWait 7 = some 5 ∧
    4 ≤ (legal BdySt.init []).mode ∧ (legal BdySt.init []).mode ≠ 9 ∧
    (legal BdySt.init []).bdy.phase = 0 ∧
    (legal BdySt.init []).bit Reg.BDY.STATUS.RAIL_FAULT = false ∧
    (legal BdySt.init []).bdyRun 7 = none ∧
    (legal BdySt.init []).bit Reg.BDY.STATUS.POSITIVE = false ∧
    (legal BdySt.init []).bdyWait 7 = none ∧
    (legal BdySt.init [(Reg.BDY.STATUS.RAIL_FAULT, 1)]).bit Reg.BDY.STATUS.RAIL_FAULT = true ∧
    Calm (legal BdySt.init [(Reg.BDY.STATUS.RAIL_FAULT, 1)]) ∧
    (legal { BdySt.init with phase := 2, n := 4, frame := 15 } []).bdy.phase ≠ 0 ∧ (legal { BdySt.init with phase := 2, n := 4, frame := 15 } []).bdy.phase ≠ 1 ∧
    (legal { BdySt.init with phase := 2, n := 4, frame := 15 } []).bdy.frame < 4 * (legal { BdySt.init with phase := 2, n := 4, frame := 15 } []).bdy.n ∧
    (legal { BdySt.init with run := [(7, some ⟨0, 1, 14, 4⟩)] } []).bdyRun 7 = some ⟨0, 1, 14, 4⟩ ∧
    (∀ q, q < 8 → q ≠ 7 → (legal { BdySt.init with run := [(7, some ⟨0, 1, 14, 4⟩)] } []).bdyRun q = none) ∧
    (14 % 2 = 0 ↔ (legal BdySt.init []).bit Reg.BDY.STATUS.POSITIVE = false) ∧
    (15 % 2 = 0 ↔ (legal BdySt.init [(Reg.BDY.STATUS.POSITIVE, 1)]).bit Reg.BDY.STATUS.POSITIVE = false) ∧
    (legal { BdySt.init with run := [(7, some ⟨0, 1, 16, 4⟩)] } []).bdyRun 7 = some ⟨0, 1, 16, 4⟩ ∧
    4 * (⟨0, 1, 16, 4⟩ : BdyRun).n ≤ (⟨0, 1, 16, 4⟩ : BdyRun).frame ∧
    Opens 0x7701 (legal BdySt.init []) := by
  simp only [calm_iff, opens_iff]
  decide

/-- `base` with carrel 255 as given, on outlet 15, an enabled AC outlet that is IDLE. -/
def carrelled (r : Carrel) (l : List (Fld × Nat)) : State :=
  (st ([(Reg.OUT.CFG.KIND 15, 1), (Reg.OUT.STATUS.STATE 15, 1), (Reg.CRL.NEXT_SESSION.SESSION, 9)] ++ l)).setCar 255 r

/-- A carrel of outlet 15 in a state. -/
def car15 (state : Nat) : Carrel := { Carrel.free with st := state, outlet := 15, session := 7 }

/-- Each mode with new carrels permitted, a free carrel, a session number, room at the outlet; a Reserved one. -/
theorem witness_CarrelsKeepTheirRules_New :
    Calm (carrelled Carrel.free []) ∧ 1 ≤ base.level .host ∧ (carrelled Carrel.free []).mode = 5 ∧
    (carrelled Carrel.free [(Reg.MODE.STATUS.MODE, 9)]).newCarrels = true ∧
    (carrelled Carrel.free []).newCarrels = true ∧
    Calm (carrelled Carrel.free [(Reg.MODE.STATUS.MODE, 9)]) ∧
    (carrelled Carrel.free []).rd (Reg.OUT.CFG.KIND 15) ≠ 0 ∧
    (carrelled Carrel.free []).outSt 15 ≠ 0 ∧ (0xFF : Fin 256).val = 0xFF ∧
    (carrelled Carrel.free []).freeCarrel = some 0 ∧
    (carrelled Carrel.free []).rd Reg.CRL.NEXT_SESSION.SESSION ≠ 0 ∧
    (carrelled Carrel.free []).outletCarrels 15 none < 4 ∧
    ((carrelled Carrel.free []).car 0xFF).st ≠ 1 ∧ (carrelled Carrel.free []).formOk = true ∧
    ((carrelled (car15 1) []).car 255).st = 1 ∧ ((carrelled (car15 1) []).car 255).outlet = 15 ∧
    (carrelled (car15 1) []).outletCarrels 15 (some 255) < 4 ∧
    (carrelled (car15 1) []).formOk = true ∧ Calm (carrelled (car15 1) []) := by
  simp only [calm_iff]
  decide

/-- A carrel in each state, with the right session to acknowledge, bound to its outlet and not; the ends of the
undefined codes. -/
theorem witness_CarrelsKeepTheirRules_Commands :
    Calm (carrelled (car15 1) []) ∧ 4 ≤ (carrelled (car15 1) []).mode ∧
    ((carrelled (car15 1) []).car 255).st = 1 ∧ ((carrelled (car15 2) []).car 255).st = 2 ∧
    ((carrelled (car15 3) []).car 255).st = 3 ∧ ((carrelled (car15 3) []).car 255).outlet < 16 ∧
    ((carrelled (car15 4) []).car 255).st = 4 ∧ ((carrelled (car15 6) []).car 255).st = 6 ∧
    ((carrelled (car15 6) [(Reg.CRL.ACK_SESSION.SESSION, 7)]).car 255).session = (carrelled (car15 6) [(Reg.CRL.ACK_SESSION.SESSION, 7)]).rd Reg.CRL.ACK_SESSION.SESSION ∧
    ¬ (((carrelled (car15 2) []).car 255).outlet < 16 ∧ (carrelled (car15 2) []).bound 15 = some 255) ∧
    (carrelled (car15 3) [(Reg.OUT.STATUS.BOUND 15, 1), (Reg.OUT.STATUS.CARREL 15, 255)]).bound 15 = some 255 ∧
    7 ≤ (7 : Fin 256).val ∧ 7 ≤ (255 : Fin 256).val ∧ Opens 0x3004 (carrelled (car15 2) []) ∧
    Calm (carrelled (car15 3) [(Reg.OUT.STATUS.BOUND 15, 1), (Reg.OUT.STATUS.CARREL 15, 255)]) := by
  simp only [calm_iff, opens_iff]
  decide

/-- Each time at its end and one second before. -/
theorem witness_CarrelsKeepTheirRules_Times :
    (carrelled (car15 1) [(Reg.CRL.CFG.RES_T, 1), (Reg.RTC.TICK.SECONDS, 60)]).resExpired (car15 1) = true ∧
    (carrelled (car15 1) [(Reg.CRL.CFG.RES_T, 1), (Reg.RTC.TICK.SECONDS, 59)]).resExpired (car15 1) = false ∧
    (carrelled (car15 2) [(Reg.CRL.CFG.AUTH_T, 60), (Reg.RTC.TICK.SECONDS, 3600)]).authExpired (car15 2) = true ∧
    (carrelled (car15 2) [(Reg.CRL.CFG.AUTH_T, 60), (Reg.RTC.TICK.SECONDS, 3599)]).authExpired (car15 2) = false ∧
    (carrelled (car15 4) [(Reg.CRL.CFG.SUSP_MAX, 1)]).suspExpired { car15 4 with qSusp := 601 } = true ∧
    (carrelled (car15 4) [(Reg.CRL.CFG.SUSP_MAX, 1)]).suspExpired { car15 4 with qSusp := 600 } = false ∧
    Calm (carrelled (car15 4) [(Reg.CRL.CFG.SUSP_MAX, 1)]) ∧
    ((carrelled (car15 1) [(Reg.CRL.CFG.RES_T, 1), (Reg.RTC.TICK.SECONDS, 60)]).car 255).st = 1 := by
  simp only [calm_iff]
  decide

/-- Outlet 15 of a kind in a state, with a hidden state and an Authorised unlimited carrel 255. -/
def outlet (kind state : Nat) (o : OutSt) (l : List (Fld × Nat)) : State :=
  ((st ([(Reg.OUT.CFG.KIND 15, kind), (Reg.OUT.STATUS.STATE 15, state), (Reg.OUT.HS_MAP.LOCK 15, 0xFF),
    (Reg.OUT.HS_MAP.COIL0 15, 0xFF), (Reg.OUT.HS_MAP.COIL1 15, 0xFF)] ++ l)).setOut 15 o).setCar 255
      { car15 2 with unlimited := true }

/-- Outlet 15 connected, every condition of ENERGISE met. -/
def ready : State := outlet 1 2 OutSt.init [(Reg.OUT.SUPV.RCM_OK 15, 1), (Reg.OUT.LIMIT.I_CAP 15, 60)]

/-- A condition that fails, all that hold, OPENING with a forcing condition and without, with a waiting enable and
without. -/
theorem witness_OutletsEnergiseAndFollowCommands_Energise :
    Calm (outlet 1 1 OutSt.init []) ∧
    (energiseConds1 15 255 (outlet 1 1 OutSt.init []) ++ energiseConds2 15 (outlet 1 1 OutSt.init [])).find? (fun x => !x.2) = some (2, false) ∧
    (energiseConds1 15 255 ready ++ energiseConds2 15 ready).find? (fun x => !x.2) = none ∧
    ready.outSt 15 = 2 ∧ ready.outForced 15 = false ∧ Calm ready ∧
    (energiseConds1 15 255 (outlet 1 9 OutSt.init [])).find? (fun x => !x.2) = none ∧
    (outlet 1 9 OutSt.init []).outSt 15 = 9 ∧ (outlet 1 9 OutSt.init []).outForced 15 = false ∧
    Calm (outlet 1 9 OutSt.init []) ∧
    (outlet 1 9 OutSt.init [(Reg.OUT.HS_MAP.COIL0 15, 39), (Reg.LSW.STATUS.UV, 16)]).outForced 15 = true ∧
    (energiseConds1 15 255 (outlet 1 9 OutSt.init [(Reg.OUT.HS_MAP.COIL0 15, 39), (Reg.LSW.STATUS.UV, 16)])).find? (fun x => !x.2) = none ∧
    (outlet 1 9 OutSt.init []).bit (Reg.OUT.PEND.PEND 15) = false ∧
    (outlet 1 9 OutSt.init [(Reg.OUT.PEND.PEND 15, 1)]).bit (Reg.OUT.PEND.PEND 15) = true ∧
    4 ≤ (outlet 1 4 OutSt.init []).outSt 15 ∧ (outlet 1 7 OutSt.init []).outSt 15 ≤ 7 := by
  simp only [calm_iff]
  decide

/-- Outlet 15 of KIND 4 in a state, function 23 of both halves in RUN. -/
def device (state : Nat) : State :=
  let s := outlet 4 state OutSt.init [(Reg.OUT.HS_MAP2.ACD_SAF 15, 23)]
  { s with saf := { s.saf with
    cur := { s.saf.cur with fn := [(23, { FnSt.init with st := 2 })] }
    kpr := { s.saf.kpr with fn := [(23, { FnSt.init with st := 2 })] } } }

/-- The states that admit each command and ones that do not; the ends of the undefined codes; duties inside and
outside the ranges. -/
theorem witness_OutletsEnergiseAndFollowCommands_Others :
    Calm (outlet 3 5 { OutSt.init with isoGood := true } []) ∧
    (outlet 3 5 { OutSt.init with isoGood := true } []).outSt 15 = 5 ∧
    ((outlet 3 5 { OutSt.init with isoGood := true } []).out 15).isoGood = true ∧
    (outlet 3 6 OutSt.init []).outSt 15 ≠ 5 ∧ ((outlet 3 5 OutSt.init []).out 15).isoGood = false ∧
    (outlet 3 6 OutSt.init []).outSt 15 = 6 ∧ (outlet 3 5 OutSt.init []).outSt 15 ≠ 6 ∧
    (outlet 3 10 { OutSt.init with weldBad := true } []).outSt 15 = 10 ∧
    ((outlet 3 10 { OutSt.init with weldBad := true } []).out 15).weldBad = true ∧
    ((outlet 3 10 OutSt.init []).out 15).weldBad = false ∧
    (outlet 3 10 OutSt.init [(Reg.OUT.SUPV.RCM_TRIP 15, 1)]).bit (Reg.OUT.SUPV.RCM_TRIP 15) = true ∧
    (outlet 3 10 OutSt.init []).bit (Reg.OUT.SUPV.RCM_TRIP 15) = false ∧
    (device 1).rd (Reg.OUT.CFG.KIND 15) = 4 ∧ (device 1).mode ≠ 7 ∧ (device 1).outSt 15 = 1 ∧
    (device 1).fnRuns ((device 1).rd (Reg.OUT.HS_MAP2.ACD_SAF 15)) = true ∧ Calm (device 1) ∧
    (outlet 3 1 OutSt.init []).rd (Reg.OUT.CFG.KIND 15) ≠ 4 ∧ 1 ≤ (device 1).outSt 15 ∧
    (device 3).outSt 15 ≤ 3 ∧ 10 ≤ (device 10).outSt 15 ∧ 4 ≤ (device 4).outSt 15 ∧
    (device 9).outSt 15 ≤ 9 ∧ ((outlet 3 1 OutSt.init []).out 15).rcmTest = 0 ∧
    ((outlet 3 1 { OutSt.init with rcmTest := 4 } []).out 15).rcmTest ≠ 0 ∧
    10 ≤ (10 : Fin 256).val ∧ 10 ≤ (255 : Fin 256).val ∧
    (2 : Fin 4).val = 2 ∧ (79 : Fin 1024).val ≠ 50 ∧ ((79 : Fin 1024).val < 80 ∨ 970 < (79 : Fin 1024).val) ∧
    (2 : Fin 4).val = 2 ∧ (971 : Fin 1024).val ≠ 50 ∧ ((971 : Fin 1024).val < 80 ∨ 970 < (971 : Fin 1024).val) ∧
    ¬ ((2 : Fin 4).val = 2 ∧ (50 : Fin 1024).val ≠ 50 ∧ ((50 : Fin 1024).val < 80 ∨ 970 < (50 : Fin 1024).val)) ∧
    ¬ ((2 : Fin 4).val = 2 ∧ (970 : Fin 1024).val ≠ 50 ∧ ((970 : Fin 1024).val < 80 ∨ 970 < (970 : Fin 1024).val)) ∧
    Opens (outCode 0x200E 15) (outlet 1 1 OutSt.init []) := by
  simp only [calm_iff, opens_iff]
  decide

/-- The plateaus at both ends of each range, with the diode check passed and failed. -/
theorem witness_PilotsAndContactors_Verdicts :
    (10500 : Int) ≤ 10500 ∧ (13500 : Int) ≤ 13500 ∧ (7500 : Int) ≤ 7500 ∧ (10499 : Int) < 10500 ∧
    (4500 : Int) ≤ 4500 ∧ (7499 : Int) < 7500 ∧ (1500 : Int) ≤ 1500 ∧ (4499 : Int) < 4500 ∧
    (-1500 : Int) ≤ -1500 ∧ (1499 : Int) < 1500 ∧ (-1501 : Int) < -1500 ∧ (13500 : Int) < 13501 := by decide

/-- Pilot modes with no verdict and with one, verdicts held and not, the tenth INV, a latched error, a proximity that
stays and one that changes. -/
theorem witness_PilotsAndContactors_Pilot :
    Calm (outlet 1 1 OutSt.init []) ∧
    (outlet 1 1 OutSt.init [(Reg.OUT.CP_MEAS.MODE 15, 3)]).rd (Reg.OUT.CP_MEAS.MODE 15) = 3 ∧
    (outlet 1 1 OutSt.init [(Reg.OUT.CP_MEAS.MODE 15, 2)]).rd (Reg.OUT.CP_MEAS.MODE 15) = 2 ∧
    pilotVerdict true 9000 (-12000) = .b ∧ ¬ (PilotVerdict.b = .inv ∧ OutSt.init.inv = 9) ∧
    pilotMajority [.b] = none ∧ pilotMajority [.b, .b] = some .b ∧
    pilotCode .b = (outlet 1 1 OutSt.init [(Reg.OUT.STATUS.PILOT 15, pilotCode .b)]).rd (Reg.OUT.STATUS.PILOT 15) ∧
    pilotCode .b ≠ (outlet 1 1 OutSt.init [(Reg.OUT.STATUS.PILOT 15, 0)]).rd (Reg.OUT.STATUS.PILOT 15) ∧
    ((outlet 1 1 { OutSt.init with pilotErr := true } []).out 15).pilotErr = true ∧
    ((outlet 1 1 OutSt.init []).out 15).pilotErr = false ∧
    (32, false) = (if (outlet 1 1 OutSt.init []).rd (Reg.OUT.CFG.KIND 15) = 1 then ppBand 220 else (0, false)) ∧
    (outlet 1 1 OutSt.init [(Reg.OUT.PP.OHMS 15, 220)]).rd (Reg.OUT.PP.OHMS 15) = 220 ∧
    (outlet 1 1 OutSt.init [(Reg.OUT.PP.CAP 15, 32)]).rd (Reg.OUT.PP.CAP 15) = 32 ∧
    (outlet 1 1 OutSt.init [(Reg.OUT.PP.INVALID 15, 0)]).bit (Reg.OUT.PP.INVALID 15) = false ∧
    (outlet 1 1 OutSt.init [(Reg.OUT.PP.OHMS 15, 221)]).rd (Reg.OUT.PP.OHMS 15) ≠ 220 := by
  simp only [calm_iff]
  decide

/-- Each state that a clause names, of AC and of DC; a closure that holds, each weld verdict, with TRIP named and not,
COOL due and not. -/
theorem witness_PilotsAndContactors_Contactors :
    (outlet 1 3 OutSt.init []).outSt 15 = 3 ∧ (outlet 1 4 OutSt.init []).outSt 15 ≠ 3 ∧
    (outlet 3 4 OutSt.init []).isDc 15 = true ∧ (outlet 1 4 OutSt.init []).outSt 15 = 4 ∧
    (outlet 1 4 OutSt.init []).isDc 15 = false ∧ (outlet 1 4 OutSt.init []).isAc 15 = true ∧
    ([8] : List Nat).length = [10].length ∧
    (([8] : List Nat).zip [10]).all (fun x => decide (8 * x.2 ≤ 10 * x.1)) = true ∧
    (outlet 1 8 OutSt.init []).outSt 15 = 8 ∧ (outlet 1 9 OutSt.init []).outSt 15 = 9 ∧
    ((outlet 1 10 { OutSt.init with recheck := true } []).out 15).recheck = true ∧
    (outlet 1 10 { OutSt.init with recheck := true } []).outSt 15 = 10 ∧
    weldJudge 230000 (.dc 20000) = 1 ∧ weldJudge 230000 (.dc 19999) = 2 ∧
    weldJudge 230000 (.ac [114999] [0]) = 3 ∧ weldJudge 230000 (.ac [230000] [115000]) = 2 ∧
    weldJudge 230000 (.ac [230000] [114999]) = 1 ∧
    ((openingEnds 15 (outlet 1 9 OutSt.init [])).out 15).acdUpLatched = false ∧
    ((leaveFault 15 (outlet 1 10 OutSt.init [])).out 15).acdUpLatched = false ∧
    ((outFault 15 (outlet 1 9 OutSt.init [])).out 15).acdUpLatched = false ∧
    ((welded 15 (outlet 1 9 OutSt.init [(Reg.OUT.HS_MAP.TRIP 15, 39)])).out 15).acdUpLatched = false ∧
    (outlet 1 9 OutSt.init [(Reg.OUT.HS_MAP.TRIP 15, 39)]).rd (Reg.OUT.HS_MAP.TRIP 15) < 40 ∧
    40 ≤ (outlet 1 9 OutSt.init [(Reg.OUT.HS_MAP.TRIP 15, 40)]).rd (Reg.OUT.HS_MAP.TRIP 15) ∧
    SealShut (outlet 1 9 OutSt.init []) ∧
    ((outlet 1 2 { OutSt.init with coolDue := true } []).out 15).coolDue = true ∧
    ((outlet 1 2 OutSt.init []).out 15).coolDue = false ∧ Calm (outlet 1 9 OutSt.init []) := by
  simp only [calm_iff, SealShut]
  decide

/-- No device waits to move up after a weld with no TRIP channel. -/
theorem witness_PilotsAndContactors_Welded :
    ((welded 15 (outlet 1 9 OutSt.init [(Reg.OUT.HS_MAP.TRIP 15, 0xFF)])).out 15).acdUpLatched = false := by decide +kernel

/-- A test under way for each purpose and none, a test that passes and one that fails, a trip and a pilot error in
FAULT, measurements that the insulation check judges and does not. -/
theorem witness_ResidualCurrentModulesAndBuses_Supervision :
    Calm (outlet 3 10 OutSt.init []) ∧
    ((outlet 3 2 { OutSt.init with rcmTest := 1 } []).out 15).rcmTest ≠ 0 ∧
    ((outlet 3 2 OutSt.init []).out 15).rcmTest = 0 ∧ rcmPasses (some 40) (some 100) = true ∧
    rcmPasses (some 41) (some 100) = false ∧ rcmPasses none (some 1) = false ∧
    ((outlet 3 2 { OutSt.init with rcmTest := 2 } []).out 15).rcmTest = 2 ∧
    ((outlet 3 10 { OutSt.init with rcmTest := 3 } []).out 15).rcmTest = 3 ∧
    (outlet 3 10 { OutSt.init with rcmTest := 3 } []).outSt 15 = 10 ∧
    ((outlet 3 10 { OutSt.init with rcmTest := 3 } []).out 15).weldBad = false ∧
    ((outlet 3 10 OutSt.init []).out 15).precloseBad = false ∧
    (outlet 3 10 OutSt.init [(Reg.OUT.SUPV.RCM_TRIP 15, 1)]).bit (Reg.OUT.SUPV.RCM_TRIP 15) = true ∧
    (outlet 3 10 { OutSt.init with pilotErr := true } []).bit (Reg.OUT.SUPV.RCM_TRIP 15) = false ∧
    ((outlet 3 10 { OutSt.init with pilotErr := true } []).out 15).pilotErr = true ∧
    (outlet 3 5 OutSt.init []).outSt 15 ≠ 10 ∧ (outlet 3 5 OutSt.init []).isDc 15 = true ∧
    (outlet 1 5 OutSt.init []).isDc 15 = false ∧ |(49999 : Int) - 0| < 50000 ∧
    (50000 : Int) ≤ |200000 - (-200000 : Int)| ∧
    (isoResult 100 200000 (-200000) 100000 (-300000)).isSome = true ∧
    ((outlet 3 5 OutSt.init []).outCfg 15 0x20 2 : Int) ≤ 0 ∧
    ((outlet 3 5 OutSt.init []).outCfg 15 0x22 2 : Int) ≤ 0 ∧
    (outlet 3 5 OutSt.init []).bit (Reg.OUT.SUPV.ISO_WARN 15) = false := by
  simp only [calm_iff]
  decide

/-- No module and one, a module that is not lost, a bus that takes frames and one that does not, a device that moves
and one that does not. -/
theorem witness_ResidualCurrentModulesAndBuses_Modules :
    (outlet 3 5 OutSt.init []).modules 15 = [] ∧
    (outlet 3 5 OutSt.init [(Reg.OUT.MOD_CFG.VALID_H 15 1, 1)]).modules 15 ≠ [] ∧
    Calm (outlet 3 5 OutSt.init [(Reg.OUT.MOD_CFG.VALID_H 15 1, 1)]) ∧
    (outlet 3 5 { OutSt.init with clamp2 := true } []).outSt 15 = 5 ∧
    ((outlet 3 5 { OutSt.init with clamp2 := true } []).out 15).clamp2 = true ∧
    (outlet 3 5 OutSt.init []).revOk 15 = false ∧
    (withSection 6 (List.replicate 1024 1) (outlet 3 5 OutSt.init [])).outCfg 15 8 2 ≠ 0 ∧
    (List.replicate 16 (0 : Byte)).length = 16 ∧
    (st [(Reg.CAN.CFG.EN 1, 1)]).bit (Reg.CAN.CFG.EN 1) = true ∧
    (st [(Reg.CAN.CFG.EN 1, 0)]).bit (Reg.CAN.CFG.EN 1) = false ∧ ([] : List Byte).length ≠ 16 ∧
    ((outlet 3 5 OutSt.init [(Reg.OUT.MOD_CFG.VALID_H 15 1, 1)]).modCfg 15 3).isSome = true ∧
    (outlet 3 5 OutSt.init []).bit (Reg.OUT.MOD_STAT.LOST 15 3) = false ∧
    (outlet 4 1 OutSt.init []).rd (Reg.OUT.CFG.KIND 15) = 4 ∧
    ((outlet 4 1 { OutSt.init with acdMove := 2 } []).out 15).acdMove ≠ 0 ∧
    ((outlet 4 1 OutSt.init []).out 15).acdMove = 0 ∧ Opens 0x7A01 base ∧
    (st [(Reg.CAN.STATUS.BUS_OFF 1, 1)]).bit (Reg.CAN.STATUS.BUS_OFF 1) = true ∧
    Calm (st [(Reg.CAN.STATUS.BUS_OFF 1, 1)]) := by
  simp only [calm_iff, opens_iff]
  decide +kernel

/-- A frame whose CRC holds. -/
theorem witness_ResidualCurrentModulesAndBuses_Crc :
    crc16 ((List.replicate 14 (0 : Byte) ++ leBytes 2 (crc16 (List.replicate 14 0))).take 14) = leAt (List.replicate 14 (0 : Byte) ++ leBytes 2 (crc16 (List.replicate 14 0))) 14 2 := by decide +kernel

/-- A calm state, and one with a Minor fault that waits. -/
theorem witness_EndOfStepChangesOnlyTheBooks :
    Calm base ∧ MinorTodo { base with flt := { base.flt with todo := [(0x4001, 0)] } } ∧
    ({ base with flt := { base.flt with todo := [(0x4001, 0)] } } : State).moved = false ∧
    ({ base with flt := { base.flt with todo := [(0x4001, 0)] } } : State).outputsBarred = false := by
  simp only [calm_iff, MinorTodo]
  decide

/-! ### Witnesses: vehicle link and transforms -/

/-- `base` with VPL[15] in a state and its hidden state. -/
def vlink (state : Nat) (x : VplSt) (l : List (Fld × Nat)) : State := (st ([(Reg.VPL.STATUS.STATE 15, state)] ++ l)).setVpl 15 x

/-- An instance that stays off, one whose conditions come to hold and one whose conditions fail; each state that a
clause names. -/
theorem witness_VehicleLinksPair_States :
    Calm (vlink 0 VplSt.init []) ∧ 1 ≤ base.level .host ∧
    ((vlink 0 VplSt.init []).setB (Reg.VPL.CTL.EN 15) true).vplWanted 15 = ((vlink 0 VplSt.init []).vplAt 15).wanted ∧
    ((vlink 0 VplSt.init [(Reg.OUT.STATUS.STATE 15, 2), (Reg.OUT.STATUS.PILOT 15, 1), (Reg.OUT.CP_MEAS.MODE 15, 2), (Reg.OUT.CP_MEAS.DUTY 15, 50)]).setB (Reg.VPL.CTL.EN 15) true).vplWanted 15 = true ∧
    ((vlink 0 VplSt.init []).vplAt 15).wanted = false ∧
    (vlink 3 { VplSt.init with wanted := true } []).vplWanted 15 = false ∧
    ((vlink 3 { VplSt.init with wanted := true } []).vplAt 15).wanted = true ∧
    (vlink 1 VplSt.init []).rd (Reg.VPL.STATUS.STATE 15) = 1 ∧
    (vlink 2 VplSt.init []).rd (Reg.VPL.STATUS.STATE 15) = 2 ∧
    (vlink 4 VplSt.init []).rd (Reg.VPL.STATUS.STATE 15) = 4 ∧
    (vlink 5 VplSt.init []).rd (Reg.VPL.STATUS.STATE 15) = 5 ∧
    (vlink 6 VplSt.init []).rd (Reg.VPL.STATUS.STATE 15) ≠ 1 ∧
    (vlink 6 VplSt.init []).rd (Reg.VPL.STATUS.STATE 15) ≠ 5 ∧ Calm (vlink 5 VplSt.init []) := by
  simp only [calm_iff]
  decide

/-- A sounding under RunID 8: eight of ten sounds heard, seven of them good. -/
def sounding : VplSt := { VplSt.init with runId := some 8, numSounds := 10, window := true, heard := 8, good := 7 }

/-- WAITING, SOUNDING and MATCHING with the RunID held and another, the window open and shut, the last sound and one
before it, a good one and none. -/
theorem witness_VehicleLinksPair_Sounding :
    Calm (vlink 3 sounding []) ∧ (vlink 2 VplSt.init []).rd (Reg.VPL.STATUS.STATE 15) = 2 ∧
    (vlink 3 sounding []).rd (Reg.VPL.STATUS.STATE 15) = 3 ∧
    ((vlink 3 sounding []).vplAt 15).runId = some 8 ∧
    ((vlink 3 sounding []).vplAt 15).runId ≠ some 9 ∧
    ((vlink 3 sounding []).vplAt 15).window = true ∧
    ((vlink 3 { sounding with window := false } []).vplAt 15).window = false ∧
    sounding.heard + 1 < sounding.numSounds ∧
    { sounding with heard := 9 }.numSounds ≤ { sounding with heard := 9 }.heard + 1 ∧
    1 ≤ sounding.good ∧ { sounding with good := 0 }.good = 0 ∧
    (vlink 4 sounding []).rd (Reg.VPL.STATUS.STATE 15) = 4 ∧ Calm (vlink 4 sounding []) ∧
    (vlink 7 sounding []).rd (Reg.VPL.STATUS.STATE 15) > 6 := by
  simp only [calm_iff]
  decide

/-- MATCHED and LINKED, a silence at LINK_T and below it, a buffer with its last place free and full, retries below
the limit and at it. -/
theorem witness_VehicleLinkCarriesFrames_Frames :
    Calm (vlink 5 sounding []) ∧ (vlink 5 sounding []).rd (Reg.VPL.STATUS.STATE 15) = 5 ∧
    (vlink 6 sounding []).rd (Reg.VPL.STATUS.STATE 15) = 6 ∧
    (vlink 4 sounding []).rd (Reg.VPL.STATUS.STATE 15) ≠ 5 ∧ (vlink 4 sounding []).rd (Reg.VPL.STATUS.STATE 15) ≠ 6 ∧
    100 * (vlink 6 sounding [(Reg.VPL.CFG2.LINK_T, 10)]).rd Reg.VPL.CFG2.LINK_T ≤ 1000 ∧
    999 < 100 * (vlink 6 sounding [(Reg.VPL.CFG2.LINK_T, 10)]).rd Reg.VPL.CFG2.LINK_T ∧
    (vlink 6 sounding []).mode ≠ 8 ∧ (vlink 6 sounding []).mode ≠ 9 ∧
    (vlink 6 sounding [(Reg.MODE.STATUS.MODE, 8)]).mode = 8 ∧
    (vlink 6 sounding [(Reg.MODE.STATUS.MODE, 9)]).mode = 9 ∧
    { VplSt.init with buf := List.replicate 31 [] }.buf.length < 32 ∧
    32 ≤ { VplSt.init with buf := List.replicate 32 [] }.buf.length ∧
    Calm (vlink 6 sounding [(Reg.MODE.STATUS.MODE, 9)]) ∧
    (∀ j ∈ 0 :: [], mapGet (fun _ => 0) ((0 :: []).foldl (fun m k => mapSet (fun _ => 0) m k (mapGet (fun _ => 0) m k + 1)) ([] : SMap Nat)) j < (vlink 6 sounding [(Reg.VPL.CFG2.RETRY, 2)]).rd Reg.VPL.CFG2.RETRY) ∧
    (∃ j ∈ 0 :: [], (vlink 6 sounding [(Reg.VPL.CFG2.RETRY, 1)]).rd Reg.VPL.CFG2.RETRY ≤ mapGet (fun _ => 0) ((0 :: []).foldl (fun m k => mapSet (fun _ => 0) m k (mapGet (fun _ => 0) m k + 1)) ([] : SMap Nat)) j) := by
  simp only [calm_iff]
  decide

/-- `base` with transforms that wait and that run. -/
def ffts (waiting busy : List (Nat × Nat)) : State := { base with fft := ⟨waiting, busy⟩ }

/-- A requester with a transform outstanding and without, one at 23.4 µs and one beyond. -/
theorem witness_VehicleLinkCarriesFrames_Transforms :
    Calm (ffts [(0, 16)] []) ∧
    (∃ x ∈ (ffts [(0, 16)] []).fft.waiting ++ (ffts [(0, 16)] []).fft.busy, x.2 = (16 : Fin 17).val) ∧
    (∀ x ∈ (ffts [(0, 15)] []).fft.waiting ++ (ffts [(0, 15)] []).fft.busy, x.2 ≠ (16 : Fin 17).val) ∧
    (∃ x ∈ (ffts [] [(0, 16)]).fft.busy, x.2 = (16 : Fin 17).val) ∧
    (∀ x ∈ (ffts [(0, 16)] []).fft.busy, x.2 ≠ (16 : Fin 17).val) ∧
    (∃ x ∈ (ffts [(0, 16)] []).fft.waiting ++ (ffts [(0, 16)] []).fft.busy, x.2 = (16 : Fin 17).val ∧ x.1 + 234 < 235) ∧
    Opens 0x7101 (ffts [(0, 16)] []) ∧
    (∀ x ∈ (ffts [(0, 16)] []).fft.waiting ++ (ffts [(0, 16)] []).fft.busy, x.2 = (16 : Fin 17).val → 234 ≤ x.1 + 234) := by
  simp only [calm_iff, opens_iff]
  decide

/-! ### Witnesses: backbone -/

/-- `base` as a backbone node of a role, with its hidden state. -/
def node (role : Nat) (b : BbnSt) (l : List (Fld × Nat)) : State :=
  (st ([(Reg.BBN.STATUS.ROLE, role), (Reg.BBN.NODE.NODE, 5)] ++ l)).mapBbn fun _ => b

/-- A node that may transmit. -/
def live : BbnSt := { BbnSt.init with silent := false }

/-- A frame control to node 5 of domain 0 from node `src` with FT and FSEQ, its CRC computed. -/
def fcTo5 (ft src seq : Nat) : Nat :=
  let v := ft * 2 ^ 92 + src * 2 ^ 72 + 5 * 2 ^ 60 + seq * 2 ^ 40
  v + crc16 (beBytes 10 (v / 2 ^ 16))

/-- Members, coordinators and nodes without a role; the time source enabled; a frame control that the node takes and
one that it does not; both verdicts of a duel; a relay named and not. -/
theorem witness_BackboneCyclesAndAdmission_Time :
    (node 3 live []).running = true ∧
    (node 3 live [(Reg.BBN.STATUS.SYNC, 1)]).bit Reg.BBN.STATUS.SYNC = true ∧
    (node 3 live []).role = 3 ∧ (node 3 live []).bit Reg.BBN.STATUS.TIME_INVALID = false ∧
    (node 3 live [(Reg.RTC.CFG.SRC_EN, 1)]).flag Reg.RTC.CFG.SRC_EN 0 = true ∧
    (node 4 live []).role ≠ 3 ∧ (node 4 BbnSt.init []).bbn.silent = true ∧
    (node 4 live []).role = 4 ∧ (node 4 live []).bbn.silent = false ∧ (node 0 live []).role = 0 ∧
    (node 1 live []).fcOk 0 1 = false ∧ (List.replicate 233 (0 : Byte)).length = 233 ∧
    (node 4 live []).coordPri < 1 ∨ (node 4 live []).coordPri = 1 ∧ 0 < (node 4 live []).ownLong ∧
    (node 1 live []).role = 1 ∧ (node 2 live []).role = 2 ∧
    ((node 3 { live with relays := [4, 5] } []).bbn.relays.findIdx? fun n => n = (node 3 { live with relays := [4, 5] } []).bbnNode) = some 1 ∧
    ((node 3 live []).bbn.relays.findIdx? fun n => n = (node 3 live []).bbnNode) = none ∧
    (beBytes 2 0x1000 ++ List.replicate 22 0).length = 24 ∧
    beAt (beBytes 2 0x1000 ++ List.replicate 22 0) 0 2 / 4096 = 1 ∧ ([] : List Byte).length ≠ 24 ∧
    (node 3 live []).nek 0 = [] ∧ (node 3 { live with neks := [(0, [1])] } []).nek 0 ≠ [] := by decide +kernel

/-- A frame control whose CRC holds. -/
theorem witness_BackboneCyclesAndAdmission_Crc :
    (node 3 live []).fcOk 0 (fcTo5 0 1 4) = true := by decide +kernel

/-- A synchronised node with a DAK in slot 0 and one window to wait. -/
def joining : State :=
  (node 2 { live with join := some ⟨1, false, 0, 1, [], 0, [], []⟩ } []).setSlot 0 { KeySlot.empty with kind := 3, attr := 64, material := [7] }

/-- A joiner that waits, that has asked for less than four windows and for four, and that asks now; a coordinator with
an admission under way; a join request that is passed on and one that is new. The tags and openings rest on opaque
constants. -/
theorem witness_BackboneCyclesAndAdmission_Admission :
    joining.running = true ∧ joining.dak = some [7] ∧ (node 2 live []).bbn.join = none ∧
    joining.bbn.join = some ⟨1, false, 0, 1, [], 0, [], []⟩ ∧ joining.role = 2 ∧
    joining.bbn.silent = false ∧
    ({ joining with bbn := { joining.bbn with join := some ⟨1, true, 3, 0, [], 0, [], []⟩ } } : State).bbn.join = some ⟨1, true, 3, 0, [], 0, [], []⟩ ∧
    (⟨1, true, 4, 0, [], 0, [], []⟩ : BbnJoin).wait = 0 ∧ (⟨1, true, 4, 0, [], 0, [], []⟩ : BbnJoin).asked = true ∧ 4 ≤ (⟨1, true, 4, 0, [], 0, [], []⟩ : BbnJoin).windows ∧
    (⟨1, false, 0, 0, [1], 0, [], [2]⟩ : BbnJoin).asked = false ∧
    (⟨1, false, 0, 0, [1], 0, [], [2]⟩ : BbnJoin).priv.isEmpty = false ∧
    (⟨1, false, 0, 0, [1], 0, [], [2]⟩ : BbnJoin).kek.isEmpty = false ∧
    (beBytes 2 0x3000 ++ List.replicate 22 0).length = 24 ∧
    beAt (beBytes 2 0x3000 ++ List.replicate 22 0) 0 2 = 3 * 4096 ∧
    beAt (beBytes 2 0x3000 ++ List.replicate 7 0 ++ beBytes 2 5 ++ List.replicate 13 0) 9 2 = (node 3 live []).bbnNode ∧
    (∀ x ∈ live.ignored, x.1 ≠ 9) ∧ (∀ x ∈ live.requests, x.1 ≠ 9) ∧
    (node 4 live []).bbn.adm = none ∧
    (node 4 { live with adm := some ⟨9, 1, [], [3], []⟩ } []).bbn.adm = some ⟨9, 1, [], [3], []⟩ ∧
    (⟨9, 1, [], [3], []⟩ : BbnAdm).priv.isEmpty = false ∧ (node 4 live []).nodeFor 9 ≠ 0 := by decide +kernel

/-- A member of safety group 0 that sends its message on the backbone (`eth` 0) or on ETH[1] (`eth` 1). -/
def group (role eth : Nat) (b : BbnSt) : State :=
  (withSection 7 (bytesAt 0x20 [(3, BitVec.ofNat 8 eth), (0x11, 0)]) (node role b [(Reg.SAF.STATUS.RUN, 1), (Reg.BBN.TX.PATHS, 7)])).setSlot 0
    { KeySlot.empty with kind := 3, attr := 2, material := [7] }

/-- A unit without a group and one with it, on either channel; slots of other nodes in the list, its end, and the own
one; frames that are missing, wrong and right in form. -/
theorem witness_BackboneSafetyCoordinatorsAndKeys_Slots :
    base.sec 7 = [] ∧ base.running = true ∧ (group 3 0 { live with safety := [5, 6] }).sec 7 ≠ [] ∧
    (group 3 0 { live with safety := [5, 6] }).cfg 7 0x11 1 ≠ 0xFF ∧
    (group 3 0 { live with safety := [5, 6] }).bit Reg.SAF.STATUS.RUN = true ∧
    (group 3 0 { live with safety := [5, 6] }).cfg 7 3 1 % 2 = 0 ∧
    (group 3 0 { live with safety := [5, 6] }).joined = true ∧
    (group 3 0 { live with safety := [5, 6] }).bbnSends = true ∧
    (group 3 0 { live with safety := [5, 6] }).bbn.unheard < 2 ∧
    (group 3 0 { live with safety := [5, 6] }).bbn.safety.getD 0 0 = (group 3 0 { live with safety := [5, 6] }).bbnNode ∧
    (group 2 1 live).cfg 7 3 1 % 2 = 1 ∧
    (group 2 1 live).slotHas ((group 2 1 live).cfg 7 0x10 1) 1 = true ∧
    (group 2 1 live).joined = false ∧
    (group 3 0 { live with safety := [5, 6] }).bbn.safety.contains (group 3 0 { live with safety := [5, 6] }).bbnNode = true ∧
    (1 : Fin 64).val < ([5, 6] : List Nat).length ∧
    (group 3 0 { live with safety := [5, 6] }).bbn.safety.getD 1 0 ≠ (group 3 0 { live with safety := [5, 6] }).bbnNode ∧
    ([5, 6] : List Nat).length ≤ (2 : Fin 64).val ∧
    (beBytes 2 0x2000 ++ List.replicate 22 0).length = 24 ∧
    beAt (beBytes 2 0x2000 ++ List.replicate 22 0) 0 2 / 4096 = 2 ∧
    beAt (beBytes 2 0x3000 ++ List.replicate 22 0) 0 2 / 4096 ≠ 2 ∧
    ([0x5A] ++ List.replicate 45 (0 : Byte)).length = 46 ∧
    leAt ([0x5A] ++ List.replicate 45 (0 : Byte)) 0 1 = 0x5A ∧
    leAt ([0x5A] ++ List.replicate 45 (0 : Byte)) 1 1 = (group 2 1 live).domain ∧
    ([] : List Byte).length ≠ 46 := by decide

/-- A listening node with a takeover that waits and without, a period long enough for polls, and each role that a
clause names. -/
theorem witness_BackboneSafetyCoordinatorsAndKeys_Roles :
    (node 1 live []).role = 1 ∧ (node 1 live []).bbn.takeover = none ∧
    (node 1 live []).bbn.silent = false ∧ (node 2 live []).role ≠ 1 ∧
    (node 1 { live with takeover := some 3 } []).bbn.takeover.isSome = true ∧
    (withSection 10 [0, 1] (node 1 live [(Reg.BBN.CFG.CYCLE, 18)])).polledPeriod ((withSection 10 [0, 1] (node 1 live [(Reg.BBN.CFG.CYCLE, 18)])).rd Reg.BBN.CFG.CYCLE) ((withSection 10 [0, 1] (node 1 live [(Reg.BBN.CFG.CYCLE, 18)])).cfg 10 0x1A 1) ((withSection 10 [0, 1] (node 1 live [(Reg.BBN.CFG.CYCLE, 18)])).cfg 10 0x19 1) ≥ 120000 ∧
    (withSection 10 [0, 1] (node 1 live [])).coordPri ≠ 0 ∧ (node 3 live []).coordPri = 0 ∧
    (node 3 live []).role = 3 ∧ (node 4 live []).role = 4 ∧ (node 3 live []).role ≠ 4 := by decide +kernel

/-- Fifteen and sixteen frames in an interval, with many failed blocks and with none; indices of a tone map at the
border. -/
theorem witness_BackboneRoutesAndPolls_Maps :
    (node 3 live []).joined = true ∧ (node 2 live []).joined = false ∧
    (mapGet (fun _ => (0, 0, 0)) ((setBbnLink 6 { BbnLink.init with since := [(5, 15, 100, 0)] } (node 3 live [])).bbnLink 6).since 5).1 < 16 ∧
    16 ≤ (mapGet (fun _ => (0, 0, 0)) ((setBbnLink 6 { BbnLink.init with since := [(5, 16, 100, 11)] } (node 3 live [])).bbnLink 6).since 5).1 ∧
    (16, 100, 11).2.1 < 10 * (16, 100, 11).2.2 ∧ (⟨5, 0, 256, 0, 0, []⟩ : ToneMap).idx < 6 ∧
    6 ≤ (⟨6, 0, 256, 0, 0, []⟩ : ToneMap).idx ∧ (node 3 live []).role ≠ 4 ∧
    (node 4 live []).role = 4 := by decide

/-- A poll of node 5 by way of node 6, the node at a place of the route, with block 0 sent. -/
def polled (pos tries : Nat) : BbnPoll := ⟨1, [6, 5], pos, 1, false, false, some 4, 6, [(0, [])], tries, [], none, 0, [], none⟩

/-- A coordinator that may transmit, a poll under way at the coordinator and at a member, a frame sent and repeated,
blocks that failed, the ends of the route. -/
theorem witness_BackboneRoutesAndPolls_Polls :
    (node 3 live []).role ≠ 4 ∧ (node 4 live []).bbn.silent = false ∧ (node 1 live []).role < 2 ∧
    (List.replicate 47 (0 : Byte)).length ≠ 48 ∧ (node 3 live []).bbn.poll = none ∧
    (node 3 { live with poll := some (polled 1 0) } []).bbn.poll = some (polled 1 0) ∧
    (node 4 { live with poll := some (polled 0 0) } []).bbn.poll = some (polled 0 0) ∧
    (polled 1 0).pos ≠ 0 ∧ (polled 0 0).pos = 0 ∧ (polled 1 3).tries = 3 ∧
    (polled 1 0).repeated = false ∧ { polled 1 0 with repeated := true }.repeated = true ∧
    { polled 1 0 with last := some ⟨1, 1, 5, 0, 0, false, false, 0, []⟩ }.last = some ⟨1, 1, 5, 0, 0, false, false, 0, []⟩ ∧
    (polled 1 0).rxSeq ≠ some 0 ∧ { polled 1 0 with rxSeq := some 4 }.rxSeq = some 4 ∧
    1 ≤ 1 ∧ 1 ≤ (polled 0 0).route.length ∧
    (polled 1 0).out.filter (fun x => Nat.testBit 0 (16 + x.1)) = [] ∧
    (polled 1 0).out.filter (fun x => Nat.testBit (2 ^ 16) (16 + x.1)) ≠ [] ∧
    (polled 1 0).tries < (node 3 live [(Reg.BBN.CFG.RETX_MAX, 1)]).rd Reg.BBN.CFG.RETX_MAX ∧
    (node 3 live []).bbnNode ≠ 0 := by decide

/-- Frame controls of every type to the node, from the node before and after it, and a POLL body whose CRC holds. -/
theorem witness_BackboneRoutesAndPolls_Crc :
    (node 3 live []).fcOk 1 (fcTo5 1 6 4) = true ∧ fcDst (fcTo5 1 6 4) = (node 3 live []).bbnNode ∧
    (node 3 live []).fcOk 2 (fcTo5 2 6 4) = true ∧ (node 3 live []).fcOk 3 (fcTo5 3 5 4) = true ∧
    (node 3 live []).fcOk 4 (fcTo5 4 6 4) = true ∧ fcSrc (fcTo5 2 6 4) = (polled 2 0).at 1 ∧
    fcSrc (fcTo5 3 5 4) = (polled 1 0).at 2 ∧ fcSrc (fcTo5 4 6 4) = (polled 1 0).awaitFrom ∧
    bitsOf (fcTo5 4 6 4) 51 40 = 4 ∧
    crc32 ((List.replicate 44 (0 : Byte) ++ beBytes 4 (crc32 (List.replicate 44 0))).take 44) = beAt (List.replicate 44 (0 : Byte) ++ beBytes 4 (crc32 (List.replicate 44 0))) 44 4 := by decide +kernel

/-- An open vote of nodes 6 and 7, node 7 ready. -/
def vote : BbnVote := ⟨65535, 0, 0, 0, [6, 7], [7], none, 0, 1, none⟩

/-- A call with 64 cycles between its times and with one nanosecond less; a vote open with a member that has not
answered, and with all ready. -/
theorem witness_BackboneVotes :
    (node 3 live []).running = true ∧ (node 3 live []).role = 3 ∧
    (node 2 live []).role ≠ 3 ∧ (node 2 live []).role ≠ 4 ∧
    0 + 64 * (node 4 live [(Reg.BBN.CFG.CYCLE, 8)]).rd Reg.BBN.CFG.CYCLE * 1000000 ≤ 512000000 ∧
    511999999 < 0 + 64 * (node 4 live [(Reg.BBN.CFG.CYCLE, 8)]).rd Reg.BBN.CFG.CYCLE * 1000000 ∧
    (node 4 live []).bbn.vote = none ∧
    (node 4 { live with vote := some vote } []).bbn.vote = some vote ∧ vote.outcome = 0 ∧
    (6 : Fin 4096).val ∈ vote.named ∧ (6 : Fin 4096).val ∉ vote.ready ∧
    (∃ n ∈ vote.named, n ∉ vote.ready) ∧
    (∀ n ∈ { vote with ready := [6, 7] }.named, n ∈ { vote with ready := [6, 7] }.ready) := by decide

/-! ### Witnesses: safety -/

/-- `base` with function 23 of type `ty` on SI[0] and SI[1], reset SI[2], category 1, LSE[0] in its mask, and SAF
running. -/
def fn23 (ty : Byte) (x : FnSt) : State :=
  let s := withSection 7 (bytesAt 0x220 [(0x210, ty), (0x211, 1), (0x213, 1), (0x216, 2), (0x217, 4), (0x218, 1), (0x21A, 1)])
    (st [(Reg.SAF.STATUS.RUN, 1)])
  { s with saf := { s.saf with cur := { s.saf.cur with fn := [(23, x)] }, kpr := { s.saf.kpr with fn := [(23, x)] } } }

/-- A function in each state, a two-hand function with its timer at its last sample. -/
theorem witness_SafetyFunctionsAndHalves_Steps :
    (∀ k < 4, ({ FnSt.init with st := k } : FnSt).st ≤ 3) ∧
    ({ FnSt.init with st := 3 } : FnSt).st = 3 ∧
    ({ FnSt.init with st := 0, both := true } : FnSt).both = true ∧
    ({ FnSt.init with st := 0, both := false } : FnSt).both = false ∧
    ({ FnSt.init with st := 0, sync := 1 } : FnSt).sync = 1 ∧
    permClass ((st [(Reg.MODE.STATUS.MODE, 4)]).actMode .curator) = 3 ∧
    (fn23 1 FnSt.init).fnMasks 23 0 = true ∧ (fn23 1 FnSt.init).fnType 23 ≠ 4 ∧
    (withSection 7 (bytesAt 0x220 [(0x210, 1), (0x21A, 1)]) base).fnFlag 23 2 = false ∧
    ((base.half .curator).fnAt 23).st ≠ 2 ∧ base.mayRelease .curator = false := by decide +kernel

/-- `base` at operating second 86,404 with the halves' last fault at second `t`. -/
def halved (t : Nat) : State :=
  let s := st [(Reg.PWR.OPSEC.SECONDS, 86404)]
  { s with cat := { s.cat with halvesOpsec := some t } }

/-- Functions that run and do not, a count at the limit and above, a pair already faulted, a frame that is valid by
form, one exchange that disagreed and two, and the day since the last fault at its end. -/
theorem witness_SafetyFunctionsAndHalves_Halves :
    base.running = true ∧ base.bit Reg.SAF.STATUS.RUN = false ∧
    (fn23 1 FnSt.init).bit Reg.SAF.STATUS.RUN = true ∧
    (decide ((fn23 1 FnSt.init).discLimit 23 < 20) && !false) = false ∧
    (decide ((fn23 1 FnSt.init).discLimit 23 < 21) && !false) = true ∧
    (decide ((fn23 1 FnSt.init).discLimit 23 < 21) && !true) = false ∧
    (fn23 1 FnSt.init).fnPaired 23 = true ∧ base.fnPaired 23 = false ∧
    (fn23 1 FnSt.init).fnType 23 ≠ 0 ∧ frameValid none 0 = false ∧ base.saf.cur.disagree < 2 ∧
    base.causePresent (0xB401, 0) = false ∧
    (setCause 0xB401 0 true base).causePresent (0xB401, 0) = true ∧
    2 ≤ ({ base.saf.kpr with disagree := 2 } : HalfSt).disagree ∧
    (halved 5).cat.halvesOpsec = some 5 ∧ (halved 5).rd Reg.PWR.OPSEC.SECONDS < 5 + 86400 ∧
    (∀ t, base.cat.halvesOpsec = some t → t + 86400 ≤ base.rd Reg.PWR.OPSEC.SECONDS) ∧
    4 + 86400 ≤ (halved 4).rd Reg.PWR.OPSEC.SECONDS := by decide +kernel

/-- A frame that is valid. -/
theorem witness_SafetyFunctionsAndHalves_Crc :
    frameValid (some 15) ((0xA * 2 ^ 60) + crc6 ((0xA * 2 ^ 60) / 64)) = true := by decide +kernel

/-- A test that is due and may run, one that may not; a reset input stuck and not, times at both ends; a timer that
runs and one that does not; a delay over and functions out of RUN. -/
theorem witness_SafetyTestsRemotesAndSeal_Tests :
    base.modeWrites = true ∧ 1 ≤ base.level .host ∧ base.running = true ∧ base.testRuns 15 = false ∧
    ({ base with saf := { base.saf with testDue := 2 ^ 15 } } : State).testRuns 15 = true ∧
    Nat.testBit ({ base.saf with stuck := 2 ^ 47 } : SafSt).stuck 47 = true ∧
    Nat.testBit base.saf.stuck 47 = false ∧ ¬ (99 ≥ 100) ∧ 100 ≤ 3000 ∧ 3000 < 3001 ∧
    (fn23 1 FnSt.init).fnType 23 ≠ 0 ∧ (fn23 1 FnSt.init).fnCfg 23 6 1 = 2 ∧
    (fn23 4 FnSt.init).fnType 23 = 4 ∧
    ((fn23 4 { FnSt.init with sync := 1 }).saf.cur.fnAt 23).sync = 1 ∧
    ((fn23 4 FnSt.init).saf.cur.fnAt 23).sync ≠ 1 ∧ base.fnType 23 = 0 ∧
    (fn23 1 FnSt.init).fnFlag 23 2 = true ∧ ((fn23 1 FnSt.init).saf.kpr.fnAt 23).st ≠ 2 := by decide +kernel

/-- COMMISSIONING with the safety seal open and a block whose CRC is all ones. -/
def confirming : State := st [(Reg.MODE.STATUS.MODE, 4), (Reg.SAF.STATUS.SEAL_OPEN, 1), (Reg.SAF.SPB_CRC.VALUE, 0xFFFFFFFF)]

/-- Seven misses and eight, a channel single and not, a sender alive and silent, a seal that stays and that changes,
and each case of a confirmation. -/
theorem witness_SafetyTestsRemotesAndSeal_Remotes :
    RemSt.init.missB < 8 ∧ 8 ≤ ({ RemSt.init with missB := 8 } : RemSt).missB ∧
    RemSt.init.single = false ∧ ({ RemSt.init with single := true } : RemSt).single = true ∧
    RemSt.init.alive = false ∧ ({ RemSt.init with alive := true } : RemSt).alive = true ∧
    base.bit Reg.SAF.STATUS.SEAL_OPEN = (!true && false) ∧
    base.bit Reg.SAF.STATUS.SEAL_INVALID = decide (true = false) ∧
    base.bit Reg.SAF.STATUS.SEAL_OPEN ≠ (!false && true) ∧
    ¬ (base.mode = 4 ∧ base.bit Reg.SAF.STATUS.SEAL_OPEN = true) ∧ confirming.mode = 4 ∧
    confirming.bit Reg.SAF.STATUS.SEAL_OPEN = true ∧ confirming.modeWrites = true ∧
    0 ≠ confirming.rd Reg.SAF.SPB_CRC.VALUE ∧ 0xFFFFFFFF = confirming.rd Reg.SAF.SPB_CRC.VALUE ∧
    0xFFFFFFFF < 2 ^ 32 ∧ confirming.cat.commission ≠ some (0xFFFFFFFF, true) ∧
    ({ confirming with cat := { confirming.cat with commission := some (0xFFFFFFFF, true) } } : State).cat.commission = some (0xFFFFFFFF, true) := by decide

/-! ### Witnesses: contactless, tamper, legal area, keys, update -/

/-- A unit without any supply. -/
def unpowered : State := { base with sys := { base.sys with unpowered := true } }

/-- `base` with the reader running in a state, Type A and Type B enabled. -/
def reader (state : Nat) (l : List (Fld × Nat)) : State :=
  withSection 0xB [6] (st ([(Reg.NFC.CTL.EN, 1), (Reg.CLK.GATE.NFC, 1), (Reg.NFC.STATUS.STATE, state)] ++ l))

/-- `base` with the tag live in a field, in a state. -/
def tag (state : Nat) (l : List (Fld × Nat)) : State :=
  st ([(Reg.TAG.STATUS.EN, 1), (Reg.TAG.STATUS.FIELD, 1), (Reg.TAG.STATUS.STATE, state)] ++ l)

/-- A reader that does not run and one in each state; a first ping, one that moves far enough for the first and the
second time, one that does not; rounds with a card and none; the ninth and tenth false wake; a queue with a command
and an empty one. -/
theorem witness_ReaderAndTagStates_Reader :
    base.nfcRuns = false ∧ (reader 1 []).nfcRuns = true ∧
    (reader 1 []).rd Reg.NFC.STATUS.STATE = 1 ∧ (reader 1 []).nfc.base = none ∧
    ((reader 1 []).mapNfc fun x => { x with base := some (100, 0) }).nfc.base = some (100, 0) ∧
    ((reader 1 [(Reg.NFC.DET_CFG.WAKE_AMP, 5)]).rd Reg.NFC.DET_CFG.WAKE_AMP : Rat) ≤ ratAbs ((105 : Int) - 100) ∧
    ¬ (((reader 1 [(Reg.NFC.DET_CFG.WAKE_AMP, 5), (Reg.NFC.DET_CFG.WAKE_PH, 5)]).rd Reg.NFC.DET_CFG.WAKE_AMP : Rat) ≤ ratAbs ((104 : Int) - 100) ∨ ((reader 1 [(Reg.NFC.DET_CFG.WAKE_PH, 5)]).rd Reg.NFC.DET_CFG.WAKE_PH : Rat) ≤ ratAbs ((0 : Int) - 0)) ∧
    (reader 1 []).nfc.wakes = 0 ∧
    ((reader 1 []).mapNfc fun x => { x with wakes := 1 }).nfc.wakes ≠ 0 ∧
    (reader 2 []).rd Reg.NFC.STATUS.STATE = 2 ∧
    ((([⟨[], [[1]], none⟩] : List PollRound).take 3).map (reader 2 []).pollList).find? (fun l => !l.isEmpty) = some [(true, [1])] ∧
    (((List.replicate 3 ⟨[], [], none⟩ : List PollRound).take 3).map (reader 2 []).pollList).find? (fun l => !l.isEmpty) = none ∧
    (0 :: (List.replicate 8 0).filter (fun t => decide (0 < t + 60))).length < 10 ∧
    10 ≤ (0 :: (List.replicate 9 0).filter (fun t => decide (0 < t + 60))).length ∧
    (reader 3 []).rd Reg.NFC.STATUS.STATE = 3 ∧ takeHead 11 (reader 3 []) = none ∧
    (takeHead 11 ((reader 3 []).setQ 11 ⟨[⟨[1], 0⟩], none, []⟩)).isSome = true ∧
    (reader 3 []).modeWrites = true := by decide +kernel

/-- A tag without a field, in each state, and one that is not enabled. -/
theorem witness_ReaderAndTagStates_Tag :
    base.tagLive = false ∧ base.bit Reg.TAG.STATUS.FIELD = false ∧ (tag 1 []).tagLive = true ∧
    (tag 1 []).bit Reg.TAG.STATUS.FIELD = true ∧ base.aon = true ∧ (tag 0 []).tagSt = 0 ∧
    (tag 1 []).tagSt = 1 ∧ (tag 5 []).tagSt = 5 ∧
    ¬ ((tag 5 []).tagSt = 1 ∨ (tag 5 []).tagSt = 5 ∧ false = true) ∧ (tag 2 []).tagSt = 2 ∧
    ([] : List Byte) ≠ tagUid ∧ (tag 3 []).tagSt = 3 ∧ (tag 4 []).tagSt = 4 ∧ (tag 1 []).tagSt ≠ 2 := by decide

/-- The last chunk of a page and the one beyond; pages that the level permits and not, for both directions; a password
set, right and wrong; lockout; a key and none; seven failures and eight. -/
theorem witness_TagAnswersAndSnapshots_Answers :
    (tag 3 []).tagLive = true ∧ (tag 4 []).tagSt = 4 ∧ 8 ≤ (8 : Fin 256).val ∧
    (7 : Fin 256).val < 8 ∧ (tag 3 []).pageOk 255 true = false ∧ (tag 3 []).pageOk 0 false = true ∧
    (tag 3 [(Reg.TAG.STATUS.LEVEL, 3)]).pageOk 3 false = true ∧
    (tag 3 [(Reg.TAG.STATUS.MAPPED, 1)]).bit Reg.TAG.STATUS.MAPPED = true ∧
    (List.replicate 32 (0 : Byte)).length = 32 ∧
    (tag 3 [(Reg.TAG.STATUS.LOCKED, 1)]).bit Reg.TAG.STATUS.LOCKED = true ∧
    (tag 3 []).bit Reg.TAG.STATUS.LOCKED = false ∧ (tag 3 []).nfc.tagPwd = 0 ∧
    ((tag 3 []).mapNfc fun x => { x with tagPwd := 0xFFFFFFFF }).nfc.tagPwd ≠ 0 ∧
    (0xFFFFFFFF : Word).toNat = ((tag 3 []).mapNfc fun x => { x with tagPwd := 0xFFFFFFFF }).nfc.tagPwd ∧
    (0 : Word).toNat ≠ ((tag 3 []).mapNfc fun x => { x with tagPwd := 0xFFFFFFFF }).nfc.tagPwd ∧
    (1 : Fin 256).val < 2 ∧ 2 ≤ (2 : Fin 256).val ∧ (List.replicate 16 (0 : Byte)).length = 16 ∧
    (tag 3 []).tagKey 1 = [] ∧
    ((tag 3 []).mapNfc fun x => { x with tagKeys := [(1, [9])] }).tagKey 1 ≠ [] ∧
    (tag 3 []).nfc.chal = none ∧
    ((tag 3 []).mapNfc fun x => { x with chal := some (1, [1], [2]) }).nfc.chal = some (1, [1], [2]) ∧
    min 8 ((tag 3 [(Reg.TAG.STATUS.AUTH_FAILS, 6)]).rd Reg.TAG.STATUS.AUTH_FAILS + 1) < 8 ∧
    min 8 ((tag 3 [(Reg.TAG.STATUS.AUTH_FAILS, 8)]).rd Reg.TAG.STATUS.AUTH_FAILS + 1) = 8 ∧
    (tag 3 []).dormant = false := by decide +kernel

/-- The ends of the pages, and a session without the level. -/
theorem witness_TagAnswersAndSnapshots_Wired :
    3 ≤ (st [(Reg.MODE.STATUS.MODE, 3)]).mode ∧ (st [(Reg.MODE.STATUS.MODE, 3)]).running = true ∧
    (st [(Reg.MODE.STATUS.MODE, 2)]).mode < 3 ∧ base.modeWrites = true ∧
    (st [(Reg.TAG.PAGE.PAGE, 254)]).rd Reg.TAG.PAGE.PAGE ≤ 254 ∧
    254 < (st [(Reg.TAG.PAGE.PAGE, 255)]).rd Reg.TAG.PAGE.PAGE ∧
    16 ≤ (st [(Reg.TAG.PAGE.PAGE, 16)]).rd Reg.TAG.PAGE.PAGE ∧
    (st [(Reg.TAG.PAGE.PAGE, 15)]).rd Reg.TAG.PAGE.PAGE < 16 ∧
    (st [(Reg.HP.STATUS.LEVEL, 0)]).level .host < 1 := by decide

/-- A loop that is not enabled, one that stays and one that changes, in a running mode and in DORMANT with the last
place of the FIFO free and taken; seven and eight missed pulses; a battery window that counts. -/
theorem witness_TamperIsSeenAndRecorded :
    base.flag Reg.TMP.CFG.EN 3 = false ∧ base.flag Reg.TMP.STATUS.OPEN 3 = false ∧
    (st [(Reg.TMP.CFG.EN, 15)]).flag Reg.TMP.CFG.EN 3 = true ∧ base.aon = true ∧
    unpowered.aon = false ∧ (st [(Reg.TMP.CFG.EN, 15)]).flag Reg.TMP.STATUS.OPEN 3 ≠ true ∧
    base.mode ≠ 0 ∧ (st [(Reg.MODE.STATUS.MODE, 0)]).mode = 0 ∧
    (List.replicate 15 ((0 : Nat), true, (0 : Int))).length < 16 ∧
    16 ≤ (List.replicate 16 ((0 : Nat), true, (0 : Int))).length ∧
    mapGet (fun _ => 0) ([(3, 7)] : SMap Nat) 3 < 8 ∧
    8 ≤ mapGet (fun _ => 0) ([(3, 8)] : SMap Nat) 3 ∧ base.modeWrites = true ∧
    1 ≤ base.level .host ∧ (st [(Reg.MODE.STATUS.MODE, 0)]).dormant = true ∧ base.dormant = false ∧
    ({ base.tmp with battOn := true } : TmpSt).battOn = true ∧
    (st [(Reg.TMP.CFG.BATT_PERIOD, 5)]).rd Reg.TMP.CFG.BATT_PERIOD ≠ 0 ∧
    (st [(Reg.TMP.CFG.BATT_PERIOD, 0)]).rd Reg.TMP.CFG.BATT_PERIOD = 0 := by decide

/-- The address of a sealed register outside the channels' range. -/
def sealedOutside : Nat := (Reg.MET.MAP.CFG.TYPE 16).addr

/-- A register with sealed fields inside the channels' range and outside it, one that does not exist; COMMISSIONING
with the seal open and without; a commit refused and one that starts, one under way; a seal that stays and that
changes. -/
theorem witness_LegalCommitsAndSeal :
    findReg 3 = none ∧
    ((findReg 0x11000).map fun d => d.fields.any fun f => f.acc = .rwl) = some true ∧
    ((findReg sealedOutside).map fun d => d.fields.any fun f => f.acc = .rwl) = some true ∧
    sealedOutside < 0x11000 ∨ 0x13000 ≤ sealedOutside ∧ base.running = true ∧
    (st [(Reg.HP.STATUS.LEVEL, 0)]).level .host < 1 ∧ 1 ≤ base.level .host ∧
    ¬ (base.mode = 4 ∧ base.bit Reg.MET.SEAL.OPEN = true) ∧
    (st [(Reg.MODE.STATUS.MODE, 4), (Reg.MET.SEAL.OPEN, 1)]).mode = 4 ∧
    (st [(Reg.MODE.STATUS.MODE, 4), (Reg.MET.SEAL.OPEN, 1)]).bit Reg.MET.SEAL.OPEN = true ∧
    base.met.commit = none ∧
    ({ base.met with commit := some ([], 0) } : MetSt).commit = some ([], 0) ∧ base.mode ≠ 0 ∧
    unpowered.aon = false ∧ (st [(Reg.MODE.STATUS.MODE, 0)]).aon = true ∧
    base.met.sealLatch.getLast?.getD 0 = (0 : Fin 3).val ∧
    base.met.sealLatch.getLast?.getD 0 ≠ (2 : Fin 3).val ∧ base.bit Reg.MET.SEAL.INVALID = false ∧
    base.modeWrites = true ∧ base.bit Reg.MET.SEAL.OPEN = false := by decide

/-- The conditions of a commit from the pending registers, in their order. -/
def commitConds (s : State) : List (Nat × Bool) :=
  let set := s.proposal false
  [(1, s.bit Reg.MET.SEAL.OPEN), (2, decide (s.mode = 4)), (6, !s.bit Reg.LEGAL.STATUS.COMMITTING),
    (4, !(s.changedBlocks set).isEmpty), (3, decide ((s.changedBlocks set).length + 2 ≤ s.legalFree)),
    (5, ({ s with met := { s.met with set := set } } : State).setConsistent)]

/-- A commit that starts: the seal open, nothing in force yet, room in the legal area. -/
theorem witness_LegalCommitsAndSeal_Commit :
    (commitConds (st [(Reg.MODE.STATUS.MODE, 4), (Reg.MET.SEAL.OPEN, 1), (Reg.LEGAL.STATUS.FREE, 8192)])).find? (fun x => !x.2) = none ∧
    (commitConds base).find? (fun x => !x.2) = some (1, false) := by decide +kernel

/-- `base` in life cycle 2 with KIND and ATTR to be written, and two slots filled. -/
def keying (kind attr : Nat) : State :=
  ((st [(Reg.MODE.STATUS.LC, 2), (Reg.KEY.ATTR_ARG.KIND, kind), (Reg.KEY.ATTR_ARG.ATTR, attr), (Reg.KEY.STATUS.DRBG_OK, 1)]).setSlot 63
    { KeySlot.empty with kind := 3, attr := 32 }).setSlot 62 { KeySlot.empty with kind := 4, attr := 16 }

/-- For each command the conditions met, and for GENERATE a first one that fails. What a wrapped or signed key opens
to rests on opaque constants. -/
theorem witness_KeysAreCheckedWrittenAndUsed_Commands :
    State.reset.modeWrites = false ∧ (keying 1 1).modeWrites = true ∧
    ([(1, decide (2 ≤ (keying 1 1).level .host)), (2, (keying 1 1).lc ≠ 0 && (keying 1 1).lc ≠ 5), (4, decide (4 ≤ (3 : Fin 64).val))] : List (Nat × Bool)).find? (fun x => !x.2) = some (4, false) ∧
    2 ≤ (keying 1 1).level .host ∧ ((keying 1 1).lc ≠ 0 && (keying 1 1).lc ≠ 5) = true ∧
    4 ≤ (4 : Fin 64).val ∧
    (((1 ≤ (keying 1 1).argKind && (keying 1 1).argKind ≤ 4) || (keying 1 1).argKind = 6) && (keying 1 1).argAttr < 256 && attrOk (keying 1 1).argKind (keying 1 1).argAttr) = true ∧
    (keying 1 1).bit Reg.KEY.STATUS.DRBG_OK = true ∧ (keying 1 1).slotHas 63 5 = true ∧
    (kindPublic (keying 5 512).argKind && attrOk (keying 5 512).argKind (keying 5 512).argAttr) = true ∧
    (keying 5 512).importAttr = true ∧ (keying 1 1).slotHas 62 4 = true ∧
    ((keying 1 1).argKind ≠ 0 && attrOk (keying 1 1).argKind (keying 1 1).argAttr && (keying 1 1).importAttr) = true ∧
    4 ≤ ((keying 1 1).slot 62).kind ∧ ¬ 4 ≤ ((keying 1 1).slot 63).kind := by decide +kernel

/-- A key that is kept and one that is not, with either copy in force; an engine request and none; a pending
transition and none, with the level and without. -/
theorem witness_KeysAreCheckedWrittenAndUsed_Slots :
    KeySlot.empty.persist = false ∧
    ({ KeySlot.empty with persist := true } : KeySlot).persist = true ∧
    ({ KeyNv.empty with sel := 1 } : KeyNv).sel = 1 ∧ KeyNv.empty.sel ≠ 1 ∧ base.running = true ∧
    takeHead 13 base = none ∧ (takeHead 13 (base.setQ 13 ⟨[⟨[1], 0⟩], none, []⟩)).isSome = true ∧
    State.reset.modeWrites = false ∧ (st [(Reg.MODE.STATUS.MODE, 2)]).mode ≠ 1 ∧
    (st [(Reg.KEY.STATUS.LC_PEND, 15)]).rd Reg.KEY.STATUS.LC_PEND = 15 ∧
    (st [(Reg.KEY.STATUS.LC_PEND, 5)]).rd Reg.KEY.STATUS.LC_PEND ≠ 15 ∧
    (st [(Reg.HP.STATUS.LEVEL, 1), (Reg.KEY.STATUS.LC_PEND, 5)]).level .host < (lcLevel 3 5).getD 3 ∧
    (lcLevel 3 5).getD 3 ≤ base.level .host := by decide +kernel

/-- An engine that is not IDLE and one that is, with a colophon of the wrong form; each state that a clause names; a
policy in range and out; a set free and none; a trial and none. Whether a colophon passes every check rests on opaque
constants. -/
theorem witness_UpdatesStageArmAndConfirm :
    base.modeWrites = true ∧ 2 ≤ base.level .host ∧
    updChecks (st [(Reg.UPD.STATUS.STATE, 3)]) [] true true [1, 2, 3, 4, 5, 6, 7, 8, 9, 10, 11, 12] = 1 ∧
    1 < updChecks base [] true true [1, 2, 3, 4, 5, 6, 7, 8, 9, 10, 11, 12] ∧
    (st [(Reg.UPD.STATUS.STATE, 2)]).rd Reg.UPD.STATUS.STATE = 2 ∧
    base.rd Reg.UPD.STATUS.STATE ≠ 2 ∧
    (st [(Reg.UPD.STATUS.STATE, 3), (Reg.UPD.STATUS.POLICY, 1)]).rd Reg.UPD.STATUS.STATE = 3 ∧ (st [(Reg.UPD.STATUS.STATE, 3), (Reg.UPD.STATUS.POLICY, 1)]).rd Reg.UPD.STATUS.POLICY < 2 ∧
    ¬ (st [(Reg.UPD.STATUS.POLICY, 2)]).rd Reg.UPD.STATUS.POLICY < 2 ∧
    engineSet 3 1 0 0 allSets = none ∧ (engineSet 3 1 0 0 base).isSome = true ∧
    (st [(Reg.UPD.STATUS.STATE, 4)]).rd Reg.UPD.STATUS.STATE = 4 ∧
    base.mode = 4 ∨ base.mode = 5 ∨ base.mode = 6 ∧
    (∀ e ∈ (withTable [minor]).flt.table, e.cls < 2) ∧
    (∃ e ∈ (withTable [major]).flt.table, 2 ≤ e.cls) ∧ base.bit Reg.UPD.STATUS.TRIAL = false ∧
    (st [(Reg.UPD.STATUS.TRIAL, 1)]).bit Reg.UPD.STATUS.TRIAL = true := by decide +kernel

/-! ### Witnesses: modes, starts, boundaries -/

/-- Modes that take a request and that do not, a session of too low a level, an energising carrel, and the base modes
that an acknowledgement returns to. -/
theorem witness_ModeRequestsAnswer :
    State.reset.modeWrites = false ∧ (State.reset.running = true ∧ State.reset.mode = 1) ∧
    (st [(Reg.MODE.STATUS.MODE, 2)]).modeWrites = false ∧ ¬ ((st [(Reg.MODE.STATUS.MODE, 2)]).running = true ∧ (st [(Reg.MODE.STATUS.MODE, 2)]).mode = 1) ∧
    base.modeWrites = true ∧ base.level .host = 3 ∧
    (st [(Reg.HP.STATUS.LEVEL, 0)]).level .host < 1 ∧ base.energising = false ∧
    (carrelled (car15 3) []).energising = true ∧
    (5 : Nat) = 5 ∧ 1 ≤ (st [(Reg.MODE.STATUS.LC, 3)]).lc ∧ (st [(Reg.MODE.STATUS.LC, 3)]).lc ≤ 3 ∧
    ({ base with cat := { base.cat with commission := some (base.rd Reg.SAF.SPB_CRC.VALUE, true) } } : State).commissioned = true ∧
    ¬ (1 ≤ (st [(Reg.MODE.STATUS.LC, 4)]).lc ∧ (st [(Reg.MODE.STATUS.LC, 4)]).lc ≤ 3 ∧ base.commissioned = true) ∧
    base.running = true := by decide +kernel

/-- START_TEST with every test of the start done. -/
def tested : State :=
  let s := st [(Reg.MODE.STATUS.MODE, 2)]
  { s with sys := { s.sys with startStep := 8 } }

/-- RIDE_THROUGH entered from OPERATIONAL. -/
def riding : State :=
  let s := st [(Reg.MODE.STATUS.MODE, 9), (Reg.MODE.STATUS.PF, 1), (Reg.MET.STATUS.RUN, 1)]
  { s with sys := { s.sys with rideReturn := 5, flushing := true } }

/-- A mode with the warm-through timer running. -/
def warming (mode : Nat) : State :=
  let s := st [(Reg.MODE.STATUS.MODE, mode)]
  { s with sys := { s.sys with warmRun := true, rideReturn := 5, warmReturn := 5 } }

/-- START_TEST with its tests done; a runtime parked and not; modes 4 to 7, RIDE_THROUGH from one of them, and others;
the timer running, WARM_MAX reached and not. -/
theorem witness_WarmThroughAndPowerFail_Start :
    tested.running = true ∧ tested.mode = 2 ∧ tested.sys.startStep = 8 ∧ tested.bist.lane0 = none ∧ tested.bist.lane1 = none ∧
    ¬ (base.running = true ∧ base.mode = 2 ∧ base.sys.startStep = 8 ∧ base.bist.lane0 = none ∧ base.bist.lane1 = none) ∧
    (st [(Reg.MODE.STATUS.PARKED, 1)]).bit Reg.MODE.STATUS.PARKED = true ∧
    base.bit Reg.MODE.STATUS.PARKED = false ∧ 4 ≤ base.mode ∧ base.mode ≤ 7 ∧ riding.mode = 9 ∧
    riding.sys.warmRun = false ∧ 4 ≤ riding.sys.rideReturn ∧ riding.sys.rideReturn ≤ 7 ∧
    ¬ (4 ≤ (st [(Reg.MODE.STATUS.MODE, 10)]).mode ∧ (st [(Reg.MODE.STATUS.MODE, 10)]).mode ≤ 7) ∧
    (warming 8).sys.warmRun = true ∧ (warming 8).sys.warmMax = 0 ∧ (warming 8).mode = 8 ∧
    (warming 9).mode = 9 ∧ base.sys.warmRun = false := by decide +kernel

/-- A folio, of a flush or of a boundary. -/
def aFolio (flush : Bool) : Folio := ⟨1, BilSt.init, CrdNv.init, [], 0, 0, [], flush⟩

/-- `base` with a folio whose commit word is to be written. -/
def waitingFolio (flush : Bool) : State := { base with per := { base.per with waiting := [(aFolio flush, false)] } }

/-- A source that is enabled and one that is not, a power fail already under way; a flush with quanta and without;
sources that return, with the timer running and not; a folio that waits, of a flush and not. -/
theorem witness_WarmThroughAndPowerFail_Flush :
    unpowered.running = false ∧ true = true ∧ base.pfSrc % 2 = 1 ∧
    ¬ (true = true ∧ (withSection 1 [0, 0] base).pfSrc % 2 = 1) ∧
    ¬ (true = true ∧ (withSection 1 [0, 0] base).pfSrc / 2 % 2 = 1) ∧
    base.bit Reg.MODE.STATUS.PF = false ∧ riding.bit Reg.MODE.STATUS.PF = true ∧
    2 ≤ base.mode ∧ base.mode ≤ 8 ∧
    ¬ (2 ≤ (st [(Reg.MODE.STATUS.MODE, 10)]).mode ∧ (st [(Reg.MODE.STATUS.MODE, 10)]).mode ≤ 8) ∧
    (riding.running = true ∧ riding.sys.flushing = true ∧ riding.bit Reg.MET.STATUS.RUN = true ∧ ∀ x ∈ riding.per.waiting, x.1.flush = false) ∧
    riding.nq = 0 ∧ ({ riding with met := { riding.met with run := [[]] } } : State).nq ≠ 0 ∧
    base.sys.flushing = false ∧
    riding.mode = 9 ∧ riding.sys.rideReturn ≠ 2 ∧ riding.sys.warmRun = false ∧
    ({ riding.sys with rideReturn := 2 } : SysSt).rideReturn = 2 ∧
    (warming 9).sys.rideReturn ≠ 2 ∧ (warming 9).sys.warmRun = true ∧ base.per.waiting = [] ∧
    (waitingFolio false).per.waiting = (aFolio false, false) :: [] ∧ (aFolio true).flush = true ∧
    (aFolio false).flush = false ∧
    (waitingFolio false).sys.unpowered = false ∧ (waitingFolio false).mode ≠ 0 := by decide +kernel

/-- SERVICE with the last completed step of a shut-down. -/
def shutting (step : Nat) : State :=
  let s := st [(Reg.MODE.STATUS.MODE, 7)]
  { s with sys := { s.sys with shutStep := step } }

/-- Steps 4 and 6 of a shut-down in SERVICE and elsewhere; PARKED; a life-cycle request in each case; an activation
armed with each policy; monitors before and after the start. -/
theorem witness_ShutdownAndActivation :
    base.running = true ∧
    (shutting 4).running = true ∧ ((shutting 4).mode = 7 ∨ (shutting 4).mode = 10) ∧ (shutting 4).sys.shutStep = 4 ∧
    ¬ (base.running = true ∧ (base.mode = 7 ∨ base.mode = 10) ∧ base.sys.shutStep = 4) ∧
    (shutting 6).sys.shutStep = 6 ∧ (node 0 live []).role = 0 ∧ (node 3 live []).role ≠ 0 ∧
    (st [(Reg.MODE.STATUS.MODE, 7), (Reg.MODE.STATUS.PARKED, 1)]).running = true ∧ (st [(Reg.MODE.STATUS.MODE, 7), (Reg.MODE.STATUS.PARKED, 1)]).mode = 7 ∧ (st [(Reg.MODE.STATUS.MODE, 7), (Reg.MODE.STATUS.PARKED, 1)]).bit Reg.MODE.STATUS.PARKED = true ∧
    ¬ (base.running = true ∧ base.mode = 7 ∧ base.bit Reg.MODE.STATUS.PARKED = true) ∧
    lcLevel 3 4 = some 3 ∧ lcLevel 3 3 = none ∧ (st [(Reg.HP.STATUS.LEVEL, 2)]).level .host < 3 ∧
    lcLevel 2 3 = some 2 ∧ (st [(Reg.MODE.STATUS.MODE, 4)]).mode = 4 ∧
    lcCondition 2 3 base = false ∧ lcCondition 1 2 base = true ∧ base.rd Reg.UPD.STATUS.STATE ≠ 4 ∧
    (st [(Reg.UPD.STATUS.STATE, 4), (Reg.UPD.STATUS.POLICY, 2)]).rd Reg.UPD.STATUS.POLICY = 2 ∧ (st [(Reg.UPD.STATUS.STATE, 4), (Reg.UPD.STATUS.POLICY, 2)]).voteGood = false ∧
    (st [(Reg.UPD.STATUS.STATE, 4)]).rd Reg.UPD.STATUS.STATE = 4 ∧
    (st [(Reg.UPD.STATUS.STATE, 4)]).activationOk = true ∧
    (st [(Reg.UPD.STATUS.STATE, 4), (Reg.UPD.STATUS.TRIAL, 1)]).activationOk = false ∧
    unpowered.sys.unpowered = true ∧ base.sys.unpowered = false ∧
    (st [(Reg.MODE.STATUS.MODE, 2)]).running = true ∧ (st [(Reg.MODE.STATUS.MODE, 2)]).mode < 3 ∧
    3 ≤ (st [(Reg.MODE.STATUS.MODE, 3)]).mode := by decide +kernel

/-- LOADING after a step of R69. -/
def loading (step : Nat) (l : List (Fld × Nat)) : State :=
  let s := st ([(Reg.MODE.STATUS.MODE, 1)] ++ l)
  { s with sys := { s.sys with startStep := step } }

/-- LOADING with an image in force and the modules answering. -/
def shelved : State := { loading 5 [] with sys := { (loading 5 []).sys with imgValid := true } }

/-- A unit without supply, in DORMANT, with its reset pin low, and running; LOADING at each step with the latch and
each life cycle; two copies that are bad. Whether a copy is good rests on opaque constants. -/
theorem witness_SuppliesResetsAndStarts :
    unpowered.sys.unpowered = true ∧ base.sys.unpowered = false ∧
    (st [(Reg.MODE.STATUS.MODE, 0)]).dormant = true ∧ base.dormant = false ∧
    (base.mode ≠ 0 ∧ base.sys.unpowered = false) ∧
    ({ base with sys := { base.sys with resetLow := true } } : State).sys.resetLow = true ∧
    (st [(Reg.MODE.STATUS.MODE, 0)]).mode = 0 ∧ base.sys.resetLow = false ∧ base.mode ≠ 0 ∧
    (loading 4 [(Reg.MODE.STATUS.LC, 3)]).running = true ∧ (loading 4 []).mode = 1 ∧ (loading 4 []).sys.startStep = 4 ∧
    ¬ (base.running = true ∧ base.mode = 1 ∧ base.sys.startStep = 4) ∧
    (loading 4 [(Reg.FLT.STATUS.LATCH, 1)]).bit Reg.FLT.STATUS.LATCH = true ∧
    (loading 4 []).bit Reg.FLT.STATUS.LATCH = false ∧ (loading 4 [(Reg.MODE.STATUS.LC, 5)]).lc = 5 ∧
    (loading 4 [(Reg.MODE.STATUS.LC, 0)]).lc = 0 ∧
    (loading 4 [(Reg.MODE.STATUS.LC, 3)]).lc ≠ 5 ∧ (loading 4 [(Reg.MODE.STATUS.LC, 3)]).lc ≠ 0 ∧
    imageCheck (loading 4 [(Reg.MODE.STATUS.LC, 3)]) [] ≠ 0 ∧
    (shelved).running = true ∧ shelved.mode = 1 ∧ shelved.sys.startStep = 5 ∧ shelved.sys.imgValid = true ∧
    ¬ (base.running = true ∧ base.mode = 1 ∧ base.sys.startStep = 5 ∧ base.sys.imgValid = true) ∧
    unpowered.running = false := by decide +kernel

/-- A pending set of the host with one register. -/
def pendingSet (addr : Nat) : BindSet := { BindSet.empty with st := 2, owner := 1, kind := 1, staged := [(addr, 0, 0)] }

/-- Metering on and off, a step in time, the first boundary; a set whose instant has come and not, held back in each
mode, with a value out of its range and without. -/
theorem witness_BoundariesWorkInOrder :
    unpowered.running = false ∧ base.running = true ∧
    (adjApply (boundaryTick (persistLate base))).2.bit Reg.MET.STATUS.RUN = false ∧
    (adjApply (boundaryTick (persistLate (st [(Reg.MET.STATUS.RUN, 1)])))).2.bit Reg.MET.STATUS.RUN = true ∧
    ¬ (base.running = true ∧ base.mode = 2 ∧ base.sys.startStep = 7) ∧
    ({ tested with sys := { tested.sys with startStep := 7 } } : State).sys.startStep = 7 ∧ tested.mode = 2 ∧ tested.running = true ∧
    base.instantOk { BindSet.empty with kind := 3 } = false ∧
    base.instantOk (pendingSet 0x20010) = true ∧ (pendingSet 0x20010).st = 2 ∧ (pendingSet 0x20010).owner < 2 ∧
    base.mode ≠ 11 ∧ (pendingSet 0x20000).heldBack = true ∧ (pendingSet 0x2FFFC).heldBack = true ∧
    (pendingSet 0x30000).heldBack = false ∧ (st [(Reg.MODE.STATUS.MODE, 9)]).mode = 9 ∧
    (st [(Reg.MODE.STATUS.MODE, 10)]).mode = 10 ∧ (base.mode ≠ 8 ∧ base.mode ≠ 9 ∧ base.mode ≠ 10) ∧
    checkFails base [(Reg.DPY.RAIL.ELVSS.addr, 63, 63)] = some Reg.DPY.RAIL.ELVSS.addr ∧
    checkFails base [(Reg.DPY.RAIL.ELVSS.addr, 63, 14)] = none := by decide +kernel

/-! ### Witnesses: metrology, billing, self-test, credit -/

/-- `base` with metering running. -/
def metering (l : List (Fld × Nat)) : State := st ([(Reg.MET.STATUS.RUN, 1)] ++ l)

/-- `metering` with METER[m] of a type. -/
def metered (m ty : Nat) (l : List (Fld × Nat)) : State :=
  { metering l with met := { (metering l).met with set := [(m, leBytes 20 ty)] } }

/-- `metering` with a link as given. -/
def linked (x : LinkSt) (l : List (Fld × Nat)) : State := (metering l).setLink 15 x

/-- METER[16] a phase whose primary is channel 0, from SL[15]. -/
def incomer (l : List (Fld × Nat)) : State :=
  { metering l with met := { (metering l).met with
    set := [(16, leBytes 4 1 ++ leBytes 4 0 ++ leBytes 4 0x80 ++ leBytes 8 0), (0x100, leBytes 4 (0x80000000 + 2 * 2 ^ 28 + 15 * 2 ^ 16))] } }

/-- Metering on and off, a link lost and not, seven bad frames and eight, a frame of the right form, a phase on its
reference for that link alone and one on its primary; an element whose link has failed ones and none, a field seen and
not; a channel that is off. -/
theorem witness_SamplesAndQuanta_Links :
    (metering []).running = true ∧ base.bit Reg.MET.STATUS.RUN = false ∧
    (metering []).bit Reg.MET.STATUS.RUN = true ∧
    (metering []).bit (Reg.SLK.STATUS.LOST 15) = false ∧
    (metering [(Reg.SLK.STATUS.LOST 15, 1)]).bit (Reg.SLK.STATUS.LOST 15) = true ∧
    ¬ (([] : List Byte).length = 80) ∧ 8 ≤ ((linked { LinkSt.init with bad := 8 } []).link 15).bad ∧
    ((linked { LinkSt.init with bad := 7 } []).link 15).bad < 8 ∧
    ({ MetPh.init with src := 1, cause := 2 } : MetPh).src = 1 ∧ Nat.testBit ({ MetPh.init with src := 1, cause := 2 } : MetPh).cause 1 = true ∧ putBit ({ MetPh.init with src := 1, cause := 2 } : MetPh).cause 1 false = 0 ∧
    MetPh.init.src ≠ 1 ∧ (metering []).rd (Reg.SLK.ELEM_FAIL.ELEM 15) = 0 ∧
    (metering [(Reg.SLK.ELEM_FAIL.ELEM 15, 1)]).rd (Reg.SLK.ELEM_FAIL.ELEM 15) ≠ 0 ∧
    ((metering []).link 15).fieldBad = false ∧
    ((linked { LinkSt.init with fieldBad := true } []).link 15).fieldBad = true ∧
    (metering []).linkMeter 15 ≠ some 16 ∧ (incomer []).linkMeter 15 = some 16 ∧
    Nat.testBit ((metering []).inForce (0x100 + 127) 0 4) 31 = false := by decide +kernel

/-- The CRC of 76 zero bytes, in four parts. -/
theorem crc_of_zeros : crc16 (List.replicate 76 0) = 53744 := by
  have h : List.replicate 76 (0 : Byte) =
      List.replicate 19 0 ++ (List.replicate 19 0 ++ (List.replicate 19 0 ++ List.replicate 19 0)) := by decide +kernel
  have p (c d : Nat) (k : List.foldl (fun c (b : Byte) => crcBits 16 0x1021 8 b.toNat c) c (List.replicate 19 0) = d)
      (l : List Byte) : List.foldl (fun c (b : Byte) => crcBits 16 0x1021 8 b.toNat c) c (List.replicate 19 0 ++ l) =
      List.foldl (fun c (b : Byte) => crcBits 16 0x1021 8 b.toNat c) d l := by rw [List.foldl_append, k]
  rw [crc16, h, p 0xFFFF 45921 (by decide +kernel), p 45921 20063 (by decide +kernel), p 20063 48528 (by decide +kernel)]
  decide +kernel

/-- A sensor link frame of zeros. -/
def linkFrame : List Byte := beBytes 2 0xA5C3 ++ List.replicate 76 0 ++ beBytes 2 53744

/-- A frame whose length, first word and CRC are right. -/
theorem witness_SamplesAndQuanta_Frame : linkFrame.length = 80 ∧ beAt linkFrame 0 2 = 0xA5C3 ∧
    beAt linkFrame 78 2 = crc16 ((linkFrame.drop 2).take 76) := by
  refine ⟨by decide +kernel, by decide +kernel, ?_⟩
  rw [show (linkFrame.drop 2).take 76 = List.replicate 76 0 by decide +kernel, crc_of_zeros]
  decide +kernel

/-- A closed quantum with metering on and off; nine quanta of disagreement and ten, of agreement, and 600 and one
less; an accuracy test under way and none, its quanta at the limit; a time for it and none. -/
theorem witness_SamplesAndQuanta_Sources :
    (metering []).running = true ∧ ¬ (10 ≤ (9 : Nat)) ∧
    ({ MetPh.init with dis := 10 } : MetPh).dis = 10 ∧
    ({ MetPh.init with src := 2, agree := 10 } : MetPh).src = 2 ∧ 10 ≤ ({ MetPh.init with src := 2, agree := 10 } : MetPh).agree ∧
    ({ MetPh.init with src := 1, cause := 1, agree := 600 } : MetPh).src = 1 ∧ ({ MetPh.init with src := 1, cause := 1, agree := 600 } : MetPh).cause = 1 ∧ 600 ≤ ({ MetPh.init with src := 1, cause := 1, agree := 600 } : MetPh).agree ∧
    ¬ (MetPh.init.src = 1 ∧ MetPh.init.cause = 1 ∧ 600 ≤ MetPh.init.agree) ∧
    base.modeWrites = true ∧ 1 ≤ base.level .host ∧
    (withSection 3 [0, 0, 0xFF, 0xFF] base).cfg 3 2 2 = 0xFFFF ∧ base.cfg 3 2 2 ≠ 0xFFFF ∧
    (metering []).mode ≠ 9 ∧ (metering []).bit Reg.MET.TEST_STAT.RUNNING = false ∧
    (metering [(Reg.MET.TEST_STAT.RUNNING, 1)]).bit Reg.MET.TEST_STAT.RUNNING = true ∧
    base.met.test = none ∧
    ({ base.met with test := some ⟨[(0, 599, 0, 0)], 6000⟩ } : MetSt).test = some ⟨[(0, 599, 0, 0)], 6000⟩ ∧
    6000 ≤ (⟨[(0, 599, 0, 0)], 6000⟩ : AccTest).quanta ∧
    (∀ x ∈ (⟨[(0, 600, 0, 0)], 5999⟩ : AccTest).phases, 600 ≤ x.2.1) ∧
    (∃ x ∈ (⟨[(0, 599, 0, 0)], 5999⟩ : AccTest).phases, x.2.1 < 600) := by decide +kernel

/-- Meters of each type, FNOM set and not, a sequence that is wrong, a neutral lost and not, supervision on and off,
an event open and none. -/
theorem witness_TrackingAndPowerQuality :
    (metering []).running = true ∧ (metered 16 0 []).meterType 16 = 0 ∧
    (metered 16 3 []).meterType 16 = 3 ∧ (metered 16 2 []).meterType 16 = 2 ∧
    (metered 16 1 []).meterType 16 = 1 ∧ (metering []).rd Reg.MET.FNOM.HZ = 0 ∧
    (metering [(Reg.MET.FNOM.HZ, 50)]).rd Reg.MET.FNOM.HZ ≠ 0 ∧
    2 ≤ (metered 16 2 [(Reg.MET.MQ.STATUS.SEQ 16, 2)]).rd (Reg.MET.MQ.STATUS.SEQ 16) ∧
    (metered 16 2 []).rd (Reg.MET.MQ.STATUS.SEQ 16) < 2 ∧
    (metered 16 2 []).bit (Reg.MET.MQ.STATUS.NEUTRAL 16) = false ∧
    (metered 16 2 [(Reg.MET.MQ.STATUS.NEUTRAL 16, 1)]).bit (Reg.MET.MQ.STATUS.NEUTRAL 16) = true ∧
    (metered 16 2 [(Reg.MET.PQ_EN.EN, 2 ^ 16)]).flag Reg.MET.PQ_EN.EN 16 = true ∧
    (metered 16 2 [(Reg.MET.PQ_EN.EN, 0)]).flag Reg.MET.PQ_EN.EN 16 = false ∧
    (0 : Fin 3) = 0 ∧ (15 : Fin 17) ≠ 16 ∧ (metering []).pqOpen 16 0x1B = none ∧
    ({ metering [] with met := { (metering []).met with pq := [⟨16, 0x1B, 1, 0, 0, 0⟩] } } : State).pqOpen 16 0x1B = some ⟨16, 0x1B, 1, 0, 0, 0⟩ := by decide +kernel

/-- A session below the level and at it, a calendar armed and none, one of the wrong form; a set free and none. -/
theorem witness_BillingCommandsAndCredit_Tariff :
    State.reset.modeWrites = false ∧ base.modeWrites = true ∧
    (st [(Reg.HP.STATUS.LEVEL, 1)]).level .host < 2 ∧ 2 ≤ base.level .host ∧ base.tar.armed = none ∧
    ({ base.tar with armed := some ([], 0) } : TarSt).armed ≠ none ∧
    calCheck (readBytes base.tar.passive 0 2048) = 2 ∧ engineSet 2 2 0 0 allSets = none ∧
    (engineSet 2 2 0 0 base).isSome = true := by decide +kernel

/-- A calendar of one season and one day table. -/
def goodCalendar : List Byte :=
  bytesAt 32 [(0, 1), (6, 15), (0xA, 1)] ++ bytesAt 96 [(0, 1), (1, 1)] ++ List.replicate 4 0 ++ List.replicate 764 0xFF ++
    List.replicate 1152 0

/-- A calendar of the right form. -/
theorem witness_BillingCommandsAndCredit_Tariff_Calendar :
    calCheck goodCalendar = 0 := by decide +kernel

/-- `base` with emergency credit configured. -/
def grantable : State := withSection 5 (bytesAt 0x20 [(0x10, 1), (0x18, 9)]) base

/-- `base` in a site stop with a credit. -/
def stopped (c : Int) : State := { base with crd := { base.crd with nv := { CrdNv.init with c := c, stopped := true } } }

/-- `base` with the window of issuer 1 and a pending voucher. -/
def windowed (high : Nat) : State :=
  { base with crd := { base.crd with
    nv := { CrdNv.init with windows := [(1, ⟨high, 1⟩)] }, pend := [⟨0, 0, 0, false, 1, 1, 1990, 5, 0, false⟩] } }

/-- A FIFO with its last place free and full, a queue with a submission and none; the fourth and the fifth failure; a
lockout that has ended and one that has not; grants, stops and serials in each case. -/
theorem witness_BillingCommandsAndCredit_Vouchers :
    1 ≤ base.level .host ∧ (List.replicate 15 (⟨0, 0, 0, false, []⟩ : Submission)).length < 16 ∧
    16 ≤ (List.replicate 16 (⟨0, 0, 0, false, []⟩ : Submission)).length ∧ takeHead 9 base = none ∧
    (takeHead 9 (base.setQ 9 ⟨[⟨[1], 0⟩], none, []⟩)).isSome = true ∧
    (st [(Reg.MODE.STATUS.MODE, 2)]).mode < 3 ∧ 3 ≤ base.mode ∧ base.running = true ∧
    base.crd.fifo = [] ∧
    ({ base.crd with fifo := [⟨0, 0, 0, false, []⟩] } : CrdSt).fifo = ⟨0, 0, 0, false, []⟩ :: [] ∧
    (voucherCheck ⟨0, 0, 0, false, []⟩ base).1 ≠ 0 ∧
    (([3599, 0, 1, 2] : List Nat).filter (fun t => decide (3599 < t + 3600)) ++ [3599]).length = 5 ∧
    (([1, 2, 3] : List Nat).filter (fun t => decide (3600 < t + 3600)) ++ [3600]).length < 5 ∧
    base.crd.lockEnd = none ∧ ({ base.crd with lockEnd := some 10 } : CrdSt).lockEnd = some 10 ∧
    (st [(Reg.PWR.OPSEC.SECONDS, 9)]).rd Reg.PWR.OPSEC.SECONDS < 10 ∧
    10 ≤ (st [(Reg.PWR.OPSEC.SECONDS, 10)]).rd Reg.PWR.OPSEC.SECONDS ∧ grantable.canGrant = true ∧
    (stopped 0).crd.nv.stopped = true ∧ (stopped 0).crd.nv.c ≤ (stopped 0).crdCfg 8 8 ∧
    ((stopped 1).crdCfg 8 8 : Int) < (stopped 1).crd.nv.c ∧
    base.crd.nv.stopped = false ∧ base.stopRule = true ∧
    ({ base with crd := { base.crd with nv := { CrdNv.init with c := 1 } } } : State).stopRule = false ∧
    (windowed 2000).windowHigh 1 = some 2000 ∧ 976 + 1023 < 2000 ∧ 977 ≤ 2000 ∧ 2000 ≤ 977 + 1023 ∧
    2000 < 2001 ∧ 1990 ∈ (windowed 2000).pendSerials 1 ∧ 1990 ≤ 2000 ∧ 2000 ≤ 1990 + 1023 := by decide +kernel

/-- START_TEST with group 7 in lane 1. -/
def laned : State :=
  let s := st [(Reg.MODE.STATUS.MODE, 2)]
  { s with bist := { s.bist with lane1 := some 7 } }

/-- `base` with counter 47 on. -/
def counting (l : List (Fld × Nat)) : State := st ([(Reg.PMC.CTL.EN, 1), (Reg.PMC.CFG.EN 47, 1)] ++ l)

/-- A lane that runs the group and none; spares at their last place and used up, of MRAM and not; slices on and off,
due and not; a counter off, on, and sampled; levels of a read. -/
theorem witness_SelfTestsAndCounters :
    base.mode ≠ 2 ∧ laned.running = true ∧ laned.mode = 2 ∧ laned.bist.lane1 = some 7 ∧
    laned.bist.lane0 ≠ some 7 ∧ failRoom ⟨.appSram, [], 0, false, 0⟩ ≤ 6 ∧
    failRoom ⟨.appSram, [], 0, true, 0⟩ = 24 ∧ 5 < failRoom ⟨.appSram, [], 0, false, 0⟩ ∧
    (metering []).slicesRun = true ∧ base.slicesRun = false ∧ base.bist.sliceDue = false ∧
    ({ base.bist with sliceDue := true } : BistSt).sliceDue = true ∧ base.pmcOn 47 = false ∧
    (counting []).pmcOn 47 = true ∧ (counting []).bit (Reg.PMC.CFG.SAMPLE 47) = false ∧
    (counting [(Reg.PMC.CFG.SAMPLE 47, 1)]).bit (Reg.PMC.CFG.SAMPLE 47) = true ∧
    2 ≤ base.level .host ∧
    (st [(Reg.HP.STATUS.LEVEL, 1), (Reg.PMC.CTL.OPERATOR, 1)]).level .host = 1 ∧ (st [(Reg.HP.STATUS.LEVEL, 1), (Reg.PMC.CTL.OPERATOR, 1)]).bit Reg.PMC.CTL.OPERATOR = true ∧
    (st [(Reg.HP.STATUS.LEVEL, 1)]).level .host = 1 ∧ (st [(Reg.HP.STATUS.LEVEL, 1)]).bit Reg.PMC.CTL.OPERATOR = false ∧
    (st [(Reg.HP.STATUS.LEVEL, 0)]).level .host < 1 := by decide +kernel

/-- A voucher for the site. -/
theorem witness_SiteVouchersRepayFirst :
    (⟨0, 0, 0, false, 1, 1, 1, 5, 0, false⟩ : Voucher).kind = 1 ∧
    5 = min ({ CrdNv.init with owed := 7 } : CrdNv).owed (⟨0, 0, 0, false, 1, 1, 1, 5, 0, false⟩ : Voucher).amount := by decide

/-- A request of class P4 that waits. -/
theorem witness_StarvedRequestIsCountedAndRaised :
    (withReqs [waitingReq true]).running = true ∧
    (∃ r ∈ (withReqs [waitingReq true]).fab.waiting, r.port = 31 ∧ 4 ≤ r.cls) ∧
    base.rd Reg.SYS.FAB_STATUS.STARVE + 1 < 2 ^ Reg.SYS.FAB_STATUS.STARVE.w := by decide

/-! ### Steps and functions with the results of the worked examples of the spec -/

/-- 00_overview.md, the example of fault codes. -/
theorem test_fault_code_0x8A11_is_major :
    faultClass 0x8A11 = 2 := by decide

/-- 01_architecture.md, the example of R30: 300,003,600 cycles between two edges give DEV = 3,600. -/
theorem test_root_12_ppm_fast :
    (match exec (.rtcSecondEdge 300003600) (st [(Reg.CLK.STATUS.RTC_OK, 1)]) with | .next t => t.rdI Reg.CLK.DISC.DEV | _ => 0) = 3600 := by decide +kernel

/-- 05_outage_and_tamper.md: 55 kW over 103 ms bounds the loss at 1,574 mWh. -/
theorem test_lost_span_of_103_ms :
    lossBound 55000000 103000 = 1574 := by decide +kernel

/-- 06_billing_and_tariffs.md, the example of R177: 278 mWh in rate 2 and in all rates, 417,778 nWh kept. -/
theorem test_booking_keeps_the_residue :
    (bookOne 16 0 2 277777778 { base with bil := { base.bil with res := [(352, 640000)] } }).1 = 278 ∧
    (bookOne 16 0 2 277777778 { base with bil := { base.bil with res := [(352, 640000)] } }).2.bil.res = [(352, 417778)] ∧
    (bookOne 16 0 2 277777778 { base with bil := { base.bil with res := [(352, 640000)] } }).2.bilReg 16 0 2 = 278 ∧
    (bookOne 16 0 2 277777778 { base with bil := { base.bil with res := [(352, 640000)] } }).2.bilReg 16 0 16 = 278 := by decide +kernel

/-- 07_credit_and_vouchers.md: raw 320,880,000 on a residue of 750,000. -/
theorem test_charge_of_321_micro_units :
    chargeOf 750000 320880000 = (321, 630000) := by decide +kernel

/-- 07_credit_and_vouchers.md: SERIAL20 = 4,660 is serial 1,053,236 under a window that holds it. -/
theorem test_serial_from_its_low_20_bits :
    fullSerial 1052170 4660 = 1053236 := by decide +kernel

/-- 13_load_switch.md: MODE 3, DUTY 400, V_NOM 24 V: 30.2 % at 27.6 V and 52.2 % at 21.0 V. -/
theorem test_lamp_duty_follows_the_supply :
    hsDuty 17 (st [(Reg.LSW.CH.CFG.MODE 17, 3), (Reg.LSW.CH.DUTY.DUTY 17, 400), (Reg.LSW.VLS.V_NOM 2, 24), (Reg.LSW.VLS.MV 2, 27600)]) = 302 ∧
    hsDuty 17 (st [(Reg.LSW.CH.CFG.MODE 17, 3), (Reg.LSW.CH.DUTY.DUTY 17, 400), (Reg.LSW.VLS.V_NOM 2, 24), (Reg.LSW.VLS.MV 2, 21000)]) = 522 := by decide +kernel

/-- 14_displays.md, the example of R433: frames 0 to 7 leave −4 and +4, frame 10 leaves −2 and +3. -/
theorem test_ledger_of_an_update :
    (List.range 8).foldl (fun l f => driveFrame ⟨2 ^ 13, 2 ^ 12, f, 4⟩ l) [] = [(12, -4), (13, 4)] ∧
    (List.range 11).foldl (fun l f => driveFrame ⟨2 ^ 13, 2 ^ 12, f, 4⟩ l) [] = [(12, -2), (13, 3)] ∧
    (List.range 16).foldl (fun l f => driveFrame ⟨2 ^ 13, 2 ^ 12, f, 4⟩ l) [] = [] := by decide +kernel

/-- 15_contactless.md, the example of R442: tag X, with a 1 in the last UID bit sent, before tag Y. -/
theorem test_tree_walk_lists_the_one_branch_first :
    treeWalk [[4, 0xA1, 0x5C, 0x23, 0x7E, 0x90, 0x36], [4, 0xA1, 0x5C, 0x23, 0x7E, 0x90, 0xB6]] = [[4, 0xA1, 0x5C, 0x23, 0x7E, 0x90, 0xB6], [4, 0xA1, 0x5C, 0x23, 0x7E, 0x90, 0x36]] := by decide +kernel

end Sys2Proof.Tests
end

section
/-!
PROOF. The statements of the architecture family: buffers (R41), the clock and its failures (R30 to R34, R180, R187), the
fabric arbiter (R42, R46, R47), channel requests (R55, R398, R399, R406), the annex (R541, R543) and Ethernet frames (R540).
-/
namespace Sys2Proof.Machine

/-! ### Commands whose effect leaves a calm state -/

/-- A write at a sufficient level answers its effect where that is calm. -/
theorem gated_next {s u : State} (h : Calm s) {i : Instr} {a : Agent} {n : Nat} {f : State → State} (hl : n ≤ s.level a)
    (e : exec i s = done (gated a n f s)) (hu : f s = u) (k : Calm u) : exec i s = .next u := by
  subst hu
  exact (go_gated h hl e).trans (done_calm k)

/-- An event of the core die answers its effect where that is calm. -/
theorem live_next {s u : State} (h : Calm s) {i : Instr} {f : State → State} (e : exec i s = done (live f s))
    (hu : f s = u) (k : Calm u) : exec i s = .next u := by
  subst hu
  exact (go_live h e).trans (done_calm k)

/-- An event guarded by the running core answers its effect where that is calm. -/
theorem running_next {s f u : State} (h : Calm s) {i : Instr} (e : exec i s = done (if s.running then f else s))
    (hu : f = u) (k : Calm u) : exec i s = .next u := by
  subst hu
  exact (go_if h e).trans (done_calm k)

/-! ### Buffers (R41, R538) -/

/-- Settles O15: the laws of writing and reading bytes, and the extensionality of canonical lists. -/
theorem buffersReadWhatWasWritten : Obligations.BuffersReadWhatWasWritten := by
  unfold Obligations.BuffersReadWhatWasWritten
  intro m a l
  exact ⟨mapWf_writeBytes l m a, readBytes_writeBytes l m a, fun b hb => readByte_writeBytes_out l m a b hb,
    fun n wm wn h => mapExt byteDefault m n wm wn h⟩

/-! ### The fabric (R42, R46, R47) -/

theorem fabRequest_new {s : State} (h : Calm s) (now port cls beats : Nat) (m : Bool)
    (hw : ((fabTo now s).fab.waiting.any fun r => r.port = port) = false) :
    fabRequest now port cls beats m s = { fabTo now s with fab := { (fabTo now s).fab with
      waiting := (fabTo now s).fab.waiting ++ [⟨port, cls, beats, (fabTo now s).fab.beat, false, m⟩] } } := by
  unfold fabRequest
  simp [h.run, hw]

theorem fabRequest_waiting {s : State} (h : Calm s) (now port cls beats : Nat) (m : Bool)
    (hw : ((fabTo now s).fab.waiting.any fun r => r.port = port) = true) :
    fabRequest now port cls beats m s = fabTo now s := by
  unfold fabRequest
  simp [h.run, hw]

/-- What the arbiter holds does not decide whether a state is calm. -/
theorem Calm.setFab {s : State} (h : Calm s) (f : FabSt) : Calm { s with fab := f } := h.congr rfl rfl rfl rfl rfl rfl rfl

theorem fabAge_found {s : State} {port : Nat} {r : FabReq}
    (hr : (s.fab.waiting.find? fun r => r.port = port && 4 ≤ r.cls && !r.aged) = some r) :
    fabAge port s = { s with fab := { s.fab with waiting :=
      (s.fab.waiting.filter fun x => decide (x.port ≠ port) && x.aged) ++ { r with aged := true } ::
        (s.fab.waiting.filter fun x => decide (x.port ≠ port) && !x.aged) } } := by
  unfold fabAge
  rw [hr]
  simp only [List.filter_filter, Bool.and_comm]

/-- A request that waits past its time is counted, and its fault raised (R47). -/
theorem sysFabStarve_effect {s : State} {port : Nat} (hr : s.running = true)
    (hw : (s.fab.waiting.any fun r => r.port = port && 4 ≤ r.cls) = true) :
    exec (.sysFabStarve port) s = done (raise 0x4001 port (s.inc Reg.SYS.FAB_STATUS.STARVE)) := by
  show done (if (s.running && s.fab.waiting.any (fun r => r.port = port && 4 ≤ r.cls)) = true then _ else s) = _
  rw [hr, hw]
  rfl

/-- A search through the numbers below `n` in order finds at the first one that gives a result. -/
theorem findSome?_range_eq_some {α : Type} {f : Nat → Option α} {x : α} :
    ∀ n, (List.range n).findSome? f = some x → ∃ k, f k = some x ∧ ∀ j < k, f j = none := by
  intro n
  induction n with
  | zero => intro h; simp at h
  | succ n ih =>
    intro h
    rw [List.range_succ, List.findSome?_append] at h
    cases e : (List.range n).findSome? f with
    | some y =>
      rw [e] at h
      exact ih (e.trans h)
    | none =>
      rw [e, Option.none_or, List.findSome?_singleton] at h
      exact ⟨n, h, fun j hj => List.findSome?_eq_none_iff.1 e j (List.mem_range.2 hj)⟩

/-- The arbiter's grant: the first admitted request of its rank, and no admitted request has a lower one (R42). -/
theorem pick_eq_some {f : FabSt} {flushing : Bool} {beat : Nat} {r : FabReq} (h : f.pick flushing beat = some r) :
    ((f.waiting.filter (f.admits flushing beat)).find? fun x => x.rank = r.rank) = some r ∧
      ∀ x ∈ f.waiting, f.admits flushing beat x = true → r.rank ≤ x.rank := by
  unfold FabSt.pick at h
  obtain ⟨k, hk, hlow⟩ := findSome?_range_eq_some 7 h
  have hrank : r.rank = k := by simpa using List.find?_some hk
  subst hrank
  refine ⟨hk, fun x hx ha => Nat.le_of_not_lt fun hlt => ?_⟩
  have := List.find?_eq_none.1 (hlow x.rank hlt) x (List.mem_filter.2 ⟨hx, ha⟩)
  simp at this

/-- Settles O23: each command by the arbiter operation it names; the grant by the ranks that `pick` tries in order. -/
theorem fabricRequestsAreGrantedByRank : Obligations.FabricRequestsAreGrantedByRank := by
  unfold Obligations.FabricRequestsAreGrantedByRank
  refine ⟨fun port s h => ⟨?_, fun r hr => ?_, fun hw o => ?_⟩, fun f flushing beat r hp => ?_⟩
  · rintro now cls beats m u rfl
    have e : exec (.fabricRequest now port cls beats m) s = done (fabRequest now port cls (beats + 1) m s) := rfl
    refine ⟨fun hw => ?_, fun hw => ?_⟩
    · rw [e, fabRequest_new h _ _ _ _ _ hw]
      exact done_calm ((fabTo_calm h now).setFab _)
    · rw [e, fabRequest_waiting h _ _ _ _ _ hw]
      exact done_calm (fabTo_calm h now)
  · exact running_next h rfl (fabAge_found hr) (h.setFab _)
  · rw [sysFabStarve_effect h.run hw]
    exact opens_entry (h.inc _ (by decide) (by decide)) _ _ (o.congr rfl) (by decide)
  · obtain ⟨hfirst, hleast⟩ := pick_eq_some hp
    have hmem := List.mem_filter.1 (List.mem_of_find?_eq_some hfirst)
    refine ⟨hmem.1, hmem.2, fun x hx ha _ => hleast x hx ha, ?_⟩
    rw [List.head?_filter]
    simpa only [List.find?_filter, Bool.decide_and, Bool.decide_eq_true] using hfirst

/-- A count below the largest value of its field rises by one. -/
theorem rd_inc_same (s : State) (f : Fld) (h : s.rd f + 1 < 2 ^ f.w) : (s.inc f).rd f = s.rd f + 1 := by
  rw [inc_eq, rd_wr_same, Nat.min_eq_right (by omega), Nat.mod_eq_of_lt h]

/-- Settles O59: the waiting request makes the event act, whose effect is the count and the fault. -/
theorem starvedRequestIsCountedAndRaised : Obligations.StarvedRequestIsCountedAndRaised := by
  unfold Obligations.StarvedRequestIsCountedAndRaised
  refine ⟨by decide, fun s port hr hw => ⟨?_, rd_inc_same s _⟩⟩
  exact sysFabStarve_effect hr (by simpa [List.any_eq_true] using hw)

/-! ### The annex and Ethernet frames (R541, R543, R540, R35) -/

/-- A queue replaced by one of the same level keeps a state calm, the recorder's included. -/
theorem Calm.setQ_level {s : State} (h : Calm s) (n : Nat) (x : Queue) (hx : x.level = (s.q n).level) :
    Calm (s.setQ n x) := by
  by_cases hn : n = 15
  · subst hn
    exact ⟨h.run, h.low, h.high, h.todo, h.still, h.pushed, h.kept, by rw [q_setQ_same, hx]; exact h.room, h.cap⟩
  · exact h.setQ n x hn

theorem refillWith_moves {s : State} {n bad : Nat} {i : Item} {r : List Item} (ha : (s.q n).annex = i :: r)
    (hc : (s.q n).chain.length < 8) :
    refillWith n bad s = (s.setQ n { s.q n with
      chain := (s.q n).chain ++ [{ i with poison := Nat.lor i.poison (bad % 2 ^ qWords n) }], annex := r }).wr
        Reg.ANX.PARITY.COUNT (min 65535 (s.rd Reg.ANX.PARITY.COUNT + ones (bad % 2 ^ qWords n) 16)) := by
  unfold refillWith
  simp [ha, hc]

theorem refillWith_none {s : State} {n bad : Nat} (h : (s.q n).annex = [] ∨ 8 ≤ (s.q n).chain.length) :
    refillWith n bad s = s := by
  unfold refillWith
  rcases h with h | h
  · simp [h]
  · cases ha : (s.q n).annex with
    | nil => simp [ha]
    | cons i r => simp [ha, Nat.not_lt.2 h]

/-- Whether a queue takes an item rests on the register file and the queues. -/
theorem qRefuses_congr {s t : State} (hr : t.regs = s.regs) (hq : t.qs = s.qs) (n : Nat) :
    t.qRefuses n = s.qRefuses n := by
  unfold State.qRefuses State.qCap State.flag State.q
  rw [rd_congr hr, hq]

/-- A frame on the running interface is a descriptor of four free words (R540). -/
theorem eth0FrameReceived_open {s : State} (h : Calm s) (g : s.bit Reg.CLK.GATE.ETH = true) :
    exec .eth0FrameReceived s = done (hwPost 17 [Config.freeValue s.free % 2 ^ 64, Config.freeValue (s.free + 1) % 2 ^ 64,
      Config.freeValue (s.free + 2) % 2 ^ 64, Config.freeValue (s.free + 3) % 2 ^ 64] { s with free := s.free + 4 }) := by
  show done (if (s.running && s.bit Reg.CLK.GATE.ETH) = true then _ else s) = _
  rw [h.run, g]
  rfl

theorem eth0FrameReceived_gated {s : State} (h : Calm s) (g : s.bit Reg.CLK.GATE.ETH = false) :
    exec .eth0FrameReceived s = done s := by
  show done (if (s.running && s.bit Reg.CLK.GATE.ETH) = true then _ else s) = _
  rw [h.run, g]
  rfl

/-- Settles O18: spill and refill keep the level, so the state stays calm; a frame is one item posted to Q[17]. -/
theorem annexAndEthernet : Obligations.AnnexAndEthernet := by
  unfold Obligations.AnnexAndEthernet
  refine ⟨fun n s h => ⟨?_, fun bad i r ha hc => ?_, fun bad hn => ?_⟩, fun s h => ⟨fun g hq => ?_, fun g => ?_⟩⟩
  · exact running_next h rfl rfl (h.setQ_level _ _ (level_spill _))
  · refine running_next h rfl (refillWith_moves ha hc) (Calm.wr (h.setQ_level _ _ ?_) _ _ (by decide) (by decide))
    simp only [Queue.level, ha, List.length_append, List.length_cons, List.length_nil]
    omega
  · exact running_next h rfl (refillWith_none hn) h
  · rw [eth0FrameReceived_open h g]
    have k : Calm { s with free := s.free + 4 } := h.congr rfl rfl rfl rfl rfl rfl rfl
    exact done_push k 17 _ (by decide) (by decide) ((qRefuses_congr rfl rfl 17).trans hq)
  · rw [eth0FrameReceived_gated h g]
    exact done_calm h

/-! ### Channel requests (R55, R398, R399, R406) -/

/-- The result code that shows how an enable was taken (R398). -/
def Taken.result : Taken → Nat
  | .accepted => 0
  | .latched => 1
  | .discarded => 2
  | .refused => 3

theorem lswEnable_refused {c r : Nat} {s : State} (h : lswRefusal c s = some r) : lswEnable c s = lswResult c r s := by
  unfold lswEnable
  rw [h]

theorem lswDisable_refused {c r : Nat} {s : State} (h : lswRefusal c s = some r) : lswDisable c s = lswResult c r s := by
  unfold lswDisable
  rw [h]

/-- An enable that R55 judges shows how it was taken. -/
theorem lswEnable_judged {c : Nat} {s u : State} {t : Taken} (h : lswRefusal c s = none) (e : hsEnable c s = (t, u)) :
    lswEnable c s = lswResult c t.result u := by
  unfold lswEnable
  rw [h]
  dsimp only
  rw [e]
  cases t <;> rfl

theorem lswDisable_judged {c : Nat} {s u : State} (h : lswRefusal c s = none) (e : hsDisable c s = u) :
    lswDisable c s = lswResult c 0 u := by
  unfold lswDisable
  rw [h, ← e]

/-- The request level does not share a field with the channel's state. -/
theorem rd_state_reqOff (c : Nat) (s : State) :
    (s.setB (Reg.LSW.CH.STATUS.REQ_ON c) false).rd (Reg.LSW.CH.STATUS.STATE c) = s.rd (Reg.LSW.CH.STATUS.STATE c) :=
  rd_setB_ne _ _ _ _ (by simp only [Fld.key, ne_eq]; omega)

theorem rd_state_restarts (c v : Nat) (s : State) :
    (s.wr (Reg.LSW.CH.STATUS.RESTARTS c) v).rd (Reg.LSW.CH.STATUS.STATE c) = s.rd (Reg.LSW.CH.STATUS.STATE c) :=
  rd_wr_ne _ _ _ _ (by simp only [Fld.key, ne_eq]; omega)

theorem rd_state_pend (c : Nat) (b : Bool) (s : State) :
    (s.setB (Reg.LSW.CH.PEND.PEND c) b).rd (Reg.LSW.CH.STATUS.STATE c) = s.rd (Reg.LSW.CH.STATUS.STATE c) :=
  rd_setB_ne _ _ _ _ (by simp only [Fld.key, ne_eq]; omega)

/-- A disable in OFF leaves the state (R55). -/
theorem hsDisable_off {c : Nat} {s : State} (h : s.rd (Reg.LSW.CH.STATUS.STATE c) = 0) :
    hsDisable c s = (s.setB (Reg.LSW.CH.STATUS.REQ_ON c) false).wr (Reg.LSW.CH.STATUS.RESTARTS c) 0 := by
  have e := (rd_state_reqOff c s).trans h
  simp [hsDisable, unitDisable, hsUnit, e, rd_state_restarts]

/-- A disable in STARTING or ON shuts the channel down (R55). -/
theorem hsDisable_active {c : Nat} {s : State}
    (h : s.rd (Reg.LSW.CH.STATUS.STATE c) = 1 ∨ s.rd (Reg.LSW.CH.STATUS.STATE c) = 2) :
    hsDisable c s = hsDark c (((s.setB (Reg.LSW.CH.STATUS.REQ_ON c) false).wr (Reg.LSW.CH.STATUS.STATE c) 3).wr
      (Reg.LSW.CH.STATUS.RESTARTS c) 0) := by
  have e := rd_state_reqOff c s
  rcases h with h | h <;> simp [hsDisable, unitDisable, hsUnit, e, h, rd_state_restarts]

/-- A disable in an off-time forgets the remembered enable (R55). -/
theorem hsDisable_resting {c : Nat} {s : State} (h : s.rd (Reg.LSW.CH.STATUS.STATE c) = 4) :
    hsDisable c s = ((s.setB (Reg.LSW.CH.STATUS.REQ_ON c) false).setB (Reg.LSW.CH.PEND.PEND c) false).wr
      (Reg.LSW.CH.STATUS.RESTARTS c) 0 := by
  have e := (rd_state_reqOff c s).trans h
  simp [hsDisable, unitDisable, hsUnit, e, rd_state_restarts, rd_state_pend]

/-- A write of a channel's register keeps a state calm. -/
theorem Calm.wrChannel {s : State} (h : Calm s) {a lo w c : Nat} (v : Nat) (ha : 0x35000 ≤ a) (hl : lo < 32) :
    Calm (s.wr ⟨a + 0x20 * c, lo, w⟩ v) :=
  h.wr _ v (key_ne (by decide) hl (by show 0x3000 ≠ a + 0x20 * c; omega))
    (key_ne (by decide) hl (by show 0x18 ≠ a + 0x20 * c; omega))

theorem Calm.setBChannel {s : State} (h : Calm s) {a lo w c : Nat} (b : Bool) (ha : 0x35000 ≤ a) (hl : lo < 32) :
    Calm (s.setB ⟨a + 0x20 * c, lo, w⟩ b) := h.wrChannel _ ha hl

/-- An enable request that is judged answers how it was taken, where that leaves a calm state. -/
theorem lswEnableRequest_next {s u : State} (h : Calm s) {a : Agent} {c : Fin 40} (hl : 1 ≤ s.level a) {t : Taken}
    (hn : lswRefusal c s = none) (e : hsEnable c s = (t, u)) (k : Calm u) :
    exec (.lswEnableRequest a c) s = .next (lswResult c t.result u) :=
  gated_next h hl rfl (lswEnable_judged hn e) (lswResult_calm k _ _)

/-- A disable request that is judged is accepted (R398). -/
theorem lswDisableRequest_next {s u : State} (h : Calm s) {a : Agent} {c : Fin 40} (hl : 1 ≤ s.level a)
    (hn : lswRefusal c s = none) (e : hsDisable c s = u) (k : Calm u) :
    exec (.lswDisableRequest a c) s = .next (lswResult c 0 u) :=
  gated_next h hl rfl (lswDisable_judged hn e) (lswResult_calm k _ _)

/-- A channel that starts from OFF leaves a calm state. -/
theorem hsStart_calm {s : State} (h : Calm s) (c : Nat) :
    Calm (hsTurnOn c ((s.wr (Reg.LSW.CH.STATUS.STATE c) 1).setB (Reg.LSW.CH.STATUS.REQ_ON c) true)) :=
  hsTurnOn_calm ((h.wrChannel 1 (by decide) (by decide)).setBChannel true (by decide) (by decide)) c

/-- `CLR` keeps a state calm. -/
theorem lswClear_calm {s : State} (h : Calm s) (c : Nat) : Calm (lswClear c s) := by
  unfold lswClear
  exact ((((h.setCause _ _ _).setCause _ _ _).setBChannel _ (by decide) (by decide)).setBChannel _ (by decide)
    (by decide)).wrChannel _ (by decide) (by decide)

/-- An enable at start-up acts where START_ON is set, as any enable does (R401). -/
theorem startOnEnable_next {s u : State} (h : Calm s) {c : Fin 40} {t : Taken} (hs : (s.hs c).startOn = true)
    (e : hsEnable c s = (t, u)) (k : Calm u) : exec (.startOnEnable c) s = .next u := by
  have go : exec (.startOnEnable c) s = done (hsEnable c s).2 := by
    show done (if (s.running && decide (3 ≤ s.mode) && (s.hs c).startOn) = true then (hsEnable c s).2 else s) = _
    rw [h.run, hs, decide_eq_true h.low]
    rfl
  rw [go, e]
  exact done_calm k

/-- Settles O24: the request is refused, or judged by the table of R55 for the state and the forcing conditions. -/
theorem channelsFollowTheirRequests : Obligations.ChannelsFollowTheirRequests := by
  unfold Obligations.ChannelsFollowTheirRequests
  rintro a c s st h hl rfl
  have off := h.setBChannel (a := 0x35110) (lo := 28) (w := 1) (c := c) false (by decide) (by decide)
  refine ⟨fun r hr => ⟨?_, ?_⟩, fun hn => ⟨fun hf h0 => ?_, fun h12 => ?_, fun hf h34 hp => ?_, fun hf h34 hp => ?_,
    fun hf h034 => ?_, ?_⟩, ?_, fun hs hf h0 => ?_⟩
  · exact gated_next h hl rfl (lswEnable_refused hr) (lswResult_calm h _ _)
  · exact gated_next h hl rfl (lswDisable_refused hr) (lswResult_calm h _ _)
  · exact lswEnableRequest_next h hl hn (hsEnable_off hf h0) (hsStart_calm h c)
  · exact lswEnableRequest_next h hl hn (hsEnable_on h12) (h.setBChannel _ (by decide) (by decide))
  · exact lswEnableRequest_next h hl hn (hsEnable_wait hf h34 hp)
      ((h.setBChannel _ (by decide) (by decide)).setBChannel _ (by decide) (by decide))
  · exact lswEnableRequest_next h hl hn (hsEnable_drop hf h34 hp) (h.wrChannel _ (by decide) (by decide))
  · exact lswEnableRequest_next h hl hn (hsEnable_no hf h034) h
  · rintro u rfl
    refine ⟨fun h0 => ?_, fun h12 => ?_, fun h4 => ?_⟩
    · exact lswDisableRequest_next h hl hn (hsDisable_off h0) (off.wrChannel _ (by decide) (by decide))
    · exact lswDisableRequest_next h hl hn (hsDisable_active h12)
        (hsDark_calm ((off.wrChannel _ (by decide) (by decide)).wrChannel _ (by decide) (by decide)) c)
    · exact lswDisableRequest_next h hl hn (hsDisable_resting h4)
        ((off.setBChannel _ (by decide) (by decide)).wrChannel _ (by decide) (by decide))
  · exact gated_next h hl rfl rfl (lswClear_calm h c)
  · exact startOnEnable_next h hs (hsEnable_off hf h0) (hsStart_calm h c)

/-! ### The clock (R30 to R34, R180, R187) -/

/-- The deviation of a second's count is within 30,000 where the count is within 30,000 of 300,000,000 (R30). -/
theorem deviation_le_iff (n : Nat) : ((n : Int) - 300000000).natAbs ≤ 30000 ↔ 299970000 ≤ n ∧ n ≤ 300030000 := by omega

/-- The tick of a second edge: SECONDS counts, and quantum 0 starts at the next boundary (R30, R180). -/
def ticked (s : State) : State :=
  { s.incWrap Reg.RTC.TICK.SECONDS with rtc := { s.rtc with k := 0, edge := true } }

theorem secondEdge_eq (n : Nat) (s : State) : secondEdge n s =
    if !s.aon then s else if (ticked s).mode = 0 || s.sys.resetLow then ticked s
    else secondCount (if (ticked s).bit Reg.CLK.STATUS.RTC_OK then n else 300000000) (ticked s) := rfl

theorem rd_ticked_ne (s : State) (f : Fld) (h : f.key ≠ Reg.RTC.TICK.SECONDS.key) : (ticked s).rd f = s.rd f :=
  rd_wr_ne s Reg.RTC.TICK.SECONDS f _ h

theorem ticked_calm {s : State} (h : Calm s) : Calm (ticked s) :=
  (h.wr Reg.RTC.TICK.SECONDS (s.rd Reg.RTC.TICK.SECONDS + 1) (by decide) (by decide)).congr rfl rfl rfl rfl rfl rfl rfl

/-- A second edge with a running oscillator: a tick counts, and the second's count is taken. -/
theorem secondEdge_counts {s : State} (h : Calm s) (hp : s.sys.unpowered = false) (hr : s.sys.resetLow = false)
    (ho : s.bit Reg.CLK.STATUS.RTC_OK = true) (n : Nat) : secondEdge n s = secondCount n (ticked s) := by
  have aon : s.aon = true := by
    unfold State.aon
    rw [hp]
    rfl
  have mode : (ticked s).mode ≠ 0 := by
    have low := (ticked_calm h).low
    omega
  have osc : (ticked s).bit Reg.CLK.STATUS.RTC_OK = true := by
    unfold State.bit at ho ⊢
    rwa [rd_ticked_ne s _ (by decide)]
  rw [secondEdge_eq, aon, osc, hr]
  simp [mode]

/-- The count of a second with the range of R30 written out. -/
theorem secondCount_eq (n : Nat) (s : State) {good : Bool} {v : State}
    (hg : good = decide (299970000 ≤ n ∧ n ≤ 300030000))
    (hv : v = { (s.wrI Reg.CLK.DISC.DEV ((n : Int) - 300000000)).setB Reg.CLK.STATUS.DISC_OK good with
      sys := { s.sys with secCycles := n, discBad := if good then 0 else min 3 (s.sys.discBad + 1) } }) :
    secondCount n s = (if good then setCause 0x4103 0 false v else v).incWrap Reg.PWR.OPSEC.SECONDS := by
  have e : decide (((n : Int) - 300000000).natAbs ≤ 30000) = good := by
    rw [hg, decide_eq_decide]
    exact deviation_le_iff n
  unfold secondCount
  dsimp only
  rw [e, hv]
  rfl

theorem secondCount_calm {s : State} (h : Calm s) (n : Nat) : Calm (secondCount n s) := by
  rw [secondCount_eq n s rfl rfl]
  have k := (h.wr Reg.CLK.DISC.DEV (ofInt Reg.CLK.DISC.DEV.w ((n : Int) - 300000000)) (by decide) (by decide)).setB
    Reg.CLK.STATUS.DISC_OK (decide (299970000 ≤ n ∧ n ≤ 300030000)) (by decide) (by decide)
  have j := k.upd (t := { (s.wrI Reg.CLK.DISC.DEV ((n : Int) - 300000000)).setB Reg.CLK.STATUS.DISC_OK
      (decide (299970000 ≤ n ∧ n ≤ 300030000)) with
    sys := { s.sys with
      secCycles := n
      discBad := if decide (299970000 ≤ n ∧ n ≤ 300030000) then 0 else min 3 (s.sys.discBad + 1) } })
    rfl rfl rfl rfl rfl rfl rfl rfl
  exact (Calm.ite (j.setCause _ _ _) j).wr _ _ (by decide) (by decide)

/-- A second edge in a calm state, with a running oscillator. -/
theorem rtcSecondEdge_next {s : State} (h : Calm s) (hp : s.sys.unpowered = false) (hr : s.sys.resetLow = false)
    (ho : s.bit Reg.CLK.STATUS.RTC_OK = true) (n : Nat) :
    exec (.rtcSecondEdge n) s = .next (secondCount n (ticked s)) := by
  show done (secondEdge n s) = _
  rw [secondEdge_counts h hp hr ho]
  exact done_calm (secondCount_calm (ticked_calm h) n)

theorem rtcOscFail_effect {s : State} (h : Calm s) :
    exec .rtcOscFail s = done (raiseCause 0x4E02 0 (freeRun true s)) :=
  go_live h (f := fun s => raiseCause 0x4E02 0 (freeRun true s)) rfl

theorem clkDiscRange_bad {s : State} (h : Calm s) (hb : 3 ≤ s.sys.discBad) :
    exec .clkDiscRange s = done (raiseCause 0x4103 0 s) := by
  show done (if (s.running && decide (3 ≤ s.sys.discBad)) = true then _ else s) = _
  rw [h.run, decide_eq_true hb]
  rfl

theorem clkDiscRange_fair {s : State} (h : Calm s) (hb : s.sys.discBad < 3) : exec .clkDiscRange s = done s := by
  show done (if (s.running && decide (3 ≤ s.sys.discBad)) = true then _ else s) = _
  rw [h.run, decide_eq_false (Nat.not_le.2 hb)]
  rfl

/-- A Major fault in a calm state with the seal shut enters SAFE_HOLD (R60, R495). -/
theorem Calm.major {s : State} (h : Calm s) (hs : SealShut s) (code detail : Nat) (hc : faultClass code = 2) :
    ∃ t, done (raise code detail s) = .next t ∧ Halted 10 s t :=
  done_major code 0 detail false hc (le_trans (by decide) h.low) h.high h.minorTodo hs

/-- The seal's state rests on the register file alone. -/
theorem SealShut.congr {s t : State} (h : SealShut s) (hr : t.regs = s.regs) : SealShut t := by
  unfold SealShut State.bit at *
  rwa [rd_congr hr, rd_congr hr]

theorem SealShut.setPll {s : State} (h : SealShut s) (b : Bool) : SealShut (s.setB Reg.CLK.STATUS.PLL_LOCK b) := by
  unfold SealShut State.bit at *
  rwa [rd_setB_ne _ _ _ _ (by decide), rd_setB_ne _ _ _ _ (by decide)]

/-- The Keeper opens every LSE and asserts its inhibit line (R33). -/
def keeperOff (s : State) : State := { s with saf := { s.saf with kpr := { s.saf.kpr with lse := 0, pmi := false } } }

theorem keeperOff_calm {s : State} (h : Calm s) : Calm (keeperOff s) := h.congr rfl rfl rfl rfl rfl rfl rfl

theorem clkRootLost_effect {s : State} (h : Calm s) : exec .clkRootLost s = done (raise 0x8102 0 (keeperOff s)) :=
  go_unless h rfl

theorem clkPllUnlock_effect {s : State} (h : Calm s) :
    exec .clkPllUnlock s = done (raise 0x8101 0 (s.setB Reg.CLK.STATUS.PLL_LOCK false)) :=
  go_if h rfl

/-- Settles O21: the second edge by `secondCount`, the oscillator by `freeRun`, the lost clocks as Major faults. -/
theorem clockCountsAndFails : Obligations.ClockCountsAndFails := by
  unfold Obligations.ClockCountsAndFails
  refine ⟨fun n good s u v h hp hr ho hg hu hv => ?_,
    fun s h => ⟨fun o => ?_, ?_, fun hb o => ?_, fun hb => ?_, fun now r hr => ?_⟩, fun s h hs => ⟨?_, ?_⟩⟩
  · obtain rfl : u = ticked s := hu
    rw [rtcSecondEdge_next h hp hr ho, secondCount_eq n (ticked s) hg hv]
  · rw [rtcOscFail_effect h]
    exact opens_cause (freeRun_calm h true) _ _ (o.congr rfl) (by decide)
  · exact live_next h rfl rfl ((freeRun_calm h false).setCause _ _ _)
  · rw [clkDiscRange_bad h hb]
    exact opens_cause h _ _ o (by decide)
  · rw [clkDiscRange_fair h hb]
    exact done_calm h
  · subst hr
    exact running_next h rfl rfl ((h.wr _ _ (by decide) (by decide)).wr _ _ (by decide) (by decide))
  · rw [clkRootLost_effect h]
    exact (keeperOff_calm h).major (hs.congr rfl) _ _ (by decide)
  · rw [clkPllUnlock_effect h]
    exact Calm.major (h.setB _ _ (by decide) (by decide)) (hs.setPll false) _ _ (by decide)

end Sys2Proof.Machine
end

section
/-!
PROOF. The statements of the family of modes, startup and power (chapter 02): every command's answer (R57), Major and
Grave faults (R60, R355, R495), supplies and starts (R60, R64, R67 to R78), mode requests (R63, R65, R85), warm-through
and power fail (R62, R81 to R84, R155 to R161), shut-down and activation (R85, R86, R487), and boundaries (R198, R550).
-/
namespace Sys2Proof.Machine

/-- Settles O4: every meaning ends with the end of a step, which leaves the permitted outputs and clears the marks. -/
theorem everyCommandAnswers : Obligations.EveryCommandAnswers := by
  unfold Obligations.EveryCommandAnswers
  intro c s
  obtain ⟨u, hu⟩ := exec_settles c s
  exact ⟨settle u, hu, settle_outputs u, rfl⟩

theorem faultRaise_effect {s : State} (hr : s.running = true) (code : Fin 65536) (detail : Nat) :
    exec (.faultRaise code detail) s = done (raise code detail s) := by
  show done (if s.running = true then raise code detail s else s) = _
  rw [if_pos hr]

/-- Settles O8: the fault is raised in the running core, and a raised fault of its class is acted on to the end. -/
theorem majorAndGraveFaultsMakeTheOutputsSafe : Obligations.MajorAndGraveFaultsMakeTheOutputsSafe := by
  unfold Obligations.MajorAndGraveFaultsMakeTheOutputsSafe
  refine ⟨fun code detail s hr hc hlow hhigh hm hs => ?_, fun code detail s hr hc hlow hhigh hm hs => ?_⟩
  · rw [faultRaise_effect hr]
    exact done_major code 0 detail false hc hlow hhigh hm hs
  · rw [faultRaise_effect hr]
    exact done_grave code 0 detail false hc hlow hhigh hm hs

/-! ### Commands whose meaning is a choice -/

/-- A command whose condition holds is its effect, settled. -/
theorem ends_pos {c : Instr} {s x y : State} {p : Prop} [Decidable p] (e : exec c s = done (if p then x else y))
    (h : p) : exec c s = .next (settle x) := ends e (if_pos h)

/-- A command whose condition fails takes the other branch, settled. -/
theorem ends_neg {c : Instr} {s x y : State} {p : Prop} [Decidable p] (e : exec c s = done (if p then x else y))
    (h : ¬ p) : exec c s = .next (settle y) := ends e (if_neg h)

/-! ### What a reset of the core keeps (R64, R539, R576) -/

/-- Descriptors handed back are registers and drawn values alone (R539). -/
theorem descBacks_eq (l : List Nat) (t : State) :
    ∃ r n, l.foldl (fun t d => descBack d t) t = { t with regs := r, free := n } := by
  induction l generalizing t with
  | nil => exact ⟨_, _, rfl⟩
  | cons d l ih => exact ih (descBack d t)

/-- Beside its base, a reset of the core writes registers and draws values alone. -/
theorem coreReset_eq (held queue : Bool) (s : State) :
    ∃ r n, coreReset held queue s = { coreBase held queue s with regs := r, free := n } := by
  unfold coreReset
  dsimp only
  split
  · obtain ⟨r, n, h⟩ := descBacks_eq (s.hp.active.toList ++ s.hp.handed) (coreBase held queue s)
    rw [h]
    exact ⟨_, _, rfl⟩
  · exact ⟨_, _, rfl⟩

theorem coreBase_q15 (held queue : Bool) (s : State) :
    (coreBase held queue s).q 15 = if queue then s.q 15 else Queue.empty := by
  cases queue
  · rfl
  · exact mapGet_mapSet_same _ _ _ _

theorem coreBase_q0 (held queue : Bool) (s : State) : (coreBase held queue s).q 0 = Queue.empty := by
  cases queue
  · rfl
  · exact mapGet_mapSet_ne _ _ _ (by decide)

/-! ### Supplies and RESET_N (R60, R64, R67, R163) -/

theorem supplyGood_idle {f : StartFacts} {s : State}
    (h : (s.mode ≠ 0 ∧ s.sys.unpowered = false) ∨ s.sys.resetLow = true) : supplyGood f s = s :=
  if_pos (by simpa using h)

theorem supplyGood_loads {f : StartFacts} {s u v : State} (hp : s.mode = 0 ∨ s.sys.unpowered = true)
    (hr : s.sys.resetLow = false)
    (hu : u = ({ s with sys := { s.sys with unpowered := false } } : State).wr Reg.MODE.STATUS.MODE 0)
    (hv : v = ((u.setB Reg.PWR.STATUS.V08_OK true).setB Reg.PWR.STATUS.V18_OK true).setB Reg.PWR.STATUS.V33_OK true) :
    supplyGood f s = beginLoading Reg.PWR.CAUSE.POR 2 f (adjDiscard v) := by
  subst hv hu
  exact if_neg (by rcases hp with hp | hp <;> simp [hp, hr])

theorem coreUnderVoltage_idle {now : Nat} {s : State} (h : s.sys.unpowered = true ∨ s.mode = 0) :
    coreUnderVoltage now s = s := if_pos (by simpa using h)

/-- Core under-voltage of a powered core: stamped, reset, and DORMANT, or unpowered without VBAT (R60, R163). -/
theorem coreUnderVoltage_acts {now : Nat} {s u v w : State} (hp : s.sys.unpowered = false) (hm : s.mode ≠ 0)
    (hu : u = adjDiscard (flushCut s))
    (hv : v = coreReset false false { u with tmp := { u.tmp with
      uvStamp := some (s.readingAt now * 10), dormFrom := s.readingAt now * 10 } })
    (hw : w = (((v.setB Reg.PWR.STATUS.V08_OK false).setB Reg.PWR.STATUS.V18_OK false).setB Reg.PWR.STATUS.V33_OK
      false).wr Reg.MODE.STATUS.MODE 0) :
    coreUnderVoltage now s = if w.bit Reg.PWR.STATUS.VBAT_OK then w else aonLost w := by
  subst hw hv hu
  exact if_neg (by simp [hp, hm])

theorem resetLow_eq (s : State) {u : State}
    (hu : u = if s.sys.unpowered = true ∨ s.mode = 0 then s else coreReset true false (adjDiscard (flushCut s))) :
    resetLow s = { u with sys := { u.sys with resetLow := true } } := by
  subst hu
  simp [resetLow]

theorem resetRelease_low (f : StartFacts) {s u : State} (hr : s.sys.resetLow = true)
    (hu : u = { s with sys := { s.sys with resetLow := false } }) :
    resetRelease f s = if u.sys.unpowered || u.mode = 0 then u else beginLoading Reg.PWR.CAUSE.RESET_PIN 3 f u := by
  subst hu
  exact if_neg (by simp [hr])

/-! ### The image and the shelfmarks (R60, R74 to R77) -/

theorem imageLoaded_idle {a b : List Byte} {s : State}
    (h : ¬ (s.running = true ∧ s.mode = 1 ∧ s.sys.startStep = 4)) : imageLoaded a b s = s := if_pos (by grind)

/-- Step 5 of R69 in its order: the latch, the life cycle, the records and marks of the two copies, the choice between
them (R60, R74, R464, R497). -/
theorem imageLoaded_reads {a b : List Byte} {s u v : State} {ca cb : Nat} (hr : s.running = true) (hm : s.mode = 1)
    (hs : s.sys.startStep = 4) (hu : u = { s with sys := { s.sys with startStep := 5 } }) (ha : ca = imageCheck u a)
    (hb : cb = imageCheck u b)
    (hv : v = ((imageRecord 1 cb b (imageRecord 0 ca a u)).setB Reg.MODE.START.COPY_A_BAD (ca ≠ 0)).setB
      Reg.MODE.START.COPY_B_BAD (cb ≠ 0)) :
    imageLoaded a b s =
      if u.bit Reg.FLT.STATUS.LATCH then lockdownAtStart 0xC805 u
      else if u.lc = 5 then lockdownAtStart 0xC307 u
      else if u.lc = 0 then u
      else if ca = 0 && cb = 0 then (if leAt a 0x10 4 < leAt b 0x10 4 then imageAccept 1 b v else imageAccept 0 a v)
      else if ca = 0 then raise 0x4301 1 (imageAccept 0 a v)
      else if cb = 0 then raise 0x4301 0 (imageAccept 1 b v)
      else raiseCause 0x8302 0 v := by
  subst hv hb ha hu
  exact if_neg (by simp [hr, hm, hs])

theorem shelfComplete_idle {answers : List (Option (List Byte))} {sel : Nat} {s : State}
    (h : ¬ (s.running = true ∧ s.mode = 1 ∧ s.sys.startStep = 5 ∧ s.sys.imgValid = true)) :
    shelfComplete answers sel s = s := if_pos (by grind)

/-- Settles O52: each event by the operation it names; a core reset by its base, which the handed-back descriptors leave
but for registers and drawn values. -/
theorem suppliesResetsAndStarts : Obligations.SuppliesResetsAndStarts := by
  unfold Obligations.SuppliesResetsAndStarts
  refine ⟨fun s => ⟨?vbat, ?noVbat, ?lost, ?noLoss, ?good, ?under, ?low, ?release, ?kept⟩,
    fun s => ⟨?enter, ?begin, ?noImage, ?image, ?shelf, ?noShelf, ?enum, ?test⟩⟩
  case vbat => exact fun h => ends_pos rfl h
  case noVbat => exact fun h => ends_neg rfl (by simp [h])
  case lost => exact fun h => ends_pos rfl h
  case noLoss => exact fun h => ends_neg rfl (by simp [h])
  case good => exact fun f => ⟨fun h => ends rfl (supplyGood_idle h), fun hp hr u v hu hv =>
      ends rfl (supplyGood_loads hp hr hu hv)⟩
  case under =>
    refine fun now => ⟨fun h => ends rfl (coreUnderVoltage_idle h), fun u v w hp hm hu hv hw => ?_⟩
    have e := coreUnderVoltage_acts hp hm hu hv hw
    exact ⟨fun hb => ends rfl (e.trans (if_pos hb)), fun hb => ends rfl (e.trans (if_neg (by simp [hb])))⟩
  case low => exact fun u hu => ends rfl (resetLow_eq s hu)
  case release =>
    refine fun f => ⟨fun h => ends_pos rfl (by simp [h]), fun u hr hu => ?_⟩
    have e := resetRelease_low f hr hu
    refine ⟨fun h => ends rfl (e.trans (if_pos (by simpa using h))), fun hp hm => ?_⟩
    exact ends rfl (e.trans (if_neg (by simp [hp, hm])))
  case kept =>
    rintro held queue u rfl
    obtain ⟨r, n, h⟩ := coreReset_eq held queue s
    rw [h]
    exact ⟨rfl, rfl, rfl, rfl, rfl, rfl, rfl, rfl, rfl, rfl, rfl, coreBase_q15 held queue s,
      coreBase_q0 held queue s⟩
  case enter => exact fun _ _ _ => rfl
  case begin => exact fun _ _ _ => rfl
  case noImage => exact fun a b h => ends rfl (imageLoaded_idle h)
  case image =>
    intro a b u hr hm hs hu
    have e := imageLoaded_reads (a := a) (b := b) hr hm hs hu rfl rfl rfl
    refine ⟨fun hl => ?_, fun hl h5 => ?_, fun hl h0 => ?_, ?_⟩
    · exact ends rfl (by rw [e, if_pos hl])
    · exact ends rfl (by rw [e, if_neg (by simp [hl]), if_pos h5])
    · exact ends rfl (by rw [e, if_neg (by simp [hl]), if_neg (by omega), if_pos h0])
    · rintro hl h5 h0 ca cb v rfl rfl rfl
      rw [if_neg (by simp [hl]), if_neg h5, if_neg h0] at e
      refine ⟨fun ka kb lt => ?_, fun ka kb le => ?_, fun ka kb => ?_, fun ka kb => ?_, fun ka kb => ?_⟩
      · exact ends rfl (by rw [e, if_pos (by simp [ka, kb]), if_pos lt])
      · exact ends rfl (by rw [e, if_pos (by simp [ka, kb]), if_neg (by omega)])
      · exact ends rfl (by rw [e, if_neg (by simp [kb]), if_pos ka])
      · exact ends rfl (by rw [e, if_neg (by simp [ka]), if_neg ka, if_pos kb])
      · exact ends rfl (by rw [e, if_neg (by simp [ka]), if_neg ka, if_neg kb])
  case shelf =>
    rintro bus node bytes hr off k old rfl rfl rfl
    exact ends_neg rfl (by simp [hr])
  case noShelf => exact fun bus node bytes hr => ends_pos rfl (by simp [hr])
  case enum => exact fun answers sel => ⟨fun h => ends rfl (shelfComplete_idle h), fun hr hm hs hi =>
      ends_neg rfl (by simp [hr, hm, hs, hi])⟩
  case test =>
    rintro u rfl
    rfl

/-! ### Mode requests (R63, R65, R85) -/

/-- A request that is heard shows its code and its RESULT, and is carried out with RESULT 0 alone (R65). -/
theorem modeRequest_heard {a : Agent} {code min r : Nat} {lost here energ other : Bool} {act : State → State}
    {s : State} (h : s.modeWrites = true ∨ (s.running = true ∧ s.mode = 1))
    (hr : r = if s.level a < min then 2 else if !here then 1 else if energ then 3 else if other then 4
      else if lost then 5 else 0) :
    modeRequest a code min lost here energ other act s =
      if r = 0 then act ((s.wr Reg.MODE.REQ_STAT.LAST_CODE code).wr Reg.MODE.REQ_STAT.RESULT r)
      else raise 0x0306 0 ((s.wr Reg.MODE.REQ_STAT.LAST_CODE code).wr Reg.MODE.REQ_STAT.RESULT r) := by
  subst hr
  exact if_neg (by grind)

/-- A mode request answers by the order of R65, whatever its conditions and its effect. -/
theorem modeRequest_answers (a : Agent) (code min : Nat) (lost here energ other : Bool) (act : State → State)
    (s : State) : RequestAnswers (done (modeRequest a code min lost here energ other act s)) a code min lost here energ
      other act s := by
  refine ⟨fun hw hl => congrArg done (if_pos (by grind)), fun hw r hr => ?_⟩
  have e := modeRequest_heard (code := code) (act := act) hw hr
  refine ⟨fun refused => congrArg done (e.trans (if_neg refused)), fun carried => ?_⟩
  rw [carried] at e
  exact congrArg done (e.trans (if_pos rfl))

/-- The base mode decides where ACK leads (R63). -/
theorem ackTo_eq (s : State) : ackTo s =
    if s.sys.baseMode = 2 then restartTests 0 s
    else if s.sys.baseMode = 5 || s.sys.baseMode = 6 then
      (if 1 ≤ s.lc && s.lc ≤ 3 && s.commissioned then tamperSuspend (setMode s.opMode 0 0 s) else setMode 4 0 0 s)
    else setMode s.sys.baseMode 0 0 s := rfl

/-- Settles O49: every request is one `modeRequest` with its own conditions and effect, whose answer R65 orders. -/
theorem modeRequestsAnswer : Obligations.ModeRequestsAnswer := by
  unfold Obligations.ModeRequestsAnswer
  intro s a lost
  refine ⟨modeRequest_answers .., modeRequest_answers .., modeRequest_answers .., modeRequest_answers ..,
    fun f => modeRequest_answers .., fun cool hr => ?_, fun f => modeRequest_answers .., rfl, ?_⟩
  · have e : exec (.modeReqAck a lost cool) s = done (modeRequest a 6 1 lost ((diesCool cool s).mode = 10) false
        (diesCool cool s).majorCause (fun u => ackTo (warmStop (closeWhere (fun e => 2 ≤ e.cls) 2 u)))
        (diesCool cool s)) := by
      show done (reqAck a lost cool s) = _
      unfold reqAck
      rw [if_pos hr]
    rw [e]
    exact modeRequest_answers ..
  · rintro b rfl
    refine ⟨fun h2 => ?_, fun h56 hlow hhigh hc => ?_, fun h56 hn => ?_, fun h2 h5 h6 => ?_⟩ <;> rw [ackTo_eq]
    · rw [if_pos h2]
    · rw [if_neg (by omega), if_pos (by simpa using h56), if_pos (by simp [hlow, hhigh, hc])]
    · rw [if_neg (by omega), if_pos (by simpa using h56), if_neg (by simpa [and_assoc] using hn)]
    · rw [if_neg h2, if_neg (by simp [h5, h6])]

/-! ### The end of START_TEST and warm-through (R60, R62, R67, R81, R82) -/

theorem startPassed_idle {ms : Nat} {s : State}
    (h : ¬ (s.running = true ∧ s.mode = 2 ∧ s.sys.startStep = 8 ∧ s.bist.lane0 = none ∧ s.bist.lane1 = none)) :
    startPassed ms s = s := if_pos (by grind [Option.isNone_iff_eq_none])

/-- Passed tests lead to the mode of R60, with its START record (R67, R509). -/
theorem startPassed_enters {ms : Nat} {s u v : State}
    (h : s.running = true ∧ s.mode = 2 ∧ s.sys.startStep = 8 ∧ s.bist.lane0 = none ∧ s.bist.lane1 = none)
    (hu : u = (forEach 3 monitorJudge s).wr Reg.MODE.START.START_MS (min 65535 ms))
    (hv : v = if Nat.testBit (u.cfg 9 0 1) 2 then u.setB Reg.DPY.STATUS.REQ_ON true else u) :
    startPassed ms s = startRecord v.afterTest (min 65535 ms) (tamperSuspend (setMode v.afterTest 5 0 v)) := by
  subst hv hu
  exact if_neg (by simp [h])

theorem runtimeReady_idle {s : State} (h : s.running = false ∨ s.bit Reg.MODE.STATUS.PARKED = true) :
    runtimeReady s = s := if_pos (by simpa using h)

/-- A ready runtime ends warm-through, is step 9 of R69, and takes the vehicle link's frames. -/
theorem runtimeReady_takes {s u v w : State} (hr : s.running = true) (hp : s.bit Reg.MODE.STATUS.PARKED = false)
    (hu : u = setCause 0x8304 0 false (warmStop (s.setB Reg.MODE.STATUS.APP_DOWN false)))
    (hv : v = if u.mode = 8 then modeBack u.sys.warmReturn 6 u else u)
    (hw : w = if 3 ≤ v.mode ∧ v.sys.startStep = 8 then { v with sys := { v.sys with startStep := 9 } } else v) :
    runtimeReady s = vplDeliver w := by
  subst hw hv hu
  unfold runtimeReady
  rw [if_neg (by simp [hr, hp])]
  simp only [Bool.and_eq_true, decide_eq_true_eq]

theorem appReset_idle {s : State} (h : s.running = false ∨ s.bit Reg.MODE.STATUS.PARKED = true) : appReset s = s :=
  if_pos (by simpa using h)

/-- The warm-through timer started, to return to the mode `back` (R81). -/
def warmStarted (back : Nat) (s : State) : State :=
  { s with sys := { s.sys with warmRun := true, warmMax := 0, warmLost := false, warmReturn := back } }

/-- A reset of the cluster is counted, and what follows depends on the mode (R62, R81). -/
theorem appReset_counts {s u : State} (hr : s.running = true) (hp : s.bit Reg.MODE.STATUS.PARKED = false)
    (hu : u = (s.inc Reg.MODE.WARM.APP_RESETS).setB Reg.MODE.STATUS.APP_DOWN true) :
    appReset s = if 4 ≤ u.mode && u.mode ≤ 7 then warmShow (setMode 8 6 0 (warmStarted u.mode u))
      else if u.mode = 9 && !u.sys.warmRun && decide (4 ≤ u.sys.rideReturn ∧ u.sys.rideReturn ≤ 7) then
        warmStarted u.sys.rideReturn u
      else u := by
  subst hu
  exact if_neg (by simp [hr, hp])

theorem warmMaxReached_idle {s : State}
    (h : s.running = false ∨ s.sys.warmRun = false ∨ s.sys.warmMax ≠ 0 ∨ (s.mode ≠ 8 ∧ s.mode ≠ 9)) :
    warmMaxReached s = s := by
  unfold warmMaxReached
  grind

/-- WARM_MAX suspends the energising carrels in WARM_THROUGH, and is noted in RIDE_THROUGH (R82). -/
theorem warmMaxReached_acts {s : State} (hr : s.running = true) (hw : s.sys.warmRun = true) (h0 : s.sys.warmMax = 0) :
    warmMaxReached s = if s.mode = 8 then warmMaxActs s
      else if s.mode = 9 then { s with sys := { s.sys with warmMax := 1 } } else s := if_neg (by simp [hr, hw, h0])

theorem warmTimeout_idle {s : State} (h : s.running = false ∨ s.sys.warmRun = false ∨ (s.mode ≠ 8 ∧ s.mode ≠ 9)) :
    warmTimeout s = s := by
  unfold warmTimeout
  grind

/-- 60 s without a ready runtime is lost in WARM_THROUGH, and noted in RIDE_THROUGH (R62). -/
theorem warmTimeout_acts {s : State} (hr : s.running = true) (hw : s.sys.warmRun = true) :
    warmTimeout s = if s.mode = 8 then appLost s
      else if s.mode = 9 then { s with sys := { s.sys with warmLost := true } } else s := if_neg (by simp [hr, hw])

/-! ### Power fail, its flush and ride-through (R84, R155 to R161) -/

/-- A source that goes low is shown; a warning is taken of an enabled source, and of one at a time (R84, R158). -/
theorem pfWarning_ignored {pf va : Bool} {now ms : Nat} {s u v : State} (hr : s.running = true)
    (hu : u = if pf then s.setB Reg.PWR.STATUS.PF_PIN false else s)
    (hv : v = if va then u.setB Reg.PWR.STATUS.VAUX_OK false else u)
    (h : (¬ (pf = true ∧ v.pfSrc % 2 = 1) ∧ ¬ (va = true ∧ v.pfSrc / 2 % 2 = 1)) ∨ v.bit Reg.MODE.STATUS.PF = true) :
    pfWarning pf va now ms s = v := by
  subst hv hu
  exact (if_neg (by simp [hr])).trans (if_pos (by grind))

theorem pfWarning_taken {pf va : Bool} {now ms : Nat} {s u v x y : State} (hr : s.running = true)
    (hu : u = if pf then s.setB Reg.PWR.STATUS.PF_PIN false else s)
    (hv : v = if va then u.setB Reg.PWR.STATUS.VAUX_OK false else u)
    (h : (pf = true ∧ v.pfSrc % 2 = 1) ∨ (va = true ∧ v.pfSrc / 2 % 2 = 1)) (hp : v.bit Reg.MODE.STATUS.PF = false)
    (hx : x = (v.setB Reg.MODE.STATUS.PF true).inc Reg.PWR.PF_STAT.COUNT)
    (hy : y = shutEnds (testsStop (pqCloseAll ms { x with
      tmp := { x.tmp with pfStamp := some (v.readingAt now * 10) }, sys := { x.sys with flushing := true } }))) :
    pfWarning pf va now ms s = (if 2 ≤ y.mode && y.mode ≤ 8 then
      (setMode 9 2 0 { y with sys := { y.sys with rideReturn := y.mode } }).wr Reg.MODE.WARM.REMAIN_MS 0
      else y).startDrain := by
  subst hy hx hv hu
  unfold pfWarning
  rw [if_neg (by simp [hr])]
  exact if_neg (by grind)

theorem flushComplete_acts {us : Nat} {s u : State} (hr : s.running = true) (hf : s.sys.flushing = true)
    (hu : u = drainEnds (commitAll s)) :
    flushComplete us s = tagSnapshot (({ u with sys := { u.sys with flushing := false } } : State).wr
      Reg.PWR.PF_STAT.LAST_US (min 65535 us)) := by
  subst hu
  exact if_neg (by simp [hr, hf])

theorem partialClose_empty (d : List MeterDft) (h : HarmWindow) {s : State} (hn : s.nq = 0) :
    partialClose d h s = persist true s := by
  unfold partialClose
  rw [if_pos hn]

/-- The partial quantum is booked, and its folio waits (R161). -/
theorem partialClose_books {d : List MeterDft} {h : HarmWindow} {s u : State} (hn : s.nq ≠ 0)
    (hu : u = bookQuantum true s.reading (closeQuantum true d h s)) :
    partialClose d h s = persist true { u with sys := { u.sys with splitQ := true } } := by
  rw [hu]
  unfold partialClose
  rw [if_neg hn]

/-- The sources are clear again: their marks, then what RIDE_THROUGH interrupted (R62, R160). -/
theorem rideEnd_clears {s u v w : State} (hr : s.running = true) (hp : s.bit Reg.MODE.STATUS.PF = true)
    (hu : u = s.setB Reg.MODE.STATUS.PF false)
    (hv : v = if u.pfSrc % 2 = 1 then u.setB Reg.PWR.STATUS.PF_PIN true else u)
    (hw : w = if v.pfSrc / 2 % 2 = 1 then v.setB Reg.PWR.STATUS.VAUX_OK true else v) :
    rideEnd s = if w.mode ≠ 9 then w
      else if w.sys.rideReturn = 2 then restartTests 2 w
      else if w.sys.warmRun then warmResume w
      else modeBack (if w.sys.rideReturn = 8 then w.sys.warmReturn else w.sys.rideReturn) 2 w := by
  subst hw hv hu
  exact if_neg (by simp [hr, hp])

theorem folioCommit_none {s : State} (hw : s.per.waiting = []) : exec .folioCommit s = done s := by
  show execFolioCommit s = _
  unfold execFolioCommit
  rw [hw]

/-- The folio that waits longest is committed by its commit word, one of a flush with the flush (R155, R159). -/
theorem folioCommit_waiting {s : State} {x : Folio × Bool} {r : List (Folio × Bool)} (hw : s.per.waiting = x :: r) :
    exec .folioCommit s = done (if x.1.flush || s.sys.unpowered || s.mode = 0 then s
      else folioCommit1 x.1 { s with per := { s.per with waiting := r } }) := by
  show execFolioCommit s = _
  unfold execFolioCommit folioCommit
  rw [hw]

/-- Settles O50: each event by its guard and by what it does once it acts. -/
theorem warmThroughAndPowerFail : Obligations.WarmThroughAndPowerFail := by
  unfold Obligations.WarmThroughAndPowerFail
  refine ⟨fun s => ⟨?passed, ?notReady, ?running, ?noMax, ?max, ?noTimeout, ?timeout⟩,
    fun s => ⟨?stopped, ?warning, ?partialQuantum, ?flush, ?noRide, ?ride, ?noFolio, ?folio⟩⟩
  case passed => exact fun ms => ⟨fun h u v hu hv => ends rfl (startPassed_enters h hu hv), fun h =>
    ends rfl (startPassed_idle h)⟩
  case notReady => exact fun h => ⟨ends rfl (runtimeReady_idle h), ends rfl (appReset_idle h)⟩
  case running =>
    refine fun hr hp => ⟨fun u v w hu hv hw => ends rfl (runtimeReady_takes hr hp hu hv hw),
      fun u start hu hs => ?_⟩
    have e := appReset_counts hr hp hu
    rw [hs]
    refine ⟨fun low high => ?_, fun h9 hw low high => ?_, fun hm hx => ?_⟩
    · exact ends rfl (e.trans (if_pos (by simp [low, high])))
    · exact ends rfl (e.trans ((if_neg (by simp [h9])).trans (if_pos (by simp [h9, hw, low, high]))))
    · exact ends rfl (e.trans ((if_neg (by simpa using hm)).trans (if_neg (by simpa [and_assoc] using hx))))
  case noMax => exact fun h => ends rfl (warmMaxReached_idle h)
  case max =>
    intro hr hw h0
    have e := warmMaxReached_acts hr hw h0
    exact ⟨fun h8 => ends rfl (by rw [e, if_pos h8]; rfl), fun h9 => ends rfl (by rw [e, if_neg (by omega), if_pos h9])⟩
  case noTimeout => exact fun h => ends rfl (warmTimeout_idle h)
  case timeout =>
    intro hr hw
    have e := warmTimeout_acts hr hw
    exact ⟨fun h8 => ends rfl (by rw [e, if_pos h8]; rfl), fun h9 => ends rfl (by rw [e, if_neg (by omega), if_pos h9])⟩
  case stopped => exact fun pf va now ms hr => ends_pos rfl (by simp [hr])
  case warning =>
    refine fun pf va now ms u v w hr hu hv => ⟨fun h => ends rfl (pfWarning_ignored hr hu hv h),
      fun h hp x y hx hy => ?_⟩
    have e := pfWarning_taken hr hu hv h hp hx hy
    refine ⟨fun low high => ?_, fun hm => ?_⟩
    · exact ends rfl (by rw [e, if_pos (by simp [low, high])])
    · exact ends rfl (by rw [e, if_neg (by simpa using hm)])
  case partialQuantum =>
    refine fun d h => ⟨fun ⟨hr, hf, hm, hw⟩ => ?_, fun hn => ends_neg rfl (by simpa [and_assoc] using hn)⟩
    have e : exec (.partialQuantumClose d h) s = .next (settle (partialClose d h s)) :=
      ends_pos rfl (by simpa [hr, hf, hm] using hw)
    exact ⟨fun h0 => by rw [e, partialClose_empty d h h0], fun hn u hu => by rw [e, partialClose_books hn hu]⟩
  case flush => exact fun us => ⟨fun h => ends_pos rfl (by simpa using h), fun u hr hf hu =>
    ends rfl (flushComplete_acts hr hf hu)⟩
  case noRide => exact fun h => ends_pos rfl (by simpa using h)
  case ride =>
    intro u v w hr hp hu hv hw
    have e := rideEnd_clears hr hp hu hv hw
    refine ⟨fun hm => ?_, fun hm h2 => ?_, fun hm h2 hs => ?_, fun hm h2 hs => ?_⟩ <;> refine ends rfl (e.trans ?_)
    · rw [if_pos hm]
    · rw [if_neg (by simp [hm]), if_pos h2]
    · rw [if_neg (by simp [hm]), if_neg h2, if_pos hs]
    · rw [if_neg (by simp [hm]), if_neg h2, if_neg (by simp [hs])]
  case noFolio => exact folioCommit_none
  case folio =>
    refine fun x r hw => ⟨fun h => ?_, fun hf hp hm => ?_⟩ <;> rw [folioCommit_waiting hw]
    · rw [if_pos (by simpa [or_assoc] using h)]
      rfl
    · rw [if_neg (by simp [hf, hp, hm])]
      rfl

/-! ### Controlled shut-down (R78, R85, R86, R523) -/

theorem shutTested_idle {l : List BistResult} {s : State}
    (h : ¬ (s.running = true ∧ (s.mode = 7 ∨ s.mode = 10) ∧ s.sys.shutStep = 4)) : shutTested l s = s :=
  if_pos (by grind)

/-- The four groups judged after the secrets are cleared; only a passed test leaves a credit, and a failed one leaves
the spares and repairs as they were (R78, R85). -/
theorem shutTested_judges {l : List BistResult} {s u : State} {p : State × Bool}
    (h : s.running = true ∧ (s.mode = 7 ∨ s.mode = 10) ∧ s.sys.shutStep = 4)
    (hp : p = (([2, 3, 0, 1] : List Nat).zip l).foldl shutGroup (secretsClear s, decide (4 ≤ l.length)))
    (hu : u = ({ p.1 with sys := { p.1.sys with shutStep := 6 }
                          key := { p.1.key with locked := p.1.bist.scan } } : State).setB Reg.BIST.STATUS.SHUT_PASS p.2) :
    shutTested l s = if p.2 then creditWrite u
      else raise 0x4A05 0 ((u.mapBist fun b => { b with spares := s.bist.spares }).setWord Reg.BIST.REPAIR.SOFT.addr
        (s.word Reg.BIST.REPAIR.SOFT.addr)) := by
  rw [hu, hp]
  exact if_neg (by grind)

theorem shutPark_idle {s : State} (h : ¬ (s.running = true ∧ (s.mode = 7 ∨ s.mode = 10) ∧ s.sys.shutStep = 6)) :
    shutPark s = s := if_pos (by grind)

/-- Step 7 of R85: PARKED, and a node of the backbone listens. -/
theorem shutPark_parks {s u v : State} (hr : s.running = true) (hm : s.mode = 7 ∨ s.mode = 10)
    (hs : s.sys.shutStep = 6)
    (hu : u = (s.setB Reg.MODE.STATUS.PARKED true).setB Reg.MODE.STATUS.APP_DOWN true)
    (hv : v = { u with sys := { u.sys with shutStep := 7 } }) :
    shutPark s = if v.role = 0 then v else bbnListen v := by
  rw [hv, hu]
  exact if_neg (by grind)

/-! ### The life-cycle request (R462) -/

/-- A transition that R462 names is judged by level, mode and condition, in this order. -/
theorem lcRequest_judged {a : Agent} {target l : Nat} {s : State} (h : s.modeWrites = true ∨ s.mode = 1)
    (hl : lcLevel s.key.lc target = some l) :
    lcRequest a target s = if s.level a < l then keyResult 0xFF 1 s
      else if target = 3 && s.mode ≠ 4 then keyResult 0xFF 3 s
      else if !lcCondition s.key.lc target s then keyResult 0xFF 12 s
      else keyResult 0xFF 0 (s.wr Reg.KEY.STATUS.LC_PEND target) := by
  unfold lcRequest
  rw [if_neg (by grind)]
  simp only [hl]
  rfl

theorem lcRequest_unnamed {a : Agent} {target : Nat} {s : State} (h : s.modeWrites = true ∨ s.mode = 1)
    (hl : lcLevel s.key.lc target = none) : lcRequest a target s = keyResult 0xFF 11 s := by
  unfold lcRequest
  rw [if_neg (by grind)]
  simp only [hl]

/-! ### The activation of an update (R486, R487) -/

theorem activation_idle {f : StartFacts} {d : List MeterDft} {h : HarmWindow} {now : Nat} {s : State}
    (hi : s.running = false ∨ s.rd Reg.UPD.STATUS.STATE ≠ 4 ∨
      (s.rd Reg.UPD.STATUS.POLICY = 2 ∧ s.voteGood = false)) : activation f d h now s = s := by
  unfold activation
  grind

/-- An armed update at its instant is checked once more: it fails with code 13, or activates (R487). -/
theorem activation_checks {f : StartFacts} {d : List MeterDft} {h : HarmWindow} {now : Nat} {s : State}
    (hr : s.running = true) (hs : s.rd Reg.UPD.STATUS.STATE = 4)
    (hp : s.rd Reg.UPD.STATUS.POLICY = 2 → s.voteGood = true) :
    activation f d h now s = if !s.activationOk then
        raise 0x4D05 0 ((freeOwner 3 (updEnter 3 (s.setBank s.idle { s.bank s.idle with armed := none }))).wr
          Reg.UPD.RESULT.CHECK 13)
      else activate f d h now s := by
  unfold activation
  rw [if_neg (by simp [hr, hs]), if_neg (by grind)]

/-! ### Supply monitors (R67) -/

theorem monitorChange_unpowered {k : Nat} {ok : Bool} {s : State} (hp : s.sys.unpowered = true) :
    monitorChange k ok s = s := if_pos hp

/-- A monitor's bit is shown; what it feeds is judged from mode 3 on, the display in every mode of the running core. -/
theorem monitorChange_powered {k : Nat} {ok : Bool} {s u : State} (hp : s.sys.unpowered = false)
    (hu : u = s.setB (monitorBit k) ok) :
    monitorChange k ok s = if !u.running || u.mode < 3 || k = 3 then (if u.running && k = 2 then dpyJudge u else u)
      else if k = 2 then dpyJudge (monitorJudge k u) else monitorJudge k u := by
  rw [hu]
  exact if_neg (by simp [hp])

/-- Settles O51: each step by its guard, and by what it does in its place of the sequence. -/
theorem shutdownAndActivation : Obligations.ShutdownAndActivation := by
  unfold Obligations.ShutdownAndActivation
  refine fun s => ⟨?curator, ?tested, ?park, ?parkMax, ?lcAll, ?lc, ?activation, ?junction, ?monitor⟩
  case curator => exact fun hr => ends_pos rfl hr
  case tested =>
    refine fun l => ⟨fun h p u hp hu => ?_, fun h => ends rfl (shutTested_idle h)⟩
    have e := shutTested_judges h hp hu
    exact ⟨fun ok => ends rfl (e.trans (if_pos ok)), fun bad => ends rfl (e.trans (if_neg (by simp [bad])))⟩
  case park =>
    refine fun u v hu hv => ⟨fun h => ends rfl (shutPark_idle h), fun hr hm hs => ?_⟩
    have e := shutPark_parks hr hm hs hu hv
    exact ⟨fun h0 => ends rfl (e.trans (if_pos h0)), fun h0 => ends rfl (e.trans (if_neg h0))⟩
  case parkMax => exact fun f => ⟨fun h => ends_pos rfl (by simp [h]), fun h =>
    ends_neg rfl (by simpa [and_assoc] using h)⟩
  case lcAll =>
    rintro a target f u rfl
    exact ⟨fun h => ends_pos rfl (by simp [h]), fun h => ends_neg rfl (by simpa [and_assoc] using h)⟩
  case lc =>
    refine fun a target h => ⟨lcRequest_unnamed h, fun l hl => ?_⟩
    have e := lcRequest_judged (a := a) h hl
    refine ⟨fun low => ?_, fun hi h3 hm => ?_, fun hi hm => ⟨fun hc => ?_, fun hc => ?_⟩⟩ <;> rw [e]
    · rw [if_pos low]
    · rw [if_neg (by omega), if_pos (by simp [h3, hm])]
    · rw [if_neg (by omega), if_neg (by simpa using hm), if_pos (by simp [hc])]
    · rw [if_neg (by omega), if_neg (by simpa using hm), if_neg (by simp [hc])]
  case activation =>
    refine fun f d h now => ⟨fun hi => ends rfl (activation_idle hi), fun hr hs hp => ?_⟩
    have e := activation_checks (f := f) (d := d) (h := h) (now := now.val) hr hs hp
    refine ⟨fun bad => ends rfl (e.trans (if_pos (by simp [bad]))), fun ok u v hu hv => ?_⟩
    rw [hv, hu]
    exact ends rfl (e.trans (if_neg (by simp [ok])))
  case junction => exact fun die t hr => ⟨ends_pos rfl hr, ends_pos rfl hr⟩
  case monitor =>
    refine fun k ok => ⟨fun hp => ends rfl (monitorChange_unpowered hp), fun u hp hu => ?_⟩
    have e := monitorChange_powered hp hu
    refine ⟨fun h => ?_, fun hr hm h2 => ?_, fun hr hm => ⟨fun h2 => ?_, fun h2 => ?_⟩⟩ <;>
      refine ends rfl (e.trans ?_)
    · rw [if_pos (by grind), if_neg (by grind)]
    · rw [if_pos (by simp [hm]), if_pos (by simp [hr, h2])]
    · rw [if_neg (by simp [hr, hm, h2]), if_pos (by simp [h2]), h2]
      rfl
    · rw [if_neg (by grind), if_neg (by omega)]

/-! ### Quantum boundaries (R70, R156, R198) -/

/-- A boundary while metering runs: the work of R198, DEGRADED's end, a commit, the display, the next quantum. -/
theorem quantumBoundary_adjusted {stepped : Bool} {s u : State} (hr : s.running = true)
    (ha : adjApply (boundaryTick (persistLate s)) = (stepped, u)) :
    quantumBoundary s = if !u.bit Reg.MET.STATUS.RUN then u
      else quantumStarts (bilShow (bdyRequests (commitInForce (degradedEnds (boundaryWork stepped u))))) := by
  unfold quantumBoundary
  rw [if_neg (by simp [hr]), ha]

/-- The work of R198 in its order: booking and carrels, demand, period, tariff, binding, the high-water mark,
persistence. -/
theorem boundaryWork_eq {stepped : Bool} {coming : Option (List Byte)} {s t u v : State}
    (ht : t = carrelStep (s.carrelsWhere fun c => c.st = 5) (bookQuantum false s.reading s))
    (hc : coming = t.armedDue s.reading)
    (hu : u = stepTariff coming s.reading (stepPeriod coming s.reading (stepDemand stepped coming s.reading t)))
    (hv : v = bindBoundary s.reading u.tar.periodClosed u.tar.demandClosed u) :
    boundaryWork stepped s = persist false (hwmAdvance s.reading
      { v with tar := { v.tar with periodClosed := false, demandClosed := false } }) := by
  rw [hv, hu, hc, ht]
  rfl

theorem firstBoundary_idle {loads : List (List Nat)} {bad : List Nat} {s : State}
    (h : ¬ (s.running = true ∧ s.mode = 2 ∧ s.sys.startStep = 7)) : firstBoundary loads bad s = s := if_pos (by grind)

/-- Step 8 of R69 at the first boundary: folio and time, the legal set, losses and their records, billing, outlets,
carrels, sessions, safety, backbone, tag and display (R70). -/
theorem firstBoundary_restores {loads : List (List Nat)} {bad : List Nat} {s t u v w x : State} (hr : s.running = true)
    (hm : s.mode = 2) (hs : s.sys.startStep = 7)
    (ht : t = { s.setB Reg.MET.STATUS.RUN true with sys := { s.sys with startStep := 8 } })
    (hu : u = legalSelect (timeRestore (folioRestore (boundaryTick t))))
    (hv : v = billingStart (sealLatched (fifoWrite (battReport (lossCheck u)))))
    (hw : w = forEach 256 (carrelRestore bad) (forEach 16 (outletStart loads) v))
    (hx : x = crlWatch (sessionRestore bad w)) :
    firstBoundary loads bad s = quantumStarts (bdyRecover (tagStart (bbnStart (safStart x)))) := by
  rw [hx, hw, hv, hu, ht]
  exact if_neg (by simp [hr, hm, hs])

/-! ### Binding instants (R59, R550, R551) -/

theorem bindNow_idle {k : Nat} {s : State} {b : BindSet} (hb : b = s.bset k)
    (h : b.st ≠ 2 ∨ 2 ≤ b.owner ∨ s.running = false ∨ s.mode = 11) : bindNow k s = s := by
  subst hb
  exact if_pos (by grind)

/-- A pending set whose instant has come: held back in the modes of R59, else bound when its check passes. -/
theorem bindNow_judged {k : Nat} {s : State} {b : BindSet} (hb : b = s.bset k) (hs : b.st = 2) (ho : b.owner < 2)
    (hr : s.running = true) (hm : s.mode ≠ 11) :
    bindNow k s = if b.heldBack && (s.mode = 8 || s.mode = 9) then s.setBset k { b with deferred := true }
      else if b.heldBack && s.mode = 10 then bindRefuse k s
      else (checkFails s b.staged).elim
        (bindFollow s b.staged ((putAll b.staged (s.setBset k BindSet.empty)).setFlag Reg.HP.IRQ_STATUS.SRC 1 true))
        fun a => bindRefuse k (s.wr Reg.BND.FAIL_ADDR.VALUE a) := by
  subst hb
  unfold bindNow
  rw [if_neg (by grind)]
  cases checkFails s (s.bset k).staged <;> rfl

/-- Settles O53: each boundary by the order of its work, each instant by the mode and the check of its set. -/
theorem boundariesWorkInOrder : Obligations.BoundariesWorkInOrder := by
  unfold Obligations.BoundariesWorkInOrder
  refine fun s => ⟨?still, ?boundary, ?work, ?first, ?instant⟩
  case still => exact fun hr => ends_pos rfl (by simp [hr])
  case boundary =>
    intro stepped u hr ha
    have e := quantumBoundary_adjusted hr ha
    exact ⟨fun h => ends rfl (e.trans (if_pos (by simp [h]))), fun h => ends rfl (e.trans (if_neg (by simp [h])))⟩
  case work => exact fun stepped coming t u ht hc hu v hv => boundaryWork_eq ht hc hu hv
  case first => exact fun loads bad => ⟨fun h => ends rfl (firstBoundary_idle h),
    fun hr hm hs t u v w x ht hu hv hw hx => ends rfl (firstBoundary_restores hr hm hs ht hu hv hw hx)⟩
  case instant =>
    refine fun k b hb => ⟨fun h => ?_, fun hi hs ho hr hm => ?_⟩
    · rcases h with hi | hn
      · exact ends_neg rfl (by simp [← hb, hi])
      · exact ends rfl (by rw [bindNow_idle hb hn, ite_self])
    · have e := bindNow_judged hb hs ho hr hm
      have binds : exec (.bindInstant k) s = .next (settle (bindNow k s)) := ends_pos rfl (by rw [← hb, hi])
      rw [binds, e]
      refine ⟨fun held h89 => ?_, fun held h10 => ?_, fun free => ⟨fun a hc => ?_, fun hc => ?_⟩⟩
      · rw [if_pos (by simp [held, h89])]
      · rw [if_neg (by simp [h10]), if_pos (by simp [held, h10])]
      · rw [if_neg (by grind), if_neg (by grind), hc]
        rfl
      · rw [if_neg (by grind), if_neg (by grind), hc]
        rfl

end Sys2Proof.Machine
end

section
/-!
PROOF. The statements of the family of metrology inputs (chapter 03): sensor links and samples (R91 to R104, R113, R172),
and the close of a quantum with the source of each phase, its energies and its verdicts (R106 to R114, R131, R139 to R143).
-/
namespace Sys2Proof.Machine

/-! ### Events of the core die while it runs -/

/-- An event of the core die is, while the core runs, its effect, settled. -/
theorem ends_live {c : Instr} {f : State → State} {s x : State} (hr : s.running = true)
    (e : exec c s = done (live f s)) (k : f s = x) : exec c s = .next (settle x) :=
  ends_if hr e k

/-! ### Sensor links and samples (R93, R94, R96, R113) -/

/-- A phase on its reference for the link alone is verified anew when the link is back (R113). -/
theorem linkBack_verifies {x : MetPh} (hs : x.src = 1) (hl : Nat.testBit x.cause 1 = true)
    (hc : putBit x.cause 1 false = 0) : linkBack x = { x with cause := 0, src := 2, agree := 0 } := by
  simp [linkBack, hs, hl, hc]

/-- A phase that is not on its reference loses the cause alone. -/
theorem linkBack_keeps {x : MetPh} (hs : x.src ≠ 1) : linkBack x = { x with cause := putBit x.cause 1 false } :=
  if_neg (by simp [hs])

/-- A channel that is not enabled, or whose source gives nothing, takes no sample (R88). -/
theorem sampleChannel_none {mb ain : List (Nat × Int)} {c : Nat} {s : State} {row : SMap Int}
    (h : Nat.testBit (s.inForce (0x100 + c) 0 4) 31 = false ∨ s.rawSample mb ain c = none) :
    sampleChannel mb ain c (s, row) = (s, row) := by
  unfold sampleChannel
  rcases h with off | silent
  · simp [off]
  · simp [silent]

/-! ### Sources and energies (R108, R131, R139) -/

/-- Only a quantum in which neither channel is usable books nothing (R108). -/
theorem decideSource_books {src : Nat} {pU rU tenth : Bool} (h : pU = true ∨ rU = true) :
    (decideSource src pU rU tenth).1 < 2 := by
  unfold decideSource
  rcases h with rfl | rfl <;> grind

/-- Rounding half away from zero moves a figure by at most a half. -/
theorem roundHalfAway_near (x : Rat) : -(1 / 2) ≤ x - roundHalfAway x ∧ x - roundHalfAway x ≤ 1 / 2 := by
  have near (y : Rat) : ((y + 1 / 2).floor : Rat) ≤ y + 1 / 2 ∧ y - 1 / 2 < (y + 1 / 2).floor :=
    ⟨Rat.floor_le _, by linarith [Rat.lt_floor (x := y + 1 / 2)]⟩
  unfold roundHalfAway
  split
  · have ⟨low, high⟩ := near x
    constructor <;> linarith
  · have ⟨low, high⟩ := near (-x)
    push_cast
    constructor <;> linarith

/-- An energy is rounded with its carry, and what the rounding leaves is the new carry (R131). -/
theorem bookEnergy_some {m ph q : Nat} {s : State} {e x : Rat}
    (hx : x = e + mapGet (fun _ => (0 : Rat)) s.met.carry (carryKey m ph q)) :
    bookEnergy m ph q (some e) s = (roundHalfAway x, { s with met := { s.met with
      carry := mapSet (fun _ => (0 : Rat)) s.met.carry (carryKey m ph q) (x - roundHalfAway x) } }) := by
  subst hx
  rfl

/-- The direction is the sign of the energy (R139). -/
theorem direction_sign (e : Int) :
    (0 < e → direction e = 1) ∧ (e = 0 → direction e = 0) ∧ (e < 0 → direction e = 2) := by
  unfold direction
  refine ⟨fun h => if_pos h, fun h => by simp [h], fun h => ?_⟩
  rw [if_neg (by omega), if_pos h]

/-! ### The accuracy test (R114) -/

theorem accStart_idle {s : State} (h : s.mode = 9 ∨ s.bit Reg.MET.TEST_STAT.RUNNING = true ∨
    s.bit Reg.MET.STATUS.RUN = false) : accStart s = s := if_pos (by simpa [or_assoc] using h)

/-- The test starts, with no quantum counted, for each phase of `l`: those with a reference that are on their primary. -/
theorem accStart_starts {s : State} {l : List Nat} (hm : s.mode ≠ 9) (ht : s.bit Reg.MET.TEST_STAT.RUNNING = false)
    (hr : s.bit Reg.MET.STATUS.RUN = true)
    (hl : l = ((List.range 68).filter fun i => s.meterType (i / 4) ≠ 0 && i % 4 < s.phases (i / 4) &&
      (s.reference (i / 4) (i % 4)).isSome && (s.phase (i / 4) (i % 4)).src = 0)) :
    accStart s = ({ s with met := { s.met with test := some ⟨l.map fun i => (i, 0, 0, 0), 0⟩ } } : State).setB
      Reg.MET.TEST_STAT.RUNNING true := by
  subst hl
  exact if_neg (by simp [hm, ht, hr])

theorem accuracyTestEnd_none {s : State} (hr : s.running = true) (ht : s.met.test = none) :
    exec .accuracyTestEnd s = .next (settle s) := ends_live hr rfl (by rw [ht])

/-- A test under way ends once its quanta have passed or every phase has its counting quanta. -/
theorem accuracyTestEnd_some {s : State} {t : AccTest} (hr : s.running = true) (ht : s.met.test = some t) :
    exec .accuracyTestEnd s = .next (settle
      (if 6000 ≤ t.quanta ∨ ∀ x ∈ t.phases, 600 ≤ x.2.1 then accEnd t s else s)) :=
  ends_live hr rfl (by rw [ht]; simp only [Bool.or_eq_true, decide_eq_true_eq, List.all_eq_true])

/-- Settles O54: each event by its guard and by what it does once it acts; the source by the rules in order, the energy
by how far a rounding can move it. -/
theorem samplesAndQuanta : Obligations.SamplesAndQuanta := by
  unfold Obligations.SamplesAndQuanta
  refine ⟨fun s hr => ⟨?frame, ?link, ?back, ?input, ?element, ?field, ?sample, ?off⟩,
    fun s => ⟨?quantum, fun _ _ _ _ hu => hu ▸ rfl, ?source, ?energy, direction_sign, ?phase, ?start, ?time,
      accStart_idle, fun _ hm ht hr hl => accStart_starts hm ht hr hl, ?testEnd, ?select⟩⟩
  case frame =>
    refine fun n bytes => ⟨fun h => ends_live hr rfl (if_pos (by simpa using h)), fun hm hl => ?_⟩
    have go : ¬ (!s.bit Reg.MET.STATUS.RUN || s.bit (Reg.SLK.STATUS.LOST n)) = true := by simp [hm, hl]
    refine ⟨fun h80 hsync hcrc => ?_, fun hbad u hu => ?_⟩
    · exact ends_live hr rfl ((if_neg go).trans (if_pos (by simp [h80, hsync, hcrc])))
    · subst hu
      exact ends_live hr rfl ((if_neg go).trans (if_neg (by simpa [and_assoc] using hbad)))
  case link =>
    refine fun n => ⟨fun h8 hl => ?_, fun h => ?_, fun u hl hu => ?_, fun hl => ?_, ?_⟩
    · exact ends_live hr rfl (if_pos (by simp [h8, hl]))
    · exact ends_live hr rfl (if_neg (by grind))
    · subst hu
      exact ends_live hr rfl (if_pos (by simp [hl]))
    · exact ends_live hr rfl (if_neg (by simp [hl]))
    · exact ends_live hr rfl (if_neg (by simp))
  case back => exact fun x => ⟨linkBack_verifies, linkBack_keeps⟩
  case input => exact fun n => ⟨fun hm => ends_live hr rfl (if_pos hm), fun hm =>
      ends_live hr rfl (if_neg (by simp [hm])), ends_live hr rfl rfl⟩
  case element =>
    refine fun n e => ⟨fun hm => ends_live hr rfl (if_pos (by simp [hm])), fun u hm hu => ?_⟩
    have go : ¬ (!s.bit Reg.MET.STATUS.RUN) = true := by simp [hm]
    subst hu
    exact ⟨fun h0 => ends_live hr rfl ((if_neg go).trans (if_pos (by simpa using h0))),
      fun h0 => ends_live hr rfl ((if_neg go).trans (if_neg (by simpa using h0)))⟩
  case field =>
    refine fun n => ⟨fun h => ends_live hr rfl (if_pos (by simpa using h)), fun u v ut hm hf hu hut hv => ?_⟩
    have go : ¬ (!s.bit Reg.MET.STATUS.RUN || (s.link n).fieldBad) = true := by simp [hm, hf]
    subst hv hut hu
    exact ⟨fun h16 => ends_live hr rfl ((if_neg go).trans (if_pos h16)),
      fun h16 => ends_live hr rfl ((if_neg go).trans (if_neg h16))⟩
  case sample =>
    exact fun mb ain => ⟨fun hm => ends_live hr rfl (if_pos (by simp [hm])), fun p hm hp =>
      ends_live hr rfl ((if_neg (by simp [hm])).trans (by rw [← hp]))⟩
  case off => exact fun mb ain c row => sampleChannel_none
  case quantum => exact fun d h hr => ⟨fun hm => ends_live hr rfl (if_pos hm), fun hm =>
      ends_live hr rfl (if_neg (by simp [hm]))⟩
  case source =>
    exact fun pU rU tenth => ⟨rfl, rfl, rfl, rfl, rfl, rfl, rfl, fun src => ⟨rfl, rfl, decideSource_books⟩⟩
  case energy =>
    refine fun m ph q => ⟨rfl, fun e x out u hx hb => ?_⟩
    obtain ⟨rfl, rfl⟩ := Prod.mk.inj ((bookEnergy_some hx).symm.trans hb)
    exact ⟨rfl, mapGet_mapSet_same _ _ _ _, (roundHalfAway_near x).1, (roundHalfAway_near x).2, rfl⟩
  case phase =>
    rintro m p x hr rfl
    refine ⟨fun h => ?_, fun h => ?_, fun h2 h10 => ?_, fun h => ?_, fun h1 hc h600 => ?_, fun h => ?_⟩
    · exact ends_live hr rfl (if_pos (by simpa [MetPh.tenth] using h))
    · exact ends_live hr rfl (if_neg (by simpa [MetPh.tenth] using h))
    · exact ends_live hr rfl (if_pos (by simp [h2, h10]))
    · exact ends_live hr rfl (if_neg (by simpa using h))
    · exact ends_live hr rfl (if_pos (by simp [h1, hc, h600]))
    · exact ends_live hr rfl (if_neg (by simpa [and_assoc] using h))
  case start => exact fun a hw hl => ends_gated hw hl rfl rfl
  case time => exact fun hr => ⟨fun h => ends_live hr rfl (if_pos h), fun h => ends_live hr rfl (if_neg h)⟩
  case testEnd =>
    refine fun hr => ⟨accuracyTestEnd_none hr, fun t ht => ⟨fun h => ?_, fun hq hx => ?_⟩⟩
    · rw [accuracyTestEnd_some hr ht, if_pos h]
    · rw [accuracyTestEnd_some hr ht, if_neg (by grind)]
  case select => exact fun a cur ph m hw => ends_gated hw (Nat.zero_le _) rfl rfl

end Sys2Proof.Machine
end

section
/-!
PROOF. The statements of the family of energy quantities (chapter 04): the trackers, the supervision of frequency, sequence
and neutral, and power-quality events (R132 to R135, R145 to R149).
-/
namespace Sys2Proof.Machine

/-! ### The tracker (R132) -/

/-- An angle difference is wrapped to (−1/2, 1/2] turn. -/
theorem wrapTurn_range (d : Int) : -(2 ^ 31) < wrapTurn d ∧ wrapTurn d ≤ 2 ^ 31 := by
  dsimp only [wrapTurn]
  constructor <;> split <;> omega

/-- Wrapping takes off whole turns alone. -/
theorem wrapTurn_emod (d : Int) : wrapTurn d % 2 ^ 32 = d % 2 ^ 32 := by
  dsimp only [wrapTurn]
  split <;> omega

/-- The tracked frequency stays in 45 to 65 Hz, whatever the angle. -/
theorem trackCycle_fEst_clamped (ang : Int) (x : MeterSt) :
    45 ≤ (trackCycle ang x).fEst ∧ (trackCycle ang x).fEst ≤ 65 := by
  simp only [trackCycle]
  split
  · norm_num
  · next low =>
    split
    · norm_num
    · next high => exact ⟨not_lt.1 low, not_lt.1 high⟩

/-! ### Power-quality events (R147 to R149) -/

/-- An event that is dropped is open no more. -/
theorem pqOpen_pqDrop (m ty : Nat) (s : State) : (pqDrop m ty s).pqOpen m ty = none :=
  List.find?_eq_none.2 fun x hx => by
    have kept := (List.mem_filter.1 hx).2
    rwa [Bool.not_eq_true, ← Bool.not_eq_true']

section
variable {s : State} {k : Fin 3} {m : Fin 17} {ph : Fin 8} {ext ms : Nat}

/-- A slow event of a meter that is not supervised for it is nothing: frequency is METER[16]'s alone (R148). -/
theorem pqSlowEvent_unsupervised {b : Bool} (hr : s.running = true) (h : s.bit Reg.MET.STATUS.RUN = false ∨
    s.flag Reg.MET.PQ_EN.EN m = false ∨ (k = 0 ∧ m ≠ 16)) :
    exec (.pqSlowEvent k m b ph ext ms) s = .next (settle s) :=
  ends_live hr rfl (if_pos (by simpa [or_assoc] using h))

/-- A slow event of a supervised meter ends the open one of its type or starts one, as its condition says. -/
theorem pqSlowEvent_supervised {b : Bool} (hr : s.running = true) (hm : s.bit Reg.MET.STATUS.RUN = true)
    (hen : s.flag Reg.MET.PQ_EN.EN m = true) (hk : k = 0 → m = 16) :
    exec (.pqSlowEvent k m b ph ext ms) s = .next (settle ((s.pqOpen m (0x1B + k.val)).elim
      (if b then pqStart m (0x1B + k.val) ph ext ms s else s)
      fun x => if b then s else pqEnd { x with phases := Nat.lor x.phases ph, extreme := ext } 0 ms s)) := by
  refine ends_live hr rfl ((if_neg (by simpa [hm, hen] using hk)).trans ?_)
  cases s.pqOpen m (0x1B + k.val) <;> rfl

end

/-- Settles O55: each event by its guard and by what it does once it acts; the tracker by the range of a wrapped angle
and its clamp; an event that ends by its record, after which it is no longer open. -/
theorem trackingAndPowerQuality : Obligations.TrackingAndPowerQuality := by
  unfold Obligations.TrackingAndPowerQuality
  refine fun s hr => ⟨?cycle, ?tracker, ?wrap, ?range, ?rangeOff, ?nominal, ?meter, ?voltage, ?slow,
    fun x fl ms => ⟨rfl, pqOpen_pqDrop _ _ _⟩⟩
  case cycle =>
    refine fun m ang n vals => ⟨fun h => ends_live hr rfl (if_pos (by simpa [or_assoc] using h)), ?_⟩
    rintro hm h0 h3 x before u rfl rfl rfl
    exact ends_live hr rfl (if_neg (by simp [hm, h0, h3]))
  case tracker => exact fun ang x =>
      ⟨(trackCycle_fEst_clamped ang x).1, (trackCycle_fEst_clamped ang x).2, rfl, rfl⟩
  case wrap => exact fun d => ⟨(wrapTurn_range d).1, (wrapTurn_range d).2, wrapTurn_emod d⟩
  case range => exact fun hm => ends_live hr rfl (if_pos hm)
  case rangeOff => exact fun hm => ends_live hr rfl (if_neg (by simp [hm]))
  case nominal => exact fun f => ⟨fun hm h0 => ends_live hr rfl (if_pos (by simp [hm, h0])),
      fun h => ends_live hr rfl (if_neg (by grind))⟩
  case meter =>
    refine fun m => ⟨fun h2 hseq => ?_, fun h => ?_, fun h2 hn => ?_, fun h => ?_, ends_live hr rfl rfl⟩
    · exact ends_live hr rfl (if_pos (by simp [h2, hseq]))
    · exact ends_live hr rfl (if_neg (by grind))
    · exact ends_live hr rfl (if_pos (by simp [h2, hn]))
    · exact ends_live hr rfl (if_neg (by grind))
  case voltage => exact fun m rms ms => ⟨fun hm hen hty => ends_live hr rfl (if_pos (by simp [hm, hen, hty])),
      fun h => ends_live hr rfl (if_neg (by grind))⟩
  case slow =>
    refine fun k m b ph ext ms => ⟨pqSlowEvent_unsupervised hr, fun hm hen hk => ?_⟩
    simp only [pqSlowEvent_supervised hr hm hen hk]
    refine ⟨fun x hx => ?_, fun hx => ?_⟩ <;> rw [hx] <;> exact ⟨rfl, rfl⟩

end Sys2Proof.Machine
end

section
/-!
PROOF. The statement of the family of outage and tamper (chapter 05): tamper loops with the FIFO of DORMANT, dynamic loops,
the sticky bits of TMP.STATUS and the battery windows (R167 to R173).
-/
namespace Sys2Proof.Machine

/-! ### A loop's change (R170, R171) -/

/-- The state of a loop does not share a field with the mode. -/
theorem mode_loopOpen (s : State) (t : Nat) (b : Bool) : (s.setFlag Reg.TMP.STATUS.OPEN t b).mode = s.mode :=
  mode_wr s _ _ (by decide)

/-- The sticky bit of the dynamic loops does not share a field with the mode. -/
theorem mode_loopSticky (s : State) (b : Bool) : (s.setB Reg.TMP.STATUS.LOOP_STK b).mode = s.mode :=
  mode_wr s _ _ (by decide)

section
variable {s : State} {t : Nat} {b : Bool}

/-- Without a supply nothing is seen of a loop, and a level that stays is no change. -/
theorem loopChange_idle (h : s.aon = false ∨ s.flag Reg.TMP.STATUS.OPEN t = b) : loopChange t b s = s :=
  if_pos (by simpa using h)

/-- A change while the core runs is seen at once (R170). -/
theorem loopChange_running (ha : s.aon = true) (hf : s.flag Reg.TMP.STATUS.OPEN t ≠ b) (hm : s.mode ≠ 0) :
    loopChange t b s = loopSeen t b false (s.setFlag Reg.TMP.STATUS.OPEN t b).reading (s.setFlag Reg.TMP.STATUS.OPEN t b) :=
  (if_neg (by simp [ha, hf])).trans (if_pos (by rwa [mode_loopOpen]))

/-- What a change in DORMANT marks at once: the loop's state and, of an opening, its sticky bit (R171). -/
def loopMarked (t : Nat) (b : Bool) (s : State) : State :=
  if b then (s.setFlag Reg.TMP.STATUS.OPEN t b).setFlag Reg.TMP.STATUS.OPEN_STK t true
  else s.setFlag Reg.TMP.STATUS.OPEN t b

/-- A change in DORMANT is marked, and waits in the FIFO of 16 or is counted as lost (R171). -/
theorem loopChange_dormant (ha : s.aon = true) (hf : s.flag Reg.TMP.STATUS.OPEN t ≠ b) (hm : s.mode = 0) :
    loopChange t b s =
      if 16 ≤ s.tmp.fifo.length then
        { loopMarked t b s with tmp := { s.tmp with lost := min 65535 (s.tmp.lost + 1) } }
      else { loopMarked t b s with tmp := { s.tmp with fifo := s.tmp.fifo ++ [(t, b, (loopMarked t b s).reading)] } } :=
  (if_neg (by simp [ha, hf])).trans (if_neg (by simpa [mode_loopOpen] using hm))

/-- An opening that is seen in the running core is recorded, marked, raised and acted on (R172, R173). -/
theorem loopSeen_opens (reading : Int) : loopSeen t true false reading s = tamperApply 1 (raiseCause 0x5401 t
    ((tamperRecord 1 t 0 reading 0 (t < 2) s).setFlag Reg.TMP.STATUS.OPEN_STK t true)) := by
  simp [loopSeen, b2n]

/-- A closing that is seen in the running core is recorded, ends its cause and releases what has ended (R173). -/
theorem loopSeen_closes (reading : Int) : loopSeen t false false reading s =
    tamperRelease (setCause 0x5401 t false (tamperRecord 1 t 2 reading 0 (t < 2) s)) := by
  simp [loopSeen, b2n]

end

/-! ### Dynamic loops (R170) -/

/-- The pulses a loop has missed are set. -/
def setMissed (t n : Nat) (s : State) : State :=
  { s with tmp := { s.tmp with missed := mapSet (fun _ => 0) s.tmp.missed t n } }

/-- One loop at a drive pulse: a loop that followed has missed none and its fault ends; another has missed one more, up
to 8, which is never none. -/
theorem missedPulse_cases (followed : Bool) (t : Nat) (s : State) :
    (let n := if followed then 0 else min 8 (mapGet (fun _ => 0) s.tmp.missed t + 1)
     if n = 0 then setCause 0x5405 t false (setMissed t n s) else setMissed t n s) =
    if followed then setCause 0x5405 t false (setMissed t 0 s)
    else setMissed t (min 8 (mapGet (fun _ => 0) s.tmp.missed t + 1)) s := by
  cases followed with
  | true => rfl
  | false => exact if_neg (by simp)

section
variable {s : State} {t : Fin 4}

/-- Without a supply, or before the eighth missed pulse, a dynamic loop reports nothing. -/
theorem tmpLoop_idle (h : s.aon = false ∨ mapGet (fun _ => 0) s.tmp.missed t < 8) :
    exec (.tmpLoop t) s = .next (settle s) :=
  ends_neg rfl (by rcases h with h | h <;> simp [h])

/-- The eighth missed pulse is an open loop; its fault waits in DORMANT for the next start (R170, R171). -/
theorem tmpLoop_reports (ha : s.aon = true) (h8 : 8 ≤ mapGet (fun _ => 0) s.tmp.missed t) :
    exec (.tmpLoop t) s = .next (settle (loopChange t true (if s.mode = 0 then s.setB Reg.TMP.STATUS.LOOP_STK true
      else raiseCause 0x5405 t (s.setB Reg.TMP.STATUS.LOOP_STK true)))) :=
  (ends_pos rfl (by simp [ha, h8])).trans (by simp only [mode_loopSticky])

end

/-- A change of a loop that is enabled is acted on, and of another is nothing. -/
theorem tamperLoopChange_enabled {s x : State} {t : Fin 4} {b : Bool} (hen : s.flag Reg.TMP.CFG.EN t = true)
    (k : loopChange t b s = x) : exec (.tamperLoopChange t b) s = .next (settle x) :=
  ends rfl ((if_pos hen).trans k)

/-- Settles O45: each command by its guard and by what it does once it acts; a loop's change by whether the core runs
and by the FIFO's room. -/
theorem tamperIsSeenAndRecorded : Obligations.TamperIsSeenAndRecorded := by
  unfold Obligations.TamperIsSeenAndRecorded
  refine fun s => ⟨fun t b => ⟨fun h => ?idle, fun u hen ha hf hu => ?change⟩,
    fun t reading => ⟨loopSeen_opens reading, loopSeen_closes reading⟩, ?unpowered, ?pulse,
    fun t => ⟨tmpLoop_idle, fun ha h8 hm => ?loop, fun ha h8 hm => ?loopDormant⟩, ?sticky,
    fun i0 i1 i2 => ⟨fun h => ?noWindow, ?window⟩⟩
  case idle =>
    by_cases hen : s.flag Reg.TMP.CFG.EN t = true
    · exact tamperLoopChange_enabled hen (loopChange_idle (by simpa [hen] using h))
    · exact ends_neg rfl hen
  case change =>
    subst hu
    refine ⟨fun hm => tamperLoopChange_enabled hen (loopChange_running ha hf hm), fun hm hl => ?_, fun hm hl => ?_⟩
    · exact tamperLoopChange_enabled hen ((loopChange_dormant ha hf hm).trans (if_neg (Nat.not_le.2 hl)))
    · exact tamperLoopChange_enabled hen ((loopChange_dormant ha hf hm).trans (if_pos hl))
  case unpowered => exact fun ha f => ends_pos rfl (by simp [ha])
  case pulse =>
    refine fun f ha => ends rfl ((if_neg (by simp [ha])).trans ?_)
    congr 1
    funext t s
    exact ite_congr rfl (fun _ => missedPulse_cases (Nat.testBit f t) t s) fun _ => rfl
  case loop => rw [tmpLoop_reports ha h8, if_neg hm]
  case loopDormant => rw [tmpLoop_reports ha h8, if_pos hm]
  case sticky => exact fun a w hw hl => ends_gated hw hl rfl rfl
  case noWindow => exact ends_neg rfl (by rcases h with h | h | h <;> simp [h])
  case window =>
    rintro start va period top hd hb rfl h0 rfl rfl rfl
    exact ends_pos rfl (by simp [hd, hb, h0])

end Sys2Proof.Machine
end

section
/-!
PROOF. The statements of the family of billing and tariffs (chapter 06), with the credit and vouchers of chapter 07:
requests to set the time (R182, R183); arming, closing and selecting (R176, R191, R192, R196); credit requests, vouchers,
short codes, the site stop and replay (R211 to R213, R216, R223 to R226, R231).
-/
namespace Sys2Proof.Machine

/-! ### What a write of one field leaves of the others' readings -/

section
variable (s : State) {f : Fld} (v : Nat)

theorem bit_wr_ne {g : Fld} (h : g.key ≠ f.key) : (s.wr f v).bit g = s.bit g := by
  unfold State.bit
  rw [rd_wr_ne s f g v h]

theorem flag_wr_ne {g : Fld} (n : Nat) (h : g.key ≠ f.key) : (s.wr f v).flag g n = s.flag g n := by
  unfold State.flag
  rw [rd_wr_ne s f g v h]

/-- The reading rests on the tick count alone, beside the correction (R180). -/
theorem readingAt_wr_ne (now : Nat) (h : Reg.RTC.TICK.SECONDS.key ≠ f.key) :
    (s.wr f v).readingAt now = s.readingAt now := by
  unfold State.readingAt
  rw [rd_wr_ne s f _ v h]
  rfl

/-- Whether a source is held off rests on the tick count alone, beside what the clock keeps (R182). -/
theorem heldOff_wr_ne (src : Nat) (h : Reg.RTC.TICK.SECONDS.key ≠ f.key) :
    (s.wr f v).heldOff src = s.heldOff src := by
  unfold State.heldOff
  rw [rd_wr_ne s f _ v h]
  rfl

end

/-! ### Requests to set the time (R182, R183) -/

section
variable {src : Nat} {d : Int} {s : State}

/-- A source that is disabled, or held off by a higher one, is refused (R182). -/
theorem timeRequest_refused (h : s.flag Reg.RTC.CFG.SRC_EN (src - 1) = false ∨
    (s.bit Reg.RTC.STATUS.VALID = true ∧ s.heldOff src = true)) :
    timeRequest src d s = raise 0x0E04 src ((adjShow src 3 d s).inc Reg.RTC.COUNTS.REFUSED) :=
  if_pos (by simpa using h)

/-- A request that is not refused acts by its distance from the reading (R183); what is discarded first leaves LIMIT. -/
theorem timeRequest_accepted (hen : s.flag Reg.RTC.CFG.SRC_EN (src - 1) = true)
    (hfree : s.bit Reg.RTC.STATUS.VALID = true → s.heldOff src = false) :
    timeRequest src d s =
      if s.bit Reg.RTC.STATUS.VALID && decide (d.natAbs * 1000 < 32768) then timeAccept src s
      else if s.bit Reg.RTC.STATUS.VALID && decide (d.natAbs ≤ s.rd Reg.RTC.CFG.LIMIT * 32768) then
        slewBegin src d (timeAccept src (adjDiscard s))
      else stepWait src d (timeAccept src (adjDiscard s)) := by
  rw [← adjDiscard_limit s]
  exact if_neg (by simpa [hen] using hfree)

/-- Below 1 s the request is accepted and changes no time. -/
theorem timeRequest_near (hen : s.flag Reg.RTC.CFG.SRC_EN (src - 1) = true)
    (hfree : s.bit Reg.RTC.STATUS.VALID = true → s.heldOff src = false) (hv : s.bit Reg.RTC.STATUS.VALID = true)
    (hd : d.natAbs * 1000 < 32768) : timeRequest src d s = timeAccept src s :=
  (timeRequest_accepted hen hfree).trans (if_pos (by simp [hv, hd]))

/-- From 1 s to LIMIT it slews. -/
theorem timeRequest_slews (hen : s.flag Reg.RTC.CFG.SRC_EN (src - 1) = true)
    (hfree : s.bit Reg.RTC.STATUS.VALID = true → s.heldOff src = false) (hv : s.bit Reg.RTC.STATUS.VALID = true)
    (hd : 32768 ≤ d.natAbs * 1000) (hlim : d.natAbs ≤ s.rd Reg.RTC.CFG.LIMIT * 32768) :
    timeRequest src d s = slewBegin src d (timeAccept src (adjDiscard s)) :=
  (timeRequest_accepted hen hfree).trans ((if_neg (by simp [hd])).trans (if_pos (by simp [hv, hlim])))

/-- Beyond LIMIT, or without a valid reading, it waits as a step. -/
theorem timeRequest_steps (hen : s.flag Reg.RTC.CFG.SRC_EN (src - 1) = true)
    (hfree : s.bit Reg.RTC.STATUS.VALID = true → s.heldOff src = false)
    (h : s.bit Reg.RTC.STATUS.VALID = false ∨
      (32768 ≤ d.natAbs * 1000 ∧ s.rd Reg.RTC.CFG.LIMIT * 32768 < d.natAbs)) :
    timeRequest src d s = stepWait src d (timeAccept src (adjDiscard s)) := by
  refine (timeRequest_accepted hen hfree).trans ((if_neg ?_).trans (if_neg ?_)) <;>
    rcases h with invalid | ⟨far, beyond⟩ <;> simp [*]

end

/-- In a calm state and at Utility level the request is judged with FRAC written, which no check of it reads. -/
theorem rtcSetRequest_effect {s : State} (h : Calm s) {a : Agent} (hl : 2 ≤ s.level a) (frac now : Fin 32768) :
    exec (.rtcSetRequest a frac now) s = done (timeRequest (if a = .host then 3 else 2)
      (((s.rd Reg.RTC.SET_SEC.SEC * 32768 + frac : Nat) : Int) - s.readingAt now) (s.wr Reg.RTC.SET_CTL.FRAC frac)) := by
  rw [go_gated h hl rfl]
  dsimp only
  rw [rd_wr_ne s _ _ _ (by decide), readingAt_wr_ne s _ _ (by decide), Nat.mod_eq_of_lt frac.isLt]

/-- Settles O22: the request is judged by its source, then by its distance from the reading, and each outcome leaves a
calm state but for the Notice of a refusal. -/
theorem timeRequestsSlewOrStep : Obligations.TimeRequestsSlewOrStep := by
  unfold Obligations.TimeRequestsSlewOrStep
  intro a frac now s u src d h hl hsrc hu hd
  have judged : exec (.rtcSetRequest a frac now) s = done (timeRequest src d u) := by
    rw [rtcSetRequest_effect h hl, hsrc, hu, hd]
  have calm : Calm u := hu ▸ h.wr _ _ (by decide) (by decide)
  have enabled : u.flag Reg.RTC.CFG.SRC_EN (src - 1) = s.flag Reg.RTC.CFG.SRC_EN (src - 1) :=
    hu ▸ flag_wr_ne s _ _ (by decide)
  have valid : u.bit Reg.RTC.STATUS.VALID = s.bit Reg.RTC.STATUS.VALID := hu ▸ bit_wr_ne s _ (by decide)
  have held : u.heldOff src = s.heldOff src := hu ▸ heldOff_wr_ne s _ src (by decide)
  have limit : u.rd Reg.RTC.CFG.LIMIT = s.rd Reg.RTC.CFG.LIMIT := hu ▸ rd_wr_ne s _ _ _ (by decide)
  have table : u.flt = s.flt := hu ▸ rfl
  rw [judged, ← enabled, ← valid, ← held, ← limit]
  have accepted := timeAccept_calm (adjDiscard_calm calm) src
  refine ⟨fun hr o => ?refused, fun hen hfree => ⟨fun hv hd => ?near, fun hv hd hlim => ?slews, fun hfar => ?steps⟩⟩
  case refused =>
    rw [timeRequest_refused hr]
    exact opens_entry ((adjShow_calm calm src 3 d).inc _ (by decide) (by decide)) _ _
      (o.congr (congrArg FltSt.table table)) (by decide)
  case near =>
    rw [timeRequest_near hen hfree hv hd]
    exact done_calm (timeAccept_calm calm src)
  case slews =>
    rw [timeRequest_slews hen hfree hv hd hlim]
    exact done_calm (slewBegin_calm accepted src d)
  case steps =>
    rw [timeRequest_steps hen hfree hfar]
    exact done_calm (stepWait_calm accepted src d)

/-! ### Arming and disarming a calendar (R191) -/

section
variable {s : State} {a : Agent}

/-- A refused arming shows its result and raises its Notice. -/
theorem armEnd_refused {n : Nat} (h : n ≠ 0) :
    armEnd n s = raise 0x1601 n (tarShow (s.wr Reg.TAR.STATUS.ARM_RESULT n)) := if_neg h

/-- An arming that succeeded shows result 0. -/
theorem armEnd_done (s : State) : armEnd 0 s = tarShow (s.wr Reg.TAR.STATUS.ARM_RESULT 0) := rfl

/-- A calendar already armed refuses another. -/
theorem armPassive_holding (h : s.tar.armed ≠ none) : armPassive s = (7, s) :=
  if_pos (Option.isSome_iff_ne_none.2 h)

/-- With none armed, the check of the passive calendar decides first. -/
theorem armPassive_malformed (h : s.tar.armed = none) (hc : calCheck (readBytes s.tar.passive 0 2048) ≠ 0) :
    armPassive s = (calCheck (readBytes s.tar.passive 0 2048), s) :=
  (if_neg (by simp [h])).trans (if_pos hc)

section
variable (h : s.tar.armed = none) (hc : calCheck (readBytes s.tar.passive 0 2048) = 0)
include h hc

/-- A well-formed calendar needs a free bind set. -/
theorem armPassive_noSet (hs : engineSet 2 2 0 (s.rd Reg.TAR.ACT_SEC.SEC) s = none) : armPassive s = (6, s) :=
  (if_neg (by simp [h])).trans ((if_neg (not_not.2 hc)).trans (by rw [hs]))

/-- A well-formed calendar takes a free bind set and is held until its activation. -/
theorem armPassive_arms {u : State} (hs : engineSet 2 2 0 (s.rd Reg.TAR.ACT_SEC.SEC) s = some u) :
    armPassive s = (0, { u with tar := { u.tar with
      armed := some (readBytes s.tar.passive 0 2048, s.rd Reg.TAR.ACT_SEC.SEC)
      armedNv := some (readBytes s.tar.passive 0 2048, s.rd Reg.TAR.ACT_SEC.SEC) } }) :=
  (if_neg (by simp [h])).trans ((if_neg (not_not.2 hc)).trans (by rw [hs]))

end

/-- An arming at Utility level ends with what the arming of the passive calendar gives. -/
theorem tarArm_ends {n : Nat} {u : State} (hw : s.modeWrites = true) (hl : 2 ≤ s.level a)
    (h : armPassive s = (n, u)) : exec (.tarArm a) s = .next (settle (armEnd n u)) :=
  ends rfl ((if_neg (by simp [hw])).trans ((if_neg (Nat.not_lt.2 hl)).trans (by rw [h])))

/-- A passive calendar that is not armed leaves its result and the Notice. -/
theorem tarArm_refused {n : Nat} (hw : s.modeWrites = true) (hl : 2 ≤ s.level a) (h : armPassive s = (n, s))
    (hn : n ≠ 0) : exec (.tarArm a) s =
      .next (settle (raise 0x1601 n (tarShow (s.wr Reg.TAR.STATUS.ARM_RESULT n)))) := by
  rw [tarArm_ends hw hl h, armEnd_refused hn]

end

/-! ### The FIFO of submissions (R223) -/

section
variable {s : State}

theorem submit_enters (x : Submission) (h : s.crd.fifo.length < 16) :
    submit x s = { s with crd := { s.crd with fifo := s.crd.fifo ++ [x] } } := if_neg (Nat.not_le.2 h)

theorem submit_overflows (x : Submission) (h : 16 ≤ s.crd.fifo.length) :
    submit x s = voucherRefuse x 0 0 (if x.short then 0xFF else x.carrel) 11 s := if_pos h

variable {src : Fin 4} {tag carrel : Fin 256} {short : Bool} {data : List Byte}

/-- Without a running core, before mode 3, or with Q[9] empty, no submission is taken. -/
theorem voucherQueueSubmission_idle (h : s.mode < 3 ∨ s.running = false ∨ takeHead 9 s = none) :
    exec (.voucherQueueSubmission src tag carrel short data) s = .next (settle s) := by
  by_cases idle : s.mode < 3 ∨ s.running = false
  · exact ends_pos rfl (by simpa using idle)
  · have empty : takeHead 9 s = none := by tauto
    exact ends rfl ((if_neg (by simpa using idle)).trans (by rw [empty]))

/-- The item at the head of Q[9] is a submission; source 0 counts as the backbone (R223). -/
theorem voucherQueueSubmission_takes {i : Item} {u : State} (hm : 3 ≤ s.mode) (hr : s.running = true)
    (hq : takeHead 9 s = some (i, u)) : exec (.voucherQueueSubmission src tag carrel short data) s =
      .next (settle (submit ⟨if src = 0 then 1 else src, tag, carrel, short, data⟩ u)) :=
  ends rfl ((if_neg (by simp [hm, hr])).trans (by rw [hq]))

end

/-! ### Verification and the lock of short codes (R224, R231) -/

section
variable {s : State}

/-- Verification of a submission, as `VOUCHER_VERIFY` does it, with the outcome of its checks named (R224). -/
theorem voucherVerify_judges {x : Submission} {r : List Submission} {u : State} {code : Nat} {v : Voucher}
    (hf : s.crd.fifo = x :: r) (hu : u = { s with crd := { s.crd with fifo := r } })
    (hc : (if x.short then shortCheck x u else voucherCheck x u) = (code, v)) :
    voucherVerify s =
      if code = 0 then voucherReport x.src x.tag 1 { u with crd := { u.crd with pend := u.crd.pend ++ [v] } }
      else if x.short && code = 7 then
        macFailure (voucherRefuse x v.issuer v.serial (if v.kind = 2 then x.carrel else 0xFF) code u)
      else voucherRefuse x v.issuer v.serial (if v.kind = 2 then x.carrel else 0xFF) code u := by
  subst hu
  simp only [voucherVerify, hf, hc]

/-- Verification waits for a running core in mode 3 or later and a submission. -/
theorem voucherVerify_idle (h : s.running = false ∨ s.mode < 3 ∨ s.crd.fifo = []) :
    exec .voucherVerify s = .next (settle s) := by
  by_cases go : s.running = true ∧ 3 ≤ s.mode
  · have empty : s.crd.fifo = [] := by grind
    exact ends rfl ((if_pos (by simpa using go)).trans (by rw [voucherVerify, empty]))
  · exact ends_neg rfl (by simpa using go)

theorem voucherVerify_runs (hr : s.running = true) (hm : 3 ≤ s.mode) :
    exec .voucherVerify s = .next (settle (voucherVerify s)) := ends_pos rfl (by simp [hr, hm])

section
variable {now : Nat} {l : List Nat} (hn : now = s.rd Reg.PWR.OPSEC.SECONDS)
  (hl : l = (s.crd.macFails.filter fun t => now < t + 3600) ++ [now])
include hn hl

/-- Up to the fourth MAC failure within 3,600 s is noted alone. -/
theorem macFailure_noted (h : l.length < 5) : macFailure s = { s with crd := { s.crd with macFails := l } } := by
  subst hn hl
  exact if_neg (Nat.not_le.2 h)

/-- The fifth locks short codes for 3,600 operating seconds (R231). -/
theorem macFailure_locks (h : 5 ≤ l.length) : macFailure s =
    raiseCause 0x5902 0 { s with crd := { s.crd with macFails := l, lockEnd := some (now + 3600) } } := by
  subst hn hl
  exact if_pos h

end

/-- Without a lock its end is nothing. -/
theorem shortCodeLockoutEnd_open (hr : s.running = true) (h : s.crd.lockEnd = none) :
    exec .shortCodeLockoutEnd s = .next (settle s) := ends_live hr rfl (by rw [h])

/-- A lock is lifted at its end and not before (R231). -/
theorem shortCodeLockoutEnd_locked {t : Nat} (hr : s.running = true) (h : s.crd.lockEnd = some t) :
    exec .shortCodeLockoutEnd s = .next (settle (if t ≤ s.rd Reg.PWR.OPSEC.SECONDS then
      setCause 0x5902 0 false { s with crd := { s.crd with lockEnd := none, macFails := [] } } else s)) :=
  ends_live hr rfl (by rw [h])

end

/-! ### Emergency credit and the site stop (R211 to R213, R216) -/

section
variable {s : State}

/-- A grant needs a configured credit, nothing owed and a balance below the threshold (R216). -/
theorem canGrant_iff : s.canGrant = true ↔
    s.crdCfg 0x18 8 ≠ 0 ∧ s.crd.nv.owed = 0 ∧ s.crd.nv.c < s.crdCfg 0x10 8 := by
  simp [State.canGrant, and_assoc]

variable {g : Bool}

/-- A stop stays while nothing is granted and the balance is not above LOW_THRESH (R213). -/
theorem siteStop_stays (h : s.crd.nv.stopped = true) (hg : g = false) (hc : s.crd.nv.c ≤ s.crdCfg 8 8) :
    siteStop g s = s :=
  (if_pos h).trans (if_neg (by simp [hg, hc]))

/-- A stop ends with a grant, or with the balance above LOW_THRESH (R213). -/
theorem siteStop_ends (h : s.crd.nv.stopped = true) (he : g = true ∨ (s.crdCfg 8 8 : Int) < s.crd.nv.c) :
    siteStop g s = discHs hsAuto (setCause 0x5802 0 false
      ((setCrd { s.crd.nv with stopped := false } s).setB Reg.CRD.STATUS.STOPPED false)) :=
  (if_pos h).trans (if_pos (by simpa using he))

/-- No stop begins with a grant, or where the stop rule does not hold (R211). -/
theorem siteStop_none (h : s.crd.nv.stopped = false) (hn : g = true ∨ s.stopRule = false) : siteStop g s = s :=
  (if_neg (by simp [h])).trans (if_pos (by simpa using hn))

/-- Where the stop rule holds and nothing is granted, the site stops (R211, R212). -/
theorem siteStop_begins (h : s.crd.nv.stopped = false) (hg : g = false) (hr : s.stopRule = true) :
    siteStop g s = discHs hsForce (suspendAll 7 (raiseCause 0x5802 0
      ((((setCrd { s.crd.nv with stopped := true } s).setB Reg.CRD.STATUS.STOPPED true).setB Reg.CRD.STATUS.STOP_STK
        true).inc Reg.CRD.COUNTS.STOPS))) :=
  (if_neg (by simp [h])).trans (if_neg (by simp [hg, hr]))

end

/-! ### Replay (R226) -/

section
variable {s : State} {id serial h : Nat}

/-- With a highest serial, a serial is new above it, too old below the window, and else judged by the window. -/
theorem replayCode_of_high (hh : s.windowHigh id = some h) : s.replayCode id serial =
    if h < serial then 0 else if serial + 1023 < h then 9
    else if ((s.window id).elim false fun w => decide (serial ≤ w.high) && Nat.testBit w.bits (w.high - serial)) ||
      (s.pendSerials id).contains serial then 8 else 0 := by
  unfold State.replayCode
  rw [hh]
  cases s.window id <;> rfl

theorem replayCode_below (hh : s.windowHigh id = some h) (hb : serial + 1023 < h) : s.replayCode id serial = 9 :=
  (replayCode_of_high hh).trans ((if_neg (by omega)).trans (if_pos hb))

theorem replayCode_above (hh : s.windowHigh id = some h) (ha : h < serial) : s.replayCode id serial = 0 :=
  (replayCode_of_high hh).trans (if_pos ha)

/-- A serial that is pending is a replay. -/
theorem replayCode_pending (hh : s.windowHigh id = some h) (ha : serial ≤ h) (hb : h ≤ serial + 1023)
    (hp : serial ∈ s.pendSerials id) : s.replayCode id serial = 8 :=
  (replayCode_of_high hh).trans
    ((if_neg (Nat.not_lt.2 ha)).trans ((if_neg (Nat.not_lt.2 hb)).trans (if_pos (by simp [hp]))))

end

/-- Settles O56: each command by its guard and by what it does once it acts; each function of the credit engine by the
cases of its rule. -/
theorem billingCommandsAndCredit : Obligations.BillingCommandsAndCredit := by
  unfold Obligations.BillingCommandsAndCredit
  refine ⟨fun s a => ⟨?armIgnored, ?armLow, ?arm, ?disarmAndClose, ?select⟩,
    fun s => ⟨?request, fun x => ⟨submit_enters x, submit_overflows x⟩,
      fun src tag carrel short data => ⟨voucherQueueSubmission_idle, fun i u => voucherQueueSubmission_takes⟩,
      fun hr => ⟨ends_if hr rfl rfl, ends_if hr rfl rfl⟩, voucherVerify_idle, ?verify,
      fun now l hn hl => ⟨macFailure_noted hn hl, macFailure_locks hn hl⟩, ?lockEnd, canGrant_iff, fun t ht _ => ht,
      fun g => ⟨siteStop_stays, siteStop_none, siteStop_ends, siteStop_begins⟩,
      fun id serial => ⟨fun h => replayCode_below, fun h => replayCode_above, fun h => replayCode_pending⟩⟩⟩
  case armIgnored => exact fun hw => ends_pos rfl (by simp [hw])
  case armLow => exact fun hw hl => ends rfl ((if_neg (by simp [hw])).trans (if_pos hl))
  case arm =>
    rintro hw hl cal act rfl rfl
    refine ⟨fun h => ?_, fun n h hn h0 => ?_, fun h hc hs => ?_, fun u h hc hs => ?_⟩
    · exact tarArm_refused hw hl (armPassive_holding h) (by decide)
    · subst hn
      exact tarArm_refused hw hl (armPassive_malformed h h0) h0
    · exact tarArm_refused hw hl (armPassive_noSet h hc hs) (by decide)
    · rw [tarArm_ends hw hl (armPassive_arms h hc hs), armEnd_done]
  case disarmAndClose =>
    refine fun hw hl => ⟨fun h => ?_, fun h => ?_, ends_gated hw hl rfl rfl⟩
    · exact ends_gated hw hl rfl (if_pos (by simp [h]))
    · exact ends_gated hw hl rfl (if_neg (by simpa using h))
  case select =>
    rintro h m q r u v hw rfl rfl
    exact ends_gated hw (Nat.zero_le _) rfl rfl
  case request =>
    exact fun a hw hl => ⟨ends_gated hw hl rfl rfl, fun carrel tag =>
      ⟨ends_gated hw hl rfl rfl, ends_gated hw hl rfl rfl⟩⟩
  case verify =>
    intro x r u code v hr hm hf hu hc
    rw [voucherVerify_runs hr hm, voucherVerify_judges hf hu hc]
    refine ⟨fun h0 => by rw [if_pos h0], fun h0 w hw => ⟨fun hx h7 => ?_, fun hx => ?_⟩⟩
    · rw [if_neg h0, if_pos (by simp [hx, h7]), hw]
    · rw [if_neg h0, if_neg (by simpa using hx), hw]
  case lockEnd =>
    refine fun hr => ⟨shortCodeLockoutEnd_open hr, fun t ht => ⟨fun h => ?_, fun h => ?_⟩⟩
    · rw [shortCodeLockoutEnd_locked hr ht, if_neg (Nat.not_le.2 h)]
    · rw [shortCodeLockoutEnd_locked hr ht, if_pos h]

end Sys2Proof.Machine
end

section
/-!
PROOF. The statement of the family of credit and vouchers (chapter 07): a site voucher at a boundary (R217). What of an
applied voucher follows the repayment, its journal entry and its serial's mark, leaves the site's account alone.
-/
namespace Sys2Proof.Machine

/-- The site's account: the balance C and what is owed, O (R217). -/
def State.siteAccount (s : State) : Int × Nat := (s.crd.nv.c, s.crd.nv.owed)

@[simp] theorem setCrd_siteAccount (x : CrdNv) (s : State) : (setCrd x s).siteAccount = (x.c, x.owed) := rfl

/-! ### What leaves the site's account alone -/

section
variable (s : State)

/-- Making room for a window moves windows and retired marks alone (R227). -/
@[simp] theorem windowRoom_siteAccount (id : Nat) : (windowRoom id s).siteAccount = s.siteAccount := by
  unfold windowRoom
  dsimp only
  split
  · rfl
  · split <;> rfl

/-- Marking a serial writes the windows alone, once there is room (R226). -/
@[simp] theorem windowMark_siteAccount (id serial : Nat) : (windowMark id serial s).siteAccount = s.siteAccount :=
  windowRoom_siteAccount s id

/-- A journal entry writes the journal alone (R235). -/
@[simp] theorem journalPut_siteAccount (v : Voucher) (repaid : Nat) (balance : Int) :
    (journalPut v repaid balance s).siteAccount = s.siteAccount :=
  setCrd_siteAccount _ s

end

/-! ### A voucher for the site (R217) -/

/-- A site voucher of amount A repays r = min(O, A) of what is owed, and the rest of A is credit. -/
theorem voucherApply_siteAccount (s : State) {v : Voucher} (site : v.kind = 1) :
    (voucherApply v s).siteAccount =
      (s.crd.nv.c + v.amount - (min s.crd.nv.owed v.amount : Nat), s.crd.nv.owed - min s.crd.nv.owed v.amount) := by
  unfold voucherApply
  rw [if_pos site]
  exact (windowMark_siteAccount _ v.issuer v.serial).trans (journalPut_siteAccount _ v _ _)

/-- Settles O58: the account after a site voucher, and the boundary's fold over the pending vouchers in their order. -/
theorem siteVouchersRepayFirst : Obligations.SiteVouchersRepayFirst := by
  unfold Obligations.SiteVouchersRepayFirst
  refine fun s => ⟨?repays, rfl⟩
  case repays =>
    rintro v r site rfl
    exact Prod.mk.inj (voucherApply_siteAccount s site)

end Sys2Proof.Machine
end

section
/-!
PROOF. The statement of the family of outlets (chapter 08) about the pilot, proximity and the lock (R244 to R247, R266),
the contactors and the weld check (R250, R254 to R258, R260).
-/
namespace Sys2Proof.Machine

/-! ### Events of the core die that post and raise -/

/-- An event whose effect is quiet answers it, but for what the books hold. -/
theorem live_answers {s u : State} (h : Calm s) {i : Instr} {f : State → State} (e : exec i s = done (live f s))
    (hu : f s = u) (q : Quiet s u) : ∃ t, exec i s = .next t ∧ Booked u t := by
  subst hu
  rw [go_live h e]
  exact answers_quiet h q

/-- The same with a fact about the effect that the books do not touch. -/
theorem live_answers_keeping {s u : State} {P : State → Prop} (h : Calm s) {i : Instr} {f : State → State}
    (e : exec i s = done (live f s)) (hu : f s = u) (q : Quiet s u) (hp : ∀ t, Booked u t → P t) :
    ∃ t, exec i s = .next t ∧ P t ∧ Booked u t := by
  obtain ⟨t, ht, hb⟩ := live_answers h e hu q
  exact ⟨t, ht, hp t hb, hb⟩

/-- An event that changes nothing here answers the state as it was. -/
theorem live_idle {s : State} (h : Calm s) {i : Instr} {f : State → State} (e : exec i s = done (live f s))
    (hu : f s = s) : exec i s = .next s :=
  live_next h e hu h

/-! ### The registers of the outlets and of the CAN buses beside the mode and the books -/

section
variable {s t : State} {a d n lo w : Nat}

/-- No field of an array of registers from the outlets' on is that of the mode. -/
theorem modeKey_ne_unit (ha : 0x20000 ≤ a) (hl : lo < 32) :
    Reg.MODE.STATUS.MODE.key ≠ (⟨a + d * n, lo, w⟩ : Fld).key := by
  simp only [Fld.key]
  omega

theorem Quiet.unitWr (h : Quiet s t) (ha : 0x20000 ≤ a) (hl : lo < 32) (v : Nat) :
    Quiet s (t.wr ⟨a + d * n, lo, w⟩ v) := h.wr _ v (modeKey_ne_unit ha hl)

theorem Quiet.unitSetB (h : Quiet s t) (ha : 0x20000 ≤ a) (hl : lo < 32) (b : Bool) :
    Quiet s (t.setB ⟨a + d * n, lo, w⟩ b) := h.unitWr ha hl _

theorem Calm.unitWr (h : Calm s) (ha : 0x20000 ≤ a) (hl : lo < 32) (v : Nat) :
    Calm (s.wr ⟨a + d * n, lo, w⟩ v) :=
  h.wr _ v (modeKey_ne_unit ha hl) (by simp only [Fld.key]; omega)

/-- The books leave such registers as they were. -/
theorem Booked.rdUnit (h : Booked s t) (ha : 0x20000 ≤ a) (hl : lo < 32) :
    t.rd ⟨a + d * n, lo, w⟩ = s.rd ⟨a + d * n, lo, w⟩ := by
  refine h.regs _ hl ?_
  simp only [bookBlock, Bool.or_eq_false_iff, decide_eq_false_iff_not]
  omega

theorem Booked.bitUnit (h : Booked s t) (ha : 0x20000 ≤ a) (hl : lo < 32) :
    t.bit ⟨a + d * n, lo, w⟩ = s.bit ⟨a + d * n, lo, w⟩ := by
  unfold State.bit
  rw [h.rdUnit ha hl]

/-- An outlet's state is read from its register alone. -/
theorem Booked.outSt (h : Booked s t) (n : Nat) : t.outSt n = s.outSt n := h.rdUnit (by decide) (by decide)

/-- Posting an event leaves everything but the books as it was (R266). -/
theorem booked_outEvent (n ev d x : Nat) (s : State) : Booked s (outEvent n ev d x s) :=
  (books_hwPush0 s 4 _ (by decide) (by decide)).booked

end

/-! ### The verdict of a pilot period (R244) -/

/-- The verdict of the high plateau alone. -/
def plateauBand (high : Int) : PilotVerdict :=
  if 10500 ≤ high ∧ high ≤ 13500 then .a
  else if 7500 ≤ high ∧ high < 10500 then .b
  else if 4500 ≤ high ∧ high < 7500 then .c
  else if 1500 ≤ high ∧ high < 4500 then .d
  else if -1500 ≤ high ∧ high < 1500 then .e
  else .inv

section
variable {pwm : Bool} {high low : Int} {v : PilotVerdict}

/-- A plateau of a vehicle without a diode behind a pilot that oscillates is invalid. -/
theorem pilotVerdict_checked (h : plateauBand high = v) (hv : v = .b ∨ v = .c ∨ v = .d) :
    pilotVerdict pwm high low = if pwm = true ∧ -10500 < low then .inv else v := by
  subst h
  refine ite_congr ?_ (fun _ => rfl) (fun _ => rfl)
  simpa [plateauBand, or_assoc] using fun _ _ => hv

/-- The diode check leaves A, E and INV as they are. -/
theorem pilotVerdict_unchecked (h : plateauBand high = v) (hv : v = .a ∨ v = .e ∨ v = .inv) :
    pilotVerdict pwm high low = v := by
  subst h
  refine if_neg ?_
  rcases hv with hv | hv | hv <;> (unfold plateauBand at hv; simp [hv])

end

/-- The plateaus of R244, with the diode check. -/
theorem pilotVerdict_bands (pwm : Bool) (high low : Int) :
    (10500 ≤ high → high ≤ 13500 → pilotVerdict pwm high low = .a) ∧
    (7500 ≤ high → high < 10500 → pilotVerdict pwm high low = if pwm = true ∧ -10500 < low then .inv else .b) ∧
    (4500 ≤ high → high < 7500 → pilotVerdict pwm high low = if pwm = true ∧ -10500 < low then .inv else .c) ∧
    (1500 ≤ high → high < 4500 → pilotVerdict pwm high low = if pwm = true ∧ -10500 < low then .inv else .d) ∧
    (-1500 ≤ high → high < 1500 → pilotVerdict pwm high low = .e) ∧
    (high < -1500 ∨ 13500 < high → pilotVerdict pwm high low = .inv) := by
  refine ⟨fun _ _ => pilotVerdict_unchecked ?_ (by simp), fun _ _ => pilotVerdict_checked ?_ (by simp),
    fun _ _ => pilotVerdict_checked ?_ (by simp), fun _ _ => pilotVerdict_checked ?_ (by simp),
    fun _ _ => pilotVerdict_unchecked ?_ (by simp), fun _ => pilotVerdict_unchecked ?_ (by simp)⟩ <;>
    grind [plateauBand]

/-! ### A pilot period (R244 to R246) -/

/-- The history of verdicts takes one more, and the run of INV goes on or ends (R245, R246). -/
def verdictTaken (n : Nat) (v : PilotVerdict) (s : State) : State :=
  s.setOut n { s.out n with
    hist := (v :: (s.out n).hist).take 3
    inv := if v = .inv then (s.out n).inv + 1 else 0 }

/-- The plateaus of a period are shown. -/
def plateausShown (n : Nat) (high low : Int) (s : State) : State :=
  (s.wrI (Reg.OUT.CP_MEAS.HIGH n) (plateauField high)).wrI (Reg.OUT.CP_MEAS.LOW n) (plateauField low)

section
variable {n : Nat} {high low : Int} {s : State}

/-- At -12 V and with the pilot off no verdict is formed: the state is F. -/
theorem pilotPeriod_unformed (h : s.rd (Reg.OUT.CP_MEAS.MODE n) = 0 ∨ s.rd (Reg.OUT.CP_MEAS.MODE n) = 3) :
    pilotPeriod n high low s = outPresence n (vplFollow n (pilotF n (plateausShown n high low s))) :=
  if_pos (by simpa using h)

/-- The decoded state is no plateau. -/
theorem plateausShown_pilot :
    (plateausShown n high low s).rd (Reg.OUT.STATUS.PILOT n) = s.rd (Reg.OUT.STATUS.PILOT n) :=
  (rd_wr_ne _ _ _ _ (by simp only [Fld.key]; omega)).trans (rd_wr_ne _ _ _ _ (by simp only [Fld.key]; omega))

/-- A majority other than the decoded state is acted on (R245). -/
def majorityActs (n old : Nat) (m : Option PilotVerdict) (s : State) : State :=
  match m with
  | some x => if pilotCode x = old then s else pilotDecoded n old (pilotCode x) s
  | none => s

/-- Without a majority, and with that of the decoded state, nothing is acted on. -/
theorem majorityActs_holds {old : Nat} {m : Option PilotVerdict}
    (h : m = none ∨ ∃ x, m = some x ∧ pilotCode x = old) : majorityActs n old m s = s := by
  rcases h with rfl | ⟨x, rfl, hx⟩
  · rfl
  · exact if_pos hx

theorem majorityActs_changes {old : Nat} {x : PilotVerdict} (h : pilotCode x ≠ old) :
    majorityActs n old (some x) s = pilotDecoded n old (pilotCode x) s := if_neg h

/-- A verdict is taken and its majority acted on; only the tenth INV in a row is a pilot error too (R246). -/
theorem pilotPeriod_formed {v : PilotVerdict} (h0 : s.rd (Reg.OUT.CP_MEAS.MODE n) ≠ 0)
    (h3 : s.rd (Reg.OUT.CP_MEAS.MODE n) ≠ 3)
    (hv : v = pilotVerdict (s.rd (Reg.OUT.CP_MEAS.MODE n) = 2) high low) (tenth : ¬ (v = .inv ∧ (s.out n).inv = 9)) :
    pilotPeriod n high low s = majorityActs n (s.rd (Reg.OUT.STATUS.PILOT n))
      (pilotMajority ((v :: (s.out n).hist).take 3)) (verdictTaken n v (plateausShown n high low s)) := by
  subst hv
  rw [← plateausShown_pilot (high := high) (low := low)]
  refine (if_neg (by simp [h0, h3])).trans (if_neg ?_)
  show (if _ = PilotVerdict.inv then (s.out n).inv + 1 else 0) ≠ 10
  split
  next e => exact fun h => tenth ⟨e, by omega⟩
  next => decide

end

section
variable {n : Nat} {s : State} {load : List Nat}

/-- The load-side voltages alone are measured. -/
theorem withLoad_out : (withLoad n load s).out n = { s.out n with loadV := load } := setOut_out ..

theorem quiet_withLoad : Quiet s (withLoad n load s) := quiet_setOut ..

theorem calm_verdictTaken {v : PilotVerdict} {high low : Int} (h : Calm s) :
    Calm (verdictTaken n v (plateausShown n high low (withLoad n load s))) :=
  setOut_calm (((setOut_calm h _ _).unitWr (by decide) (by decide) _).unitWr (by decide) (by decide) _) _ _

theorem quiet_plateausShown {high low : Int} : Quiet s (plateausShown n high low (withLoad n load s)) :=
  (quiet_withLoad.unitWr (by decide) (by decide) _).unitWr (by decide) (by decide) _

/-- The verdict joins the history and the run of INV of the outlet. -/
theorem verdictTaken_withLoad {v : PilotVerdict} {high low : Int} {u : State}
    (hu : u = plateausShown n high low (withLoad n load s)) :
    verdictTaken n v u = u.setOut n { u.out n with
      hist := (v :: (s.out n).hist).take 3
      inv := if v = .inv then (s.out n).inv + 1 else 0 } := by
  have e : u.out n = { s.out n with loadV := load } := hu ▸ withLoad_out
  unfold verdictTaken
  rw [e]

end

/-! ### Proximity (R247) -/

section
variable {n ohms shown cap : Nat} {inv : Bool} {s : State}

/-- The proximity measurement is shown. -/
def proximityShown (n shown cap : Nat) (inv : Bool) (s : State) : State :=
  ((s.wr (Reg.OUT.PP.OHMS n) shown).wr (Reg.OUT.PP.CAP n) cap).setB (Reg.OUT.PP.INVALID n) inv

section
variable (hs : shown = if 5000 < ohms then 0xFFFF else ohms)
  (hc : (cap, inv) = if s.rd (Reg.OUT.CFG.KIND n) = 1 then ppBand ohms else (0, false))
include hs hc

/-- A measurement that shows nothing new posts no event. -/
theorem proximity_same (ho : s.rd (Reg.OUT.PP.OHMS n) = shown) (hcap : s.rd (Reg.OUT.PP.CAP n) = cap)
    (hi : s.bit (Reg.OUT.PP.INVALID n) = inv) :
    proximity n ohms s = tryClose n (outPresence n (outRecap n (proximityShown n shown cap inv s))) := by
  unfold proximity
  rw [← hs, ← hc]
  dsimp only
  rw [if_neg (by simp [ho, hcap, hi])]
  rfl

/-- A resistance that is shown anew posts its event (R266). -/
theorem proximity_changes (ho : s.rd (Reg.OUT.PP.OHMS n) ≠ shown) :
    proximity n ohms s =
      tryClose n (outPresence n (outRecap n (outEvent n 3 cap shown (proximityShown n shown cap inv s)))) := by
  unfold proximity
  rw [← hs, ← hc]
  dsimp only
  rw [if_pos (by simp [ho])]
  rfl

end

/-- What a measurement of a presence or a cable leads to is quiet. -/
theorem quiet_proximityActs {u : State} (h : n < 16) (q : Quiet s u) :
    Quiet s (tryClose n (outPresence n (outRecap n u))) :=
  ((q.trans (quiet_outRecap n _ h)).trans (quiet_outPresence n _ h)).trans (quiet_tryClose n _ h)

theorem quiet_proximityShown (n shown cap : Nat) (inv : Bool) (s : State) :
    Quiet s (proximityShown n shown cap inv s) :=
  (((Quiet.refl s).unitWr (by decide) (by decide) _).unitWr (by decide) (by decide) _).unitSetB (by decide)
    (by decide) _

end

/-! ### The weld window (R258, R260) -/

/-- A verdict `v` of the window is shown with its event, and the check ends. -/
def weldShown (n v : Nat) (s : State) : State :=
  outEvent n 5 (v - 1) 0
    ((s.setOut n { s.out n with weldRun := false, weldHold := false, recheck := false }).wr (Reg.OUT.SUPV.WELD n) v)

/-- Where a verdict `v` leads from the state `st`. -/
def weldLeads (n st v : Nat) (s : State) : State :=
  if v = 1 then (if st = 9 then openingEnds n s else leaveFault n s)
  else if v = 2 then welded n s
  else outFault n (s.setOut n { s.out n with weldBad := true })

/-- A weld check is due: in OPENING, and in FAULT once asked for. -/
def State.weldDue (s : State) (n : Nat) : Prop := s.outSt n = 9 ∨ (s.outSt n = 10 ∧ (s.out n).recheck = true)

section
variable {n v : Nat} {w : WeldWindow} {s u : State}

/-- The window's end shows its verdict and follows it, and where no ACD_UP is latched that is all (R265). -/
theorem weldEnds_leads (hd : s.weldDue n) (hv : v = weldJudge (1000 * s.nomV n) w)
    (hu : weldLeads n (s.outSt n) v (weldShown n v s) = u) (hl : (u.out n).acdUpLatched = false) :
    weldEnds n w s = u := by
  subst hv hu
  refine (if_neg (by simpa [State.weldDue, or_iff_not_imp_left] using hd)).trans (if_neg ?_)
  exact ne_true_of_eq_false hl

theorem reacts_weldShown (h : n < 16) : Reacts s (weldShown n v s) :=
  ((reacts_setOut s n _).out h (by decide) (by decide) _).trans (reacts_outEvent ..)

theorem reacts_weldMark (h : n < 16) : Reacts s (weldMark n s) :=
  (((reacts_hsDrive ..).trans (reacts_hsDrive ..)).trans (reacts_setOut ..)).trans
    ((reacts_outClearPend n _ h).trans (reacts_outEnter n 10 _ h))

/-- The verdict's own registers leave TRIP as it was. -/
theorem weldShown_trip :
    (weldShown n v s).rd (Reg.OUT.HS_MAP.TRIP n) = s.rd (Reg.OUT.HS_MAP.TRIP n) :=
  ((booked_outEvent ..).rdUnit (by decide) (by decide)).trans (rd_wr_ne _ _ _ _ (by simp only [Fld.key]; omega))

/-- A reaction leaves the seal as it was. -/
theorem SealShut.reacts (h : SealShut s) (r : Reacts s u) : SealShut u := by
  unfold SealShut State.bit at *
  rwa [r.regs Reg.SAF.STATUS.SEAL_OPEN (by decide) (by decide),
    r.regs Reg.SAF.STATUS.SEAL_INVALID (by decide) (by decide)]

/-- A weld that no TRIP channel can part is a Major fault (R258). -/
theorem welded_halts (h : n < 16) (c : Calm s) (r : Reacts s u) (hs : SealShut s)
    (ht : 40 ≤ u.rd (Reg.OUT.HS_MAP.TRIP n)) : ∃ t, done (welded n u) = .next t ∧ Halted 10 (weldMark n u) t := by
  have k := r.trans (reacts_weldMark (n := n) h)
  have hm := k.quiet.mode
  have := c.low
  have := c.high
  unfold welded
  rw [if_neg (by omega)]
  refine done_major (outCode 0xA001 n) 0 n false ?_ (by omega) (by omega) (k.todo c.minorTodo) (hs.reacts k)
  unfold faultClass outCode
  omega

end

/-! ### The commands of the pilot and of the weld check -/

section
variable (n : Fin 16) {s : State} {load : List Nat}

theorem reacts_weldShown_withLoad {m v : Nat} (h : m < 16) : Reacts s (weldShown m v (withLoad m load s)) :=
  (reacts_setOut ..).trans (reacts_weldShown h)

theorem weldShown_withLoad_trip {m v : Nat} :
    (weldShown m v (withLoad m load s)).rd (Reg.OUT.HS_MAP.TRIP m) = s.rd (Reg.OUT.HS_MAP.TRIP m) :=
  weldShown_trip (s := withLoad m load s)

section
variable {v : Nat} {w : WeldWindow} {x : State} (c : Calm s)
  (hd : s.outSt n = 9 ∨ (s.outSt n = 10 ∧ (s.out n).recheck = true)) (hv : v = weldJudge (1000 * s.nomV n) w)
  (hx : weldLeads n (s.outSt n) v (weldShown n v (withLoad n load s)) = x) (hl : (x.out n).acdUpLatched = false)
include c hd hv hx hl

/-- A verdict with no ACD_UP latched is the effect of where it leads. -/
theorem weldVerdict_effect : exec (.weldVerdict n w load) s = done x := by
  have due : (withLoad n load s).weldDue n := by
    unfold State.weldDue
    rwa [withLoad_out]
  have leads : weldEnds n w (withLoad n load s) = x := weldEnds_leads due hv hx hl
  exact (go_live c rfl).trans (congrArg done leads)

theorem weldVerdict_answers (q : Quiet (weldShown n v (withLoad n load s)) x) :
    ∃ t, exec (.weldVerdict n w load) s = .next t ∧ Booked x t := by
  rw [weldVerdict_effect n c hd hv hx hl]
  exact answers_quiet c ((reacts_weldShown_withLoad n.isLt).quiet.trans q)

end

section
variable {high low : Int} {u w : State} {v : PilotVerdict} (c : Calm s)
  (hu : u = plateausShown n high low (withLoad n load s))
include c hu

/-- A period in which no verdict is formed answers the state F and what follows it (R245). -/
theorem pilotStateChange_unformed
    (hm : s.rd (Reg.OUT.CP_MEAS.MODE n) = 0 ∨ s.rd (Reg.OUT.CP_MEAS.MODE n) = 3) :
    ∃ t, exec (.pilotStateChange n high low load) s = .next t ∧
      Booked (outPresence n (vplFollow n (pilotF n u))) t := by
  subst hu
  refine live_answers c rfl (pilotPeriod_unformed hm) ?_
  exact ((quiet_plateausShown.trans (reacts_pilotF n _ n.isLt).quiet).trans (quiet_vplFollow n _ n.isLt)).trans
    (quiet_outPresence n _ n.isLt)

/-- A verdict that is not the tenth INV in a row is taken, and its majority is acted on (R244 to R246). -/
theorem pilotStateChange_effect (h0 : s.rd (Reg.OUT.CP_MEAS.MODE n) ≠ 0) (h3 : s.rd (Reg.OUT.CP_MEAS.MODE n) ≠ 3)
    (hv : v = pilotVerdict (s.rd (Reg.OUT.CP_MEAS.MODE n) = 2) high low) (tenth : ¬ (v = .inv ∧ (s.out n).inv = 9)) :
    exec (.pilotStateChange n high low load) s = done (majorityActs n (s.rd (Reg.OUT.STATUS.PILOT n))
      (pilotMajority ((v :: (s.out n).hist).take 3)) (verdictTaken n v u)) := by
  have formed := pilotPeriod_formed (s := withLoad n load s) h0 h3 hv (by rwa [withLoad_out])
  rw [withLoad_out] at formed
  subst hu
  exact (go_live c rfl).trans (congrArg done formed)

end
end

/-- Settles O32: each event by what it leads to; what posts or raises is quiet, and the rest leaves a calm state. -/
theorem pilotsAndContactors : Obligations.PilotsAndContactors := by
  unfold Obligations.PilotsAndContactors
  refine ⟨⟨pilotVerdict_bands, fun n s c => ⟨?pilot, fun h => live_idle c rfl (if_pos h), ?err, ?proximity, ?lock⟩⟩,
    fun n s c => ⟨fun h => live_answers c rfl (if_pos h) (quiet_outFromReady n 17 s n.isLt),
      fun h => live_idle c rfl (if_neg h), ?closeDc, ?closeAc, ?notClosing, ?verified, ?ramp,
      fun h => live_idle c rfl (if_neg h), ?weldStart, ?weld, ?cool, fun h => live_idle c rfl (if_neg (by simp [h]))⟩⟩
  case pilot =>
    rintro high low load m u w v h rfl hu
    refine ⟨fun hm => ?_, fun h0 h3 hv hh hw tenth => ?_⟩
    · exact pilotStateChange_unformed n c hu hm
    · subst hh
      rw [← verdictTaken_withLoad hu] at hw
      rw [pilotStateChange_effect n c hu h0 h3 hv tenth, ← hw]
      refine ⟨fun hm => ?_, fun x hm hx => ?_⟩
      · rw [majorityActs_holds hm, hw, hu]
        exact done_calm (calm_verdictTaken c)
      · rw [hm, majorityActs_changes hx, hw, hu]
        exact answers_quiet c ((quiet_plateausShown.trans (quiet_setOut ..)).trans (quiet_pilotDecoded n _ _ _ n.isLt))
  case err =>
    intro h
    refine live_answers c rfl (if_neg (by simp [h])) ?_
    exact ((quiet_setOut ..).trans (quiet_outLatchStop n 4 _ n.isLt)).trans
      (quiet_raise _ _ _ (outCode_class n.isLt (by decide) (by decide)))
  case proximity =>
    rintro ohms shown cap inv u hs hc rfl
    exact ⟨fun ho hcap hi => live_answers c rfl (proximity_same hs hc ho hcap hi)
        (quiet_proximityActs n.isLt (quiet_proximityShown ..)),
      fun ho => live_answers c rfl (proximity_changes hs hc ho)
        (quiet_proximityActs n.isLt ((quiet_proximityShown ..).trans (quiet_outEvent ..)))⟩
  case lock =>
    intro b
    refine live_answers_keeping (P := fun t => t.bit (Reg.OUT.STATUS.LOCKED n) = b) c rfl rfl
      (((Quiet.refl s).unitSetB (by decide) (by decide) b).trans (quiet_outEvent ..)) fun t hb => ?_
    exact (((booked_outEvent ..).trans hb).bitUnit (by decide) (by decide)).trans (bit_setB_same _ _ _ rfl)
  case closeDc =>
    intro h hd
    refine live_answers_keeping (P := fun t => t.outSt n = 5) c rfl
      ((if_neg (not_not.2 h)).trans (if_pos hd)) ((quiet_setOut ..).trans (quiet_outEnter n 5 _ n.isLt)) fun t hb => ?_
    exact (hb.outSt n).trans (outEnter_st n 5 _ n.isLt (by decide))
  case closeAc =>
    intro h hd
    have hk : faultClass (outCode 0x6002 n) ≤ 1 := outCode_class n.isLt (by decide) (by decide)
    refine live_answers_keeping (P := fun t => t.outSt n = 9) c rfl
      ((if_neg (not_not.2 h)).trans (if_neg (by simp [hd])))
      ((quiet_outOpenStop n 16 s n.isLt).trans (quiet_raise _ _ _ hk)) fun t hb => ?_
    exact ((hb.outSt n).trans (raise_st _ _ n _ n.isLt hk)).trans (outOpenStop_st n 16 s n.isLt (by omega) (by omega))
  case notClosing =>
    exact fun h => ⟨live_idle c rfl (if_pos h), fun l v => live_idle c rfl (if_neg (by simp [h]))⟩
  case verified =>
    intro l v h hac hl hv
    obtain ⟨t, ht, hb⟩ := live_answers c (i := .closureVerified n l v) rfl (if_pos (by simp [h, hac, hl, hv]))
      (quiet_outEnter n 7 s n.isLt)
    exact ⟨t, ht, hb, (hb.outSt n).trans (outEnter_st n 7 _ n.isLt (by decide))⟩
  case ramp =>
    intro h
    obtain ⟨t, ht, hb⟩ := live_answers c (i := .rampEnd n) rfl (if_pos h) (quiet_outOpen n s n.isLt)
    exact ⟨t, ht, hb, (hb.outSt n).trans (outOpen_st n s n.isLt)⟩
  case weldStart =>
    exact fun v h => live_next c rfl (if_pos (by simpa using h)) (setOut_calm c _ _)
  case weld =>
    rintro w load v u hd hv rfl
    refine ⟨fun h1 h9 hl => ?_, fun h1 h10 hl => ?_, fun h3 hl => ?_, fun h2 ht hl => ?_, fun h2 ht hl hs => ?_⟩
    · exact weldVerdict_answers n c hd hv ((if_pos h1).trans (if_pos h9)) hl (quiet_openingEnds n _ n.isLt)
    · exact weldVerdict_answers n c hd hv ((if_pos h1).trans (if_neg (by omega))) hl (quiet_leaveFault n _ n.isLt)
    · obtain ⟨t, ht, hb⟩ := weldVerdict_answers n c hd hv ((if_neg (by omega)).trans (if_neg (by omega))) hl
        ((quiet_setOut ..).trans (quiet_outFault n _ n.isLt))
      exact ⟨t, ht, (hb.outSt n).trans (outEnter_st n 10 _ n.isLt (by decide)), hb⟩
    · exact weldVerdict_answers n c hd hv ((if_neg (by omega)).trans (if_pos h2)) hl
        (quiet_welded n _ n.isLt (by rwa [weldShown_withLoad_trip]))
    · rw [weldVerdict_effect n c hd hv ((if_neg (by omega)).trans (if_pos h2)) hl]
      exact welded_halts n.isLt c (reacts_weldShown_withLoad n.isLt) hs (by rwa [weldShown_withLoad_trip])
  case cool =>
    exact fun h => live_answers c rfl (if_pos h) ((quiet_setOut ..).trans (quiet_hsDrive ..))

end Sys2Proof.Machine
end

section
/-!
PROOF. The statement of the family of outlets (chapter 08) about residual current and insulation (R259 to R262), power
modules, connection devices and CAN (R263 to R265).
-/
namespace Sys2Proof.Machine

/-! ### Residual current (R259, R260) -/

/-- A test that ends posts its result (R266). -/
def rcmTold (n : Nat) (pass : Bool) (s : State) : State := outEvent n 7 (b2n !pass) 0 (rcmStart n 0 s)

/-- The result of a test that ends is told, and in CONNECTED and READY shown as RCM_OK (R259). -/
def rcmShown (n : Nat) (pass : Bool) (s : State) : State :=
  if (rcmTold n pass s).outSt n = 2 || (rcmTold n pass s).outSt n = 3 then
    (rcmTold n pass s).setB (Reg.OUT.SUPV.RCM_OK n) pass
  else rcmTold n pass s

section
variable {n : Nat} {pass : Bool} {s : State}

theorem quiet_rcmShown : Quiet s (rcmShown n pass s) := by
  have told : Quiet s (rcmTold n pass s) := (quiet_setOut ..).trans (quiet_outEvent ..)
  exact Quiet.ite (told.unitSetB (by decide) (by decide) pass) told

theorem rcmTold_outSt : (rcmTold n pass s).outSt n = s.outSt n := (booked_outEvent ..).outSt n

theorem rcmTold_out : (rcmTold n pass s).out n = { s.out n with rcmTest := 0 } :=
  (outEvent_out ..).trans (setOut_out ..)

/-- RCM_OK follows the state in which the test ends. -/
theorem rcmShown_eq : rcmShown n pass s =
    if s.outSt n = 2 ∨ s.outSt n = 3 then (rcmTold n pass s).setB (Reg.OUT.SUPV.RCM_OK n) pass
    else rcmTold n pass s := by
  unfold rcmShown
  simp only [rcmTold_outSt, Bool.or_eq_true, decide_eq_true_eq]

theorem rcmShown_outSt : (rcmShown n pass s).outSt n = s.outSt n := by
  rw [rcmShown_eq]
  split
  · exact (rd_wr_ne _ _ _ _ (by simp only [Fld.key]; omega)).trans rcmTold_outSt
  · exact rcmTold_outSt

theorem rcmShown_out : (rcmShown n pass s).out n = { s.out n with rcmTest := 0 } := by
  rw [rcmShown_eq]
  split <;> exact rcmTold_out

/-- The low level that a running test causes is no trip. -/
theorem rcmTrip_testing (h : (s.out n).rcmTest ≠ 0) : rcmTrip n s = s := if_pos h

theorem rcmTrip_trips (h : (s.out n).rcmTest = 0) : rcmTrip n s = raise (outCode 0x6003 n) n (outLatchStop n 5
    (coilsSet n false (outEvent n 6 0 0 ((s.setB (Reg.OUT.SUPV.RCM_TRIP n) true).inc (Reg.OUT.SUPV.RCM_TRIPS n))))) :=
  if_neg (not_not.2 h)

/-- A trip stays latched through the stop and its fault. -/
theorem rcmTrip_latched (h : n < 16) (u : State)
    (hu : u = outEvent n 6 0 0 ((s.setB (Reg.OUT.SUPV.RCM_TRIP n) true).inc (Reg.OUT.SUPV.RCM_TRIPS n))) :
    (raise (outCode 0x6003 n) n (outLatchStop n 5 (coilsSet n false u))).bit (Reg.OUT.SUPV.RCM_TRIP n) = true := by
  have page : sideBlock ((Reg.OUT.SUPV.RCM_TRIP n).addr / 4096) = false := by
    simp only [sideBlock, bookBlock, Bool.or_eq_false_iff, decide_eq_false_iff_not]
    omega
  have raised := books_raise (outCode 0x6003 n) n (outLatchStop n 5 (coilsSet n false u))
    (outCode_class h (by decide) (by decide))
  have trip : u.bit (Reg.OUT.SUPV.RCM_TRIP n) = true := by
    rw [hu, (booked_outEvent ..).bitUnit (by decide) (by decide)]
    exact (bit_wr_ne _ _ (by simp only [Fld.key]; omega)).trans (bit_setB_same _ _ _ rfl)
  rw [raised.booked.bitUnit (by decide) (by decide), ← trip]
  unfold State.bit
  rw [outLatchStop_reads n 5 _ h _ (by simp) page, side_coilsSet n false u _ (by simp) page] <;>
    (simp only [Fld.key]; omega)

end

section
variable {n : Nat} {s : State} (running : (s.out n).rcmTest ≠ 0)
include running

theorem rcmTestEnds_fails : rcmTestEnds n false s = raise (outCode 0x6004 n) n (rcmShown n false s) :=
  (if_neg running).trans (if_pos rfl)

/-- What a test that passes goes on with, by what it was for. -/
theorem rcmTestEnds_goesOn : rcmTestEnds n true s =
    if (s.out n).rcmTest = 2 then
      tryClose n ((rcmShown n true s).setOut n { (rcmShown n true s).out n with rcmEach := true })
    else if (s.out n).rcmTest = 3 && (rcmShown n true s).outSt n = 10 && !((rcmShown n true s).out n).weldBad then
      leaveFault n (rcmShown n true s)
    else tryClose n (rcmShown n true s) :=
  (if_neg running).trans (if_neg (by decide))

/-- The test before closing passes: closing goes on (R254). -/
theorem rcmTestEnds_beforeClosing (h : (s.out n).rcmTest = 2) : rcmTestEnds n true s =
    tryClose n ((rcmShown n true s).setOut n { (rcmShown n true s).out n with rcmEach := true }) :=
  (rcmTestEnds_goesOn running).trans (if_pos h)

/-- The test of CLEAR passes: FAULT is left (R260). -/
theorem rcmTestEnds_clears (h : (s.out n).rcmTest = 3) (hst : s.outSt n = 10) (hweld : (s.out n).weldBad = false) :
    rcmTestEnds n true s = leaveFault n (rcmShown n true s) := by
  refine (rcmTestEnds_goesOn running).trans ((if_neg (by simp [h])).trans (if_pos ?_))
  rw [rcmShown_outSt, rcmShown_out]
  simp [h, hst, hweld]

/-- The test of the connection, or by command, passes. -/
theorem rcmTestEnds_passes (h : (s.out n).rcmTest = 1 ∨ (s.out n).rcmTest = 4) :
    rcmTestEnds n true s = tryClose n (rcmShown n true s) := by
  have h2 : (s.out n).rcmTest ≠ 2 := by omega
  have h3 : (s.out n).rcmTest ≠ 3 := by omega
  exact (rcmTestEnds_goesOn running).trans ((if_neg h2).trans (if_neg (by simp [h3])))

end

/-! ### Insulation (R261, R262) -/

section
variable {n : Nat} {vpA vnA vpB vnB riso opv : Int} {s : State}

/-- Of an AC outlet, and with less than 50 V between the conductors, nothing is judged. -/
theorem insulation_unjudged (h : s.isDc n = false ∨ |vpA - vnA| < 50000 ∨ |vpB - vnB| < 50000) :
    insulation n vpA vnA vpB vnB s = s := if_pos (by simpa [or_assoc] using h)

theorem insulation_judged (hd : s.isDc n = true) (ha : 50000 ≤ |vpA - vnA|) (hb : 50000 ≤ |vpB - vnB|)
    (hr : isoResult (s.outCfg n 0x1E 2) vpA vnA vpB vnB = some (riso, opv)) :
    insulation n vpA vnA vpB vnB s = isoJudge n riso opv s := by
  refine (if_neg (by simp [hd, not_lt.2 ha, not_lt.2 hb])).trans ?_
  rw [hr]

/-- A good result with no warning standing is shown and counted alone. -/
theorem isoJudge_good (hw : (s.outCfg n 0x20 2 : Int) ≤ opv) (hf : (s.outCfg n 0x22 2 : Int) ≤ opv)
    (was : s.bit (Reg.OUT.SUPV.ISO_WARN n) = false) : isoJudge n riso opv s = isoTake n riso opv false false s := by
  simp [isoJudge, decide_eq_false (not_lt.2 hw), decide_eq_false (not_lt.2 hf), was]

end

/-! ### Clamps of a setpoint (R264) -/

/-- A frame stays within the limits of the outlet, whatever was asked for. -/
theorem clampFrame_within (s : State) (n : Nat) (f : Setpoint) :
    (s.clampFrame n f).vSet ≤ 10 * s.outCfg n 6 2 ∧
      (s.clampFrame n f).iFwd ≤ s.rd (Reg.OUT.LIMIT.I_CAP n) ∧
      (s.outSt n = 5 ∨ s.outSt n = 6 → (s.out n).clamp2 = true → (s.clampFrame n f).iFwd ≤ 20) ∧
      (s.revOk n = false → (s.clampFrame n f).iRev = 0) ∧
      (s.outCfg n 8 2 ≠ 0 → (s.clampFrame n f).pMax ≤ s.outCfg n 8 2) := by
  refine ⟨min_le_right .., (min_le_left ..).trans (min_le_right ..), fun hst hc => ?_, fun hr => ?_, fun hp => ?_⟩
  · exact (min_le_right ..).trans_eq (if_pos (by simpa [hc] using hst))
  · exact if_neg (by simp [hr])
  · exact (if_neg hp).trans_le (min_le_right ..)

/-! ### Connection devices (R265) -/

section
variable {n : Nat} {s : State}

/-- The end of a move shows where the device stands. -/
theorem acdEnd_acd {pos : Nat} (hp : pos < 4) : (acdEnd n pos s).rd (Reg.OUT.SUPV.ACD n) = pos :=
  ((booked_outEvent ..).rdUnit (by decide) (by decide)).trans ((rd_wr_same ..).trans (Nat.mod_eq_of_lt hp))

end

/-! ### CAN buses -/

/-- A bus that goes off, with the counters that ISO 11898-1 leaves it. -/
def canOff (b tec rec : Nat) (s : State) : State :=
  (((s.setB (Reg.CAN.STATUS.BUS_OFF b) true).setB (Reg.CAN.STATUS.ON b) false).wr (Reg.CAN.STATUS.TEC b) tec).wr
    (Reg.CAN.STATUS.REC b) rec

/-- A bus that has recovered, with both counters at 0. -/
def canOn (b : Nat) (s : State) : State :=
  ((((s.setB (Reg.CAN.STATUS.BUS_OFF b) false).setB (Reg.CAN.STATUS.PASSIVE b) false).setB
    (Reg.CAN.STATUS.ON b) (s.bit (Reg.CAN.CFG.EN b))).wr (Reg.CAN.STATUS.TEC b) 0).wr (Reg.CAN.STATUS.REC b) 0

section
variable {b : Nat} {s : State}

theorem calm_canOff {tec rec : Nat} (h : Calm s) : Calm (canOff b tec rec s) :=
  (((h.unitWr (by decide) (by decide) _).unitWr (by decide) (by decide) _).unitWr (by decide) (by decide) _).unitWr
    (by decide) (by decide) _

theorem calm_canOn (h : Calm s) : Calm (canOn b s) :=
  ((((h.unitWr (by decide) (by decide) _).unitWr (by decide) (by decide) _).unitWr (by decide) (by decide) _).unitWr
    (by decide) (by decide) _).unitWr (by decide) (by decide) _

end

/-- Settles O33: each event by what it leads to; what posts or raises is quiet, and the rest leaves a calm state. -/
theorem residualCurrentModulesAndBuses : Obligations.ResidualCurrentModulesAndBuses := by
  unfold Obligations.ResidualCurrentModulesAndBuses
  refine ⟨fun n s c => ⟨fun h => live_idle c rfl (rcmTrip_testing h), ?trip, ?noTest, ?test, ?aHeld, ?notFault, ?iso⟩,
    fun n s c => ⟨?noModules, ?modules, clampFrame_within s n, ?status, ?lost, ?acdEnd, ?acdTimeout, ?acdStill,
      ?busOff, ?recovered⟩⟩
  case trip =>
    rintro u h rfl
    refine live_answers_keeping (P := fun t => t.bit (Reg.OUT.SUPV.RCM_TRIP n) = true) c rfl (rcmTrip_trips h)
      (quiet_rcmTrip n s _ n.isLt rfl) fun t hb => ?_
    exact (hb.bitUnit (by decide) (by decide)).trans (rcmTrip_latched n.isLt _ rfl)
  case noTest =>
    intro lo hi load h
    refine live_next c rfl (if_pos ?_) (setOut_calm c _ _)
    rwa [withLoad_out]
  case test =>
    rintro lo hi load why u v rfl h0 hu hv
    have running : ((withLoad n load s).out n).rcmTest ≠ 0 := by rwa [withLoad_out]
    have shown : v = rcmShown n (rcmPasses lo hi) (withLoad n load s) := by
      rw [rcmShown_eq, hv, hu]
      rfl
    have q : Quiet s v := shown ▸ quiet_withLoad.trans quiet_rcmShown
    rw [go_live c (c := .rcmTestResult n lo hi load) rfl]
    cases hp : rcmPasses lo hi with
    | false =>
      refine ⟨fun _ => ?_, nofun, nofun, nofun⟩
      rw [rcmTestEnds_fails running, ← hp, ← shown]
      exact answers_quiet c (q.trans (quiet_raise _ _ _ (outCode_class n.isLt (by decide) (by decide))))
    | true =>
      refine ⟨nofun, fun _ h2 => ?_, fun _ h3 hst hweld => ?_, fun _ h => ?_⟩
      · rw [rcmTestEnds_beforeClosing running (by rwa [withLoad_out]), ← hp, ← shown]
        exact answers_quiet c ((q.trans (quiet_setOut ..)).trans (quiet_tryClose n _ n.isLt))
      · rw [rcmTestEnds_clears running (by rwa [withLoad_out]) hst (by rwa [withLoad_out]), ← hp, ← shown]
        exact answers_quiet c (q.trans (quiet_leaveFault n _ n.isLt))
      · rw [rcmTestEnds_passes running (by rwa [withLoad_out]), ← hp, ← shown]
        exact answers_quiet c (q.trans (quiet_tryClose n _ n.isLt))
  case aHeld =>
    intro b hst hweld hpre cause
    refine live_answers c rfl (if_pos ?_) (quiet_leaveFault n s n.isLt)
    rcases cause with ⟨ht, hb⟩ | ⟨ht, he⟩
    · simp [hst, hweld, hpre, ht, hb]
    · simp [hst, hweld, hpre, ht, he]
  case notFault => exact fun b h => live_idle c rfl (if_neg (by simp [h]))
  case iso =>
    refine fun vpA vnA vpB vnB => ⟨fun h => live_idle c rfl (insulation_unjudged h), fun riso opv hd ha hb hr =>
      ⟨live_answers c rfl (insulation_judged hd ha hb hr) (quiet_isoJudge n _ _ s n.isLt), fun hw hf was => ?_⟩⟩
    exact live_next c rfl ((insulation_judged hd ha hb hr).trans (isoJudge_good hw hf was)) (isoTake_calm c ..)
  case noModules => exact fun h => live_idle c rfl (if_pos (by simp [h]))
  case modules => exact fun h => live_next c rfl (if_neg (by simpa using h)) (setOut_calm c _ _)
  case status =>
    refine fun b node bytes => ⟨fun hl hc he => ?_, fun h => ?_⟩
    · exact live_answers c rfl (if_pos (by simp [hl, hc, he])) (quiet_statusTake ..)
    · exact live_idle c rfl (if_neg (by rcases h with h | h | h <;> simp [h]))
  case lost =>
    intro k hk hl
    refine live_answers c rfl (if_pos (by simp [hk, hl])) ?_
    have lost : Quiet s (s.setB (Reg.OUT.MOD_STAT.LOST n k) true) :=
      (Quiet.refl s).wr _ _ (by simp only [Fld.key]; omega)
    exact (lost.trans (quiet_outRamp n 15 _ n.isLt)).trans
      (quiet_raiseCause _ _ _ (outCode_class n.isLt (by decide) (by decide)))
  case acdEnd =>
    intro lowered hk
    obtain ⟨t, ht, hb⟩ := live_answers c (i := .acdEndPosition n lowered) rfl (if_pos hk)
      (quiet_acdEnd n (if lowered then 3 else 1) s n.isLt)
    exact ⟨t, ht, hb, (hb.rdUnit (by decide) (by decide)).trans (acdEnd_acd (by cases lowered <;> decide))⟩
  case acdTimeout =>
    intro h
    have hc : faultClass (outCode 0x600C n) ≤ 1 := outCode_class n.isLt (by decide) (by decide)
    obtain ⟨t, ht, hb⟩ := live_answers c (i := .outAcdTimeout n) rfl (if_pos h)
      ((quiet_acdEnd n 0 s n.isLt).trans (quiet_raise _ _ _ hc))
    exact ⟨t, ht, hb, (((books_raise _ _ _ hc).booked.trans hb).rdUnit (by decide) (by decide)).trans
      (acdEnd_acd (by decide))⟩
  case acdStill => exact fun h => live_idle c rfl (if_neg (by simp [h]))
  case busOff =>
    rintro b u rfl o
    have off : Calm
        (canOff b (Config.freeValue s.free) (Config.freeValue (s.free + 1)) { s with free := s.free + 2 }) :=
      calm_canOff (c.congr rfl rfl rfl rfl rfl rfl rfl)
    rw [go_live c (c := .canBusOff b) rfl]
    exact opens_cause off 0x7A01 b (o.congr rfl) (by decide)
  case recovered => exact fun b h => live_next c rfl (if_pos h) ((calm_canOn c).setCause _ _ _)

end Sys2Proof.Machine
end

section
/-!
PROOF. The statement of the carrel family (chapter 09): the commands of R274 and the times of R272 and R288.
-/
namespace Sys2Proof.Machine

/-! ### Commands that nothing refuses (R274) -/

theorem crlModeOk_new {s : State} {cmd : Nat} (hc : cmd ≤ 2)
    (hm : s.mode = 5 ∨ s.mode = 6 ∨ s.mode = 8 ∨ s.mode = 9) : crlModeOk cmd s = true := by
  unfold crlModeOk
  simpa [hc, or_assoc] using hm

theorem Calm.crlModeOk {s : State} (h : Calm s) {cmd : Nat} (hc : 2 < cmd) (hm : 4 ≤ s.mode) :
    crlModeOk cmd s = true := by
  have := h.high
  unfold Machine.crlModeOk
  simp only [if_neg (not_le.2 hc), Bool.and_eq_true, decide_eq_true_eq]
  omega

/-- A list of one condition that holds refuses nothing. -/
theorem none_fails {code : Nat} {b : Bool} (hb : b = true) : [(code, b)].find? (fun x => !x.2) = none := by
  subst hb
  rfl

section
variable {s u v : State} {a : Agent} {i : Instr} {x c cmd k : Nat} {r : Carrel} {conds : List (Nat × Bool)}
  {act : State → State} (h : Calm s) (hl : 1 ≤ s.level a) (hm : crlModeOk cmd s = true) (e : exec i s = done v)
  (ej : v = crlJudge a x cmd conds act s) (hf : conds.find? (fun x => !x.2) = none)

include h hl hm e ej hf

/-- A command that nothing refuses and whose effect is quiet answers it, watched for CRL_FEW. -/
theorem judged_answers (hu : act s = u) (q : Quiet s u) : ∃ t, exec i s = .next t ∧ Booked (crlWatch u) t := by
  subst hu
  rw [e, ej, crlJudge_ok h hl hm hf]
  exact answers_quiet h (q.trans (quiet_crlWatch _))

/-- A command that nothing refuses and that replaces one record. -/
theorem judged_writes (hu : act s = crlResult c cmd 0 (s.setCar c r)) :
    ∃ t, exec i s = .next t ∧ (∀ d, t.car d = if d = c then r else s.car d) ∧
      t.rd Reg.CRL.NEXT_SESSION.SESSION = s.rd Reg.CRL.NEXT_SESSION.SESSION ∧ t.rd Reg.CRL.RESULT.CODE = 0 ∧
      t.outs = s.outs := by
  rw [e, ej, crlJudge_ok h hl hm hf, hu]
  obtain ⟨t, ht, hcar, hnext, -, -, hcode, houts⟩ := crl_make h s c cmd r (Quiet.refl s)
  exact ⟨t, ht, hcar, hnext, hcode, houts⟩

/-- The same, without the session counter. -/
theorem judged_replaces (hu : act s = crlResult c cmd 0 (s.setCar c r)) :
    ∃ t, exec i s = .next t ∧ (∀ d, t.car d = if d = c then r else s.car d) ∧
      t.rd Reg.CRL.RESULT.CODE = 0 ∧ t.outs = s.outs :=
  (judged_writes h hl hm e ej hf hu).imp fun _ ⟨ht, hcar, _, hrest⟩ => ⟨ht, hcar, hrest⟩

/-- A command that nothing refuses and that makes a record with the next session number (R276). -/
theorem judged_takes (hu : act s = crlResult c cmd 0 ((takeSession s).2.setCar c r))
    (hk : k = s.rd Reg.CRL.NEXT_SESSION.SESSION) (hc : c < 256) (hcmd : cmd < 256) :
    ∃ t, exec i s = .next t ∧ (∀ d, t.car d = if d = c then r else s.car d) ∧
      t.rd Reg.CRL.NEXT_SESSION.SESSION = (k + 1) % 2 ^ 32 ∧ t.rd Reg.CRL.RESULT.CARREL = c ∧
      t.rd Reg.CRL.RESULT.CMD = cmd ∧ t.rd Reg.CRL.RESULT.CODE = 0 ∧ t.outs = s.outs := by
  obtain ⟨-, hrecs, houts, hnext⟩ := takeSession_next hk
  rw [e, ej, crlJudge_ok h hl hm hf, hu]
  obtain ⟨t, ht, hcar, hn, hcarrel, hcm, hcode, ho⟩ := crl_make h (takeSession s).2 c cmd r (quiet_takeSession s)
  refine ⟨t, ht, fun d => ?_, hn.trans hnext, hcarrel.trans (Nat.mod_eq_of_lt hc), hcm.trans (Nat.mod_eq_of_lt hcmd),
    hcode, ho.trans houts⟩
  rw [hcar d, car_congr hrecs d]

end

/-! ### RESERVE and AUTHORISE (R272 to R276) -/

/-- The record that RESERVE writes (R272). -/
def reserved (s : State) (n session : Nat) : Carrel :=
  { Carrel.free with st := 1, session := session, outlet := n, tAuth := s.rtcSec }

section
variable {s : State} {a : Agent} {n : Fin 16} {x : Fin 256} {c k : Nat} (h : Calm s) (hl : 1 ≤ s.level a)
  (hm : s.mode = 5 ∨ s.mode = 6 ∨ s.mode = 8 ∨ s.mode = 9) (hn : s.newCarrels = true)
  (hk : s.rd (Reg.OUT.CFG.KIND n) ≠ 0) (ho : s.outSt n ≠ 0)

include h hl hm hn hk ho

/-- RESERVE of the lowest free carrel. -/
theorem reserve_takes (hx : x.val = 0xFF) (hc : s.freeCarrel = some c)
    (e : k = s.rd Reg.CRL.NEXT_SESSION.SESSION) (h0 : k ≠ 0) (h4 : s.outletCarrels n none < 4) :
    ∃ t, exec (.crlReserve a x n) s = .next t ∧ (∀ d, t.car d = if d = c then reserved s n k else s.car d) ∧
      t.rd Reg.CRL.NEXT_SESSION.SESSION = (k + 1) % 2 ^ 32 ∧ t.rd Reg.CRL.RESULT.CARREL = c ∧
      t.rd Reg.CRL.RESULT.CMD = 1 ∧ t.rd Reg.CRL.RESULT.CODE = 0 ∧ t.outs = s.outs := by
  have met := reserveConds_ok (free := true) _ hn hk ho h4 (fun _ => ⟨by rw [hc]; rfl, e ▸ h0⟩)
    (none_fails (code := if (s.car x).st = 7 then 10 else 3) (decide_eq_true hx))
  refine judged_takes h hl (crlModeOk_new (by decide) hm) rfl (crlReserveCmd.eq_def a x n s) met ?_ e
    (freeCarrel_lt hc) (by decide)
  rw [hc, e, reserved, ← takeSession_sec s]
  rfl

/-- AUTHORISE of the lowest free carrel. -/
theorem authorise_takes (hx : x.val = 0xFF) (hc : s.freeCarrel = some c)
    (e : k = s.rd Reg.CRL.NEXT_SESSION.SESSION) (h0 : k ≠ 0) (h4 : s.outletCarrels n none < 4)
    (h1 : (s.car x).st ≠ 1) (hform : s.formOk = true) :
    ∃ t, exec (.crlAuthorise a x n) s = .next t ∧ (∀ d, t.car d = if d = c then authorised s n k else s.car d) ∧
      t.rd Reg.CRL.NEXT_SESSION.SESSION = (k + 1) % 2 ^ 32 ∧ t.rd Reg.CRL.RESULT.CARREL = c ∧
      t.rd Reg.CRL.RESULT.CMD = 2 ∧ t.rd Reg.CRL.RESULT.CODE = 0 ∧ t.outs = s.outs := by
  have fresh : (x.val = 0xFF && (s.car x).st ≠ 1) = true :=
    Bool.and_eq_true_iff.2 ⟨decide_eq_true hx, decide_eq_true h1⟩
  refine judged_takes h hl (crlModeOk_new (by decide) hm) rfl (crlAuthoriseCmd.eq_def a x n s) ?_ ?_ e
    (freeCarrel_lt hc) (by decide)
  · rw [fresh, if_pos rfl]
    exact reserveConds_ok _ hn hk ho h4 (fun _ => ⟨by rw [hc]; rfl, e ▸ h0⟩) (by simp [hform])
  · rw [if_pos fresh, hc, e, ← authorised_take s]
    rfl

/-- AUTHORISE of a carrel Reserved for the same outlet. -/
theorem authorise_keeps (h1 : (s.car x).st = 1) (hout : (s.car x).outlet = n.val)
    (h4 : s.outletCarrels n (some x.val) < 4) (hform : s.formOk = true) :
    ∃ t, exec (.crlAuthorise a x n) s = .next t ∧
      (∀ d, t.car d = if d = x.val then authorised s n (s.car x).session else s.car d) ∧
      t.rd Reg.CRL.NEXT_SESSION.SESSION = s.rd Reg.CRL.NEXT_SESSION.SESSION ∧ t.rd Reg.CRL.RESULT.CODE = 0 ∧
      t.outs = s.outs := by
  have fresh : (x.val = 0xFF && (s.car x).st ≠ 1) = false := by simp [h1]
  refine judged_writes h hl (crlModeOk_new (by decide) hm) rfl (crlAuthoriseCmd.eq_def a x n s) ?_
    (if_neg (ne_true_of_eq_false fresh))
  rw [fresh, if_neg (by decide)]
  exact reserveConds_ok _ hn hk ho h4 (fun k => absurd k (by decide)) (by simp [h1, hout, hform])

end

/-! ### An undefined code and an expired reservation (R272, R274) -/

theorem calm_crlRefused {s : State} (h : Calm s) (c cmd code : Nat) :
    Calm ((crlResult c cmd code s).inc Reg.CRL.COUNTS.REFUSED) := by
  unfold crlResult
  exact (((h.wr _ _ (by decide) (by decide)).wr _ _ (by decide) (by decide)).wr _ _ (by decide) (by decide)).inc _
    (by decide) (by decide)

/-- A refused command whose fault opens an entry (R274, R491). -/
theorem refused_opens {s : State} (h : Calm s) (o : Opens 0x3004 s) {i : Instr} {v : State} {c cmd code : Nat}
    (e : exec i s = done v) (ej : v = crlRefuse c cmd code s) : ∃ t, exec i s = .next t ∧
      Opened 0x3004 c ((crlResult c cmd code s).inc Reg.CRL.COUNTS.REFUSED) t := by
  rw [e, ej]
  exact opens_entry (calm_crlRefused h c cmd code) 0x3004 c (o.congr rfl) (by decide)

/-- An expired reservation frees its carrel (R272). -/
theorem reservation_frees {s : State} (h : Calm s) {c : Fin 256} (h1 : (s.car c).st = 1)
    (hx : s.resExpired (s.car c) = true) : ∃ t, exec (.reservationExpired c) s = .next t ∧
      (∀ d, t.car d = if d = c.val then Carrel.free else s.car d) ∧ t.outs = s.outs := by
  obtain ⟨t, ht, hcar, houts, -⟩ := answers_watch h (quiet_setCar s c Carrel.free)
  refine ⟨t, ?_, fun d => (hcar d).trans (setCar_car s c d _), houts⟩
  rw [go_live h (c := .reservationExpired c) rfl, if_pos (by simp [h1, hx])]
  exact ht

/-- Settles O30: each command by `crlJudge`, none of whose conditions fails, and by the record or the quiet effect that it
writes; each expiry by its guard. -/
theorem carrelsKeepTheirRules : Obligations.CarrelsKeepTheirRules := by
  unfold Obligations.CarrelsKeepTheirRules
  refine ⟨fun a n s h hl hm hn hk ho => ⟨fun x c k hx hc e h0 h4 => ⟨?reserve, ?authorise⟩, ?upgrade⟩, ?commands,
    fun c s h => ⟨reservation_frees h, ?authorisation, ?suspension, ?reservationLasts,
      ?authorisationLasts, ?suspensionLasts⟩⟩
  case reserve => exact reserve_takes h hl hm hn hk ho hx hc e h0 h4
  case authorise => exact authorise_takes h hl hm hn hk ho hx hc e h0 h4
  case upgrade => exact fun c h1 hout h4 hform => authorise_keeps h hl hm hn hk ho h1 hout h4 hform
  case commands =>
    rintro a c s r h h4 hl rfl
    have ok : ∀ {cmd : Nat}, 2 < cmd → crlModeOk cmd s = true := fun hc => h.crlModeOk hc h4
    refine ⟨?cancel, ?withdraw, ?close, ?stop, ?resign, ?ack, ?limit, ?recap, ?undefined⟩
    case cancel =>
      intro h1
      exact judged_replaces h hl (ok (by decide)) rfl (crlCancelCmd.eq_def a c s)
        (none_fails (by simp [h1])) (congrArg (crlResult c 3 0) (if_pos h1))
    case withdraw =>
      intro h2
      exact judged_answers h hl (ok (by decide)) rfl (crlCancelCmd.eq_def a c s) (none_fails (by simp [h2]))
        (congrArg (crlResult c 3 0) (if_neg (by omega)))
        ((quiet_crlClosed c (some 33) s).trans (quiet_crlResult ..))
    case close =>
      intro h2
      exact judged_answers h hl (ok (by decide)) rfl (crlCloseCmd.eq_def a c s) (none_fails (by simp [h2]))
        (congrArg (crlResult c 4 0) (if_pos h2)) ((quiet_crlClosed c (some 32) s).trans (quiet_crlResult ..))
    case stop =>
      intro h3 hn
      exact judged_answers h hl (ok (by decide)) rfl (crlCloseCmd.eq_def a c s) (none_fails (by simp [h3]))
        (congrArg (crlResult c 4 0) ((if_neg (by omega)).trans (if_pos h3)))
        (((quiet_setCar ..).trans (quiet_outRamp _ 1 _ hn)).trans (quiet_crlResult ..))
    case resign =>
      intro h4
      exact judged_answers h hl (ok (by decide)) rfl (crlCloseCmd.eq_def a c s) (none_fails (by simp [h4]))
        (congrArg (crlResult c 4 0) ((if_neg (by omega)).trans (if_neg (by omega))))
        ((quiet_crlClosing c 32 s).trans (quiet_crlResult ..))
    case ack =>
      intro h6 hs
      exact judged_replaces h hl (ok (by decide)) rfl (crlAckCmd.eq_def a c s) (by simp [h6, hs]) rfl
    case limit =>
      intro h2 h4 hb
      exact judged_replaces h hl (ok (by decide)) rfl (crlLimitCmd.eq_def a c s)
        (none_fails (by simp [h2, h4])) (congrArg (crlResult c 6 0) (if_neg fun k =>
          hb ((Bool.and_eq_true_iff.1 k).imp of_decide_eq_true of_decide_eq_true)))
    case recap =>
      intro h2 h4 hn hb
      exact judged_answers h hl (ok (by decide)) rfl (crlLimitCmd.eq_def a c s) (none_fails (by simp [h2, h4]))
        (congrArg (crlResult c 6 0) (if_pos (Bool.and_eq_true_iff.2 ⟨decide_eq_true hn, decide_eq_true hb⟩)))
        (((quiet_setCar ..).trans (quiet_outRecap _ _ hn)).trans (quiet_crlResult ..))
    case undefined =>
      intro cmd h7 o
      refine refused_opens h o rfl (if_pos ?_)
      simp [h.modeWrites, h7]
  case authorisation =>
    exact fun h2 hx => live_answers h rfl (if_pos (by simp [h2, hx])) (quiet_crlClosed c (some 35) s)
  case suspension =>
    exact fun h4 hx => live_answers h rfl (if_pos (by simp [h4, hx])) (quiet_crlClosing c 36 s)
  case reservationLasts => exact fun hx => live_idle h rfl (if_neg (by simp [hx]))
  case authorisationLasts => exact fun hx => live_idle h rfl (if_neg (by simp [hx]))
  case suspensionLasts => exact fun hx => live_idle h rfl (if_neg (by simp [hx]))

end Sys2Proof.Machine
end

section
/-!
PROOF. The statements of the family of the vehicle link (chapter 10): the life cycle of a Green PHY (R295 to R297,
R310), pairing by SLAC (R297 to R300), linked traffic (R301 to R303) and the shared FFT engines (R293, R294).
-/
namespace Sys2Proof.Machine

/-! ### What the operations leave in the registers -/

/-- Posting an event leaves everything but the books as it was (R310). -/
theorem booked_vplEvent (n ev d x : Nat) (s : State) : Booked s (vplEvent n ev d x s) :=
  (books_hwPush0 s 6 _ (by decide) (by decide)).booked

section
variable {n : Nat} {s : State}

theorem vplStarting_st (h : n < 16) : (vplStarting n s).rd (Reg.VPL.STATUS.STATE n) = 1 :=
  vplEnter_st n 1 _ h (by decide)

theorem slacMatching_st (h : n < 16) : (slacMatching n s).rd (Reg.VPL.STATUS.STATE n) = 4 :=
  vplEnter_st n 4 _ h (by decide)

/-- SOUNDS shows the sounds received without error, modulo the width of its field (R299). -/
theorem slacMatching_sounds (h : n < 16) :
    (slacMatching n s).rd (Reg.VPL.STATUS.SOUNDS n) = (s.vplAt n).good % 256 :=
  (vplEnter_sounds n 4 _ h).trans ((rd_wr_ne _ _ _ _ (by simp only [Fld.key]; omega)).trans (rd_wr_same ..))

end

/-! ### Events of a Green PHY that post and raise -/

section
variable {s u : State} {n k : Nat} {i : Instr} {f : State → State}

/-- An event whose effect is quiet answers it with the state of the Green PHY that the effect leaves. -/
theorem vpl_answers (c : Calm s) (e : exec i s = done (live f s)) (hu : f s = u) (q : Quiet s u)
    (hst : u.rd (Reg.VPL.STATUS.STATE n) = k) :
    ∃ t, exec i s = .next t ∧ Booked u t ∧ t.rd (Reg.VPL.STATUS.STATE n) = k := by
  obtain ⟨t, ht, hb⟩ := live_answers c e hu q
  exact ⟨t, ht, hb, (hb.rdUnit (by decide) (by decide)).trans hst⟩

/-- An event that ends with a failure of SLAC shows it in LAST_FAIL and leaves the state of the Green PHY (R297). -/
theorem vplFail_answers (hn : n < 16) (hk : k < 16) (c : Calm s) (e : exec i s = done (live f s))
    (hu : f s = vplFail n k u) (q : Quiet s u) :
    ∃ t, exec i s = .next t ∧ Booked (vplFail n k u) t ∧ t.rd (Reg.VPL.STATUS.LAST_FAIL n) = k ∧
      t.rd (Reg.VPL.STATUS.STATE n) = u.rd (Reg.VPL.STATUS.STATE n) := by
  obtain ⟨t, ht, hb⟩ := live_answers c e hu (q.trans (quiet_vplFail n k u hn))
  obtain ⟨hfail, hst⟩ := vplFail_reads n k u hn hk
  exact ⟨t, ht, hb, (hb.rdUnit (by decide) (by decide)).trans hfail, (hb.rdUnit (by decide) (by decide)).trans hst⟩

end

/-! ### Control and transmitter faults (R295, R296) -/

/-- What a write of CTL leaves before R295 is judged: EN and TX_ATTEN, and EN off ends a transmitter fault (R296). -/
def ctlTaken (n : Nat) (en : Bool) (atten : Nat) (s : State) : State :=
  if en then (s.setB (Reg.VPL.CTL.EN n) en).wr (Reg.VPL.CTL.TX_ATTEN n) atten
  else setCause (0x7120 + n) n false (((s.setB (Reg.VPL.CTL.EN n) en).wr (Reg.VPL.CTL.TX_ATTEN n) atten).setVpl n
    { s.vplAt n with txFault := false })

section
variable {n : Nat} {s : State}

theorem calm_ctlTaken {en : Bool} {atten : Nat} (h : Calm s) : Calm (ctlTaken n en atten s) := by
  have written : Calm ((s.setB (Reg.VPL.CTL.EN n) en).wr (Reg.VPL.CTL.TX_ATTEN n) atten) :=
    (h.unitWr (by decide) (by decide) _).unitWr (by decide) (by decide) _
  exact Calm.ite written ((setVpl_calm written n _).setCause _ _ _)

/-- Whether the conditions of R295 held when last judged is not changed by the write itself. -/
theorem ctlTaken_wanted {en : Bool} {atten : Nat} :
    ((ctlTaken n en atten s).vplAt n).wanted = (s.vplAt n).wanted := by
  cases en with
  | true => rfl
  | false =>
    have cleared := congrArg VplSt.wanted (setVpl_vplAt
      ((s.setB (Reg.VPL.CTL.EN n) false).wr (Reg.VPL.CTL.TX_ATTEN n) atten) n { s.vplAt n with txFault := false })
    exact cleared

/-- A write at Observer level or above, in a calm state, is taken and R295 judged again. -/
theorem vplCtlWrite_effect {a : Agent} {n : Fin 16} {en : Bool} {atten : Fin 64} (h : Calm s) (hl : 1 ≤ s.level a) :
    exec (.vplCtlWrite a n en atten) s = done (vplFollow n (ctlTaken n en atten s)) :=
  go_gated h hl (f := fun s => vplFollow n (ctlTaken n en atten s)) rfl

theorem vplFollow_stays (h : s.vplWanted n = (s.vplAt n).wanted) : vplFollow n s = s := if_pos h

/-- The conditions of R295 have come to hold. -/
theorem vplFollow_enables (hw : s.vplWanted n = true) (h : (s.vplAt n).wanted = false) :
    vplFollow n s = vplEnable n (s.setVpl n { s.vplAt n with wanted := true }) := by
  simp [vplFollow, hw, h]

/-- A condition of R295 has failed. -/
theorem vplFollow_disables (hw : s.vplWanted n = false) (h : (s.vplAt n).wanted = true) :
    vplFollow n s = vplDisable n (s.setVpl n { s.vplAt n with wanted := false }) := by
  simp [vplFollow, hw, h]

end

/-! ### SLAC (R297 to R300) -/

section
variable {n r : Nat} {s : State}

/-- In WAITING, or for a RunID other than the one held, a sounding starts (R298). -/
theorem slacParm_starts (h : s.rd (Reg.VPL.STATUS.STATE n) = 2 ∨
    (s.rd (Reg.VPL.STATUS.STATE n) = 3 ∨ s.rd (Reg.VPL.STATUS.STATE n) = 4) ∧ (s.vplAt n).runId ≠ some r) :
    slacParm n r s = slacSounding n r s := by
  rcases h with h2 | ⟨h34, hr⟩
  · exact if_pos h2
  · exact (if_neg (by omega)).trans ((if_pos (by simpa using h34)).trans (if_neg hr))

/-- For the RunID held it is answered again alone. -/
theorem slacParm_repeats (h : s.rd (Reg.VPL.STATUS.STATE n) = 3 ∨ s.rd (Reg.VPL.STATUS.STATE n) = 4)
    (hr : (s.vplAt n).runId = some r) : slacParm n r s = s.setVpl n { s.vplAt n with answer := 1 } :=
  (if_neg (by omega)).trans ((if_pos (by simpa using h)).trans (if_pos hr))

theorem slacParm_idle (h2 : s.rd (Reg.VPL.STATUS.STATE n) ≠ 2) (h3 : s.rd (Reg.VPL.STATUS.STATE n) ≠ 3)
    (h4 : s.rd (Reg.VPL.STATUS.STATE n) ≠ 4) : slacParm n r s = s :=
  (if_neg h2).trans (if_neg (by simp [h3, h4]))

theorem quiet_slacSounding (h : n < 16) : Quiet s (slacSounding n r s) :=
  (quiet_setVpl ..).trans (quiet_vplEnter n 3 _ h)

/-- A sound joins the count of a sounding and, received without error, the profile (R299). -/
def VplSt.hears (ok : Bool) (att : List (List Nat)) (x : VplSt) : VplSt :=
  if ok then { x with heard := x.heard + 1, good := x.good + 1, sums := slacSums x.sums att }
  else { x with heard := x.heard + 1 }

variable {ok : Bool} {att : List (List Nat)}

theorem slacSound_idle (h : s.rd (Reg.VPL.STATUS.STATE n) ≠ 3 ∨ (s.vplAt n).window = false) :
    slacSound n ok att s = s := if_pos (by simpa using h)

section
variable (hst : s.rd (Reg.VPL.STATUS.STATE n) = 3) (hw : (s.vplAt n).window = true)
include hst hw

/-- In an open window the sound is heard, and the last one asked for with a good one leads on (R297). -/
theorem slacSound_hears : slacSound n ok att s =
    if (s.vplAt n).numSounds ≤ (s.vplAt n).heard + 1 ∧ (ok = true ∨ 1 ≤ (s.vplAt n).good) then
      slacMatching n (s.setVpl n ((s.vplAt n).hears ok att))
    else s.setVpl n ((s.vplAt n).hears ok att) := by
  refine (if_neg (by simp [hst, hw])).trans ?_
  cases ok <;> simp [VplSt.hears]

theorem slacSound_counts (h : (s.vplAt n).heard + 1 < (s.vplAt n).numSounds ∨ (ok = false ∧ (s.vplAt n).good = 0)) :
    slacSound n ok att s = s.setVpl n ((s.vplAt n).hears ok att) := by
  refine (slacSound_hears hst hw).trans (if_neg ?_)
  rintro ⟨last, hgood⟩
  rcases h with more | ⟨rfl, none⟩
  · omega
  · simp [none] at hgood

theorem slacSound_matches (hl : (s.vplAt n).numSounds ≤ (s.vplAt n).heard + 1) (hg : ok = true ∨ 1 ≤ (s.vplAt n).good) :
    slacSound n ok att s = slacMatching n (s.setVpl n ((s.vplAt n).hears ok att)) :=
  (slacSound_hears hst hw).trans (if_pos ⟨hl, hg⟩)

end

/-- MATCHED with the vehicle's address shown (R297). -/
def slacMatched (n mac : Nat) (s : State) : State :=
  ((vplEnter n 5 (s.setVpl n { s.vplAt n with answer := 3 })).wr (Reg.VPL.EV_MAC_LO.BYTES n) mac).wr
    (Reg.VPL.EV_MAC_HI.BYTES n) (mac / 2 ^ 32)

theorem quiet_slacMatched {mac : Nat} (h : n < 16) : Quiet s (slacMatched n mac s) :=
  (((quiet_setVpl ..).trans (quiet_vplEnter n 5 _ h)).unitWr (by decide) (by decide) _).unitWr (by decide) (by decide) _

theorem slacMatched_st {mac : Nat} (h : n < 16) : (slacMatched n mac s).rd (Reg.VPL.STATUS.STATE n) = 5 :=
  (rd_wr_ne _ _ _ _ (by simp only [Fld.key]; omega)).trans
    ((rd_wr_ne _ _ _ _ (by simp only [Fld.key]; omega)).trans (vplEnter_st n 5 _ h (by decide)))

end

/-- Settles O35: each event by what it leads to in the state where it acts; what enters a state, posts or raises is quiet,
and the rest leaves a calm state. -/
theorem vehicleLinksPair : Obligations.VehicleLinksPair := by
  unfold Obligations.VehicleLinksPair
  refine ⟨fun n s c => ⟨fun a en atten u hl hu => ?ctl, fun h => ?passed, fun h => live_idle c rfl (if_neg h), ?txFault,
    fun h => ?slacInit, fun h => live_idle c rfl (if_neg h), fun h => ?matchTime, fun h => live_idle c rfl (if_neg h),
    fun h => ?joinTime, fun h => live_idle c rfl (if_neg h)⟩, ?pairing⟩
  case ctl =>
    obtain rfl : u = ctlTaken n en atten s := hu
    rw [vplCtlWrite_effect c hl, ← ctlTaken_wanted (n := n) (en := en) (atten := atten)]
    refine ⟨fun hs => ?_, fun hw was => ?_, fun hw was => ?_⟩
    · rw [vplFollow_stays hs]
      exact done_calm (calm_ctlTaken c)
    · rw [vplFollow_enables hw was]
      rfl
    · rw [vplFollow_disables hw was]
      rfl
  case passed =>
    exact vpl_answers c rfl (if_pos h) (quiet_vplEnter n 2 s n.isLt) (vplEnter_st n 2 s n.isLt (by decide))
  case txFault =>
    have q : Quiet s (vplForce n (raiseCause (0x7120 + n) n (s.setVpl n { s.vplAt n with txFault := true }))) :=
      ((quiet_setVpl ..).trans (quiet_raiseCause _ _ _ (vpl_class n.isLt (by decide) (by decide)))).trans
        (reacts_vplForce n _ n.isLt).quiet
    rw [go_unless c (c := .vplTxFault n) rfl]
    exact answers_quiet c q
  case slacInit =>
    obtain ⟨t, ht, hb, hfail, -⟩ := vplFail_answers (i := .slacInitElapsed n) n.isLt (by decide) c rfl (if_pos h)
      (Quiet.refl s)
    exact ⟨t, ht, hb, hfail⟩
  case matchTime =>
    obtain ⟨t, ht, hb, hfail, hst⟩ := vplFail_answers (i := .matchTElapsed n) n.isLt (by decide) c rfl (if_pos h)
      ((quiet_setVpl ..).trans (quiet_vplEnter n 2 _ n.isLt))
    exact ⟨t, ht, hb, hfail, hst.trans (vplEnter_st n 2 _ n.isLt (by decide))⟩
  case joinTime =>
    obtain ⟨t, ht, hb, hfail, hst⟩ := vplFail_answers (i := .joinTElapsed n) n.isLt (by decide) c rfl (if_pos h)
      (quiet_vplStarting n s n.isLt)
    exact ⟨t, ht, hb, hfail, hst.trans (vplStarting_st n.isLt)⟩
  case pairing =>
    rintro n s st x c rfl rfl
    refine ⟨fun r h => ?parm, fun r h hr => ?again, fun r h2 h3 h4 => live_idle c rfl (slacParm_idle h2 h3 h4),
      fun r k h hr => ?opens, fun r k h => live_idle c rfl (if_neg (by simpa [imp_iff_not_or] using h)),
      fun ok att h => live_idle c rfl (slacSound_idle h), fun ok att h hw more => ?counts, ?last,
      fun h hw hg => ?mnbcGood, fun h hw hg => ?mnbcNone, fun h => live_idle c rfl (if_pos (by simpa using h)),
      fun r mac h hr => ?matched, fun r mac h => live_idle c rfl (if_neg (by simpa [imp_iff_not_or] using h)),
      fun h2 h6 => ?validate, fun h => live_idle c rfl (if_neg ?unpaired), live_idle c rfl rfl⟩
    case parm =>
      exact vpl_answers c rfl (slacParm_starts h) (quiet_slacSounding n.isLt) (vplEnter_st n 3 _ n.isLt (by decide))
    case again => exact live_next c rfl (slacParm_repeats h hr) (setVpl_calm c n _)
    case opens => exact live_next c rfl (if_pos (by simp [h, hr])) (setVpl_calm c n _)
    case counts => exact live_next c rfl (slacSound_counts h hw more) (setVpl_calm c n _)
    case last =>
      rintro ok att u h hw hl hg rfl
      exact vpl_answers c rfl (slacSound_matches h hw hl hg) ((quiet_setVpl ..).trans (quiet_slacMatching n _ n.isLt))
        (slacMatching_st n.isLt)
    case mnbcGood =>
      obtain ⟨t, ht, hb, hst⟩ := vpl_answers (i := .mnbcElapsed n) c rfl
        ((if_neg (by simp [h, hw])).trans (if_pos hg)) (quiet_slacMatching n s n.isLt) (slacMatching_st n.isLt)
      exact ⟨t, ht, hb, hst, (hb.rdUnit (by decide) (by decide)).trans (slacMatching_sounds n.isLt)⟩
    case mnbcNone =>
      obtain ⟨t, ht, hb, hfail, hst⟩ := vplFail_answers (i := .mnbcElapsed n) n.isLt (by decide) c rfl
        ((if_neg (by simp [h, hw])).trans (if_neg (by omega))) ((quiet_setVpl ..).trans (quiet_vplEnter n 2 _ n.isLt))
      exact ⟨t, ht, hb, hst.trans (vplEnter_st n 2 _ n.isLt (by decide)), hfail⟩
    case matched =>
      exact vpl_answers c rfl (if_pos (by simp [h, hr])) (quiet_slacMatched n.isLt) (slacMatched_st n.isLt)
    case validate => exact live_next c rfl (if_pos (by simp [h2, h6])) (setVpl_calm c n _)
    case unpaired =>
      simp only [Bool.and_eq_true, decide_eq_true_eq]
      omega

/-! ### Linked traffic (R297, R301 to R303) -/

section
variable {n : Nat} {s : State}

/-- A count in an array of registers from the outlets' on keeps a state calm. -/
theorem Calm.unitInc {a d lo w : Nat} (h : Calm s) (ha : 0x20000 ≤ a) (hl : lo < 32) :
    Calm (s.inc ⟨a + d * n, lo, w⟩) := h.unitWr ha hl _

/-- Such a count leaves the mode as it was. -/
theorem mode_unitInc {a d lo w : Nat} (ha : 0x20000 ≤ a) (hl : lo < 32) :
    (s.inc ⟨a + d * n, lo, w⟩).mode = s.mode := mode_wr s _ _ (modeKey_ne_unit ha hl)

variable {bytes : List Byte}

theorem gpFrame_unlinked (h : s.rd (Reg.VPL.STATUS.STATE n) ≠ 6) : gpFrame n bytes s = s := if_pos h

section
variable (hst : s.rd (Reg.VPL.STATUS.STATE n) = 6)
include hst

/-- A frame of a linked Green PHY is counted; in modes 8 and 9 it is kept while there is room and else dropped (R303). -/
theorem gpFrame_linked {u : State} (hu : u = s.inc (Reg.VPL.RX_FRAMES.COUNT n)) : gpFrame n bytes s =
    if s.mode ≠ 8 ∧ s.mode ≠ 9 then u
    else if (s.vplAt n).buf.length < 32 then u.setVpl n { s.vplAt n with buf := (s.vplAt n).buf ++ [bytes] }
    else vplEvent n 5 0 ((u.inc (Reg.VPL.DROPS.COUNT n)).rd (Reg.VPL.DROPS.COUNT n)) (u.inc (Reg.VPL.DROPS.COUNT n)) := by
  subst hu
  have m : (s.inc (Reg.VPL.RX_FRAMES.COUNT n)).mode = s.mode := mode_unitInc (by decide) (by decide)
  refine (if_neg (not_not.2 hst)).trans ?_
  simp only [m, Bool.and_eq_true, decide_eq_true_eq]
  rfl

theorem gpFrame_delivered (h8 : s.mode ≠ 8) (h9 : s.mode ≠ 9) :
    gpFrame n bytes s = s.inc (Reg.VPL.RX_FRAMES.COUNT n) := (gpFrame_linked hst rfl).trans (if_pos ⟨h8, h9⟩)

theorem gpFrame_kept (hm : s.mode = 8 ∨ s.mode = 9) (hb : (s.vplAt n).buf.length < 32) : gpFrame n bytes s =
    (s.inc (Reg.VPL.RX_FRAMES.COUNT n)).setVpl n { s.vplAt n with buf := (s.vplAt n).buf ++ [bytes] } :=
  (gpFrame_linked hst rfl).trans ((if_neg (by omega)).trans (if_pos hb))

theorem gpFrame_dropped (hm : s.mode = 8 ∨ s.mode = 9) (hb : 32 ≤ (s.vplAt n).buf.length) {w : State}
    (hw : w = (s.inc (Reg.VPL.RX_FRAMES.COUNT n)).inc (Reg.VPL.DROPS.COUNT n)) :
    gpFrame n bytes s = vplEvent n 5 0 (w.rd (Reg.VPL.DROPS.COUNT n)) w := by
  subst hw
  exact (gpFrame_linked hst rfl).trans ((if_neg (by omega)).trans (if_neg (Nat.not_lt.2 hb)))

end

/-- The failures of each physical block once a list of blocks has failed again (R301). -/
def blocksFailed (l : List Nat) (m : SMap Nat) : SMap Nat :=
  l.foldl (fun m k => mapSet (fun _ => 0) m k (mapGet (fun _ => 0) m k + 1)) m

theorem selAck_idle {l : List Nat} (h : s.rd (Reg.VPL.STATUS.STATE n) < 2 ∨ 6 < s.rd (Reg.VPL.STATUS.STATE n)) :
    selAck n l s = s := if_pos (by simpa using h)

section
variable (h2 : 2 ≤ s.rd (Reg.VPL.STATUS.STATE n)) (h6 : s.rd (Reg.VPL.STATUS.STATE n) ≤ 6)
include h2 h6

/-- From WAITING to LINKED an acknowledgement ends the frame, fails it, or has its failed blocks sent again. -/
theorem selAck_judges {l : List Nat} {b : SMap Nat} (hb : b = blocksFailed l (s.vplAt n).blocks) : selAck n l s =
    if l.isEmpty then s.setVpl n { s.vplAt n with blocks := [] }
    else if l.any (fun k => s.rd Reg.VPL.CFG2.RETRY ≤ mapGet (fun _ => 0) b k) then
      (s.setVpl n { s.vplAt n with blocks := [] }).inc (Reg.VPL.PB_STAT.FAILED n)
    else (s.setVpl n { s.vplAt n with blocks := b }).wr (Reg.VPL.PB_STAT.RETX n)
      (min 65535 (s.rd (Reg.VPL.PB_STAT.RETX n) + l.length)) := by
  subst hb
  refine if_neg ?_
  simp only [Bool.or_eq_true, decide_eq_true_eq]
  omega

theorem selAck_ends : selAck n [] s = s.setVpl n { s.vplAt n with blocks := [] } :=
  (selAck_judges h2 h6 rfl).trans (if_pos rfl)

variable {k : Nat} {l : List Nat} {b : SMap Nat} (hb : b = blocksFailed (k :: l) (s.vplAt n).blocks)
include hb

theorem selAck_fails (h : ∃ j ∈ k :: l, s.rd Reg.VPL.CFG2.RETRY ≤ mapGet (fun _ => 0) b j) : selAck n (k :: l) s =
    (s.setVpl n { s.vplAt n with blocks := [] }).inc (Reg.VPL.PB_STAT.FAILED n) := by
  obtain ⟨j, hj, hr⟩ := h
  exact (selAck_judges h2 h6 hb).trans ((if_neg (by simp)).trans (if_pos (any_pos ⟨j, hj, decide_eq_true hr⟩)))

theorem selAck_resends (h : ∀ j ∈ k :: l, mapGet (fun _ => 0) b j < s.rd Reg.VPL.CFG2.RETRY) : selAck n (k :: l) s =
    (s.setVpl n { s.vplAt n with blocks := b }).wr (Reg.VPL.PB_STAT.RETX n)
      (min 65535 (s.rd (Reg.VPL.PB_STAT.RETX n) + (l.length + 1))) := by
  refine (selAck_judges h2 h6 hb).trans ((if_neg (by simp)).trans (if_neg ?_))
  exact ne_true_of_eq_false (any_neg fun j hj => decide_eq_false (Nat.not_le.2 (h j hj)))

end

end

/-! ### The FFT engines (R293, R294) -/

section
variable {req now : Nat} {s : State}

/-- What waits and runs in the engines does not decide whether a state is calm. -/
theorem Calm.setFft (h : Calm s) (x : FftSt) : Calm { s with fft := x } := h.congr rfl rfl rfl rfl rfl rfl rfl

theorem fftDrop_calm (h : Calm s) : Calm (fftDrop req now s) := fftGrant_calm (s := s) now 2 _ (h.setFft _)

theorem fftDrop_flt : (fftDrop req now s).flt = s.flt := fftGrant_table now 2 _

/-- A requester has at most one transform outstanding. -/
theorem fftRequest_outstanding (h : ∃ x ∈ s.fft.waiting ++ s.fft.busy, x.2 = req) : fftRequest req now s = s := by
  obtain ⟨x, hx, hr⟩ := h
  exact if_pos (Bool.or_eq_true_iff.2 (.inr (any_pos ⟨x, hx, decide_eq_true hr⟩)))

theorem fftRequest_waits (hr : s.running = true) (h : ∀ x ∈ s.fft.waiting ++ s.fft.busy, x.2 ≠ req) :
    fftRequest req now s =
      fftGrant 2 now { s with fft := { s.fft with waiting := fftInsert (now, req) s.fft.waiting } } := by
  have free : (s.fft.waiting ++ s.fft.busy).any (fun x => x.2 = req) = false :=
    any_neg fun x hx => decide_eq_false (h x hx)
  exact if_neg (by simp only [hr, free]; decide)

end

/-- Settles O36: each event by what it leads to in the state where it acts; a lost link and a dropped frame are quiet, an
overrun opens its entry, and the rest leaves a calm state. -/
theorem vehicleLinkCarriesFrames : Obligations.VehicleLinkCarriesFrames := by
  unfold Obligations.VehicleLinkCarriesFrames
  refine ⟨?frames, fun req now s c => ⟨?outstanding, ?waits, ?completes, ?absent, ?overrun, ?inTime⟩⟩
  case frames =>
    rintro n s st x u c rfl rfl rfl
    have counted : Calm (s.inc (Reg.VPL.RX_FRAMES.COUNT n)) := c.unitInc (by decide) (by decide)
    refine ⟨fun h => ?links, fun h => live_next c rfl ((if_neg (by omega)).trans (if_pos h)) counted,
      fun h5 h6 => live_idle c rfl ((if_neg h5).trans (if_neg h6)), fun ms h hms => ?lost,
      fun ms h => live_idle c rfl (if_neg ?alive), fun b h => live_idle c rfl (gpFrame_unlinked h),
      fun b h h8 h9 => live_next c rfl (gpFrame_delivered h h8 h9) counted,
      fun b h hm hb => live_next c rfl (gpFrame_kept h hm hb) (setVpl_calm counted n _), ?dropped,
      fun l h => live_idle c rfl (selAck_idle h),
      fun h2 h6 => live_next c rfl (selAck_ends h2 h6) (setVpl_calm c n _),
      fun k l b h2 h6 hb => ⟨fun h => ?fails, fun h => ?resends⟩⟩
    case links =>
      have matched : Quiet s (vplEnter n 6 (s.inc (Reg.VPL.RX_FRAMES.COUNT n))) :=
        ((Quiet.refl s).unitWr (by decide) (by decide) _).trans (quiet_vplEnter n 6 _ n.isLt)
      exact vpl_answers c rfl (if_pos h) (matched.trans (quiet_vplEvent ..))
        (((booked_vplEvent ..).rdUnit (by decide) (by decide)).trans (vplEnter_st n 6 _ n.isLt (by decide)))
    case lost =>
      have hc : faultClass (0x3160 + n) ≤ 1 := vpl_class n.isLt (by decide) (by decide)
      exact vpl_answers c rfl (if_pos (by simp [h, hms]))
        (((quiet_vplEvent ..).trans (quiet_vplStarting n _ n.isLt)).trans (quiet_raise _ _ _ hc))
        (((books_raise _ _ _ hc).booked.rdUnit (by decide) (by decide)).trans (vplStarting_st n.isLt))
    case alive =>
      simp only [Bool.and_eq_true, decide_eq_true_eq]
      omega
    case dropped =>
      rintro b w h hm hb rfl
      have dropped : Quiet s ((s.inc (Reg.VPL.RX_FRAMES.COUNT n)).inc (Reg.VPL.DROPS.COUNT n)) :=
        ((Quiet.refl s).unitWr (by decide) (by decide) _).unitWr (by decide) (by decide) _
      exact live_answers c rfl (gpFrame_dropped h hm hb rfl) (dropped.trans (quiet_vplEvent ..))
    case fails => exact live_next c rfl (selAck_fails h2 h6 hb h) ((setVpl_calm c n _).unitInc (by decide) (by decide))
    case resends =>
      exact live_next c rfl (selAck_resends h2 h6 hb h) ((setVpl_calm c n _).unitWr (by decide) (by decide) _)
  case outstanding => exact fun h => (congrArg done (fftRequest_outstanding h)).trans (done_calm c)
  case waits =>
    exact fun h => (congrArg done (fftRequest_waits c.run h)).trans (done_calm (fftGrant_calm (s := s) now 2 _ (c.setFft _)))
  case completes =>
    rintro ⟨x, hx, hr⟩
    exact live_next c rfl (if_pos (any_pos ⟨x, hx, decide_eq_true hr⟩)) (fftDrop_calm c)
  case absent =>
    exact fun h => live_idle c rfl (if_neg (ne_true_of_eq_false (any_neg fun x hx => decide_eq_false (h x hx))))
  case overrun =>
    rintro ⟨x, hx, hr, late⟩ o
    rw [go_live c (c := .vplFftOverrun req now) rfl, if_pos (any_pos ⟨x, hx, by simp [hr, late]⟩)]
    exact opens_entry ((fftDrop_calm c).inc _ (by decide) (by decide)) 0x7101 req
      (o.congr (congrArg FltSt.table fftDrop_flt)) (by decide)
  case inTime =>
    refine fun h => live_idle c rfl (if_neg (ne_true_of_eq_false (any_neg fun x hx => ?_)))
    simpa using h x hx

end Sys2Proof.Machine
end

section
/-!
PROOF. The statements of the family of the Rosash backbone (chapter 11): votes (R348), cycles, beacons and admission
(R329 to R331, R338, R341, R342, R346 to R348), safety slots, coordinators and network keys (R315, R332, R337 to R339,
R344, R381 to R384), and links, routes and polls (R326, R328, R333 to R336).
-/
namespace Sys2Proof.Machine

/-! ### Votes (R348) -/

section
variable {s : State} {id hash act deadline : Nat} {named : List Nat}

/-- A vote as it is called: open, and nobody has answered. -/
def BbnVote.called (id hash act deadline : Nat) (named : List Nat) (s : State) : BbnVote :=
  ⟨id, hash, act, deadline, named, [], none, 0, s.bbn.coordLong.getD 0, none⟩

theorem voteCall_member (h : s.role = 3) : voteCall id hash act deadline named s =
    ((s.mapBbn fun b => { b with vote := some (.called id hash act deadline named s) }).wr Reg.BBN.VOTE.STATE 1).wr
      Reg.BBN.VOTE.VOTE_ID id := if_pos h

theorem voteCall_outside (h3 : s.role ≠ 3) (h4 : s.role ≠ 4) : voteCall id hash act deadline named s = s :=
  (if_neg h3).trans (if_pos h4)

/-- A coordinator refuses a call while its vote is open, or with fewer than 64 cycles between the two times. -/
theorem voteCall_refused (h4 : s.role = 4) (h : act < deadline + 64 * s.rd Reg.BBN.CFG.CYCLE * 1000000 ∨
    ∃ w, s.bbn.vote = some w ∧ w.outcome = 0) : voteCall id hash act deadline named s = s := by
  refine (if_neg (by omega)).trans ((if_neg (not_not.2 h4)).trans (if_pos ?_))
  rcases h with late | ⟨w, hw, h0⟩
  · simp [late]
  · simp [hw, h0]

theorem voteCall_starts (h4 : s.role = 4) (ht : deadline + 64 * s.rd Reg.BBN.CFG.CYCLE * 1000000 ≤ act)
    (hv : s.bbn.vote = none) : voteCall id hash act deadline named s =
    ((named.foldl (fun s n => (bbnSend n ([8] ++ beBytes 2 id ++ beBytes 16 hash ++ beBytes 8 act ++
      beBytes 8 deadline) s).2)
      (s.mapBbn fun b => { b with vote := some (.called id hash act deadline named s) })).wr Reg.BBN.VOTE.STATE 1).wr
      Reg.BBN.VOTE.VOTE_ID id :=
  (if_neg (by omega)).trans ((if_neg (not_not.2 h4)).trans (if_neg (by simp [hv, ht])))

end

section
variable {s : State} {src : Fin 4096} {id : Fin 65536} {ready : Bool}

theorem voteAns_idle (h : s.role ≠ 4 ∨ s.bbn.vote = none ∨ ready = false) :
    exec (.voteAns src id ready) s = .next (settle s) := by
  refine ends rfl ?_
  by_cases h4 : s.running = true ∧ s.role = 4
  · refine (if_neg (by simpa using h4)).trans ?_
    rcases h with h | h | h
    · exact absurd h4.2 h
    · rw [h]
    · split
      · rfl
      · exact if_neg (by simp [h])
  · exact if_pos (by simpa [imp_iff_not_or] using h4)

theorem voteAns_counts {v : BbnVote} (hr : s.running = true) (h4 : s.role = 4) (hv : s.bbn.vote = some v)
    (hid : v.id = id.val) (h0 : v.outcome = 0) (hn : src.val ∈ v.named) (hy : src.val ∉ v.ready) :
    exec (.voteAns src id true) s =
      .next (settle (s.mapBbn fun b => { b with vote := some { v with ready := src.val :: v.ready } })) := by
  refine ends rfl ((if_neg (by simp [hr, h4])).trans ?_)
  rw [hv]
  exact if_pos (by simp [hid, h0, hn, hy])

end

section
variable {s : State} {v : BbnVote}

theorem voteDeadline_idle (h : s.bbn.vote = none ∨ s.role ≠ 4) : voteDeadline s = s := by
  unfold voteDeadline
  rcases h with h | h
  · rw [h]
  · split
    · rfl
    · exact if_pos (by simp [h])

variable (hv : s.bbn.vote = some v) (h4 : s.role = 4) (h0 : v.outcome = 0)
include hv h4 h0

/-- At DEADLINE an open vote is committed or aborted as all named members are ready or not (R348). -/
theorem voteDeadline_judges {ok : Bool} {t : State} (hok : (v.named.all fun n => v.ready.contains n) = ok)
    (ht : t = (s.mapBbn fun b => { b with vote := some { v with outcome := if ok then 1 else 2 } }).wr Reg.BBN.VOTE.STATE
      (if ok then 4 else 5)) : voteDeadline s = if ok then t else raise 0x3208 0 t := by
  subst ht hok
  unfold voteDeadline
  rw [hv]
  exact if_neg (by simp [h4, h0])

theorem voteDeadline_commits (h : ∀ n ∈ v.named, n ∈ v.ready) : voteDeadline s =
    (s.mapBbn fun b => { b with vote := some { v with outcome := 1 } }).wr Reg.BBN.VOTE.STATE 4 :=
  voteDeadline_judges hv h4 h0 (ok := true) (by simpa using h) rfl

theorem voteDeadline_aborts (h : ∃ n ∈ v.named, n ∉ v.ready) : voteDeadline s = raise 0x3208 0
    ((s.mapBbn fun b => { b with vote := some { v with outcome := 2 } }).wr Reg.BBN.VOTE.STATE 5) :=
  voteDeadline_judges hv h4 h0 (ok := false) (by simpa using h) rfl

end

/-- Settles O40: a call by the node's role and vote, an answer by the vote it belongs to, the deadline by who is ready. -/
theorem backboneVotes : Obligations.BackboneVotes := by
  unfold Obligations.BackboneVotes
  rintro s _ hr rfl
  refine ⟨?call, fun src id ready => ⟨voteAns_idle, fun v => voteAns_counts hr⟩,
    fun h => ends_if hr rfl (voteDeadline_idle h), fun v hv h4 h0 =>
      ⟨fun h => ends_if hr rfl (voteDeadline_commits hv h4 h0 h),
        fun h => ends_if hr rfl (voteDeadline_aborts hv h4 h0 h)⟩⟩
  case call =>
    rintro id hash act deadline named _ rfl
    exact ⟨fun h => ends_if hr rfl (voteCall_member h), fun h3 h4 => ends_if hr rfl (voteCall_outside h3 h4),
      fun h4 h => ends_if hr rfl (voteCall_refused h4 h), fun h4 ht hv => ends_if hr rfl (voteCall_starts h4 ht hv)⟩

/-! ### Cycles and beacons (R329 to R331, R338, R346) -/

section
variable {s : State} {now clk zc : Nat}

theorem cycleStart_idle (h : s.role ≠ 4 ∨ s.bbn.silent = true) : cycleStart now clk zc s = s :=
  if_pos (by simpa using h)

/-- A coordinator's cycle counts on, and its central beacon goes out with its next frame number (R329, R330). -/
theorem cycleStart_sends {v w : State} {nt fl : Nat} (h4 : s.role = 4) (hs : s.bbn.silent = false) (hnt : nt = s.rtcNs now)
    (hv : v = nekSwitchAt (setNetTime nt clk (bbnCycle ((s.bbn.cycle + 1) % 2 ^ 32) ((s.bbn.epoch + 1) % 64) s)))
    (hfl : fl = v.beaconFlags nt)
    (hw : w = (v.setB Reg.BBN.STATUS.TIME_INVALID (Nat.testBit fl 1)).mapBbn fun b => { b with
      flags := fl, relays := v.relayChoice, safety := v.safetyChoice, half := v.halfUnits, zc := nt - zc, unheard := 0 }) :
    cycleStart now clk zc s = emit ⟨0, 1, 0xFFF, 1, w.bbn.fseq, false, false, 0,
        [w.beaconData nt zc fl ++ Config.ccmSeal 8 (w.nek w.bbn.nekIdx) (beaconNonce w.ownLong w.bbn.cycle)
          (w.beaconData nt zc fl) []]⟩ (w.mapBbn fun b => { b with fseq := (b.fseq + 1) % 4096 }) := by
  subst hw hfl hv hnt
  exact if_neg (by simp [h4, hs])

end

section
variable {s : State} {fc clk : Nat}

theorem beaconRx_idle {d : Option (List Byte)} (h : s.role = 0 ∨ s.bbn.silent = true ∨ s.fcOk 0 fc = false) :
    beaconRx fc d clk s = s := if_pos (by simpa [or_assoc] using h)

theorem beaconRx_failed : beaconRx fc none clk s = s := ite_self s

variable {d : List Byte} (hs : s.bbn.silent = false) (hf : s.fcOk 0 fc = true) (hd : d.length = 233)
include hs hf hd

/-- A coordinator that hears another one is in a duel with it, which the priority and then the identifier decide (R338). -/
theorem beaconRx_coordinator (h4 : s.role = 4) : beaconRx fc (some d) clk s =
    if beAt d 0xC 6 = s.ownLong then s
    else if s.coordPri < leAt d 0x12 1 || (s.coordPri = leAt d 0x12 1 && beAt d 0xC 6 < s.ownLong) then
      duelLost (beAt d 0xC 6) (leAt d 0x12 1) s
    else s.inc Reg.BBN.ELECT.WON :=
  (if_neg (by simp [h4, hs, hf])).trans ((if_neg (not_not.2 hd)).trans (if_pos h4))

theorem beaconRx_own (h4 : s.role = 4) (h : beAt d 0xC 6 = s.ownLong) : beaconRx fc (some d) clk s = s :=
  (beaconRx_coordinator hs hf hd h4).trans (if_pos h)

theorem beaconRx_loses (h4 : s.role = 4) (h : beAt d 0xC 6 ≠ s.ownLong)
    (hl : s.coordPri < leAt d 0x12 1 ∨ s.coordPri = leAt d 0x12 1 ∧ beAt d 0xC 6 < s.ownLong) :
    beaconRx fc (some d) clk s = duelLost (beAt d 0xC 6) (leAt d 0x12 1) s :=
  (beaconRx_coordinator hs hf hd h4).trans ((if_neg h).trans (if_pos (by simpa using hl)))

theorem beaconRx_wins (h4 : s.role = 4) (h : beAt d 0xC 6 ≠ s.ownLong)
    (hw : ¬ (s.coordPri < leAt d 0x12 1 ∨ s.coordPri = leAt d 0x12 1 ∧ beAt d 0xC 6 < s.ownLong)) :
    beaconRx fc (some d) clk s = s.inc Reg.BBN.ELECT.WON :=
  (beaconRx_coordinator hs hf hd h4).trans ((if_neg h).trans (if_neg (by simpa using hw)))

/-- A member takes a beacon under the key it names when that key is there and the tag holds. -/
theorem beaconRx_member (h3 : s.role = 3) : beaconRx fc (some d) clk s =
    if !(s.nek (leAt d 0x22 1)).isEmpty && (Config.ccmOpen 8 (s.nek (leAt d 0x22 1))
      (beaconNonce (beAt d 0xC 6) (beAt d 8 4)) (d.take 0xE1) (d.drop 0xE1)).isSome then beaconTake d clk (fcSrc fc) s
    else micFail s :=
  (if_neg (by simp [h3, hs, hf])).trans ((if_neg (not_not.2 hd)).trans ((if_neg (by omega)).trans (if_pos h3)))

theorem beaconRx_untagged (h3 : s.role = 3) (h : s.nek (leAt d 0x22 1) = [] ∨ Config.ccmOpen 8 (s.nek (leAt d 0x22 1))
    (beaconNonce (beAt d 0xC 6) (beAt d 8 4)) (d.take 0xE1) (d.drop 0xE1) = none) :
    beaconRx fc (some d) clk s = micFail s :=
  (beaconRx_member hs hf hd h3).trans (if_neg (by rcases h with h | h <;> simp [h]))

theorem beaconRx_opened {x : List Byte} (h3 : s.role = 3) (hk : s.nek (leAt d 0x22 1) ≠ [])
    (h : Config.ccmOpen 8 (s.nek (leAt d 0x22 1)) (beaconNonce (beAt d 0xC 6) (beAt d 8 4)) (d.take 0xE1) (d.drop 0xE1) =
      some x) : beaconRx fc (some d) clk s = beaconTake d clk (fcSrc fc) s :=
  (beaconRx_member hs hf hd h3).trans (if_pos (by simp [hk, h]))

theorem beaconRx_newcomer (h : s.role = 1 ∨ s.role = 2) :
    beaconRx fc (some d) clk s = beaconTake d clk (fcSrc fc) s := by
  have h0 : s.role ≠ 0 := by omega
  exact (if_neg (by simp [h0, hs, hf])).trans
    ((if_neg (not_not.2 hd)).trans ((if_neg (by omega)).trans (if_neg (by omega))))

end

section
variable {s : State} {clk r : Nat}

theorem relaySlot_unnamed (h : (s.bbn.relays.findIdx? fun n => n = s.bbnNode) = none) : relaySlot clk s = s := by
  unfold relaySlot
  rw [h]

theorem relaySlot_sends {nt : Nat} (h : (s.bbn.relays.findIdx? fun n => n = s.bbnNode) = some r) (h3 : s.role = 3)
    (hy : s.bit Reg.BBN.STATUS.SYNC = true) (hnt : nt = s.netTime clk) :
    relaySlot clk s = emit ⟨5, s.bbnNode, 0xFFF, 0, 0, false, false, 0,
      [s.compact 1 s.bbn.cycle r (beBytes 8 nt ++ beBytes 2 s.bbn.cycle ++ beBytes 1 (s.rd Reg.BBN.NODE.DEPTH) ++
        beBytes 1 s.bbn.flags ++ beBytes 4 (nt - s.bbn.zc) ++ beBytes 2 s.bbn.half)]⟩ s := by
  unfold relaySlot
  rw [h, hnt]
  exact if_neg (by simp [h3, hy])

variable {f : List Byte}

theorem relayRx_idle (h : s.bbn.silent = true ∨ f.length ≠ 24 ∨ beAt f 0 2 / 4096 ≠ 1 ∨ s.role = 0 ∨ s.role = 4) :
    relayRx r f clk s = s := by
  by_cases hearable : s.bbn.silent = true ∨ f.length ≠ 24 ∨ beAt f 0 2 / 4096 ≠ 1
  · exact if_pos (by simpa [or_assoc] using hearable)
  · have role : s.role = 0 ∨ s.role = 4 := by tauto
    refine (if_neg (by simpa [or_assoc] using hearable)).trans ((if_neg ?_).trans (if_pos (by omega)))
    rcases role with role | role <;> simp [role]

variable (hs : s.bbn.silent = false) (hl : f.length = 24) (ht : beAt f 0 2 / 4096 = 1) (h3 : s.role = 3)
include hs hl ht h3

theorem relayRx_untagged (h : s.compactOpen s.bbn.cycle r f = none) (hn : s.compactOpen (s.bbn.cycle + 1) r f = none) :
    relayRx r f clk s = micFail s := by
  unfold relayRx
  simp [hs, hl, ht, h3, h, hn]

variable {d : List Byte} (h : s.compactOpen s.bbn.cycle r f = some d)
include h

/-- A relay beacon of this cycle that opens is followed only from a relay of less depth (R346). -/
theorem relayRx_opened {v : State} (hv : v = (nekSwitchAt (setNetTime (beAt d 0 8 + 17066) clk
      (bbnCycle s.bbn.cycle s.bbn.epoch s))).mapBbn fun b => { b with
        flags := leAt d 11 1, zc := beAt d 0 8 - beAt d 12 4, half := beAt d 16 2 }) :
    relayRx r f clk s = if s.rd Reg.BBN.NODE.DEPTH ≤ leAt d 10 1 + 1 then s
      else ((v.wr Reg.BBN.NODE.DEPTH (leAt d 10 1 + 1)).setB Reg.BBN.STATUS.TIME_INVALID
        (Nat.testBit (leAt d 11 1) 1)).setB Reg.BBN.STATUS.SYNC true := by
  subst hv
  unfold relayRx
  simp [hs, hl, ht, h3, h]

theorem relayRx_far (hd : s.rd Reg.BBN.NODE.DEPTH ≤ leAt d 10 1 + 1) : relayRx r f clk s = s :=
  (relayRx_opened hs hl ht h3 h rfl).trans (if_pos hd)

theorem relayRx_follows {nt : Nat} {v : State} (hd : leAt d 10 1 + 1 < s.rd Reg.BBN.NODE.DEPTH) (hnt : nt = beAt d 0 8)
    (hv : v = (nekSwitchAt (setNetTime (nt + 17066) clk (bbnCycle s.bbn.cycle s.bbn.epoch s))).mapBbn fun b => { b with
      flags := leAt d 11 1, zc := nt - beAt d 12 4, half := beAt d 16 2 }) :
    relayRx r f clk s = ((v.wr Reg.BBN.NODE.DEPTH (leAt d 10 1 + 1)).setB Reg.BBN.STATUS.TIME_INVALID
      (Nat.testBit (leAt d 11 1) 1)).setB Reg.BBN.STATUS.SYNC true := by
  subst hnt
  exact (relayRx_opened hs hl ht h3 h hv).trans (if_neg (Nat.not_le.2 hd))

end

/-! ### Admission (R341, R342) -/

section
variable {s : State} {j : BbnJoin} {dak : List Byte}

theorem joinSlot_none (h : s.bbn.join = none) : joinSlot s = s := by
  unfold joinSlot
  rw [h]

section
variable (hj : s.bbn.join = some j) (hk : s.dak = some dak) (h2 : s.role = 2) (hs : s.bbn.silent = false)
include hj hk h2 hs

/-- A joiner counts its windows down, asks, waits four windows for an answer, and draws a new wait (R341). -/
theorem joinSlot_joining {d : List Byte} (hd : d = beBytes 2 0x3000 ++ beBytes 6 s.ownLong ++
      beBytes 1 (s.rd Reg.BBN.NODE.DEPTH) ++ beBytes 2 j.via ++ beBytes 4 s.bbn.cycle ++ List.replicate 5 0) :
    joinSlot s = if j.wait ≠ 0 then s.mapBbn fun b => { b with join := some { j with wait := j.wait - 1 } }
      else if j.asked && j.windows < 4 then s.mapBbn fun b => { b with join := some { j with windows := j.windows + 1 } }
      else if j.asked then (s.draw 3).2.mapBbn fun b =>
        { b with join := some { j with asked := false, windows := 0, wait := Config.random s.free % 2 ^ 3 } }
      else emit ⟨5, 0, 0xFFF, 0, 0, false, false, 0, [d ++ joinTag dak d]⟩
        ((s.draw 3).2.mapBbn fun b => { b with join := some { j with asked := true, windows := 1 } }) := by
  subst hd
  unfold joinSlot
  rw [hj, hk]
  exact if_neg (by simp [h2, hs])

theorem joinSlot_waits (hw : j.wait ≠ 0) :
    joinSlot s = s.mapBbn fun b => { b with join := some { j with wait := j.wait - 1 } } :=
  (joinSlot_joining hj hk h2 hs rfl).trans (if_pos hw)

variable (hw : j.wait = 0)
include hw

theorem joinSlot_listens (ha : j.asked = true) (h4 : j.windows < 4) :
    joinSlot s = s.mapBbn fun b => { b with join := some { j with windows := j.windows + 1 } } :=
  (joinSlot_joining hj hk h2 hs rfl).trans ((if_neg (not_not.2 hw)).trans (if_pos (by simp [ha, h4])))

theorem joinSlot_draws (ha : j.asked = true) (h4 : 4 ≤ j.windows) : joinSlot s = (s.draw 3).2.mapBbn fun b =>
    { b with join := some { j with asked := false, windows := 0, wait := Config.random s.free % 2 ^ 3 } } :=
  (joinSlot_joining hj hk h2 hs rfl).trans
    ((if_neg (not_not.2 hw)).trans ((if_neg (by simp [h4])).trans (if_pos ha)))

theorem joinSlot_asks {d : List Byte} (ha : j.asked = false) (hd : d = beBytes 2 0x3000 ++ beBytes 6 s.ownLong ++
      beBytes 1 (s.rd Reg.BBN.NODE.DEPTH) ++ beBytes 2 j.via ++ beBytes 4 s.bbn.cycle ++ List.replicate 5 0) :
    joinSlot s = emit ⟨5, 0, 0xFFF, 0, 0, false, false, 0, [d ++ joinTag dak d]⟩
      ((s.draw 3).2.mapBbn fun b => { b with join := some { j with asked := true, windows := 1 } }) :=
  (joinSlot_joining hj hk h2 hs hd).trans
    ((if_neg (not_not.2 hw)).trans ((if_neg (by simp [ha])).trans (if_neg (by simp [ha]))))

end

section
variable {via : Nat} {f : List Byte}

theorem joinRequestRx_idle (h : f.length ≠ 24 ∨ s.bbn.silent = true ∨ s.role = 1) : joinRequestRx via f s = s := by
  by_cases hearable : f.length ≠ 24 ∨ beAt f 0 2 ≠ 3 * 4096 ∨ s.bbn.silent = true
  · exact if_pos (by simpa [or_assoc] using hearable)
  · have role : s.role = 1 := by tauto
    exact (if_neg (by simpa [or_assoc] using hearable)).trans ((if_neg (by omega)).trans (if_pos (by omega)))

variable (hl : f.length = 24) (ht : beAt f 0 2 = 3 * 4096) (hs : s.bbn.silent = false)
include hl ht hs

theorem joinRequestRx_passedOn (h3 : s.role = 3) (hv : via = 0) (hn : beAt f 9 2 = s.bbnNode) :
    joinRequestRx via f s = s.mapBbn fun b => { b with passOn := b.passOn ++ [f] } :=
  (if_neg (by simp [hl, ht, hs])).trans ((if_pos h3).trans (if_pos (by simp [hv, hn])))

variable (h4 : s.role = 4) (hk : s.dak = some dak)
include h4 hk

/-- A coordinator checks a request's tag, and keeps it unless it ignores the joiner or has the request already (R342). -/
theorem joinRequestRx_coordinator : joinRequestRx via f s =
    if joinTag dak (f.take 20) ≠ f.drop 20 then micFail s
    else if (s.bbn.ignored.any fun x => x.1 = beAt f 2 6 && s.rd Reg.PWR.OPSEC.SECONDS < x.2) ||
        (via = 0 && beAt f 9 2 ≠ 1) || (via ≠ 0 && beAt f 9 2 ≠ via) ||
        s.bbn.requests.any (fun x => x.1 = beAt f 2 6) then s
    else s.mapBbn fun b => { b with requests := b.requests ++ [(beAt f 2 6, if via = 0 then 1 else via)] } := by
  unfold joinRequestRx
  rw [if_neg (by simp [hl, ht, hs]), if_neg (by omega), if_neg (by omega)]
  simp only [hk]

theorem joinRequestRx_untagged (h : joinTag dak (f.take 20) ≠ f.drop 20) : joinRequestRx via f s = micFail s :=
  (joinRequestRx_coordinator hl ht hs h4 hk).trans (if_pos h)

theorem joinRequestRx_queued (h : joinTag dak (f.take 20) = f.drop 20) (hi : ∀ x ∈ s.bbn.ignored, x.1 ≠ beAt f 2 6)
    (hq : ∀ x ∈ s.bbn.requests, x.1 ≠ beAt f 2 6)
    (hv : via = 0 ∧ beAt f 9 2 = 1 ∨ via ≠ 0 ∧ beAt f 9 2 = via) :
    joinRequestRx via f s =
      s.mapBbn fun b => { b with requests := b.requests ++ [(beAt f 2 6, if via = 0 then 1 else via)] } := by
  have heard : (s.bbn.ignored.any fun x => x.1 = beAt f 2 6 && s.rd Reg.PWR.OPSEC.SECONDS < x.2) = false :=
    any_neg fun x hx => by simp [hi x hx]
  have fresh : (s.bbn.requests.any fun x => x.1 = beAt f 2 6) = false := any_neg fun x hx => by simp [hq x hx]
  refine (joinRequestRx_coordinator hl ht hs h4 hk).trans ((if_neg (not_not.2 h)).trans (if_neg ?_))
  rw [heard, fresh]
  rcases hv with ⟨h0, hv⟩ | ⟨h0, hv⟩ <;> simp [h0, hv]

end
end

section
variable {s : State} {dak : List Byte}

theorem admitA_none {long : Nat} {qj : List Byte} (h : s.bbn.adm = none) : admitA long qj s = s := by
  unfold admitA
  rw [h]

theorem admitA_answers {long : Nat} {qj m : List Byte} {a : BbnAdm} {v : List Byte × State} {w : State}
    (ha : s.bbn.adm = some a) (hk : s.dak = some dak) (h4 : s.role = 4) (hl : a.longId = long) (hv : v = drawBytes 32 s)
    (hw : w = v.2.mapBbn fun b => { b with adm := some { a with qj := qj, priv := v.1 } })
    (hm : m = beBytes 1 4 ++ beBytes 6 s.ownLong ++ Config.ecPublic 256 v.1 ++
      admTag dak "RSB1" qj (Config.ecPublic 256 v.1) long s.ownLong) :
    admitA long qj s = addDown 0 (openFrame 0 m w).1 (openFrame 0 m w).2 := by
  subst hm hw hv
  unfold admitA
  rw [ha, hk]
  exact if_neg (by simp [h4, hl])

section
variable {j : BbnJoin} {coord : Nat} {qc tc : List Byte}

theorem admitB_none (h : s.bbn.join = none) : admitB coord qc tc s = s := by
  unfold admitB
  rw [h]

variable (hj : s.bbn.join = some j) (hk : s.dak = some dak) (h2 : s.role = 2) (hp : j.priv.isEmpty = false)
include hj hk h2 hp

theorem admitB_fails (ht : admTag dak "RSB1" (Config.ecPublic 256 j.priv) qc s.ownLong coord ≠ tc) :
    admitB coord qc tc s =
      raise 0x3204 0 (s.mapBbn fun b => { b with join := some ⟨j.via, false, 0, 0, [], 0, [], []⟩, up := [] }) := by
  unfold admitB
  rw [hj, hk]
  exact (if_neg (by simp [h2, hp])).trans (if_pos ht)

theorem admitB_answers {m : List Byte} {v : State}
    (ht : admTag dak "RSB1" (Config.ecPublic 256 j.priv) qc s.ownLong coord = tc)
    (hv : v = s.mapBbn fun b => { b with join := some { j with coord := coord, qc := qc, kek := admKek j.priv qc } })
    (hm : m = beBytes 1 5 ++ admTag dak "RSB2" (Config.ecPublic 256 j.priv) qc s.ownLong coord) :
    admitB coord qc tc s = (openFrame 1 m v).2.mapBbn fun b => { b with up := b.up ++ (openFrame 1 m v).1 } := by
  subst hm hv
  unfold admitB
  rw [hj, hk]
  exact (if_neg (by simp [h2, hp])).trans (if_neg (not_not.2 ht))

end

section
variable {a : BbnAdm} {tj : List Byte}

theorem admitC_none (h : s.bbn.adm = none) : admitC tj s = s := by
  unfold admitC
  rw [h]

variable (ha : s.bbn.adm = some a) (hk : s.dak = some dak) (h4 : s.role = 4) (hp : a.priv.isEmpty = false)
include ha hk h4 hp

theorem admitC_fails (ht : admTag dak "RSB2" a.qj (Config.ecPublic 256 a.priv) a.longId s.ownLong ≠ tj) :
    admitC tj s = admitFail s := by
  unfold admitC
  rw [ha, hk]
  exact (if_neg (by simp [h4, hp])).trans (if_pos ht)

/-- A true tag makes the joiner a member: its key, its identifier and its path are kept, and ADMIT_D waits for it
(R342). -/
theorem admitC_admits {n : Nat} {kek : List Byte} {l : List (List Byte) × State} {v : State}
    (hn : n = s.nodeFor a.longId) (ht : admTag dak "RSB2" a.qj (Config.ecPublic 256 a.priv) a.longId s.ownLong = tj)
    (h0 : n ≠ 0) (hkek : kek = admKek a.priv a.qj)
    (hl : l = openFrame 0 (beBytes 1 6 ++ beBytes 2 n ++ beBytes 1 s.bbn.nekIdx ++
      Config.ccmSeal 8 kek Config.wrapNonce [] (s.nek s.bbn.nekIdx)) s)
    (hv : v = addDown 0 l.1 (l.2.mapBbn fun b => { b with
      adm := some { a with kek := kek }
      ids := if b.ids.any (fun x => x.1 = a.longId) then b.ids else b.ids ++ [(a.longId, n)]
      members := mapIns b.members n ⟨a.longId, kek, false, false⟩
      paths := mapIns b.paths n (mapGet (fun _ => []) s.bbn.paths a.via ++ [n])
      requests := b.requests.filter fun x => x.1 ≠ a.longId })) :
    admitC tj s = v.wr Reg.BBN.COORD.MEMBERS v.bbn.members.length := by
  subst hv hl hkek hn
  unfold admitC
  rw [ha, hk]
  exact (if_neg (by simp [h4, hp])).trans ((if_neg (not_not.2 ht)).trans (if_neg h0))

end

section
variable {j : BbnJoin} {n idx : Nat} {wr : List Byte}

theorem admitD_none (h : s.bbn.join = none) : admitD n idx wr s = s := by
  unfold admitD
  rw [h]

variable (hj : s.bbn.join = some j) (h2 : s.role = 2) (hk : j.kek.isEmpty = false)
include hj h2 hk

theorem admitD_untagged (h : Config.ccmOpen 8 j.kek Config.wrapNonce [] wr = none) : admitD n idx wr s = micFail s := by
  unfold admitD
  rw [hj]
  refine (if_neg (by simp [h2, hk])).trans ?_
  rw [h]

theorem admitD_joins {nek : List Byte} (h : Config.ccmOpen 8 j.kek Config.wrapNonce [] wr = some nek) (hi : idx < 2) :
    admitD n idx wr s = setCause 0x7202 0 false (setCause 0x7209 0 false ((((s.mapBbn fun b => { b with
      join := none, kek := j.kek, neks := mapSet (fun _ => []) [] idx nek, nekIdx := idx, fcnt := 0,
      linksDue := true, coordLong := some j.coord }).wr Reg.BBN.STATUS.ROLE 3).wr Reg.BBN.NODE.NODE n).setB
        Reg.BBN.STATUS.SYNC true)) := by
  unfold admitD
  rw [hj]
  refine (if_neg (by simp [h2, hk])).trans ?_
  rw [h, Nat.mod_eq_of_lt hi]

end
end

/-- Settles O37: each event by its guard, by the role of the node, and by whether the tag it checks holds. -/
theorem backboneCyclesAndAdmission : Obligations.BackboneCyclesAndAdmission := by
  unfold Obligations.BackboneCyclesAndAdmission
  refine ⟨?cycles, ?admission⟩
  case cycles =>
    rintro s _ hr rfl
    refine ⟨fun clk now => ⟨fun hy h3 ht he => ends_pos rfl (by simp [hr, hy, h3, ht, he]),
        fun h => ends_neg rfl (by simp [h])⟩,
      fun now clk zc nt fl v w => ⟨fun h => ends_if hr rfl (cycleStart_idle h),
        fun h4 hs hnt hv hfl hw => ends_if hr rfl (cycleStart_sends (s := bbnBegin s) h4 hs hnt hv hfl hw)⟩,
      fun fc d clk => ⟨fun h => ends_if hr rfl (beaconRx_idle h), ends_if hr rfl beaconRx_failed⟩, ?beacon,
      fun clk r nt h h3 hy hnt => ends_if hr rfl (relaySlot_sends (s := bbnBegin s) h h3 hy hnt),
      fun clk h => ends_if hr rfl (relaySlot_unnamed h), fun r f clk => ⟨fun h => ends_if hr rfl (relayRx_idle h),
        fun hs hl ht h3 h hn => ends_if hr rfl (relayRx_untagged hs hl ht h3 h hn),
        fun d hs hl ht h3 h hd => ends_if hr rfl (relayRx_far hs hl ht h3 h hd), fun d nt v hs hl ht h3 h hd hnt hv =>
          ends_if hr rfl (relayRx_follows (s := bbnBegin s) hs hl ht h3 h hd hnt hv)⟩⟩
    case beacon =>
      rintro fc d clk _ _ hs hf hd rfl rfl
      exact ⟨fun h4 h => ends_if hr rfl (beaconRx_own hs hf hd h4 h),
        fun h4 h hl => ends_if hr rfl (beaconRx_loses hs hf hd h4 h hl),
        fun h4 h hw => ends_if hr rfl (beaconRx_wins hs hf hd h4 h hw),
        fun h3 h => ends_if hr rfl (beaconRx_untagged hs hf hd h3 h),
        fun x h3 hk h => ends_if hr rfl (beaconRx_opened hs hf hd h3 hk h),
        fun h => ends_if hr rfl (beaconRx_newcomer hs hf hd h)⟩
  case admission =>
    rintro s _ dak hr rfl hk
    refine ⟨fun h => ends_if hr rfl (joinSlot_none h), ?joins,
      fun via f h => ends_if hr rfl (joinRequestRx_idle h), ?requests,
      fun long qj => ⟨fun h => ends_if hr rfl (admitA_none h),
        fun a v w m ha h4 hl hv hw hm => ends_if hr rfl (admitA_answers (s := bbnBegin s) ha hk h4 hl hv hw hm)⟩,
      fun coord qc tc => ⟨fun h => ends_if hr rfl (admitB_none h), fun j v m hj h2 hp =>
        ⟨fun ht => ends_if hr rfl (admitB_fails hj hk h2 hp ht),
          fun ht hv hm => ends_if hr rfl (admitB_answers (s := bbnBegin s) hj hk h2 hp ht hv hm)⟩⟩,
      fun tj => ⟨fun h => ends_if hr rfl (admitC_none h),
        fun a ha h4 hp ht => ends_if hr rfl (admitC_fails ha hk h4 hp ht)⟩,
      fun tj a n kek l v ha h4 hp hn ht h0 hkek hl hv =>
        ends_if hr rfl (admitC_admits (s := bbnBegin s) ha hk h4 hp hn ht h0 hkek hl hv),
      fun node idx wr => ⟨fun h => ends_if hr rfl (admitD_none h), fun j hj h2 hkek =>
        ⟨fun h => ends_if hr rfl (admitD_untagged hj h2 hkek h),
          fun nek h => ends_if hr rfl (admitD_joins (s := bbnBegin s) hj h2 hkek h idx.isLt)⟩⟩⟩
    case joins =>
      intro j hj h2 hs
      exact ⟨fun hw => ends_if hr rfl (joinSlot_waits hj hk h2 hs hw),
        fun hw ha h4 => ends_if hr rfl (joinSlot_listens hj hk h2 hs hw ha h4),
        fun hw ha h4 => ends_if hr rfl (joinSlot_draws hj hk h2 hs hw ha h4),
        fun d hw ha hd => ends_if hr rfl (joinSlot_asks (s := bbnBegin s) hj hk h2 hs hw ha hd)⟩
    case requests =>
      rintro via f _ _ hl ht hs rfl rfl
      exact ⟨fun h3 hv hn => ends_if hr rfl (joinRequestRx_passedOn hl ht hs h3 hv hn),
        fun h4 h => ends_if hr rfl (joinRequestRx_untagged hl ht hs h4 hk h),
        fun h4 h hi hq hv => ends_if hr rfl (joinRequestRx_queued hl ht hs h4 hk h hi hq hv)⟩

/-! ### Safety slots (R332, R381 to R384) -/

section
variable {s : State}

theorem emit_sends {f : BbnTx} (h : s.bbnSends = true) :
    emit f s = s.mapBbn fun b => { b with sent := b.sent ++ [f] } := if_pos h

theorem safetySlot_idle (h : s.sec 7 = [] ∨ s.cfg 7 0x11 1 = 0xFF ∨ s.bit Reg.SAF.STATUS.RUN = false) :
    safetySlot s = s := if_pos (by simpa [or_assoc] using h)

/-- The state in which the message is composed: a pause ends where the node's slot of the backbone is used. -/
def safetyComposed (own : Bool) (s : State) : State := if own then { s with saf := { s.saf with pause := false } } else s

/-- The message on the backbone, in the node's own slot alone (R381). -/
def safetyBackbone (own : Bool) (cyc g : Nat) (s : State) : State :=
  if own then emit ⟨5, s.bbnNode, 0xFFF, 0, 0, false, false, 0, [s.compact 2 cyc (16 + g) s.safMessage]⟩ s else s

/-- The message on ETH[1], where the group uses it and has its key (R383). -/
def safetyEthernet (cyc : Nat) (m : List Byte) (s : State) : State :=
  if s.cfg 7 3 1 % 2 = 1 && s.slotHas (s.cfg 7 0x10 1) 1 then
    s.mapBbn fun b => { b with sent := b.sent ++ [⟨6, 0, 0, 0, 0, false, false, 0, [s.ethSafety cyc m]⟩] }
  else s

/-- The message's number and the safety slots since the central beacon count on. -/
def safetyCounts (cyc : Nat) (s : State) : State := { s with
  saf := { s.saf with msgSeq := (s.saf.msgSeq + 1) % 65536, lastCycle := some cyc }
  bbn := { s.bbn with unheard := if s.role = 4 then 0 else s.bbn.unheard + 1 } }

/-- A frame that is sent changes nothing that the counts read. -/
theorem safetyCounts_emit {f : BbnTx} {cyc : Nat} (h : s.bbnSends = true) : safetyCounts cyc (emit f s) = { emit f s with
    saf := { s.saf with msgSeq := (s.saf.msgSeq + 1) % 65536, lastCycle := some cyc }
    bbn := { (emit f s).bbn with unheard := if s.role = 4 then 0 else s.bbn.unheard + 1 } } := by
  rw [emit_sends h]
  rfl

theorem safetyEthernet_unused {cyc : Nat} {m : List Byte} (h : s.cfg 7 3 1 % 2 = 0) : safetyEthernet cyc m s = s :=
  if_neg (by simp [h])

variable {g cyc : Nat} (hg : g = s.cfg 7 0x11 1) (hs : s.sec 7 ≠ []) (h255 : g ≠ 0xFF)
  (hr : s.bit Reg.SAF.STATUS.RUN = true) (hc : cyc = s.bbn.cycle + s.bbn.unheard)
include hg hs h255 hr hc

/-- A unit of a group whose SAF runs composes its message, sends it on its two channels, and counts on. -/
theorem safetySlot_sends {own : Bool}
    (ho : (s.joined && s.bbnSends && s.bbn.unheard < 2 && s.bbn.safety.getD g 0 = s.bbnNode) = own) :
    safetySlot s = safetyCounts cyc (safetyEthernet cyc (safetyComposed own s).safMessage
      (safetyBackbone own cyc g (safetyComposed own s))) := by
  subst hc hg
  refine (if_neg (by simp [hs, h255, hr])).trans ?_
  dsimp only
  rw [ho]
  cases own <;> rfl

theorem safetySlot_backbone {v : State} (he : s.cfg 7 3 1 % 2 = 0) (hj : s.joined = true) (hb : s.bbnSends = true)
    (hu : s.bbn.unheard < 2) (hn : s.bbn.safety.getD g 0 = s.bbnNode)
    (hv : v = { s with saf := { s.saf with pause := false } }) :
    safetySlot s = safetyCounts cyc (emit ⟨5, s.bbnNode, 0xFFF, 0, 0, false, false, 0,
      [v.compact 2 cyc (16 + g) v.safMessage]⟩ v) := by
  subst hv
  rw [safetySlot_sends hg hs h255 hr hc (own := true) (by rw [hj, hb, hn]; simp [hu]), safetyEthernet_unused]
  · rfl
  · exact (congrArg (fun s : State => s.cfg 7 3 1 % 2) (if_pos hb)).trans he

theorem safetySlot_ethernet (he : s.cfg 7 3 1 % 2 = 1) (hk : s.slotHas (s.cfg 7 0x10 1) 1 = true) (hj : s.joined = false) :
    safetySlot s = safetyCounts cyc (s.mapBbn fun b => { b with
      sent := b.sent ++ [⟨6, 0, 0, 0, 0, false, false, 0, [s.ethSafety cyc s.safMessage]⟩] }) := by
  rw [safetySlot_sends hg hs h255 hr hc (own := false) (by simp [hj])]
  exact congrArg (safetyCounts cyc) (if_pos (by simp [safetyBackbone, safetyComposed, he, hk]))
end

section
variable {s : State} {slot : Nat}

theorem safetyRx_idle {f : Option (List Byte)} (h : s.joined = false ∨ s.bbn.silent = true ∨
    s.bbn.safety.contains s.bbnNode = false ∨ s.bbn.safety.length ≤ slot ∨ s.bbn.safety.getD slot 0 = s.bbnNode) :
    safetyRx slot f s = s := if_pos (by simpa [or_assoc] using h)

/-- A safety slot that holds no frame of its own is counted and reported (R384). -/
def safetyMissed (slot : Nat) (s : State) : State := raise 0x7206 slot (s.inc Reg.BBN.FRAMES.SAFE_MISS)

variable (hj : s.joined = true) (hs : s.bbn.silent = false) (hm : s.bbn.safety.contains s.bbnNode = true)
  (hl : slot < s.bbn.safety.length) (hn : s.bbn.safety.getD slot 0 ≠ s.bbnNode)
include hj hs hm hl hn

theorem safetyRx_absent : safetyRx slot none s = safetyMissed slot s :=
  if_neg (by rw [hj, hs, hm]; simpa [hl] using hn)

variable {f : List Byte}

theorem safetyRx_foreign (h : f.length ≠ 24 ∨ beAt f 0 2 / 4096 ≠ 2) :
    safetyRx slot (some f) s = safetyMissed slot s :=
  (if_neg (by rw [hj, hs, hm]; simpa [hl] using hn)).trans (if_pos (by simpa using h))

variable (h24 : f.length = 24) (h2 : beAt f 0 2 / 4096 = 2)
include h24 h2

theorem safetyRx_untagged (h : s.compactOpen s.bbn.cycle (16 + slot) f = none) :
    safetyRx slot (some f) s = safetyMissed slot (micFail s) := by
  refine (if_neg (by rw [hj, hs, hm]; simpa [hl] using hn)).trans ((if_neg (by simp [h24, h2])).trans ?_)
  rw [h]
  rfl

theorem safetyRx_copies {m : List Byte} (h : s.compactOpen s.bbn.cycle (16 + slot) f = some m) :
    safetyRx slot (some f) s = safCopy true m s := by
  refine (if_neg (by rw [hj, hs, hm]; simpa [hl] using hn)).trans ((if_neg (by simp [h24, h2])).trans ?_)
  rw [h]
end

section
variable {s : State} {p : List Byte}

theorem safetyEthFrame_copies (hr : s.running = true) (hl : p.length = 46) (hk : leAt p 0 1 = 0x5A)
    (hd : leAt p 1 1 = s.domain) (hs : s.slotHas (s.cfg 7 0x10 1) 1 = true)
    (ht : (beBytes 32 (s.slotMac (s.cfg 7 0x10 1) (p.take 24))).take 8 = (p.drop 24).take 8) :
    exec (.safetyEthFrame p) s = .next (settle (safCopy false ((p.drop 6).take 18) s)) :=
  ends_pos rfl (by simp [hr, hl, hk, hd, hs, ht])

/-- A frame of another form, of another domain, without a key to check it, or with a false tag is no copy (R383). -/
theorem safetyEthFrame_ignored (h : p.length ≠ 46 ∨ leAt p 0 1 ≠ 0x5A ∨ leAt p 1 1 ≠ s.domain ∨
    s.slotHas (s.cfg 7 0x10 1) 1 = false ∨
    (beBytes 32 (s.slotMac (s.cfg 7 0x10 1) (p.take 24))).take 8 ≠ (p.drop 24).take 8) :
    exec (.safetyEthFrame p) s = .next (settle s) :=
  ends_neg rfl (by rcases h with h | h | h | h | h <;> simp [h])

end

/-! ### Coordinators and network keys (R315, R337 to R339, R344) -/

section
variable {s v : State}

/-- A node whose configuration leaves a polled period of 2 ms, and that has a priority, takes the coordinator's place. -/
theorem becomeCoord_takes {w : State}
    (hroom : 120000 ≤ s.polledPeriod (s.rd Reg.BBN.CFG.CYCLE) (s.cfg 10 0x1A 1) (s.cfg 10 0x19 1))
    (hp : s.coordPri ≠ 0) (hv : v = (drawBytes 16 s).2) (hw : w = { v with bbn := { BbnSt.init with
      cycle := v.bbn.cycle, links := v.bbn.links, ids := v.bbn.ids, fseq := v.bbn.fseq, coordLong := some v.ownLong,
      vote := v.bbn.vote, neks := mapSet (fun _ => []) [] 0 (drawBytes 16 s).1, silent := v.bbn.silent } }) :
    becomeCoord s = setCause 0x7202 0 false (setCause 0x7209 0 false (((((((((w.wr Reg.BBN.STATUS.ROLE 4).wr
      Reg.BBN.NODE.NODE 1).wr Reg.BBN.NODE.DEPTH 0).wr Reg.BBN.COORD.PRI w.coordPri).wr Reg.BBN.COORD.MEMBERS 0).setB
      Reg.BBN.STATUS.SYNC true).wr Reg.BBN.COORD_LO.VALUE (w.ownLong % 2 ^ 32)).wr
      Reg.BBN.COORD_HI.VALUE (w.ownLong / 2 ^ 32)))) := by
  subst hw hv
  exact if_neg (by simp [hp, hroom])

/-- A member that has lost its coordinator, and listens (R339). -/
def coordLost (s : State) : State := ((bbnListen s).setB Reg.BBN.STATUS.LOST_STK true).inc Reg.BBN.ELECT.LOSSES

theorem bbnCoordLost_stays (h : s.role ≠ 3) : exec .bbnCoordLost s = .next (settle s) := ends_pos rfl (by simp [h])

theorem bbnCoordLost_listens (hr : s.running = true) (h3 : s.role = 3) : exec .bbnCoordLost s =
    done (raiseCause 0x7202 0 (if s.coordPri = 0 then coordLost s else ((coordLost s).draw 4).2.mapBbn fun b =>
      { b with takeover := some ((256 - s.coordPri) * 2 + ((coordLost s).draw 4).1) })) :=
  congrArg done (if_neg (by simp [hr, h3]))

theorem bbnCoordLost_unfit (hr : s.running = true) (h3 : s.role = 3) (h0 : s.coordPri = 0) :
    exec .bbnCoordLost s = .next (settle (raiseCause 0x7202 0 (coordLost s))) :=
  ends (bbnCoordLost_listens hr h3) (congrArg (raiseCause 0x7202 0) (if_pos h0))

theorem bbnCoordLost_draws (hr : s.running = true) (h3 : s.role = 3) (h0 : s.coordPri ≠ 0) : exec .bbnCoordLost s =
    .next (settle (raiseCause 0x7202 0 (((coordLost s).draw 4).2.mapBbn fun b =>
      { b with takeover := some ((256 - s.coordPri) * 2 + ((coordLost s).draw 4).1) }))) :=
  ends (bbnCoordLost_listens hr h3) (congrArg (raiseCause 0x7202 0) (if_neg h0))

theorem nekReplace_idle (h : s.role ≠ 4) : nekReplace s = s := if_pos h

/-- The new key goes to a member, wrapped under the member's own key (R344). -/
def nekSent (idx : Nat) (nek : List Byte) (s : State) (x : Nat × BbnMember) : State :=
  let m := beBytes 1 7 ++ beBytes 1 idx ++ Config.ccmSeal 8 x.2.kek Config.wrapNonce [] nek
  addDown x.1 (sealFrame x.1 0 m s).1 (sealFrame x.1 0 m s).2

theorem nekReplace_draws (h4 : s.role = 4)
    (hv : v = s.bbn.members.foldl (nekSent (1 - s.bbn.nekIdx) (drawBytes 16 s).1) (drawBytes 16 s).2) :
    nekReplace s = v.mapBbn fun b => { b with
      neks := mapSet (fun _ => []) b.neks (1 - s.bbn.nekIdx) (drawBytes 16 s).1
      nekSwitch := (b.cycle + 64) % 2 ^ 32 } := by
  subst hv
  exact if_neg (not_not.2 h4)

section
variable {idx : Fin 2} {wr : List Byte}

theorem nekUpdate_stays (h : s.role ≠ 3) : exec (.nekUpdate idx wr) s = .next (settle s) := ends_pos rfl (by simp [h])

variable (hr : s.running = true) (h3 : s.role = 3)
include hr h3

theorem nekUpdate_untagged (h : Config.ccmOpen 8 s.bbn.kek Config.wrapNonce [] wr = none) :
    exec (.nekUpdate idx wr) s = .next (settle (micFail (bbnBegin s))) := by
  refine ends rfl ((if_neg (by simp [hr, h3])).trans ?_)
  rw [h]

theorem nekUpdate_takes {nek : List Byte} (h : Config.ccmOpen 8 s.bbn.kek Config.wrapNonce [] wr = some nek) :
    exec (.nekUpdate idx wr) s = .next (settle ((bbnBegin s).mapBbn fun b =>
      { b with neks := mapSet (fun _ => []) b.neks idx nek })) := by
  refine ends rfl ((if_neg (by simp [hr, h3])).trans ?_)
  rw [h]

end
end

/-- Settles O38: the safety slot by the channels it uses, a frame by what it holds; the roles by their guards. -/
theorem backboneSafetyCoordinatorsAndKeys : Obligations.BackboneSafetyCoordinatorsAndKeys := by
  unfold Obligations.BackboneSafetyCoordinatorsAndKeys
  refine ⟨?slots, ?roles⟩
  case slots =>
    rintro s _ hr rfl
    refine ⟨fun h => ends_if hr rfl (safetySlot_idle h), ?backbone, ?ethernet, fun slot f =>
      ⟨fun h => ends_if hr rfl (safetyRx_idle h), fun hj hs hm hl hn => ⟨?absent, ?foreign, ?untagged, ?copies⟩⟩,
      fun p => ⟨safetyEthFrame_copies hr, safetyEthFrame_ignored⟩⟩
    case backbone =>
      intro v g hg hs h255 hrun he hj hb hu hn hv
      have sent := safetySlot_backbone (s := bbnBegin s) hg hs h255 hrun rfl he hj hb hu hn hv
      subst hv
      exact ends_if hr rfl (sent.trans (safetyCounts_emit hb))
    case ethernet =>
      intro g hg hs h255 hrun he hk hj
      exact ends_if hr rfl (safetySlot_ethernet (s := bbnBegin s) hg hs h255 hrun rfl he hk hj)
    case absent =>
      rintro rfl
      exact ends_if hr rfl (safetyRx_absent (s := bbnBegin s) hj hs hm hl hn)
    case foreign =>
      rintro b rfl h
      exact ends_if hr rfl (safetyRx_foreign (s := bbnBegin s) hj hs hm hl hn h)
    case untagged =>
      rintro b rfl h24 h2 h
      exact ends_if hr rfl (safetyRx_untagged (s := bbnBegin s) hj hs hm hl hn h24 h2 h)
    case copies =>
      rintro b m rfl h24 h2 h
      exact ends_if hr rfl (safetyRx_copies (s := bbnBegin s) hj hs hm hl hn h24 h2 h)
  case roles =>
    rintro s _ hr rfl
    refine ⟨fun h1 ht hs => ends_pos rfl (by simp [hr, h1, ht, hs]),
      fun h => ⟨ends_neg rfl (by simp [h]), ends_neg rfl (by simp [h])⟩,
      fun h1 ht hs => ends_pos rfl (by simp [hr, h1, ht, hs]),
      fun v w hroom hp hv hw => becomeCoord_takes hroom hp hv hw,
      fun h => ends_pos rfl (by simpa [hr] using h), fun h1 h2 => ends_neg rfl (by simp [h1, h2]),
      bbnCoordLost_stays, ?lost, fun p => ends_if hr rfl rfl, fun h => ends_if hr rfl (nekReplace_idle h),
      fun v h4 hv => ends_if hr rfl (nekReplace_draws (s := bbnBegin s) h4 hv),
      fun idx wr => ⟨nekUpdate_stays, nekUpdate_untagged hr, fun nek h3 h => nekUpdate_takes hr h3 h⟩⟩
    case lost =>
      rintro _ h3 rfl
      exact ⟨bbnCoordLost_unfit hr h3, bbnCoordLost_draws hr h3⟩

/-! ### Links, tone maps and routes (R326, R328, R334 to R336) -/

section
variable {s : State}

section
variable {nbr i : Nat} {c : Nat × Nat × Nat} (hc : c = mapGet (fun _ => (0, 0, 0)) (s.bbnLink nbr).since i)
include hc

theorem toneMapChoose_idle (h : s.joined = false ∨ c.1 < 16) : toneMapChoose nbr i s = s := by
  subst hc
  exact if_pos (by simpa using h)

section
variable {old : Option ToneMap} {t : ToneMap} {v : State} (hj : s.joined = true) (h16 : 16 ≤ c.1)
  (ho : old = (s.bbnLink nbr).maps.find? fun t => t.idx = i)
  (ht : t = s.chooseMap i (old.elim 0 (·.start)) (old.elim 256 (·.stop)) (mapGet (fun _ => []) (s.bbnLink nbr).meas i))
  (hv : v = setBbnLink nbr { s.bbnLink nbr with
    since := mapSet (fun _ => (0, 0, 0)) (s.bbnLink nbr).since i (0, 0, 0) } s)
include hj h16 ho ht hv

/-- The map chosen after 16 frames is offered to the neighbour when it is far from the old one, or many blocks failed. -/
theorem toneMapChoose_chooses : toneMapChoose nbr i s =
    if decide ((old.elim s.roboE mapRate) * 11 / 10 < mapRate t ∨ mapRate t < (old.elim s.roboE mapRate) * 9 / 10) ||
        c.2.1 < 10 * c.2.2 then
      setBbnLink nbr { (bbnSend nbr (tonemapMsg t) v).2.bbnLink nbr with
        offer := some (t, (bbnSend nbr (tonemapMsg t) v).1) } (bbnSend nbr (tonemapMsg t) v).2
    else v := by
  subst hv ht ho hc
  exact if_neg (by simp [hj, h16])

theorem toneMapChoose_offers (h : (old.elim s.roboE mapRate) * 11 / 10 < mapRate t ∨
      mapRate t < (old.elim s.roboE mapRate) * 9 / 10 ∨ c.2.1 < 10 * c.2.2) :
    toneMapChoose nbr i s = setBbnLink nbr { (bbnSend nbr (tonemapMsg t) v).2.bbnLink nbr with
      offer := some (t, (bbnSend nbr (tonemapMsg t) v).1) } (bbnSend nbr (tonemapMsg t) v).2 :=
  (toneMapChoose_chooses hc hj h16 ho ht hv).trans (if_pos (by simpa [or_assoc] using h))

theorem toneMapChoose_keeps (h : ¬ ((old.elim s.roboE mapRate) * 11 / 10 < mapRate t ∨
      mapRate t < (old.elim s.roboE mapRate) * 9 / 10 ∨ c.2.1 < 10 * c.2.2)) : toneMapChoose nbr i s = v :=
  (toneMapChoose_chooses hc hj h16 ho ht hv).trans (if_neg (by simpa [or_assoc] using h))

end
end

theorem epochStart_idle (h : s.role ≠ 4) : epochStart s = s := if_pos h

theorem epochStart_routes (h : s.role = 4) : epochStart s = routesCompute ((s.setB Reg.BBN.STATUS.SLOW
    (s.bbn.members.any fun x => !x.2.polled)).mapBbn fun b => { b with
      members := b.members.map fun (x : Nat × BbnMember) => (x.1, { x.2 with polled := false }) }) :=
  if_neg (not_not.2 h)

/-! ### Polls (R333, R334, R336) -/

section
variable {left : Nat} {bufs : List TxBuf}

theorem pollStart_idle (h : s.role ≠ 4 ∨ s.bbn.silent = true) : pollStart left bufs s = s := if_pos (by simpa using h)

variable {w : State} (h4 : s.role = 4) (hs : s.bbn.silent = false) (hw : w = admissionTake (loadTx bufs s))
include h4 hs hw

theorem pollStart_untargeted (ht : w.nextTarget = none) : pollStart left bufs s = w := by
  subst hw
  refine (if_neg (by simp [h4, hs])).trans ?_
  simp only [ht]

variable {t down : Nat} {route : List Nat} (ht : w.nextTarget = some (t, route))
  (hd : down = min 16 (mapGet (fun _ => []) w.bbn.down t).length)
include ht hd

theorem pollStart_polls {g : Nat} (hg : ((List.range 17).map (16 - ·)).find? (fun g =>
      decide (pollBound (w.routeE route) (w.rd Reg.BBN.CFG.RETX_MAX) g down ≤ 60 * left)) = some g) :
    pollStart left bufs s = sendPoll (w.mapBbn fun b => { b with
      poll := some ⟨w.bbn.pollSeq, route, 0, g, decide (down ≠ 0), false, none, 0, [], 0, [], none, 0, [], none⟩
      pollSeq := (b.pollSeq + 1) % 65536, lastPolled := if t = 0 then b.lastPolled else t
      members := b.members.map fun (x : Nat × BbnMember) =>
        if x.1 = t then (x.1, { x.2 with polled := true }) else x }) := by
  subst hd hw
  refine (if_neg (by simp [h4, hs])).trans ?_
  simp only [ht, hg]

theorem pollStart_unfit (hg : ((List.range 17).map (16 - ·)).find? (fun g =>
      decide (pollBound (w.routeE route) (w.rd Reg.BBN.CFG.RETX_MAX) g down ≤ 60 * left)) = none) :
    pollStart left bufs s = w := by
  subst hd hw
  refine (if_neg (by simp [h4, hs])).trans ?_
  simp only [ht, hg]

end

section
variable {fc pos : Nat} {d : List Byte} {bufs : List TxBuf}

theorem pollRx_idle (h : s.role < 2 ∨ s.bbn.silent = true ∨ s.fcOk 1 fc = false ∨ fcDst fc ≠ s.bbnNode) :
    pollRx fc d bufs pos s = s := if_pos (by simpa [or_assoc] using h)

variable (h2 : 2 ≤ s.role) (hs : s.bbn.silent = false) (hf : s.fcOk 1 fc = true) (hn : fcDst fc = s.bbnNode)
include h2 hs hf hn

theorem pollRx_damaged (h : d.length ≠ 48 ∨ crc32 (d.take 44) ≠ beAt d 44 4) :
    pollRx fc d bufs pos s = linkHeard (fcSrc fc) s :=
  (if_neg (by simp [Nat.not_lt.2 h2, hs, hf, hn])).trans (if_pos (by simpa using h))

variable {p : BbnPoll} {v : State} (hl : d.length = 48) (hc : crc32 (d.take 44) = beAt d 44 4) (hp : p = pollOf d)
  (h1 : 1 ≤ p.pos) (hr : p.pos ≤ p.route.length) (h15 : p.route.length ≤ 15) (h0 : s.bbnNode ≠ 0)
  (hv : v = (linkHeard (fcSrc fc) s).mapBbn fun b => { b with poll := some p })
include hl hc hp h1 hr h15 h0 hv

/-- A whole POLL with a possible route is passed on, or answered at the end of its route (R333). -/
theorem pollRx_taken : pollRx fc d bufs pos s =
    if p.pos < p.route.length then sendPoll v else pollAnswer p bufs pos v := by
  subst hv hp
  have node : (linkHeard (fcSrc fc) s).bbnNode ≠ 0 := h0
  refine (if_neg (by simp [Nat.not_lt.2 h2, hs, hf, hn])).trans ((if_neg (by simp [hl, hc])).trans (if_neg ?_))
  simp only [node, decide_false, Bool.false_and, Bool.or_false, Bool.or_eq_true, decide_eq_true_eq]
  omega

theorem pollRx_passes (h : p.pos < p.route.length) : pollRx fc d bufs pos s = sendPoll v :=
  (pollRx_taken h2 hs hf hn hl hc hp h1 hr h15 h0 hv).trans (if_pos h)

/-- A member at the end of the route owes its messages, and answers with data, or with NULL without any or without
grant. -/
theorem pollRx_member {w : State} (h : p.pos = p.route.length) (hm : s.role ≠ 2) (hw : w = oweMessages (loadTx bufs v)) :
    pollRx fc d bufs pos s = if w.bbn.up.isEmpty || p.grant = 0 then sendNull (p.pos - 1) w
      else sendData (p.pos - 1) p.grant pos w := by
  have member : ¬ v.role = 2 := by
    subst hv
    exact hm
  refine (pollRx_taken h2 hs hf hn hl hc hp h1 hr h15 h0 hv).trans ((if_neg (by omega)).trans ?_)
  unfold pollAnswer
  rw [if_neg member, ← hw]

theorem pollRx_nulls {w : State} (h : p.pos = p.route.length) (hm : s.role ≠ 2) (hw : w = oweMessages (loadTx bufs v))
    (hq : w.bbn.up = [] ∨ p.grant = 0) : pollRx fc d bufs pos s = sendNull (p.pos - 1) w :=
  (pollRx_member h2 hs hf hn hl hc hp h1 hr h15 h0 hv h hm hw).trans (if_pos (by simpa using hq))

theorem pollRx_sends {w : State} (h : p.pos = p.route.length) (hm : s.role ≠ 2) (hw : w = oweMessages (loadTx bufs v))
    (hq : w.bbn.up ≠ []) (hg : p.grant ≠ 0) : pollRx fc d bufs pos s = sendData (p.pos - 1) p.grant pos w :=
  (pollRx_member h2 hs hf hn hl hc hp h1 hr h15 h0 hv h hm hw).trans (if_neg (by simp [hq, hg]))

end

section
variable (h : s.bbn.poll = none)
include h

theorem dataRx_unpolled {fc long pos : Nat} {blocks : List (Option (List Byte))} {m : RxMeas} :
    dataRx fc blocks m long pos s = s := by
  unfold dataRx
  rw [h]

theorem nullRx_unpolled {fc pos : Nat} : nullRx fc pos s = s := by
  unfold nullRx
  rw [h]

theorem sackRx_unpolled {fc pos : Nat} : sackRx fc pos s = s := by
  unfold sackRx
  rw [h]

theorem frameAbsent_unpolled {hop : Nat} : frameAbsent hop s = s := by
  unfold frameAbsent
  rw [h]

end

section
variable {p : BbnPoll} {fc pos : Nat} (hp : s.bbn.poll = some p) (hs : s.bbn.silent = false) (hd : fcDst fc = s.bbnNode)
include hp hs hd

section
variable {bl : List (Option (List Byte))} {m : RxMeas} {long : Nat} {retx : Bool} {v : State} (hf : s.fcOk 2 fc = true)
  (hsrc : fcSrc fc = p.at (p.pos + 1) ∨ fcSrc fc = p.at (p.pos - 1)) (hx : retx = decide (bitsOf fc 39 39 = 1))
  (hv : v = linkMeasure (fcSrc fc) bl.length (dataFails fc bl).length (!retx) m
    (offerTaken (fcSrc fc) (linkHeard (fcSrc fc) s)))
include hf hsrc hx hv

/-- A DATA frame from a neighbour on the route is measured; a repeated one is acknowledged once more, any other is held,
acknowledged, and complete without a failed block or with its retransmissions used up (R333). -/
theorem dataRx_taken {w : State} (hw : w = dataSack fc (dataFails fc bl) (dataHold fc bl p v)) :
    dataRx fc bl m long pos s = if p.rxSeq = some (bitsOf fc 51 40) && !retx then dataSack fc (dataFails fc bl) v
      else if (dataFails fc bl).isEmpty || w.rd Reg.BBN.CFG.RETX_MAX ≤ (if retx then p.rxTries + 1 else 0) then
        dataComplete (fcSrc fc) long pos w
      else w := by
  subst hw hv hx
  unfold dataRx
  rw [hp]
  refine if_neg ?_
  rcases hsrc with hsrc | hsrc <;> simp [hs, hf, hd, hsrc]

theorem dataRx_repeated (h0 : retx = false) (hq : p.rxSeq = some (bitsOf fc 51 40)) :
    dataRx fc bl m long pos s = dataSack fc (dataFails fc bl) v :=
  (dataRx_taken hp hs hd hf hsrc hx hv rfl).trans (if_pos (by simp [h0, hq]))

variable {w : State} (hn : retx = true ∨ p.rxSeq ≠ some (bitsOf fc 51 40))
  (hw : w = dataSack fc (dataFails fc bl) (dataHold fc bl p v))
include hn hw

theorem dataRx_whole (h : dataFails fc bl = []) : dataRx fc bl m long pos s = dataComplete (fcSrc fc) long pos w :=
  (dataRx_taken hp hs hd hf hsrc hx hv hw).trans
    ((if_neg (by rcases hn with hn | hn <;> simp [hn])).trans (if_pos (by simp [h])))

theorem dataRx_part (h : dataFails fc bl ≠ [])
    (ht : (if retx then p.rxTries + 1 else 0) < w.rd Reg.BBN.CFG.RETX_MAX) : dataRx fc bl m long pos s = w :=
  (dataRx_taken hp hs hd hf hsrc hx hv hw).trans
    ((if_neg (by rcases hn with hn | hn <;> simp [hn])).trans (if_neg (by simp [h, ht])))

end

section
variable (hf : s.fcOk 3 fc = true) (hsrc : fcSrc fc = p.at (p.pos + 1))
include hf hsrc

/-- A NULL travels back to the coordinator, which notes MORE and goes on to the downlink (R333, R334). -/
theorem nullRx_taken : nullRx fc pos s =
    if p.pos = 0 then downlinkOrEnd pos ((linkHeard (fcSrc fc) s).mapBbn fun b => { b with
      members := b.members.map fun (x : Nat × BbnMember) =>
        if x.1 = p.at p.route.length then (x.1, { x.2 with more := decide (bitsOf fc 38 38 = 1) }) else x })
    else sendNull (p.pos - 1) (linkHeard (fcSrc fc) s) := by
  unfold nullRx
  rw [hp]
  exact if_neg (by simp [hs, hf, hd, hsrc])

theorem nullRx_returns (h0 : p.pos ≠ 0) : nullRx fc pos s = sendNull (p.pos - 1) (linkHeard (fcSrc fc) s) :=
  (nullRx_taken hp hs hd hf hsrc).trans (if_neg h0)

theorem nullRx_coordinator (h0 : p.pos = 0) : nullRx fc pos s =
    downlinkOrEnd pos ((linkHeard (fcSrc fc) s).mapBbn fun b => { b with
      members := b.members.map fun (x : Nat × BbnMember) =>
        if x.1 = p.at p.route.length then (x.1, { x.2 with more := decide (bitsOf fc 38 38 = 1) }) else x }) :=
  (nullRx_taken hp hs hd hf hsrc).trans (if_pos h0)

end

section
variable {bad : List (Nat × List Byte)} {v : State} (hf : s.fcOk 4 fc = true) (hsrc : fcSrc fc = p.awaitFrom)
  (hq : p.awaitSeq = some (bitsOf fc 51 40)) (hb : bad = p.out.filter fun x => Nat.testBit fc (16 + x.1))
  (hv : v = mapPoll (fun p => { p with out := bad, awaitSeq := none }) (setPollQueue p (bad.map (·.2) ++
    ((linkHeard (fcSrc fc) s).pollQueue p).drop p.out.length) (linkHeard (fcSrc fc) s)))
include hf hsrc hq hb hv

/-- Acknowledged blocks leave their queue; failed ones go out again while retransmissions are left (R333). -/
theorem sackRx_taken : sackRx fc pos s =
    if !bad.isEmpty && p.tries < v.rd Reg.BBN.CFG.RETX_MAX then resendData pos v
    else if p.pos = 0 then pollEnd v else v := by
  subst hv hb
  unfold sackRx
  rw [hp]
  exact if_neg (by simp [hs, hf, hd, hsrc, hq])

theorem sackRx_resends (h : bad ≠ []) (ht : p.tries < v.rd Reg.BBN.CFG.RETX_MAX) : sackRx fc pos s = resendData pos v :=
  (sackRx_taken hp hs hd hf hsrc hq hb hv).trans (if_pos (by simp [h, ht]))

variable (h : bad = [])
include h

theorem sackRx_ends (h0 : p.pos = 0) : sackRx fc pos s = pollEnd v :=
  (sackRx_taken hp hs hd hf hsrc hq hb hv).trans ((if_neg (by simp [h])).trans (if_pos h0))

theorem sackRx_goesOn (h0 : p.pos ≠ 0) : sackRx fc pos s = v :=
  (sackRx_taken hp hs hd hf hsrc hq hb hv).trans ((if_neg (by simp [h])).trans (if_neg h0))

end
end

section
variable {p : BbnPoll} {hop : Nat} (hp : s.bbn.poll = some p)
include hp

theorem frameAbsent_repeats {f : BbnTx} (hr : p.repeated = false) (hf : p.last = some f) : frameAbsent hop s =
    (emit f s).mapBbn fun b => { b with poll := b.poll.map fun p => { p with repeated := true } } := by
  unfold frameAbsent
  rw [hp]
  simp only [hr, hf]
  rfl

variable (hr : p.repeated = true)
include hr

/-- A second absence ends the poll; the coordinator marks the link down, computes the paths anew and reports it (R336). -/
theorem frameAbsent_again {k : Nat} (hk : k = linkKey (p.at (hop - 1)) (p.at hop)) : frameAbsent hop s =
    if s.role ≠ 4 || hop = 0 || p.route.length < hop then pollEnd s
    else raise 0x3203 (p.at hop) (routesCompute ((pollEnd s).mapBbn fun b => { b with
      costs := mapDel b.costs k, downs := if b.downs.contains k then b.downs else k :: b.downs })) := by
  subst hk
  unfold frameAbsent
  rw [hp]
  simp only [hr]
  rfl

theorem frameAbsent_ends (h4 : s.role ≠ 4) : frameAbsent hop s = pollEnd s :=
  (frameAbsent_again hp hr rfl).trans (if_pos (by simp [h4]))

theorem frameAbsent_reports {k : Nat} (h4 : s.role = 4) (h1 : 1 ≤ hop) (hl : hop ≤ p.route.length)
    (hk : k = linkKey (p.at (hop - 1)) (p.at hop)) :
    frameAbsent hop s = raise 0x3203 (p.at hop) (routesCompute ((pollEnd s).mapBbn fun b => { b with
      costs := mapDel b.costs k, downs := if b.downs.contains k then b.downs else k :: b.downs })) :=
  (frameAbsent_again hp hr hk).trans (if_neg (by simp [h4, Nat.ne_of_gt h1, Nat.not_lt.2 hl]))

end
end

/-- Settles O39: each frame of a poll by the node's place on the route, the rest by their guards. -/
theorem backboneRoutesAndPolls : Obligations.BackboneRoutesAndPolls := by
  unfold Obligations.BackboneRoutesAndPolls
  refine ⟨?links, ?polls⟩
  case links =>
    rintro s _ hr rfl
    refine ⟨?choose, fun src t => ⟨fun hj hi => ends_pos rfl (by simp [hr, hj, hi]),
        fun h => ends_neg rfl (by rcases h with h | h <;> simp [h])⟩,
      fun h => ends_if hr rfl (epochStart_idle h), fun h => ends_if hr rfl (epochStart_routes h),
      fun src l => ⟨fun h => ends_pos rfl (by simp [h]), fun h => ends_neg rfl (by simp [hr, h])⟩⟩
    case choose =>
      intro nbr i c old t v hc
      exact ⟨fun h => ends_if hr rfl (toneMapChoose_idle (s := bbnBegin s) hc h), fun hj h16 ho ht hv =>
        ⟨fun h => ends_if hr rfl (toneMapChoose_offers (s := bbnBegin s) hc hj h16 ho ht hv h),
          fun h => ends_if hr rfl (toneMapChoose_keeps (s := bbnBegin s) hc hj h16 ho ht hv h)⟩⟩
  case polls =>
    rintro s _ hr rfl
    refine ⟨fun left bufs h => ends_if hr rfl (pollStart_idle h), ?start, fun fc d bufs pos =>
      ⟨fun h => ends_if hr rfl (pollRx_idle h), fun h2 hs hf hn =>
        ⟨fun h => ends_if hr rfl (pollRx_damaged h2 hs hf hn h), ?poll⟩⟩,
      fun h => ⟨fun fc bl m lg pos => ends_if hr rfl (dataRx_unpolled (s := bbnBegin s) h), fun fc pos =>
        ⟨ends_if hr rfl (nullRx_unpolled (s := bbnBegin s) h), ends_if hr rfl (sackRx_unpolled (s := bbnBegin s) h)⟩,
        fun hop => ends_if hr rfl (frameAbsent_unpolled (s := bbnBegin s) h)⟩,
      fun p fc hp hs hd => ⟨?data, fun pos hf hsrc => ?null, ?sack⟩, fun p hop hp =>
        ⟨fun f hx hf => ends_if hr rfl (frameAbsent_repeats (s := bbnBegin s) hp hx hf),
          fun hx h4 => ends_if hr rfl (frameAbsent_ends (s := bbnBegin s) hp hx h4),
          fun k hx h4 h1 hl hk => ends_if hr rfl (frameAbsent_reports (s := bbnBegin s) hp hx h4 h1 hl hk)⟩⟩
    case start =>
      intro left bufs w h4 hs hw
      exact ⟨fun ht => ends_if hr rfl (pollStart_untargeted (s := bbnBegin s) h4 hs hw ht), fun t route down ht hd =>
        ⟨fun g hg => ends_if hr rfl (pollStart_polls (s := bbnBegin s) h4 hs hw ht hd hg),
          fun hg => ends_if hr rfl (pollStart_unfit (s := bbnBegin s) h4 hs hw ht hd hg)⟩⟩
    case poll =>
      intro p v w hl hc hp h1 hle h15 h0 hv
      exact ⟨fun h => ends_if hr rfl (pollRx_passes (s := bbnBegin s) h2 hs hf hn hl hc hp h1 hle h15 h0 hv h),
        fun h hm hw =>
          ⟨fun hq => ends_if hr rfl (pollRx_nulls (s := bbnBegin s) h2 hs hf hn hl hc hp h1 hle h15 h0 hv h hm hw hq),
            fun hq hg => ends_if hr rfl
              (pollRx_sends (s := bbnBegin s) h2 hs hf hn hl hc hp h1 hle h15 h0 hv h hm hw hq hg)⟩⟩
    case data =>
      intro bl m lg pos retx v w hf hsrc hx hv
      exact ⟨fun h0 hq => ends_if hr rfl (dataRx_repeated (s := bbnBegin s) hp hs hd hf hsrc hx hv h0 hq), fun hn hw =>
        ⟨fun h => ends_if hr rfl (dataRx_whole (s := bbnBegin s) hp hs hd hf hsrc hx hv hn hw h),
          fun h ht => ends_if hr rfl (dataRx_part (s := bbnBegin s) hp hs hd hf hsrc hx hv hn hw h ht)⟩⟩
    case null =>
      exact ⟨fun h0 => ends_if hr rfl (nullRx_returns (s := bbnBegin s) hp hs hd hf hsrc h0),
        fun h0 => ends_if hr rfl (nullRx_coordinator (s := bbnBegin s) hp hs hd hf hsrc h0)⟩
    case sack =>
      intro pos bad v hf hsrc hq hb hv
      exact ⟨fun h ht => ends_if hr rfl (sackRx_resends (s := bbnBegin s) hp hs hd hf hsrc hq hb hv h ht),
        fun h h0 => ends_if hr rfl (sackRx_ends (s := bbnBegin s) hp hs hd hf hsrc hq hb hv h h0),
        fun h h0 => ends_if hr rfl (sackRx_goesOn (s := bbnBegin s) hp hs hd hf hsrc hq hb hv h h0)⟩

end Sys2Proof.Machine
end
section
/-!
PROOF. The statements of steps and reset, of the queues and the end of a step, and of faults and the recorder
(chapter 17).
-/
namespace Sys2Proof.Machine

/-! ### Steps and reset -/

/-- Settles O1: both clauses are the two cases of `step`. -/
theorem stepRunsTheFrontCommandOrIdles : Obligations.StepRunsTheFrontCommandOrIdles := by
  unfold Obligations.StepRunsTheFrontCommandOrIdles
  refine ⟨fun c r s => rfl, fun s h => ?_⟩
  unfold step
  rw [h]

/-- Every channel is OFF at reset. -/
theorem reset_hsState : ∀ c < 40, State.reset.rd (Reg.LSW.CH.STATUS.STATE c) = 0 := by decide

/-- Reset energises no outlet and turns no channel on. -/
theorem reset_outputs : Outputs State.reset := by
  refine ⟨fun _ => ⟨fun n _ => rfl, rfl, rfl, rfl, rfl⟩, fun c hc _ => ?_⟩
  unfold HsDown
  rw [reset_hsState c hc]
  decide

/-- Settles O2: the register file of reset is empty, so every field reads its reset value. -/
theorem resetState : Obligations.ResetState :=
  ⟨rfl, fun _ => rfl, fun _ => rfl, rfl, reset_outputs, fun _ => rfl, rfl⟩

/-! ### Queues (R541) -/

theorem items_refill (x : Queue) : x.refill.items = x.items := by
  obtain ⟨chain, tail, annex⟩ := x
  cases annex with
  | nil => rfl
  | cons i r =>
    unfold Queue.refill
    dsimp only
    split <;> simp [Queue.items]

theorem items_ready (x : Queue) : x.ready.items = x.items := by
  unfold Queue.ready
  split
  · rw [items_refill, items_spill]
  · rfl

theorem items_pop (x : Queue) (h : x.chain ≠ []) : x.pop.items = x.items.drop 1 := by
  unfold Queue.pop
  rw [items_refill]
  obtain ⟨i, r, hc⟩ := List.exists_cons_of_ne_nil h
  simp [Queue.items, hc]

/-- Settles O6: the items of a queue are its chain, its annex and its tail register, in that order. -/
theorem queuesAreFirstInFirstOut : Obligations.QueuesAreFirstInFirstOut :=
  ⟨items_put, fun x => ⟨items_spill x, items_refill x, items_ready x⟩, qready_chain, items_pop⟩

/-! ### The end of a step (R57, R504) -/

/-- Settles O34: where no mode has changed and no output is barred, the end of a step raises waiting faults and drains. -/
theorem endOfStepChangesOnlyTheBooks : Obligations.EndOfStepChangesOnlyTheBooks :=
  ⟨fun _ h => h.settle, fun _ m hm ho => ⟨settle_booked m hm ho, (settle_booked m hm ho).regs⟩⟩

/-! ### Notice and Minor faults (R491, R492, R495) -/

/-- The three cases of R491 in which a fault merges, by the searches of the open table. -/
theorem mergeTarget_some {t : List Entry} {code : Nat} {e : Entry}
    (h : t.find? (fun x => decide (2 ≤ x.cls)) = some e ∨
      (t.find? (fun x => decide (2 ≤ x.cls)) = none ∧
        (t.find? (fun x => decide (x.code = code)) = some e ∨
          (t.find? (fun x => decide (x.code = code)) = none ∧ 32 ≤ t.length ∧ t.head? = some e)))) :
    ∃ full, mergeTarget t code = some (e, full) := by
  unfold mergeTarget
  rcases h with hm | ⟨hm, hc | ⟨hc, hl, hh⟩⟩
  · exact ⟨false, by simp only [hm]⟩
  · exact ⟨false, by simp only [hm, hc]⟩
  · exact ⟨true, by simp only [hm, hc, if_pos hl, hh, Option.map_some]⟩

/-- Settles O7: case 4 of R491 opens an entry, cases 1 to 3 give the entry that the fault merges into. -/
theorem noticeAndMinorFaultsOpenOrMerge : Obligations.NoticeAndMinorFaultsOpenOrMerge := by
  unfold Obligations.NoticeAndMinorFaultsOpenOrMerge
  refine ⟨fun code detail s h o hc => ?opens, fun code detail e s h hc hm => ?merges⟩
  case opens =>
    rw [faultRaise_effect h.run]
    exact opens_entry h code detail o hc
  case merges =>
    obtain ⟨full, hm⟩ := mergeTarget_some hm
    obtain ⟨still, booked, table⟩ := raise_merges h code detail e full hm hc
    exact ⟨_, (faultRaise_effect h.run code detail).trans (done_still still), booked, table⟩

/-! ### Closing entries and ERR_N (R493, R496) -/

/-- What an entry that closes by itself or by a write leaves (R493). -/
theorem closes_entry {c : Instr} {s : State} {i how : Nat} (h : Calm s)
    (hx : (s.flt.table.any fun e => e.idx = i) = true) (e : exec c s = done (closeEntry i how s)) :
    ∃ t, exec c s = .next t ∧ (t.flt.table = s.flt.table.filter fun e => decide (e.idx ≠ i)) ∧
      (t.majorOpen = false → t.rd Reg.SAF.STATUS.FORCE = 0 ∧ t.rd Reg.FLT.CTL.ERR_HOLD = 0) ∧
      SameRegs (fun b => bookBlock b || b = 0x34) s t ∧ t.unbooked = s.unbooked := by
  obtain ⟨still, table, released, regs, rest⟩ := closeEntry_calm h i how hx
  exact ⟨_, e.trans (done_still still), table, released, regs, rest⟩

/-- An entry of some class with a number is an entry with that number. -/
theorem any_idx_of_class {t : List Entry} {i k : Nat} (h : (t.any fun e => e.idx = i && e.cls = k) = true) :
    (t.any fun e => e.idx = i) = true := by
  simp only [List.any_eq_true, Bool.and_eq_true] at h ⊢
  obtain ⟨e, he, hi, -⟩ := h
  exact ⟨e, he, hi⟩

theorem errHold_ignored {a : Agent} {s : State} (h : Calm s) (hl : 1 ≤ s.level a) (hm : s.majorOpen = false) :
    errHold a true s = s :=
  (gated_calm h a 1 _ hl).trans (if_pos (by simp [hm]))

/-- A write of ERR_HOLD that is stored: ERR_N follows it (R496). -/
theorem errHold_stored {a : Agent} {v : Bool} {s : State} (h : Calm s) (hl : 1 ≤ s.level a)
    (hv : v = false ∨ s.majorOpen = true) :
    errHold a v s = (s.setB Reg.FLT.CTL.ERR_HOLD v).setB Reg.FLT.STATUS.ERR_LOW
      (s.flt.errMin || v || s.bit Reg.FLT.STATUS.LATCH) := by
  have stored : errHold a v s = errUpdate (s.setB Reg.FLT.CTL.ERR_HOLD v) :=
    (gated_calm h a 1 _ hl).trans (if_neg (by rcases hv with hv | hv <;> simp [hv]))
  have latch : (s.setB Reg.FLT.CTL.ERR_HOLD v).bit Reg.FLT.STATUS.LATCH = s.bit Reg.FLT.STATUS.LATCH :=
    bit_wr_ne s _ (by decide)
  rw [stored, errUpdate, bit_setB_same _ _ _ rfl, latch, setB_flt]

/-- Settles O9: an entry closes by `closeEntry`; ERR_N is what `errUpdate` makes of ERR_HOLD and the latch. -/
theorem entriesCloseAndReleaseErrorPin : Obligations.EntriesCloseAndReleaseErrorPin := by
  unfold Obligations.EntriesCloseAndReleaseErrorPin
  refine ⟨fun i s h => ⟨?closes, fun hn => ?kept⟩, fun s h => ⟨fun a v hl hv => ?stored, fun a hl hm => ?ignored, ?released⟩⟩
  case closes =>
    rintro c (⟨rfl, hx⟩ | ⟨a, rfl, hl, hx⟩)
    · exact closes_entry h (any_idx_of_class hx) ((go_live h rfl).trans (congrArg done (if_pos hx)))
    · exact closes_entry h (any_idx_of_class hx) ((go_gated h hl rfl).trans (congrArg done (if_pos hx)))
  case kept => exact live_next h rfl (if_neg (by simp [hn])) h
  case stored =>
    exact (congrArg done (errHold_stored h hl hv)).trans
      (done_calm ((h.setB _ _ (by decide) (by decide)).setB _ _ (by decide) (by decide)))
  case ignored => exact (congrArg done (errHold_ignored h hl hm)).trans (done_calm h)
  case released =>
    have k : Calm { s with flt := { s.flt with errMin := false } } := h.congr rfl rfl rfl rfl rfl rfl rfl
    exact live_next h rfl rfl (k.setB _ _ (by decide) (by decide))

/-! ### Records and drains (R502, R504, R508, R510) -/

theorem startDrain_starts {s : State} (hr : s.bit Reg.EVR.STATUS.RUN = true) (hd : s.bit Reg.EVR.STATUS.DRAINING = false)
    (hl : s.evr.lostSince = 0) : s.startDrain = s.setB Reg.EVR.STATUS.DRAINING true := by
  unfold State.startDrain
  simp [hr, hd, hl]

/-- A runtime record is recorded, an item of a lower type is counted as lost (R510). -/
theorem runtimeRecord_running {s : State} (h : s.running = true) (ty : Nat) (p : List Byte) :
    runtimeRecord ty p s = if ty < 0x80 then s.inc Reg.EVR.LOST.COUNT else s.record ty (leValue (p.take 40)) false := by
  unfold runtimeRecord
  rw [h, if_neg (by decide)]

/-- With no slot retired, every slot is usable (R502). -/
theorem usableSlot_nil (n slot : Nat) : usableSlot [] n slot = slot := by
  cases n <;> simp [usableSlot]

/-- A drain whose items are whole writes each to its slot, empties the queue and keeps CIRC_HEAD (R504, R508). -/
theorem drainEnds_draining {s u : State} (hd : s.bit Reg.EVR.STATUS.DRAINING = true)
    (hp : ∀ i ∈ (s.q 15).items, i.poison = 0)
    (hu : u = ((s.q 15).items.map Item.toRec).foldl slotWrite (s.setQ 15 Queue.empty)) :
    drainEnds s = (({ u with evr := { u.evr with circHead := u.rd Reg.EVR.CIRC_HEAD.SLOT } } : State).setB
      Reg.EVR.STATUS.DRAINING false).setB Reg.EVR.CTL.FLUSH false := by
  unfold drainEnds drainAll
  dsimp only
  rw [if_pos hd, ← hu, poisonSeen_clean _ _ _ hp]

/-- An empty recorder-input queue is below every level. -/
theorem setQ15_empty_calm {s : State} (h : Calm s) : Calm (s.setQ 15 Queue.empty) :=
  ⟨h.run, h.low, h.high, h.todo, h.still, h.pushed, h.kept, by rw [q_setQ_same]; decide, h.cap⟩

/-- Settles O11: a record joins the queue with the next RNO; a drain is its start and its end; a slot by its RNO. -/
theorem recordsAreQueuedAndDrained : Obligations.RecordsAreQueuedAndDrained := by
  unfold Obligations.RecordsAreQueuedAndDrained
  refine ⟨fun ty p s h hr hn => ⟨fun hty => ?queued, fun hty => ?discarded⟩,
    fun s h hr => ⟨fun hd => ?timer, fun a hl hd => ?flush, fun u hd hp hu => ?complete⟩,
    fun r s => ⟨fun hr k => ?accession, fun hr => ?keptCirc, fun hr hret => ?circulation⟩⟩
  case queued =>
    obtain ⟨ms, hms, items, next⟩ := record_items s ty (leValue (p.take 40)) hr h.queueRoom hn
    have e : exec (.runtimeRecord ty p) s = done (s.record ty (leValue (p.take 40)) false) :=
      congrArg done ((runtimeRecord_running h.run ty p).trans (if_neg (by omega)))
    exact ⟨_, ms, e.trans (done_record h ty _), hms, items, next, (books_record s ty _).booked⟩
  case discarded =>
    exact (congrArg done ((runtimeRecord_running h.run ty p).trans (if_pos hty))).trans
      (done_calm (h.inc _ (by decide) (by decide)))
  case timer => exact live_next h rfl (startDrain_starts hr hd h.kept) (h.setB _ _ (by decide) (by decide))
  case flush =>
    have k := h.setB Reg.EVR.CTL.FLUSH true (by decide) (by decide)
    refine gated_next h hl rfl (startDrain_starts ?_ ?_ k.kept) (k.setB _ _ (by decide) (by decide))
    · exact (bit_wr_ne s _ (by decide)).trans hr
    · exact (bit_wr_ne s _ (by decide)).trans hd
  case complete =>
    have k : Calm u := hu ▸ slotWrites_calm _ _ (setQ15_empty_calm h)
    have k' : Calm { u with evr := { u.evr with circHead := u.rd Reg.EVR.CIRC_HEAD.SLOT } } :=
      k.congr rfl rfl rfl rfl rfl rfl rfl
    exact live_next h rfl (drainEnds_draining hd hp hu)
      ((k'.setB _ _ (by decide) (by decide)).setB _ _ (by decide) (by decide))
  case accession =>
    rw [slotWrite, if_pos hr]
    exact mapGet_mapSet ..
  case keptCirc =>
    rw [slotWrite, if_pos hr]
    exact ⟨rfl, rfl⟩
  case circulation =>
    rw [slotWrite, if_neg (by omega), hret]
    simp only [usableSlot_nil]
    refine ⟨fun k => mapGet_mapSet .., rfl, ?_⟩
    rw [rd_wr_same]
    exact Nat.mod_eq_of_lt (Nat.mod_lt _ (by decide))

end Sys2Proof.Machine
end
section
/-!
PROOF. The statements of the update engine (R480 to R485) and of self-test and performance counters (chapter 18).
-/
namespace Sys2Proof.Machine

/-! ### The update engine (R480 to R485) -/

section
variable {s : State} {a : Agent} {c : List Byte} {n : Nat}

/-- VERIFY at Utility level is its first failing check, and what follows from it (R481, R482). -/
theorem updVerify_ends {u : State} (hw : s.modeWrites = true) (hl : 2 ≤ s.level a)
    (hn : n = updChecks s c (decide (leAt c 0xC 4 ≤ c.length ∧ 0x800000 ≤ s.rd Reg.UPD.STAGE_ADDR.ADDR)) (partsMatch c)
      [1, 2, 3, 4, 5, 6, 7, 8, 9, 10, 11, 12])
    (hu : u = ((updEnter 1 s).wr Reg.UPD.RESULT.CHECK 0).wr Reg.UPD.STATUS.POLICY (leAt c 0x16 1)) :
    exec (.updVerify a c) s = .next (settle (
      if n = 1 then updRefuse 1 s
      else if n ≠ 0 then updRefuse n (updEnter 0 (updEnter 1 s))
      else updEnter 2 (u.setBank u.idle { Bank.empty with region := colophonHead c, parts := u.stagedParts c }))) := by
  subst hn hu
  exact ends_gated hw hl rfl rfl

/-- The read-back of the staged parts leads to READY, or is refused as check 9 (R482). -/
theorem stagingComplete_ends {ok : Bool} {u : State} (hr : s.running = true) (h2 : s.rd Reg.UPD.STATUS.STATE = 2)
    (hc : c = (s.bank s.idle).region)
    (hu : u = (s.wr Reg.UPD.PROGRESS.PART (leAt c 0x14 1 - 1)).wr Reg.UPD.PROGRESS.KIB
      (((partEntries c).foldl (fun n p => n + p.length) 0) / 1024)) :
    exec (.stagingComplete ok) s = .next (settle (
      if ok then updEnter 3 (u.setBank u.idle { u.bank u.idle with st := 1 })
      else updRefuse 9 (updEnter 0 (u.setBank u.idle Bank.empty)))) := by
  subst hc hu
  exact ends_live hr rfl (if_neg (by simp [h2]))

/-- Without a free bind set arming leaves the state as it is (log entry 30). -/
theorem updArmAs_unbound {policy act : Nat}
    (h : engineSet 3 (if policy = 0 then 1 else if policy = 1 then 2 else 3) 0
      (if policy = 1 then (act + 999999999) / 1000000000 else act) s = none) : updArmAs policy act s = s := by
  unfold updArmAs
  dsimp only
  rw [h]

/-- With its bind set the arming record stands in the idle bank (R484). -/
theorem updArmAs_bound {policy act : Nat} {t u : State}
    (h : engineSet 3 (if policy = 0 then 1 else if policy = 1 then 2 else 3) 0
      (if policy = 1 then (act + 999999999) / 1000000000 else act) s = some t)
    (hu : u = (t.wr Reg.UPD.ACT_LO.NS (act % 2 ^ 32)).wr Reg.UPD.ACT_HI.NS (act / 2 ^ 32)) :
    updArmAs policy act s = updEnter 4 (u.setBank u.idle { u.bank u.idle with armed := some (policy, act) }) := by
  subst hu
  unfold updArmAs
  dsimp only
  rw [h]

theorem updConfirmed_idle (h : s.bit Reg.UPD.STATUS.TRIAL = false) : updConfirmed s = s := if_pos (by simp [h])

/-- A confirmed trial supersedes the other bank and raises MIN_SVN (R485). -/
theorem updConfirmed_trial {u : State} (h : s.bit Reg.UPD.STATUS.TRIAL = true)
    (hu : u = s.setBank s.idle { s.bank s.idle with st := 3, gen := (s.bank s.active).gen }) :
    updConfirmed s = (u.wr Reg.UPD.SVN.MIN_SVN (max (u.rd Reg.UPD.SVN.MIN_SVN)
      (leAt (s.bank s.active).region 0x24 4))).setB Reg.UPD.STATUS.TRIAL false := by
  subst hu
  exact if_neg (by simp [h])

end

/-- Settles O48: each command by the state of the engine, VERIFY by its first failing check. -/
theorem updatesStageArmAndConfirm : Obligations.UpdatesStageArmAndConfirm := by
  unfold Obligations.UpdatesStageArmAndConfirm
  refine fun s => ⟨fun a c n hw hl hn => ⟨fun h1 => ?first, fun h1 => ?later, fun u h0 hu => ?staged⟩,
    fun ok hr h2 => ends_live hr rfl (if_pos h2), fun c u hr h2 hc hu => ⟨?ready, ?refused⟩,
    fun a p hw hl hp => ⟨fun h => ?notReady, fun h3 hp2 => ?arms⟩,
    fun policy act bind hb => ⟨fun h => updArmAs_unbound (hb ▸ h), fun t u h hu => updArmAs_bound (hb ▸ h) hu⟩,
    fun a st hw hl hst => ⟨fun h3 h4 => ?notHeld, fun h => ?abandoned⟩, rfl,
    fun hw => ends_gated hw (Nat.zero_le _) rfl rfl,
    fun hr => ⟨fun h => ?notTried, fun hm ht => ?tried⟩, updConfirmed_idle, fun u => updConfirmed_trial⟩
  case first =>
    rw [updVerify_ends hw hl hn rfl, if_pos h1]
    rfl
  case later =>
    rw [updVerify_ends hw hl hn rfl, if_neg (by omega), if_pos (by omega)]
    rfl
  case staged => rw [updVerify_ends hw hl hn hu, if_neg (by omega), if_neg (by omega)]
  case ready => exact stagingComplete_ends hr h2 hc hu
  case refused => exact stagingComplete_ends hr h2 hc hu
  case notReady =>
    subst hp
    exact ends_gated hw hl rfl (if_neg (by simpa using h))
  case arms =>
    subst hp
    exact ends_gated hw hl rfl (if_pos (by simp [h3, hp2]))
  case notHeld =>
    subst hst
    exact ends_gated hw hl rfl (if_neg (by simp [h3, h4]))
  case abandoned =>
    subst hst
    exact ends_gated hw hl rfl (if_pos (by simpa using h))
  case notTried =>
    refine ends_live hr rfl (if_neg ?_)
    rcases h with hm | ⟨e, he, hc⟩
    · simp only [Bool.and_eq_true, Bool.or_eq_true, decide_eq_true_eq, or_assoc]
      exact fun h => hm h.1
    · simp only [Bool.and_eq_true, Bool.not_eq_true', List.any_eq_false, decide_eq_true_eq]
      exact fun h => h.2 e he hc
  case tried =>
    refine ends_live hr rfl (if_pos ?_)
    simp only [Bool.and_eq_true, Bool.or_eq_true, Bool.not_eq_true', List.any_eq_false, decide_eq_true_eq, or_assoc]
    exact ⟨hm, fun e he => Nat.not_le.2 (ht e he)⟩

/-! ### Groups of the start test (R515, R517 to R519) -/

section
variable {s : State} {g : Nat} {r : BistResult}

theorem bistGroup_idle (h : s.running = false ∨ s.mode ≠ 2 ∨ (s.bist.lane0 ≠ some g ∧ s.bist.lane1 ≠ some g)) :
    bistGroup g r s = s := by
  refine if_pos ?_
  simp only [Bool.not_eq_true', Bool.and_eq_false_iff, Bool.or_eq_false_iff, decide_eq_false_iff_not, or_assoc]
  exact h

/-- A group that runs on a lane ends with its verdict: the repairs, the record, what no spare repairs, and the mode that
is left (R515, R518, R519). -/
theorem bistGroup_judged {t u v w : State} {used : Nat} {left : List BistFail} {ok : Bool} (hr : s.running = true)
    (hm : s.mode = 2) (hl : s.bist.lane0 = some g ∨ s.bist.lane1 = some g)
    (ht : t = (s.mapBist fun b => { b with
      lane0 := if b.lane0 = some g then none else b.lane0
      lane1 := if b.lane1 = some g then none else b.lane1 }).setFlag Reg.BIST.STATUS.TESTED g true)
    (hok : ok = (decide (r.misr = r.expected) && r.mbistOk)) (hp : repairAll r.fails t = (u, used, left))
    (hv : v = left.foldl (fun s x => unrepairable x s) (goodCount g left (bistRecord 0 g (bistVerdict ok used left) used r u)))
    (hw : w = if ok = true then v else raise 0x8A11 g (v.setFlag Reg.BIST.STATUS.FAIL g true)) :
    bistGroup g r s = if w.mode ≠ 2 then runShow (w.mapBist fun b => { b with lane0 := none, lane1 := none, todo := [] })
      else if (lanesFill w).bist.lane0.isNone && (lanesFill w).bist.lane1.isNone then bistEnd (lanesFill w)
      else lanesFill w := by
  subst ht hok hv hw
  unfold bistGroup
  rw [if_neg (by rcases hl with h | h <;> simp [hr, hm, h])]
  dsimp only
  rw [hp]

end

/-! ### Repair and slices (R518, R521, R522) -/

section
variable {s : State}

theorem repair_none {x : BistFail} (h : failRoom x ≤ mapGet (fun _ => 0) s.bist.spares (failKey x)) : repair x s = none :=
  if_pos h

/-- A free spare is taken, and counted among those of its macro (R518). -/
theorem repair_some {x : BistFail} {used : Nat} (hu : used = mapGet (fun _ => 0) s.bist.spares (failKey x))
    (h : used < failRoom x) :
    ∃ t, repair x s = some t ∧ mapGet (fun _ => 0) t.bist.spares (failKey x) = used + 1 := by
  subst hu
  refine ⟨_, if_neg (Nat.not_le.2 h), ?_⟩
  split <;> simp only [inc_bist, State.mapBist, mapGet_mapSet_same]

theorem sliceRun_idle {c : Bool} {b : Option Nat} {x : Option BistFail}
    (h : s.slicesRun = false ∨ s.bist.sliceDue = false) : sliceRun c b x s = s := by
  refine if_pos ?_
  rcases h with h | h <;> simp [h]

/-- A slice on its grant moves the position of the pass on, then acts on what it found (R521, R522). -/
theorem sliceRun_granted {c : Bool} {b : Option Nat} {x : Option BistFail} {t u : State} {pos : Nat}
    (hs : s.slicesRun = true) (hd : s.bist.sliceDue = true) (ht : t = s.mapBist fun b => { b with sliceDue := false })
    (hp : pos = t.rd Reg.BIST.SLICE.POS)
    (hu : u = if pos + 1 < 1296 then t.wr Reg.BIST.SLICE.POS (pos + 1)
      else (t.wr Reg.BIST.SLICE.POS 0).inc Reg.BIST.SLICE.PASSES) :
    sliceRun c b x s = match b with
      | some loc => raise1 (eccCode .critical) loc 0 false u
      | none => match x with
        | none => if c then raise 0x0801 0 u else u
        | some y =>
          let (w, used, left) := repairAll [y] (if c then raise 0x0801 0 u else u)
          let z := bistRecord 1 (sliceGroup pos) (bistVerdict true used left) used ⟨0, 0, true, [y], 0⟩ w
          if left.isEmpty then raise1 0x0A01 y.loc 0 false z else unrepairable y z := by
  subst ht hp hu
  exact (if_neg (by simp [hs, hd])).trans rfl

end

/-! ### Performance counters (R525 to R528) -/

section
variable {s : State} {k tick loc : Nat}

theorem pmcWrap_off (h : s.pmcOn k = false) : pmcWrap k tick loc s = s := if_pos (by simp [h])

/-- A wrap is marked; the counter starts anew from 0, or from its period with a sample item (R525, R526). -/
theorem pmcWrap_on {u : State} (h : s.pmcOn k = true)
    (hu : u = if k < 32 then s.setFlag Reg.PMC.OVF_LO.OVF k true else s.setFlag Reg.PMC.OVF_HI.OVF (k - 32) true) :
    pmcWrap k tick loc s =
      if !u.bit (Reg.PMC.CFG.SAMPLE k) then u.wr (Reg.PMC.CNT_LO.COUNT k) 0
      else
        let p := u.rd (Reg.PMC.PERIOD.PERIOD k)
        let v := u.wr (Reg.PMC.CNT_LO.COUNT k) (2 ^ 48 - (if p = 0 then 2 ^ 32 else p))
        let evt := v.rd (Reg.PMC.CFG.EVT k)
        let core := if evt < 40 then evt / 10 else v.rd (Reg.PMC.CFG.CORE k)
        hwPost 16 [k * 2 ^ 58 + core * 2 ^ 56 + evt * 2 ^ 48 + tick % 2 ^ 32, loc % 2 ^ 64]
          (if v.qRefuses 16 then v.inc Reg.PMC.SAMPLES.DROPPED else v.inc Reg.PMC.SAMPLES.POSTED) := by
  subst hu
  exact if_neg (by simp [h])

/-- A counter that counts belongs to a running core. -/
theorem pmcOn_running (h : s.pmcOn k = true) : s.running = true := by
  unfold State.pmcOn at h
  simp only [Bool.and_eq_true] at h
  exact h.1.1

/-- An event of the core die that finds nothing to do changes nothing, whether the core runs or not. -/
theorem ends_live_idle {c : Instr} {f : State → State} (e : exec c s = done (live f s)) (k : f s = s) :
    exec c s = .next (settle s) := by
  refine ends e ?_
  unfold live
  rw [k, ite_self]

theorem pmcReads_iff (a : Agent) :
    s.pmcReads a = true ↔ 2 ≤ s.level a ∨ (s.level a = 1 ∧ s.bit Reg.PMC.CTL.OPERATOR = true) := by
  simp [State.pmcReads]

end

/-- Settles O57: groups, slices and counters by their guards, and by what each does once it acts. -/
theorem selfTestsAndCounters : Obligations.SelfTestsAndCounters := by
  unfold Obligations.SelfTestsAndCounters
  refine fun s => ⟨fun g r => ⟨fun h => ends rfl (bistGroup_idle h), ?group⟩,
    fun x used hu => ⟨fun h => repair_none (hu ▸ h), repair_some hu⟩,
    fun hr => ⟨fun hs => ?sliceOn, fun hs => ?sliceOff⟩,
    fun c b x hr => ⟨fun h => ends_live hr rfl (sliceRun_idle h), ?slice⟩,
    fun k tick loc => ⟨fun h => ends_live_idle rfl (pmcWrap_off h), ?wrap⟩,
    fun a k hw hl => ends_gated hw hl rfl rfl, fun a k count tick hr => ⟨fun h => ?reads, fun h => ?refused⟩⟩
  case group =>
    intro hr hm hl t u used left ok v w ht hok hp hv hw
    have judged := bistGroup_judged hr hm hl ht hok hp hv hw
    refine ⟨fun h => ends rfl (judged.trans (if_pos h)), fun h2 h0 h1 => ?_, fun h2 hn => ?_⟩
    · exact ends rfl (by rw [judged, if_neg (by simp [h2]), if_pos (by simp [h0, h1])])
    · have busy : ¬ ((lanesFill w).bist.lane0.isNone && (lanesFill w).bist.lane1.isNone) = true := by
        simpa [or_iff_not_imp_left] using hn
      exact ends rfl (by rw [judged, if_neg (by simp [h2]), if_neg busy])
  case sliceOn => exact ends_live hr rfl (by simp [hs])
  case sliceOff => exact ends_live hr rfl (by simp [hs])
  case slice =>
    intro hs hd t u pos ht hp hu
    have granted := fun b x => sliceRun_granted (c := c) (b := b) (x := x) hs hd ht hp hu
    refine ⟨?bad, ?good⟩
    case bad =>
      rintro loc rfl
      exact ends_live hr rfl (granted _ _)
    case good =>
      rintro v rfl rfl
      refine ⟨?clean, ?failing⟩
      case clean =>
        rintro rfl
        exact ends_live hr rfl (granted _ _)
      case failing =>
        rintro y w used left rfl hrep z rfl
        have found := granted none (some y)
        simp only [hrep] at found
        exact ⟨fun h => ends_live hr rfl (by rw [found, h]; rfl),
          fun h => ends_live hr rfl (found.trans (if_neg (by simpa using h)))⟩
  case wrap =>
    intro hon u hu
    have wraps := pmcWrap_on (tick := tick) (loc := loc) hon hu
    have hr := pmcOn_running hon
    refine ⟨fun h => ends_live hr rfl (wraps.trans (if_pos (by simp [h]))), ?_⟩
    rintro h p v evt core w rfl rfl rfl rfl rfl
    exact ends_live hr rfl (wraps.trans (if_neg (by simp [h])))
  case reads => exact ends_neg rfl (by simpa [hr, pmcReads_iff] using (pmcReads_iff a).2 h)
  case refused =>
    refine ends_pos rfl ?_
    simp only [hr, Bool.not_true, Bool.false_or, Bool.not_eq_true', ← Bool.not_eq_true, pmcReads_iff]
    rcases h with h | ⟨h, ho⟩
    · omega
    · simp [h, ho]

end Sys2Proof.Machine
end
section
/-!
PROOF. The statements of the host port and the queues (chapter 19): transactions on the wire (R531, R532), bulk transfers
(R538, R539), the access ports (R541 to R546) and staged writes (R547, R548).
-/
namespace Sys2Proof.Machine

/-! ### The wire (R531, R532) -/

/-- What the host port holds beside its registers does not decide whether a state is calm. -/
theorem Calm.setHp {s : State} (h : Calm s) (x : HpSt) : Calm { s with hp := x } := h.congr rfl rfl rfl rfl rfl rfl rfl

/-- A READ of the reading room answers its words with their CRC (R531, R532). -/
theorem hpRead_room {s : State} (h : Calm s) {addr : Nat} {count : Fin 256} {l : List Nat} (h1 : 0x100000 ≤ addr)
    (h2 : addr + 4 * (count + 1) ≤ 0x200000)
    (hl : l = (List.range (count + 1)).map fun i => leValue (readBytes s.hp.rroom (addr - 0x100000 + 4 * i) 4)) :
    exec (.hpRead addr count) s =
      done (wireAnswer l (crc16 (wireHead 0x0B addr count ++ l.flatMap (beBytes 4))) 0xA s) := by
  have e : exec (.hpRead addr count) s = done (wireAnswer (readWords (count + 1) addr s).1
      (crc16 (wireHead 0x0B addr count ++ (readWords (count + 1) addr s).1.flatMap (beBytes 4))) 0xA
      (readWords (count + 1) addr s).2) := go_unless h rfl
  rw [e, readWords_room (count + 1) addr s h1 h2, hl]

/-- A WRITE of 1 to 256 words is judged by its CRC (R531, R532). -/
theorem hpWrite_judged {s : State} (h : Calm s) {addr crc : Nat} {words : List Nat} (hw : words ≠ [])
    (hl : words.length ≤ 256) :
    exec (.hpWrite addr words crc) s =
      done (if crc16 (wireHead 0x02 addr (words.length - 1) ++ words.flatMap (beBytes 4)) ≠ crc then
          wireAnswer [] 0 0xC (s.setB Reg.HP.STATUS.CRC_STK true)
        else wireAnswer [] 0 (if (writeWords addr words s).1 then 0x5 else 0xA) (writeWords addr words s).2) :=
  congrArg done (if_neg (by simp [h.run, hw, Nat.not_lt.2 hl]))

/-- Settles O14: a READ by the words of the room, a WRITE by its CRC and the words it stores, STATUS and a time-out by
their answer alone. -/
theorem transactionsAnswer : Obligations.TransactionsAnswer := by
  unfold Obligations.TransactionsAnswer
  refine fun s h => ⟨fun addr count l h1 h2 hl => ?read, fun addr words crc hw hn hc => ?wrong,
    fun addr words hw hn h1 h2 ha hh => ?stored, ?status, ?timeout⟩
  case read => exact (hpRead_room h h1 h2 hl).trans (done_calm (h.setHp _))
  case wrong =>
    exact (hpWrite_judged h hw hn).trans ((congrArg done (if_pos hc)).trans
      (done_calm ((h.setB _ _ (by decide) (by decide)).setHp _)))
  case stored =>
    rw [hpWrite_judged h hw hn, if_neg (by simp [wireHead]), writeWords_room words addr s h h1 h2 ha hh]
    exact done_calm (h.setHp _)
  case status =>
    rintro _ rfl
    exact (go_unless h rfl).trans (done_calm (h.setHp _))
  case timeout => exact running_next h rfl rfl (h.setHp _)

/-! ### Descriptors (R538, R539) -/

theorem Calm.hpWrites {s : State} (h : Calm s) : s.hpWrites = true := by
  unfold State.hpWrites
  rw [h.modeWrites]
  rfl

/-- The registers of a descriptor are none that decide whether a state is calm. -/
theorem Calm.wrDesc {s : State} (h : Calm s) {a lo w d : Nat} (ha : 0x5400 ≤ a ∧ a < 0x5410) (v : Nat) :
    Calm (s.wr ⟨a + 0x10 * d, lo, w⟩ v) := by
  refine h.wr _ _ ?_ ?_ <;> (simp only [Fld.key]; omega)

section
variable {s u : State} {d kind tag : Nat}

/-- A descriptor that the host owns is taken at the level of its kind, and else comes back (R538, R539). -/
theorem descHandover_judged (h : Calm s) (ho : s.bit (Reg.HP.DESC0.OWN d) = false)
    (hu : u = (s.wr (Reg.HP.DESC0.KIND d) kind).wr (Reg.HP.DESC0.TAG d) tag) :
    descHandover d kind tag s = if (kindLevel kind).any (· ≤ u.level .host) then
      (u.setB (Reg.HP.DESC0.OWN d) true).mapHp fun x => { x with handed := x.handed ++ [d] } else handBack d 1 0 u := by
  subst hu
  unfold descHandover
  rw [h.hpWrites, if_neg (by decide), if_neg (by simp [ho])]

theorem descHandover_owned (h : Calm s) (ho : s.bit (Reg.HP.DESC0.OWN d) = true) :
    descHandover d kind tag s = accessError s := by
  unfold descHandover
  rw [h.hpWrites, if_neg (by decide), if_pos ho]

/-- The level of the session rests on the host port's status alone. -/
theorem level_wrDesc {a lo w : Nat} (ha : 0x5400 ≤ a ∧ a < 0x5410) (v : Nat) :
    (s.wr ⟨a + 0x10 * d, lo, w⟩ v).level .host = s.level .host := by
  refine rd_wr_ne s _ _ v ?_
  simp only [Fld.key]
  omega

/-- A descriptor does not stand in its own way: whether its pages are free rests on the others alone (R539). -/
theorem descFree_taken {r : List Nat} (hh : s.hp.handed = d :: r) (hu : u = { s with hp := { s.hp with handed := r } }) :
    s.descFree d = u.descFree d := by
  subst hu
  unfold State.descFree
  simp only [hh, List.any_append, List.any_cons]
  simp
  rfl

/-- The oldest descriptor becomes active, or comes back for its range or its pages (R538, R539). -/
theorem descStart_next {r : List Nat} (h : Calm s) (ha : s.hp.active = none) (hh : s.hp.handed = d :: r)
    (hu : u = { s with hp := { s.hp with handed := r } }) :
    descStart s = if !s.descRange d then handBack d 2 0 u else if !u.descFree d then handBack d 3 0 u
      else { s with hp := { s.hp with handed := r, active := some d } } := by
  rw [← descFree_taken hh hu]
  subst hu
  unfold descStart
  rw [if_neg (by simp [h.run, ha])]
  simp only [hh]
  rfl

end

section
variable {s u : State} {d : Nat} (ha : s.hp.active = some d) (hu : u = { s with hp := { s.hp with active := none } })
include ha hu

/-- The transfer of load-profile records (R195, R538). -/
theorem descDone_profile {r : OspiResult} {n : Nat} (hk : s.rd (Reg.HP.DESC0.KIND d) = 1)
    (hn : n = min (s.profileLeft (s.rd (Reg.HP.DESC2.ARG d))) (s.descRoom d / 32)) :
    descDone r s = handBack d 0 (32 * n) { u with hp := { u.hp with
      rroom := writeBytes s.hp.rroom (s.descAddr d 0) (s.profileBytes (s.rd (Reg.HP.DESC2.ARG d)) n) } } := by
  subst hu hn
  unfold descDone
  simp only [ha]
  exact if_pos hk

/-- The transfer of pages to the octal SPI memory (R538). -/
theorem descDone_stores {bytes : List Byte} (hk : s.rd (Reg.HP.DESC0.KIND d) = 3) :
    descDone (.done bytes) s = handBack d 0 (s.rd (Reg.HP.DESC3.LENGTH d)) { u with hp := { u.hp with
      ospi := ospiPut (s.rd (Reg.HP.DESC2.ARG d))
        ((List.range (s.rd (Reg.HP.DESC3.LENGTH d))).map fun i => some (readByte s.hp.rroom (s.descAddr d i)))
        s.hp.ospi } } := by
  subst hu
  have hk' : (s.mapHp fun x => { x with active := none }).rd (Reg.HP.DESC0.KIND d) = 3 := hk
  unfold descDone
  simp only [ha, hk']
  rfl

/-- The transfer of the octal SPI memory to pages, answered in full (R538). -/
theorem descDone_reads {bytes : List Byte} (hk : s.rd (Reg.HP.DESC0.KIND d) = 2) (hb : bytes.length = s.descRoom d) :
    descDone (.done bytes) s = handBack d 0 (s.descRoom d) { u with
      free := s.free + 1, hp := { u.hp with
        rroom := writeBytes s.hp.rroom (s.descAddr d 0)
          (bytes.zipIdx.map fun x => s.ospiByte (s.rd (Reg.HP.DESC2.ARG d) + x.2) x.1) } } := by
  subst hu
  have hk' : (s.mapHp fun x => { x with active := none }).rd (Reg.HP.DESC0.KIND d) = 2 := hk
  have hb' : bytes.length = (s.mapHp fun x => { x with active := none }).descRoom d := hb
  have whole : ∀ t, answerBytes bytes.length bytes t = (bytes, t.fresh.2) := fun t => by
    unfold answerBytes
    simp [leBytes]
  unfold descDone
  simp only [ha, hk', ← hb', whole]
  rw [if_neg (by decide)]
  exact congrArg₂ (handBack d 0) rfl rfl

/-- A failed read comes back with RESULT 4 and a free length (R538, log entry 157). -/
theorem descDone_readFails (hk : s.rd (Reg.HP.DESC0.KIND d) = 2) :
    descDone .error s = handBack d 4 (Config.freeValue s.free) { u with free := s.free + 1 } := by
  subst hu
  have hk' : (s.mapHp fun x => { x with active := none }).rd (Reg.HP.DESC0.KIND d) = 2 := hk
  unfold descDone
  simp only [ha, hk']
  rfl

end

/-- A command whose effect hands a descriptor back answers that. -/
theorem handBack_next {c : Instr} {s f t : State} {d r l : Nat} (e : exec c s = done f) (k : f = handBack d r l t)
    (h : Calm t) : exec c s = .next (handBack d r l t) := by
  rw [e, k]
  exact done_calm (handBack_calm h d r l)

/-- Settles O16: a descriptor by who owns it and the level of its kind, a start by range and pages, an end by its kind. -/
theorem descriptorsAndTransfers : Obligations.DescriptorsAndTransfers := by
  unfold Obligations.DescriptorsAndTransfers
  refine ⟨fun s h => ⟨fun d kind tag u ho hu => ?handover, fun d kind tag ho => ?owned, fun d r u ha hh hu => ?start,
    fun d result len => rfl⟩, fun d s u h ha hu => ?ended⟩
  case handover =>
    have judged := descHandover_judged h ho hu
    have hk : Calm u := hu ▸ (h.wrDesc (by decide) _).wrDesc (by decide) _
    have hl : u.level .host = s.level .host := by
      rw [hu, level_wrDesc (by decide), level_wrDesc (by decide)]
    have hp : u.hp = s.hp := by rw [hu]; rfl
    rw [hl] at judged
    refine ⟨fun l hkl hle => ?_, fun hlow => handBack_next rfl (judged.trans (if_neg ?_)) hk⟩
    · have taken := judged.trans (if_pos (by simp [hkl, hle]))
      rw [← hp]
      exact (congrArg done taken).trans (done_calm ((hk.wrDesc (by decide) _).setHp _))
    · simp only [Option.any_eq_true, decide_eq_true_eq, not_exists, not_and, Nat.not_le]
      exact hlow
  case owned =>
    exact (congrArg done (descHandover_owned h ho)).trans
      (done_calm ((h.inc _ (by decide) (by decide)).setB _ _ (by decide) (by decide)))
  case start =>
    have next := descStart_next h ha hh hu
    have hk : Calm u := hu ▸ h.setHp _
    refine ⟨fun hr => handBack_next rfl (next.trans (if_pos (by simp [hr]))) hk,
      fun hr hf => handBack_next rfl (by rw [next, if_neg (by simp [hr]), if_pos (by simp [hf])]) hk, fun hr hf => ?_⟩
    refine (congrArg done ?_).trans (done_calm (h.setHp _))
    rw [next, if_neg (by simp [hr]), if_neg (by simp [hf])]
  case ended =>
    have hk : Calm u := hu ▸ h.setHp _
    exact ⟨fun r n k hn => handBack_next (go_if h rfl) (descDone_profile ha hu k hn) (hk.setHp _),
      fun bytes k => handBack_next (go_if h rfl) (descDone_stores ha hu k) (hk.setHp _),
      fun bytes k hb => handBack_next (go_if h rfl) (descDone_reads ha hu k hb) (hk.congr rfl rfl rfl rfl rfl rfl rfl),
      fun k => handBack_next (go_if h rfl) (descDone_readFails ha hu k) (hk.congr rfl rfl rfl rfl rfl rfl rfl)⟩

/-! ### The access ports (R540 to R546) -/

/-- What a port holds does not decide what the end of a step does. -/
theorem Still.mapPort {s : State} (h : Still s) (a : Agent) (f : Port → Port) : Still (s.mapPort a f) := by
  cases a <;> exact ⟨h.todo, h.still, h.pushed, h.room, h.open_⟩

/-- A command that shows a result in its agent's port. -/
theorem portResult_next {c : Instr} {s f t : State} {a : Agent} {r : Nat} (e : exec c s = done f)
    (k : f = portResult a r t) (h : Still t) : exec c s = .next (portResult a r t) := by
  rw [e, k]
  exact done_still (h.mapPort a _)

section
variable {s : State} {n : Nat}

/-- A queue without items has none ready. -/
theorem ready_empty (h : (s.q n).items = []) : (s.q n).ready.chain = [] := by
  rw [← List.head?_eq_none_iff, qready_chain, h]
  rfl

theorem takeHead_empty (h : (s.q n).items = []) : takeHead n s = none := by
  unfold takeHead
  simp [ready_empty h]

/-- A whole item at the head is taken, and the annex moves up (R541). -/
theorem takeHead_ready {i : Item} {r : List Item} (h : (s.q n).ready.chain = i :: r) (hp : i.poison = 0) :
    takeHead n s = some (i, s.setQ n (s.q n).ready.pop) := by
  unfold takeHead
  simp [h, poisonSeen, hp]

theorem level_ready (x : Queue) : x.ready.level = x.level := by
  unfold Queue.ready
  split
  · rw [level_refill, level_spill]
  · rfl

end

/-- How every port operation is refused: by level, by a copy that a flush made invalid, by the agent's role (R544,
R546). -/
theorem portOp_refused {s : State} (h : Calm s) {a : Agent} {c : Instr} {role : State → Agent → Nat → Bool}
    {act : Nat → State → State} (e : exec c s = done (portOp a role act s)) :
    (s.level a < 1 → exec c s = .next (portResult a 5 s)) ∧
    (1 ≤ s.level a → (s.port a).copyOf = some (s.port a).sel → (s.port a).invalid = true →
      exec c s = .next (s.mapPort a fun p => { p with copyOf := none, invalid := false, result := 4 })) ∧
    (1 ≤ s.level a → ¬ ((s.port a).copyOf = some (s.port a).sel ∧ (s.port a).invalid = true) →
      role s a (s.port a).sel = false → exec c s = .next (portResult a 3 s)) := by
  unfold portOp at e
  rw [h.modeWrites, if_neg (by decide)] at e
  refine ⟨fun hl => portResult_next e (if_pos hl) h.still', fun hl hc hi => ?_, fun hl hc hr => ?_⟩
  · rw [if_neg (by omega)] at e
    simp only [hc, hi, decide_true, Bool.and_self, if_true] at e
    rw [e]
    cases a <;> exact done_calm ((h.mapPort _ _).mapPort _ _)
  · rw [if_neg (by omega)] at e
    exact portResult_next e (by dsimp only; rw [if_neg (by simpa using hc), if_pos (by simp [hr])]) h.still'

/-- An item joins the agent's queue, or the recorder's (R510, R542). -/
theorem qPush_queue {s : State} {a : Agent} (h : Calm s) (hl : 1 ≤ s.level a)
    (hp : s.produces a (s.port a).sel = true)
    (hc : ¬ ((s.port a).copyOf = some (s.port a).sel ∧ (s.port a).invalid = true)) :
    exec (.qPush a) s = done (if s.qRefuses (s.port a).sel then portResult a 2 s
      else if (s.port a).sel = 15 then portResult a 0 (runtimeRecord
        (((s.port a).words (s.port a).sel).getD 0 0 / 2 ^ 32 % 256)
        ((((s.port a).words (s.port a).sel).drop 2).flatMap (leBytes 8)) s)
      else portResult a 0 (s.qAccept (s.port a).sel ⟨(s.port a).words (s.port a).sel, 0⟩)) :=
  congrArg done (portOp_calm h _ _ hl hc hp)

/-- What FLUSH does to a queue that it may empty (R544). -/
theorem qFlush_empties {s : State} {a : Agent} {n : Nat} (h : Calm s) (hl : 1 ≤ s.level a) (h3 : 3 ≤ n) (h15 : n ≠ 15)
    (hr : s.consumes a n = true ∨ (a = .host ∧ 2 ≤ s.level a)) : qFlush a n s = flushQueue n s := by
  refine (gated_calm h a 1 _ hl).trans ?_
  rw [if_neg (by simp; omega), if_pos (by simpa using hr)]

theorem qFlush_ignored {s : State} {a : Agent} {n : Nat} (h : Calm s) (hl : 1 ≤ s.level a) (hn : n < 3 ∨ n = 15) :
    qFlush a n s = s :=
  (gated_calm h a 1 _ hl).trans (if_pos (by simpa using hn))

/-- The registers of a queue are none that decide whether a state is calm. -/
theorem Calm.wrQueue {s : State} (h : Calm s) {a lo w n : Nat} (ha : 0x6000 ≤ a) (v : Nat) :
    Calm (s.wr ⟨a + 0x20 * n, lo, w⟩ v) := by
  refine h.wr _ _ ?_ ?_ <;> (simp only [Fld.key]; omega)

/-- Settles O17: the refusals come before the operation, which acts on the items of the selected queue. -/
theorem queuePorts : Obligations.QueuePorts := by
  unfold Obligations.QueuePorts
  refine ⟨fun a s h hl hr hc => ⟨?empty, ?item⟩, fun a s h hl hp hn hc => ⟨?full, ?push, ?record⟩,
    fun a s c h hop => ?refused, fun a n s h hl => ⟨fun h3 h15 hr => ?flush, fun hn => ?kept, ?clear⟩⟩
  case empty =>
    have hres : ∀ c : Instr, exec c s = done (portResult a 1 s) → exec c s = .next (portResult a 1 s) :=
      fun c e => portResult_next e rfl h.still'
    rintro hi c (rfl | rfl | rfl)
    · exact hres _ (congrArg done ((portOp_calm h _ _ hl hc hr).trans (by simp only [ready_empty hi])))
    · exact hres _ (congrArg done ((portOp_calm h _ _ hl hc hr).trans (by rw [takeHead_empty hi])))
    · exact hres _ (congrArg done ((portOp_calm h _ _ hl hc hr).trans (by simp only [ready_empty hi])))
  case item =>
    intro i r hi
    have moved : Calm (s.setQ (s.port a).sel (s.q (s.port a).sel).ready) := h.setQLevel _ _ (level_ready _)
    have taken : Calm (s.setQ (s.port a).sel (s.q (s.port a).sel).ready.pop) := h.setQ _ _ (consumes_ne hr)
    refine ⟨?_, fun hp => ?_, ?_⟩
    · exact portResult_next (congrArg done (portOp_calm h _ _ hl hc hr)) (by simp only [hi])
        (moved.mapPort a _).still'
    · exact portResult_next (congrArg done (portOp_calm h _ _ hl hc hr)) (by simp only [takeHead_ready hi hp])
        (taken.mapPort a _).still'
    · exact portResult_next (congrArg done (portOp_calm h _ _ hl hc hr)) (by simp only [hi]) taken.still'
  case full => exact fun hf => portResult_next (qPush_queue h hl hp hc) (if_pos hf) h.still'
  case push =>
    intro hf h15
    exact portResult_next (qPush_queue h hl hp hc) (by rw [if_neg (by simp [hf]), if_neg h15])
      (h.qAccept _ _ hn h15).still'
  case record =>
    intro hf h15 hty
    have still := (tidy_record s (((s.port a).words 15).getD 0 0 / 2 ^ 32 % 256)
      (leValue (((((s.port a).words 15).drop 2).flatMap (leBytes 8)).take 40)) false h.queueRoom).still h (by decide)
      (mode_same (books_record s _ _).booked.regs rfl)
    refine portResult_next (qPush_queue h hl hp hc) ?_ still
    rw [h15, if_neg (by simp [hf]), if_pos rfl]
    unfold runtimeRecord
    rw [h.run, if_neg (by decide), if_neg (by omega)]
  case refused =>
    rcases hop with rfl | rfl | rfl | rfl
    · obtain ⟨low, stale, role⟩ := portOp_refused h (c := .qPeek a) rfl
      exact ⟨low, stale, fun hl hc hr _ => role hl hc hr⟩
    · obtain ⟨low, stale, role⟩ := portOp_refused h (c := .qPop a) rfl
      exact ⟨low, stale, fun hl hc hr _ => role hl hc hr⟩
    · obtain ⟨low, stale, role⟩ := portOp_refused h (c := .qPush a) rfl
      exact ⟨low, stale, fun hl hc _ hr => role hl hc hr⟩
    · obtain ⟨low, stale, role⟩ := portOp_refused h (c := .qDiscard a) rfl
      exact ⟨low, stale, fun hl hc hr _ => role hl hc hr⟩
  case flush =>
    refine (congrArg done (qFlush_empties h hl h3 h15 hr)).trans (done_calm ?_)
    exact (((h.setQ n _ h15).wrQueue (by decide) _).mapPort .host _).mapPort .runtime _
  case kept => exact (congrArg done (qFlush_ignored h hl hn)).trans (done_calm h)
  case clear => exact gated_next h hl rfl rfl (h.wrQueue (by decide) _)

/-! ### Staged writes (R547, R548) -/

section
variable {s : State} {a : Agent} {addr mask v k : Nat}

/-- A write of RWS fields joins the open set (R547). -/
theorem rwsWrite_staged (h : Calm s) (hm : mask ≠ 0) (hl : writeLevel addr ≤ s.level a) (ho : s.openSet a = some k) :
    rwsWrite a addr mask v s = s.setBset k ((s.bset k).stage addr mask v) := by
  refine (if_neg hm).trans ((gated_calm h a _ _ hl).trans ?_)
  simp only [ho]

theorem rwsWrite_noSet (h : Calm s) (hm : mask ≠ 0) (hl : writeLevel addr ≤ s.level a) (ho : s.openSet a = none) :
    rwsWrite a addr mask v s = s.inc Reg.BND.STATUS.NOSET := by
  refine (if_neg hm).trans ((gated_calm h a _ _ hl).trans ?_)
  simp only [ho]

/-- PEEK shows the value in force of an aligned address, merged under what the open set stages for it (R548). -/
theorem bndPeek_shows {w : Nat} {found : Option (Nat × Nat × Nat)} (h : Calm s) (ha : addr < 2 ^ 18) (h4 : addr % 4 = 0)
    (hw : w = s.regWord a addr)
    (hf : ((s.openSet a).bind fun k => (s.bset k).staged.find? fun x => x.1 = addr) = found) :
    bndPeek a addr s = ((s.wr Reg.BND.PEEK_ADDR.ADDR (addr / 4)).setB Reg.BND.PEEK_ADDR.STAGED found.isSome).wr
      Reg.BND.PEEK_VAL.VALUE (found.elim w fun x => Nat.lor (w - Nat.land w x.2.1) (Nat.land x.2.2 x.2.1)) := by
  have e : addr % 2 ^ 18 / 4 * 4 = addr := by omega
  subst hw
  refine (gated_calm h a 0 _ (Nat.zero_le _)).trans ?_
  simp only [e, hf]
  cases found <;> rfl

end

section
variable {b : BindSet} {addr mask v : Nat}

theorem not_staged (hn : ∀ x ∈ b.staged, x.1 ≠ addr) : ¬ (b.staged.any fun x => x.1 = addr) = true := by
  simp only [List.any_eq_true, decide_eq_true_eq, not_exists, not_and]
  exact hn

theorem stage_new (hn : ∀ x ∈ b.staged, x.1 ≠ addr) (hl : b.staged.length < 256) :
    b.stage addr mask v = { b with staged := b.staged ++ [(addr, mask, Nat.land v mask)] } := by
  unfold BindSet.stage
  rw [if_neg (not_staged hn), if_neg (by omega)]

theorem stage_overflow (hn : ∀ x ∈ b.staged, x.1 ≠ addr) (hl : 256 ≤ b.staged.length) :
    b.stage addr mask v = { b with overflow := true } := by
  unfold BindSet.stage
  rw [if_neg (not_staged hn), if_pos hl]

/-- A second write of a register keeps the registers of the set, in their order (R547). -/
theorem stage_merge_registers (ho : ∃ x ∈ b.staged, x.1 = addr) :
    (b.stage addr mask v).staged.map (·.1) = b.staged.map (·.1) := by
  unfold BindSet.stage
  rw [if_pos (by simpa using ho), List.map_map]
  refine List.map_congr_left fun x _ => ?_
  simp only [Function.comp_apply]
  split
  · rename_i h
    exact h.symm
  · rfl

/-- A set holds each register once (R547). -/
theorem stage_nodup (h : (b.staged.map (·.1)).Nodup) : ((b.stage addr mask v).staged.map (·.1)).Nodup := by
  by_cases ho : ∃ x ∈ b.staged, x.1 = addr
  · rwa [stage_merge_registers ho]
  · have hn : ∀ x ∈ b.staged, x.1 ≠ addr := fun x hx e => ho ⟨x, hx, e⟩
    rcases Nat.lt_or_ge b.staged.length 256 with hl | hl
    · rw [stage_new hn hl]
      simpa [List.nodup_append, h] using hn
    · rw [stage_overflow hn hl]
      exact h

/-- A set holds at most 256 registers (R547). -/
theorem stage_length (h : b.staged.length ≤ 256) : (b.stage addr mask v).staged.length ≤ 256 := by
  by_cases ho : ∃ x ∈ b.staged, x.1 = addr
  · have e := congrArg List.length (stage_merge_registers (mask := mask) (v := v) ho)
    rw [List.length_map, List.length_map] at e
    omega
  · have hn : ∀ x ∈ b.staged, x.1 ≠ addr := fun x hx e => ho ⟨x, hx, e⟩
    rcases Nat.lt_or_ge b.staged.length 256 with hl | hl
    · rw [stage_new hn hl]
      simp
      omega
    · rw [stage_overflow hn hl]
      exact h

end

/-- Settles O20: a staged write by the agent's open set, PEEK by what that set holds, a set by whether it has the
register already. -/
theorem writesOfRwsFieldsAreStaged : Obligations.WritesOfRwsFieldsAreStaged := by
  unfold Obligations.WritesOfRwsFieldsAreStaged
  refine ⟨fun a s h => ⟨fun addr v k hm hl ho => ?staged, fun addr v hm hl ho => ?noSet, fun v k hl ho => ?elvss,
    fun addr w ha h4 hw => ⟨fun k m v ho hf => ?merged, fun hf => ?inForce⟩⟩,
    fun b addr mask v => ⟨fun hn hl => ?new, fun hn hl => ?overflow, stage_nodup, stage_length⟩⟩
  case staged => exact (congrArg done (rwsWrite_staged h hm hl ho)).trans (done_calm (h.setBset _ _))
  case noSet => exact (congrArg done (rwsWrite_noSet h hm hl ho)).trans (done_calm (h.inc _ (by decide) (by decide)))
  case elvss =>
    have e : writeLevel Reg.DPY.RAIL.ELVSS.addr = 1 := by decide
    have staged : rwsWrite a Reg.DPY.RAIL.ELVSS.addr 0x3F v s =
        s.setBset k ((s.bset k).stage Reg.DPY.RAIL.ELVSS.addr 0x3F v) := rwsWrite_staged h (by decide) (e ▸ hl) ho
    have lowest : v.val * 2 ^ Reg.DPY.RAIL.ELVSS.lo = v := Nat.mul_one _
    refine (congrArg done ?_).trans (done_calm (h.setBset _ _))
    rw [← staged, lowest]
    rfl
  case merged =>
    have found : ((s.openSet a).bind fun k => (s.bset k).staged.find? fun x => x.1 = addr) = some (addr, m, v) := by
      rw [ho]
      exact hf
    refine (congrArg done (bndPeek_shows h ha h4 hw found)).trans (done_calm ?_)
    exact ((h.wr _ _ (by decide) (by decide)).setB _ _ (by decide) (by decide)).wr _ _ (by decide) (by decide)
  case inForce =>
    refine (congrArg done (bndPeek_shows h ha h4 hw hf)).trans (done_calm ?_)
    exact ((h.wr _ _ (by decide) (by decide)).setB _ _ (by decide) (by decide)).wr _ _ (by decide) (by decide)
  case new =>
    rw [stage_new hn hl]
    exact ⟨rfl, rfl⟩
  case overflow =>
    rw [stage_overflow hn hl]
    exact ⟨rfl, rfl⟩

end Sys2Proof.Machine
end
section
/-!
PROOF. The statement of the load switch channels in heat, fold-back and over-current (chapter 13).
-/
namespace Sys2Proof.Machine

/-! ### Channels in heat, fold-back and over-current (R402, R405, R406, R408, R409) -/

section
variable {s u : State} {c : Nat}

/-- The shown temperature is none of a channel's other fields. -/
theorem bit_hsTj {a lo w : Nat} (tj : Int) (ha : 0x35100 ≤ a ∧ a < 0x35118) (hl : lo < 32) :
    (s.wrI (Reg.LSW.CH.MEAS.TJ c) tj).bit ⟨a + 0x20 * c, lo, w⟩ = s.bit ⟨a + 0x20 * c, lo, w⟩ := by
  refine bit_wr_ne (f := Reg.LSW.CH.MEAS.TJ c) s _ ?_
  simp only [Fld.key]
  omega

/-- Heat counts and is a forcing condition; before the eighth restart it forces the channel off (R406). -/
theorem hsThermal_forces (hu : u = (s.inc (Reg.LSW.CH.HIST.THERMALS c)).setB (Reg.LSW.CH.STATUS.THERMAL c) true)
    (hr : u.rd (Reg.LSW.CH.STATUS.RESTARTS c) ≠ 8) : hsThermal c s = hsForce c u := by
  subst hu
  exact if_neg hr

/-- Heat at the eighth restart latches the channel with its fault (R406). -/
theorem hsThermal_latches (hu : u = (s.inc (Reg.LSW.CH.HIST.THERMALS c)).setB (Reg.LSW.CH.STATUS.THERMAL c) true)
    (hr : u.rd (Reg.LSW.CH.STATUS.RESTARTS c) = 8) : hsThermal c s = hsLatch c (0x7540 + c) u := by
  subst hu
  exact if_pos hr

/-- The heat's count and condition leave the count of restarts. -/
theorem heated_restarts (hu : u = (s.inc (Reg.LSW.CH.HIST.THERMALS c)).setB (Reg.LSW.CH.STATUS.THERMAL c) true) :
    u.rd (Reg.LSW.CH.STATUS.RESTARTS c) = s.rd (Reg.LSW.CH.STATUS.RESTARTS c) := by
  subst hu
  rw [rd_setB_ne _ _ _ _ (by simp only [Fld.key, ne_eq]; omega)]
  exact rd_wr_ne _ _ _ _ (by simp only [Fld.key, ne_eq]; omega)

theorem heated_calm (h : Calm s)
    (hu : u = (s.inc (Reg.LSW.CH.HIST.THERMALS c)).setB (Reg.LSW.CH.STATUS.THERMAL c) true) : Calm u :=
  hu ▸ (h.wrChannel _ (by decide) (by decide)).setBChannel _ (by decide) (by decide)

/-- R399 enables no channel whose request level is 0. -/
theorem hsAuto_idle (h : s.bit (Reg.LSW.CH.STATUS.REQ_ON c) = false) : hsAuto c s = s :=
  if_neg (by simp [h])

/-- An open load is shown, and its fault is raised once for each verdict (R408). -/
theorem openLoad_shown (hu : u = s.setB (Reg.LSW.CH.STATUS.OPEN_LOAD c) true) (he : s.bit (Reg.LSW.CH.CFG.OL_EN c) = true)
    (hs : s.rd (Reg.LSW.CH.STATUS.STATE c) = 0) (hf : s.floats c = false) :
    openLoad c s = if (s.hs c).openRaised then u
      else raiseCause (0x3500 + c) c (u.setHs c { s.hs c with openRaised := true }) := by
  subst hu
  exact if_pos (by simp [he, hf, hsUnit, hs])

end

/-- An event that latches a channel answers its fault (R406, R409). -/
theorem latches {i : Instr} {s u : State} {c code : Nat} (h : Calm u) (e : exec i s = done (hsLatch c code u))
    (hc : c < 40) (o : Opens code u) (hk : faultClass code ≤ 1) : ∃ t, exec i s = .next t ∧
      Opened code c (setCause code c true (hsForce c
        ((u.setB (Reg.LSW.CH.STATUS.LATCHED c) true).setB (Reg.LSW.CH.STATUS.REQ_ON c) false))) t :=
  e ▸ hsLatch_done h hc o hk

/-- Settles O26: each event of a channel by its condition; a latch is a forcing condition with its fault. -/
theorem channelsProtectThemselves : Obligations.ChannelsProtectThemselves := by
  unfold Obligations.ChannelsProtectThemselves
  refine fun c s h => ⟨fun tj u hu => ?shutdown, fun u hu hf hr => ?foldback, fun tj u hu ht hq => ?cooled,
    fun tj ht => ?notHot, fun o => latches h (go_live h rfl) c.isLt o (notice_class c.isLt (by decide) (by decide)),
    fun mv => ?pulled, live_next h rfl rfl (h.setBChannel _ (by decide) (by decide)), fun hs hi hf => ?entry,
    fun hi => ?inrush, fun hs => ?reset, fun hs o => ?noDischarge, fun u hu he hs hf => ?openLoad⟩
  case shutdown =>
    have shown : Calm (s.wrI (Reg.LSW.CH.MEAS.TJ c) tj) := h.wrChannel _ (by decide) (by decide)
    have restarts : u.rd (Reg.LSW.CH.STATUS.RESTARTS c) = s.rd (Reg.LSW.CH.STATUS.RESTARTS c) :=
      (heated_restarts hu).trans (rd_wr_ne _ _ _ _ (by simp only [Fld.key, ne_eq]; omega))
    have hot := heated_calm shown hu
    refine ⟨fun hr => live_next h rfl (hsThermal_forces hu (restarts ▸ hr)) (hsForce_calm hot c.isLt), fun hr o => ?_⟩
    have e : exec (.thermalShutdown c tj) s = done (hsThermal c (hsTj c tj s)) :=
      go_live (f := fun s => hsThermal c (hsTj c tj s)) h rfl
    rw [hsThermal_latches (s := hsTj c tj s) hu (restarts.trans hr)] at e
    exact latches hot e c.isLt (o.congr (hu ▸ rfl)) (notice_class c.isLt (by decide) (by decide))
  case foldback =>
    exact live_next h rfl ((if_pos hf).trans (hsThermal_forces hu (heated_restarts hu ▸ hr)))
      (hsForce_calm (heated_calm h hu) c.isLt)
  case cooled =>
    have hot : (s.wrI (Reg.LSW.CH.MEAS.TJ c) tj).bit (Reg.LSW.CH.STATUS.THERMAL c) = true :=
      (bit_hsTj tj (by decide) (by decide)).trans ht
    have off : (u.setHs c { s.hs c with heatRestart := true }).bit (Reg.LSW.CH.STATUS.REQ_ON c) = false := by
      subst hu
      refine (bit_wr_ne _ _ (by simp only [Fld.key, ne_eq]; omega)).trans ?_
      exact (bit_hsTj tj (by decide) (by decide)).trans hq
    have cool : Calm u := hu ▸ (h.wrChannel _ (by decide) (by decide)).setBChannel _ (by decide) (by decide)
    refine live_next h rfl ((if_pos hot).trans ?_) (setHs_calm cool c _)
    rw [hu] at off ⊢
    exact hsAuto_idle off
  case notHot =>
    have cold : ¬ (s.wrI (Reg.LSW.CH.MEAS.TJ c) tj).bit (Reg.LSW.CH.STATUS.THERMAL c) = true := by
      simp [bit_hsTj tj, ht]
    exact live_next h rfl (if_neg cold) (h.wrChannel _ (by decide) (by decide))
  case pulled =>
    refine live_next h rfl rfl (hsApply_calm (Calm.setBChannel (h.wr _ _ ?_ ?_) _ (by decide) (by decide)) c) <;>
      (simp only [Fld.key]; omega)
  case entry =>
    exact live_next h rfl (if_pos (by simp [hsUnit, hs, hi, hf]))
      ((h.setBChannel _ (by decide) (by decide)).wrChannel _ (by decide) (by decide))
  case inrush => exact live_next h rfl (if_neg (by simp [hi])) h
  case reset => exact live_next h rfl (if_pos hs) (h.wrChannel _ (by decide) (by decide))
  case noDischarge =>
    have rested : unitStopped (hsUnit c) s = s.wr (Reg.LSW.CH.STATUS.STATE c) 4 := if_pos hs
    have e : exec (.lswNoDischarge c) s = done (raise (0x3540 + c) c (s.wr (Reg.LSW.CH.STATUS.STATE c) 4)) :=
      (go_live h rfl).trans (congrArg done ((if_pos hs).trans (by rw [rested])))
    rw [e]
    exact opens_entry (h.wrChannel _ (by decide) (by decide)) _ _ (o.congr rfl) (notice_class c.isLt (by decide) (by decide))
  case openLoad =>
    have shown := openLoad_shown hu he hs hf
    have hk : Calm u := hu ▸ h.setBChannel _ (by decide) (by decide)
    refine ⟨fun ho => live_next h rfl (shown.trans (if_pos ho)) hk, fun ho o => ?_⟩
    have e : exec (.lswOpenLoad c) s = done (raiseCause (0x3500 + c) c (u.setHs c { s.hs c with openRaised := true })) :=
      (go_live h rfl).trans (congrArg done (shown.trans (if_neg (by simp [ho]))))
    rw [e]
    exact opens_cause (setHs_calm hk c _) _ _ (o.congr (hu ▸ rfl)) (notice_class c.isLt (by decide) (by decide))

end Sys2Proof.Machine
end
section
/-!
PROOF. The statements of the displays (chapter 14).
-/
namespace Sys2Proof.Machine

/-! ### The user display (R418 to R425) -/

section
variable {s u : State}

/-- In OFF with no forcing condition an enable starts the display (R55). -/
theorem dpyEnable_starts (hs : s.rd Reg.DPY.STATUS.STATE = 0) (hc : s.dpyCauses = 0) :
    dpyEnable s = dpyTurnOn ((s.wr Reg.DPY.STATUS.STATE 1).setB Reg.DPY.STATUS.REQ_ON true) := by
  simp [dpyEnable, unitEnable, dpyUnit, hs, hc]

/-- In OFF a forcing condition refuses the enable (R55). -/
theorem dpyEnable_refused (hs : s.rd Reg.DPY.STATUS.STATE = 0) (hc : s.dpyCauses ≠ 0) : dpyEnable s = s := by
  simp [dpyEnable, unitEnable, dpyUnit, hs, hc]

theorem dpyShow_stopping (h : s.rd Reg.DPY.STATUS.STATE = 3) : dpyShow s = s.setB Reg.DPY.STATUS.BLACK true := by
  simp [dpyShow, h]

/-- In ON a disable shuts the display down, black (R418). -/
theorem dpyDisable_stops (h : s.rd Reg.DPY.STATUS.STATE = 2) :
    dpyDisable s =
      ((s.setB Reg.DPY.STATUS.REQ_ON false).wr Reg.DPY.STATUS.STATE 3).setB Reg.DPY.STATUS.BLACK true := by
  have on : (s.setB Reg.DPY.STATUS.REQ_ON false).rd Reg.DPY.STATUS.STATE = 2 := (rd_setB_ne _ _ _ _ (by decide)).trans h
  unfold dpyDisable
  rw [← dpyShow_stopping (rd_wr_same _ _ 3)]
  simp [unitDisable, dpyUnit, on]

/-- A crack reading in ON is shown and taken by the range of the shelfmark; the third in a row out of it is a crack
(R422). -/
theorem crackMeasure_on {ohms : Nat} {b : List Byte} {v : State} (hb : b = s.dpyBody.getD [])
    (h : s.rd Reg.DPY.STATUS.STATE = 2) (hu : u = s.wr Reg.DPY.CRACK.OHMS (min 10000 ohms))
    (hv : v = u.mapDpy fun d => { d with crackRun := min 3 (s.dpy.crackRun + 1) }) :
    crackMeasure ohms s = if leAt b 0xC 2 ≤ ohms && ohms ≤ leAt b 0xE 2 then u.mapDpy fun d => { d with crackRun := 0 }
      else if 2 ≤ s.dpy.crackRun && !s.bit Reg.DPY.CRACK.CRACKED then
        raiseCause 0x7602 0 (dpyJudge (v.setB Reg.DPY.CRACK.CRACKED true))
      else v := by
  have cracked : v.bit Reg.DPY.CRACK.CRACKED = s.bit Reg.DPY.CRACK.CRACKED := by
    rw [hv, hu]
    exact bit_wr_ne (f := Reg.DPY.CRACK.OHMS) s _ (by decide)
  have third : (decide (s.rd dpyUnit.st = 1) || decide (3 ≤ s.dpy.crackRun + 1)) = decide (2 ≤ s.dpy.crackRun) := by
    simp [dpyUnit, h]
  rw [← cracked, ← third]
  subst hb hv hu
  exact if_neg (by simp [dpyUnit, h])

end

/-- The level in force moves towards the target by at most 80 a reading (R425). -/
def brightStep (now target : Nat) : Nat := if now < target then min target (now + 80) else max target (now - 80)

theorem brightStep_near (now target : Nat) : brightStep now target ≤ now + 80 ∧ now ≤ brightStep now target + 80 := by
  unfold brightStep
  split <;> omega

theorem brightStep_lt {now target n : Nat} (h : now < n) (h' : target < n) : brightStep now target < n := by
  unfold brightStep
  split <;> omega

/-- A reading of the sensor joins the last eight, and the level moves towards what the curve gives (R425). -/
theorem alsRead_taken {s : State} {v : Nat} (hm : s.bit Reg.DPY.BRIGHT.MAN = false)
    (hs : s.rd Reg.DPY.STATUS.STATE = 2) (hb : leAt (s.dpyBody.getD []) 0xB 1 ≠ 0xFF) :
    ∃ target lux, alsRead (some v) s = (((s.mapDpy fun d => { d with
      lux := (v :: s.dpy.lux).take 8, alsBad := 0, target := target }).wr Reg.DPY.ERRS.LUX lux).setB
        Reg.DPY.STATUS.ALS_FB false).wr Reg.DPY.BRIGHT.LEVEL (brightStep (s.rd Reg.DPY.BRIGHT.LEVEL) target) := by
  unfold alsRead
  rw [if_neg (by simp [hm, dpyUnit, hs])]
  simp only [hb, if_false]
  exact ⟨_, _, rfl⟩

/-- A failed reading counts; the third puts the brightness on its fallback (R425). -/
theorem alsRead_failed {s : State} (hm : s.bit Reg.DPY.BRIGHT.MAN = false)
    (hs : s.rd Reg.DPY.STATUS.STATE = 2) (hb : leAt (s.dpyBody.getD []) 0xB 1 ≠ 0xFF) :
    alsRead none s = if 2 ≤ s.dpy.alsBad && !s.bit Reg.DPY.STATUS.ALS_FB then
        raise 0x3604 0 (((s.mapDpy fun d => { d with alsBad := min 3 (s.dpy.alsBad + 1) }).setB
          Reg.DPY.STATUS.ALS_FB true).wr Reg.DPY.BRIGHT.LEVEL (s.cfg 9 6 2))
      else s.mapDpy fun d => { d with alsBad := min 3 (s.dpy.alsBad + 1) } := by
  unfold alsRead
  rw [if_neg (by simp [hm, dpyUnit, hs])]
  simp only [hb, decide_false, Bool.or_false]
  refine if_congr ?_ rfl rfl
  rw [show decide (3 ≤ s.dpy.alsBad + 1) = decide (2 ≤ s.dpy.alsBad) from decide_eq_decide.2 (by omega)]
  rfl

/-- A frame in ON moves ELVSS by one step and sends the level in force (R423, R425). -/
theorem dpyFrame_on {s : State} (h : s.rd Reg.DPY.STATUS.STATE = 2) : ∃ d : DpySt, dpyFrame s = { s with dpy := d } ∧
    d.underrun = false ∧ d.sent = some (s.rd Reg.DPY.BRIGHT.LEVEL) ∧
    d.elvss = (if s.dpy.elvss < s.rd Reg.DPY.RAIL.ELVSS then s.dpy.elvss + 1
      else if s.rd Reg.DPY.RAIL.ELVSS < s.dpy.elvss then s.dpy.elvss - 1 else s.dpy.elvss) ∧
    d.crackRun = s.dpy.crackRun ∧ d.railBad = s.dpy.railBad ∧ d.causes = s.dpy.causes := by
  unfold dpyFrame
  rw [if_neg (by simp [dpyUnit, h])]
  refine ⟨_, rfl, rfl, if_pos h, ?_, rfl, rfl, rfl⟩
  dsimp only
  split
  · rfl
  · split
    · rfl
    · omega

/-- The registers of the displays are none that decide whether a state is calm. -/
theorem Calm.wrDpy {s : State} (h : Calm s) {a lo w : Nat} (ha : 0x36000 ≤ a) (hl : lo < 32) (v : Nat) :
    Calm (s.wr ⟨a, lo, w⟩ v) :=
  h.wr _ v (key_ne (by decide) hl (by show 0x3000 ≠ a; omega)) (key_ne (by decide) hl (by show 0x18 ≠ a; omega))

theorem Calm.setBDpy {s : State} (h : Calm s) {a lo w : Nat} (ha : 0x36000 ≤ a) (hl : lo < 32) (b : Bool) :
    Calm (s.setB ⟨a, lo, w⟩ b) := h.wrDpy ha hl _

/-- The settings of a blink unit leave a calm state. -/
theorem blinkSet_calm {s u : State} {b layer onF offF : Nat} (h : Calm s)
    (hu : u = (((s.wr (Reg.BLINK.CTL.LAYER b) layer).wr (Reg.BLINK.CTL.ON_F b) onF).wr (Reg.BLINK.CTL.OFF_F b) offF).setB
      (Reg.BLINK.CTL.EN b) true) : Calm u := by
  have ha : 0x36000 ≤ 0x36108 + 0x10 * b := by omega
  exact hu ▸ (((h.wrDpy ha (by decide) _).wrDpy ha (by decide) _).wrDpy ha (by decide) _).setBDpy ha (by decide) _

/-- Settles O28: requests by the table of R55, the fault of a crack, a rail, an underrun and the sensor each by its count,
a frame and a reading by what they set. -/
theorem userDisplayFollowsItsRules : Obligations.UserDisplayFollowsItsRules := by
  unfold Obligations.UserDisplayFollowsItsRules
  refine fun a s h hl => ⟨fun h8 h9 => ⟨fun hs hc => ?starts, fun hs hc => ?refused, fun hs => ?stops⟩,
    fun hm => ⟨?noEnable, ?noDisable⟩, ?clear, fun ohms b u hb hs hu => ⟨fun h1 h2 => ?whole, fun h1 h2 => ?odd,
      fun h1 h2 h3 o => ?crack⟩, fun rail hs o => ?rail, fun hs => ⟨fun hd => ?again, fun hd o => ?underrun⟩,
    fun b layer onF offF u hu => ⟨fun he => ?blinks, fun he => ?blinkStarts⟩, fun hs => ?frame,
    fun hm hs hb => ⟨fun v => ?reading, fun hn => ?failed, fun hn hf o => ?fallback⟩⟩
  case starts =>
    exact gated_next h hl rfl ((if_neg (by simp [h8, h9])).trans (dpyEnable_starts hs hc))
      (dpyTurnOn_calm ((h.wrDpy (by decide) (by decide) _).setBDpy (by decide) (by decide) _))
  case refused => exact gated_next h hl rfl ((if_neg (by simp [h8, h9])).trans (dpyEnable_refused hs hc)) h
  case stops =>
    exact gated_next h hl rfl ((if_neg (by simp [h8, h9])).trans (dpyDisable_stops hs))
      (((h.setBDpy (by decide) (by decide) _).wrDpy (by decide) (by decide) _).setBDpy (by decide) (by decide) _)
  case noEnable => exact gated_next h hl rfl (if_pos (by simpa using hm)) h
  case noDisable => exact gated_next h hl rfl (if_pos (by simpa using hm)) h
  case clear => exact gated_next h hl rfl rfl (dpyJudge_calm ((mapDpy_calm h _).setCause _ _ _))
  case whole =>
    exact running_next h rfl ((crackMeasure_on hb hs hu rfl).trans (if_pos (by simp [h1, h2])))
      (mapDpy_calm (hu ▸ h.wrDpy (by decide) (by decide) _) _)
  case odd =>
    have hmin : min 3 (s.dpy.crackRun + 1) = s.dpy.crackRun + 1 := by omega
    refine running_next h rfl ((crackMeasure_on hb hs hu rfl).trans ?_)
      (mapDpy_calm (hu ▸ h.wrDpy (by decide) (by decide) _) _)
    rw [if_neg (by simp; omega), if_neg (by simp; omega), hmin]
  case crack =>
    have e : exec (.crackMeasure ohms) s = done (raiseCause 0x7602 0
        (dpyJudge ((u.mapDpy fun d => { d with crackRun := 3 }).setB Reg.DPY.CRACK.CRACKED true))) := by
      refine (go_if h rfl).trans (congrArg done ((crackMeasure_on hb hs hu rfl).trans ?_))
      have hmin : min 3 (s.dpy.crackRun + 1) = 3 := by omega
      rw [if_neg (by simp; omega), if_pos (by simp [h2, h3]), hmin]
    have hu' : Calm u := hu ▸ h.wrDpy (by decide) (by decide) _
    rw [e]
    exact opens_cause (dpyJudge_calm ((mapDpy_calm hu' _).setBDpy (by decide) (by decide) _)) _ _
      (o.congr (by rw [dpyJudge_flt]; exact hu ▸ rfl)) (by decide)
  case rail =>
    have e : exec (.dpyRail rail) s = done (raiseCause 0x7601 0 (dpyJudge
        ((s.setFlag Reg.DPY.STATUS.RAILS rail false).mapDpy fun d => { d with railBad := true }))) :=
      congrArg done (if_pos (by simp [h.run, dpyUnit, hs]))
    rw [e]
    exact opens_cause (dpyJudge_calm (mapDpy_calm (h.wrDpy (by decide) (by decide) _) _)) _ _
      (o.congr (by rw [dpyJudge_flt]; rfl)) (by decide)
  case again =>
    exact (congrArg done ((if_neg (by simp [h.run, dpyUnit, hs])).trans (if_pos hd))).trans
      (done_calm (h.wrDpy (by decide) (by decide) _))
  case underrun =>
    have e : exec .dpyUnderrun s = done (raise 0x3603 0
        ((s.inc Reg.DPY.ERRS.UNDERRUNS).mapDpy fun d => { d with underrun := true })) :=
      congrArg done ((if_neg (by simp [h.run, dpyUnit, hs])).trans (if_neg (by simpa using hd)))
    rw [e]
    exact opens_entry (mapDpy_calm (h.wrDpy (by decide) (by decide) _) _) _ _ (o.congr rfl) (by decide)
  case blinks =>
    exact gated_next h hl rfl ((if_pos he).trans hu.symm) (blinkSet_calm h hu)
  case blinkStarts =>
    exact gated_next h hl rfl ((if_neg (by simp [he])).trans (by rw [hu])) (mapDpy_calm (blinkSet_calm h hu) _)
  case frame =>
    obtain ⟨d, hd, rest⟩ := dpyFrame_on hs
    exact ⟨d, running_next h rfl hd (mapDpy_calm h fun _ => d), rest⟩
  case reading =>
    obtain ⟨target, lux, e⟩ := alsRead_taken (v := v) hm hs hb
    have near := brightStep_near (s.rd Reg.DPY.BRIGHT.LEVEL) target
    refine ⟨_, running_next h rfl e (Calm.wrDpy (Calm.setBDpy ((mapDpy_calm h _).wrDpy (by decide) (by decide) _)
      (by decide) (by decide) _) (by decide) (by decide) _), ?_, rfl, rfl, fun ht hn => ?_⟩
    · rw [bit_wr_ne _ _ (by decide)]
      exact bit_setB_same _ _ _ rfl
    · have low := brightStep_lt (target := target) hn ht
      rw [rd_wr_same, Nat.mod_eq_of_lt low]
      exact near
  case failed =>
    have hmin : min 3 (s.dpy.alsBad + 1) = s.dpy.alsBad + 1 := by omega
    refine running_next h rfl ((alsRead_failed hm hs hb).trans ?_) (mapDpy_calm h _)
    rw [if_neg (by simp; omega), hmin]
  case fallback =>
    have hmin : min 3 (s.dpy.alsBad + 1) = 3 := by omega
    have e : exec (.alsRead none) s = done (raise 0x3604 0 (((s.mapDpy fun d => { d with alsBad := 3 }).setB
        Reg.DPY.STATUS.ALS_FB true).wr Reg.DPY.BRIGHT.LEVEL (s.cfg 9 6 2))) := by
      refine (go_if h rfl).trans (congrArg done ((alsRead_failed hm hs hb).trans ?_))
      rw [if_pos (by simp [hn, hf]), hmin]
    rw [e]
    exact opens_entry (Calm.wrDpy (Calm.setBDpy (mapDpy_calm h _) (by decide) (by decide) _) (by decide) (by decide) _)
      _ _ (o.congr rfl) (by decide)

/-! ### The legal display (R426 to R434) -/

/-- A region with a request starts at a positive frame when nothing bars it (R427, R431, R432). -/
theorem legalUpdateStart_begins {s : State} (h : Calm s) {r : Fin 8} {die : Int} {c : Nat} (hw : s.bdyWait r = some c)
    (h4 : 4 ≤ s.mode) (h9 : s.mode ≠ 9) (hp : s.bdy.phase = 0) (hf : s.bit Reg.BDY.STATUS.RAIL_FAULT = false)
    (hr : s.bdyRun r = none) (hn : s.bit Reg.BDY.STATUS.POSITIVE = false) :
    exec (.legalUpdateStart r die) s = done (bdyBegin r c (s.bdyTemp die) s) := by
  have high := h.high
  have starts : s.bdyStarts = true := by
    unfold State.bdyStarts
    simp [h4, h9]
    omega
  show done (match s.bdyWait r with | none => s | some c => _) = _
  rw [hw]
  exact congrArg done (if_neg (by simp [h.run, starts, hp, hf, hr, hn]))

/-- What a region's start writes leaves a calm state. -/
theorem regionStart_calm {s : State} (h : Calm s) {r : Nat} (t : Int) (n : Nat) :
    Calm (((((s.wrI Reg.BDY.TEMP.TEMP t).wr Reg.BDY.TEMP.N n).setB (Reg.BDY.REG.STATUS.PENDING r) false).wr
      (Reg.BDY.REG.STATUS.FRAME r) 0).setFlag Reg.BDY.STATUS.RUNNING r true) := by
  have ha : 0x36000 ≤ 0x37104 + 0x20 * r := by omega
  exact ((((h.wrDpy (by decide) (by decide) _).wrDpy (by decide) (by decide) _).setBDpy ha (by decide) _).wrDpy ha
    (by decide) _).wrDpy (by decide) (by decide) _

/-- The start of a region at `v`, what it writes being `v`. -/
theorem bdyBegin_starts {s v : State} {r c : Nat} {t : Int} (hv : v = ((((s.wrI Reg.BDY.TEMP.TEMP t).wr Reg.BDY.TEMP.N
      (s.bdyN t)).setB (Reg.BDY.REG.STATUS.PENDING r) false).wr (Reg.BDY.REG.STATUS.FRAME r) 0).setFlag
      Reg.BDY.STATUS.RUNNING r true) : bdyBegin r c t s = v.mapBdy fun b => { b with
    image := b.image - Nat.land s.bdy.image (s.regionMask r) + c, wait := mapSet (fun _ => none) b.wait r none,
    run := mapSet (fun _ => none) b.run r (some ⟨Nat.land s.bdy.image (s.regionMask r), c, 0, s.bdyN t⟩),
    started := mapSet (fun _ => 0) b.started r (s.rd Reg.PWR.OPSEC.SECONDS) } := by
  have seconds : v.rd Reg.PWR.OPSEC.SECONDS = s.rd Reg.PWR.OPSEC.SECONDS := by
    subst hv
    unfold State.setFlag State.setB State.wrI
    rw [rd_wr_ne, rd_wr_ne, rd_wr_ne, rd_wr_ne, rd_wr_ne] <;> (simp only [Fld.key]; omega)
  rw [← seconds, hv]
  rfl

section
variable {s u : State} {die : Int} (hu : u = s.setB Reg.BDY.STATUS.POSITIVE (!s.bit Reg.BDY.STATUS.POSITIVE))
include hu

/-- A frame turns the polarity; with good rails it drives the recovery, or every region in its turn (R426, R433). -/
theorem bdyFrame_turns : bdyFrame die s = if s.bit Reg.BDY.STATUS.RAIL_FAULT then u
    else if s.bdy.phase ≠ 0 then recoveryFrame (!s.bit Reg.BDY.STATUS.POSITIVE) die u
    else forEach 8 (bdyDrive (!s.bit Reg.BDY.STATUS.POSITIVE)) u := by
  have fault : u.bit Reg.BDY.STATUS.RAIL_FAULT = s.bit Reg.BDY.STATUS.RAIL_FAULT := hu ▸ bit_wr_ne _ _ (by decide)
  rw [← fault, hu]
  rfl

/-- A frame of the full refresh drives every segment (R434). -/
theorem recoveryFrame_refresh {pos : Bool} (h0 : s.bdy.phase ≠ 1) (hn : s.bdy.frame < 4 * s.bdy.n) :
    recoveryFrame pos die u = u.mapBdy fun b =>
      { b with ledger := driveFrame b.refresh b.ledger, frame := b.frame + 1 } := by
  subst hu
  exact (if_neg h0).trans (if_pos hn)

/-- With one update running a frame drives that region alone. -/
theorem bdyFrame_drives {r : Fin 8} (hf : s.bit Reg.BDY.STATUS.RAIL_FAULT = false) (hp : s.bdy.phase = 0)
    (hq : ∀ q, q < 8 → q ≠ r.val → s.bdyRun q = none) :
    bdyFrame die s = bdyDrive (!s.bit Reg.BDY.STATUS.POSITIVE) r u := by
  rw [bdyFrame_turns hu, if_neg (by simp [hf]), if_neg (by simp [hp])]
  refine (bdyDrive_one _ r u ?_ 8 (Nat.le_refl 8)).trans (if_pos r.isLt)
  subst hu
  exact hq

end

section
variable {s : State} {p : Bool} {r : Nat} {x : BdyRun}

/-- A region drives its next frame in that frame's polarity (R427). -/
theorem bdyDrive_frame (hx : s.bdyRun r = some x) (hn : x.frame < 4 * x.n) (hp : x.frame % 2 = 0 ↔ p = true) :
    bdyDrive p r s = (s.wr (Reg.BDY.REG.STATUS.FRAME r) x.frame).mapBdy fun b => { b with
      ledger := driveFrame x b.ledger, run := mapSet (fun _ => none) b.run r (some { x with frame := x.frame + 1 }) } := by
  unfold bdyDrive
  rw [hx]
  exact if_neg (by simp [hp]; omega)

theorem bdyDrive_ended (hx : s.bdyRun r = some x) (hn : 4 * x.n ≤ x.frame) : bdyDrive p r s = s := by
  unfold bdyDrive
  rw [hx]
  exact if_pos (by simp [hn])

/-- What an update's end leaves of the region. -/
theorem legalUpdateEnd_judged (h : Calm s) {r : Fin 8} (hx : s.bdyRun r = some x) :
    exec (.legalUpdateEnd r) s = done (if x.frame < 4 * x.n then s
      else ((s.setFlag Reg.BDY.STATUS.RUNNING r false).wr (Reg.BDY.REG.STATUS.FRAME r) 0).mapBdy fun b =>
        { b with run := mapSet (fun _ => none) b.run r none }) := by
  show done (live _ s) = _
  rw [live_calm h, hx]

end

/-- Settles O29: a start by what bars it, a frame by the rails, the recovery and the running region, the rails by their
fault. -/
theorem legalDisplayFollowsItsRules : Obligations.LegalDisplayFollowsItsRules := by
  unfold Obligations.LegalDisplayFollowsItsRules
  refine fun a r s h => ⟨fun hl => ⟨fun hk => ?asks, fun hk => ?silent⟩,
    fun die c n old u hw h4 h9 hp hf hr hn ho hN hu => ?starts, fun die hw => ?nothing,
    fun die u hu => ⟨fun hf => ?dark, fun hf h0 h1 hn => ?refresh,
      fun x hf hp hx hq => ⟨fun hn hpos => ?drives, fun hn => ?ended⟩⟩,
    fun x hx => ⟨fun hn => ?ends, fun hn => ?runs⟩, fun hf o => ?rail, fun hf => ?recovers⟩
  case asks => exact gated_next h hl rfl (if_pos hk) (bdyRequest_calm h r.isLt)
  case silent => exact gated_next h hl rfl (if_neg hk) h
  case starts =>
    subst ho hN
    refine (legalUpdateStart_begins h hw h4 h9 hp hf hr hn).trans ((congrArg done (bdyBegin_starts hu)).trans (done_calm ?_))
    exact mapBdy_calm (hu ▸ regionStart_calm h _ _) _
  case nothing =>
    have e : exec (.legalUpdateStart r die) s = done s := by
      show done (match s.bdyWait r with | none => s | some c => _) = _
      rw [hw]
    exact e.trans (done_calm h)
  case dark => exact running_next h rfl ((bdyFrame_turns hu).trans (if_pos hf)) (hu ▸ h.setBDpy (by decide) (by decide) _)
  case refresh =>
    refine running_next h rfl ?_ (mapBdy_calm (hu ▸ h.setBDpy (by decide) (by decide) _) _)
    rw [bdyFrame_turns hu, if_neg (by simp [hf]), if_pos h0, recoveryFrame_refresh hu h1 hn]
  case drives =>
    have hx' : u.bdyRun r = some x := hu ▸ hx
    have hk : Calm u := hu ▸ h.setBDpy (by decide) (by decide) _
    exact running_next h rfl ((bdyFrame_drives hu hf hp hq).trans (bdyDrive_frame hx' hn (by simpa using hpos)))
      (mapBdy_calm (hk.wrDpy (by omega) (by decide) _) _)
  case ended =>
    have hx' : u.bdyRun r = some x := hu ▸ hx
    exact running_next h rfl ((bdyFrame_drives hu hf hp hq).trans (bdyDrive_ended hx' hn))
      (hu ▸ h.setBDpy (by decide) (by decide) _)
  case ends =>
    exact (legalUpdateEnd_judged h hx).trans ((congrArg done (if_neg (by omega))).trans
      (done_calm (mapBdy_calm ((h.wrDpy (by decide) (by decide) _).wrDpy (by omega) (by decide) _) _)))
  case runs => exact (legalUpdateEnd_judged h hx).trans ((congrArg done (if_pos hn)).trans (done_calm h))
  case rail =>
    have e : exec .bdyRail s = done (raiseCause 0x7701 0
        ((((s.setB Reg.BDY.STATUS.RAIL_FAULT true).setB Reg.BDY.STATUS.RECOVERING false).wr Reg.BDY.STATUS.RUNNING 0).mapBdy
          fun b => { b with run := [], phase := 0, frame := 0 })) := congrArg done (if_neg (by simp [h.run, hf]))
    have off := ((h.setBDpy (lo := 2) (w := 1) (a := 0x37000) (by decide) (by decide) true).setBDpy (lo := 1) (w := 1)
      (a := 0x37000) (by decide) (by decide) false).wrDpy (lo := 8) (w := 8) (a := 0x37000) (by decide) (by decide) 0
    rw [e]
    exact opens_cause (mapBdy_calm off _) _ _ (o.congr rfl) (by decide)
  case recovers =>
    exact (congrArg done (if_neg (by simp [h.run, hf]))).trans
      (done_calm (bdyRecover_calm ((h.setBDpy (by decide) (by decide) _).setCause _ _ _)))

end Sys2Proof.Machine
end
section
/-!
PROOF. The statement of the safety functions and the two halves (chapter 12): how functions and outputs step (R360, R370,
R375, R378), samples, discrepancy and exchanges (R351, R353 to R358).
-/
namespace Sys2Proof.Machine

/-! ### Functions (R375, R378) -/

@[simp] theorem fnGoto_st (n : Nat) (x : FnSt) : (fnGoto n x).st = n := by
  unfold fnGoto
  split <;> rfl

/-- The time since RUN starts as a function leaves it (R360). -/
theorem fnGoto_since {n : Nat} {x : FnSt} (h : x.st = 2) (hn : n ≠ 2) : (fnGoto n x).since = 0 := by
  unfold fnGoto
  rw [if_pos (by simp [h, hn])]

section
variable {manual anyD bothD : Bool} {x : FnSt}

theorem fnStep_fault (h : x.st ≠ 3) : fnStep manual true anyD bothD x = fnGoto 3 x := by simp [fnStep, h]

theorem fnStep_stays (h : x.st = 3) : fnStep manual true anyD bothD x = x := by simp [fnStep, h]

/-- A function leaves FAULT for DEMAND with its fault gone (R375). -/
theorem fnStep_recovers (h : x.st = 3) : fnStep manual false anyD bothD x = { fnGoto 0 x with both := true } := by
  simp [fnStep, h]

theorem fnStep_demanded (h : x.st = 0) : fnStep manual false true bothD x = { x with both := x.both || bothD } := by
  simp [fnStep, h]

/-- A function leaves DEMAND for RUN after a demand of both channels, without MANUAL (R375). -/
theorem fnStep_runs (h : x.st = 0) (hb : (x.both || bothD) = true) :
    fnStep false false false bothD x = { fnGoto 2 x with both := x.both || bothD } := by
  simp only [fnStep, h, hb]
  rfl

/-- A function else leaves DEMAND for AWAIT (R375). -/
theorem fnStep_awaits (h : x.st = 0) (hb : manual = true ∨ (x.both || bothD) = false) :
    fnStep manual false false bothD x = { fnGoto 1 x with both := x.both || bothD } := by
  have hm : ((x.both || bothD) && !manual) = false := by rcases hb with hb | hb <;> simp [hb]
  simp [fnStep, h, hm]

/-- AWAIT and RUN end on a demand alone (R375). -/
theorem fnStep_ready (h : x.st = 1 ∨ x.st = 2) :
    fnStep manual false anyD bothD x = if anyD then { fnGoto 0 x with both := bothD } else x := by
  rcases h with h | h <;> simp [fnStep, h]

end

section
variable {jog a0 a1 : Bool} {x : FnSt}

/-- The first hand that moves starts the timer of a two-hand function (R378). -/
theorem fnStepHands_moves (h : x.st = 1) (ha : a0 = true ∨ a1 = true) :
    fnStepHands jog false a0 a1 x = { fnGoto 0 x with sync := 1 } := by
  have hb : (a0 || a1) = true := by simpa using ha
  simp [fnStepHands, h, hb]

theorem fnStepHands_runs (h : x.st = 0) (hs : x.sync = 1) :
    fnStepHands true false true true x = { fnGoto 2 x with sync := 0 } := by simp [fnStepHands, h, hs]

theorem fnStepHands_rests (h : x.st = 0) : fnStepHands jog false false false x = { fnGoto 1 x with sync := 0 } := by
  simp [fnStepHands, h]

/-- A two-hand function leaves RUN as one hand lets go (R378). -/
theorem fnStepHands_stops (h : x.st = 2) (ha : a0 = false ∨ a1 = false) :
    fnStepHands jog false a0 a1 x = { fnGoto 0 x with sync := 0 } := by
  have hb : (a0 && a1) = false := by rcases ha with ha | ha <;> simp [ha]
  simp [fnStepHands, h, hb]

end

/-- A pair counts its samples in disagreement (R370). -/
theorem pairSample_count (d : Bool × Bool) (cnt : Nat) (bad seen : Bool) :
    (pairSample d cnt bad seen).1 = if d.1 ≠ d.2 then cnt + 1 else 0 := by
  unfold pairSample
  dsimp only
  split
  · rfl
  · split
    · rfl
    · split <;> rfl

/-! ### Outputs (R353, R360) -/

section
variable {s : State} {w : SafHalf}

/-- Nothing is released in class None or under a forced stop (R360). -/
theorem released_none (n : Nat) (h : permClass (s.actMode w) = 3 ∨ s.safForced w = true) :
    s.lseOn w (s.half w) n = false ∧ s.pmiRelease w (s.half w) = false := by
  unfold State.lseOn State.pmiRelease
  rcases h with h | h <;> simp [h]

/-- A function of the mask that is not in RUN, without a category 1 delay, bars the output (R360). -/
theorem lseOn_barred {h : HalfSt} {f n : Nat} (hf : f < 24) (hm : s.fnMasks f n = true) (ht : s.fnType f ≠ 4)
    (hc : s.fnFlag f 2 = false) (hr : (h.fnAt f).st ≠ 2) : s.lseOn w h n = false := by
  unfold State.lseOn
  have barred : ((List.range 24).all fun f => !s.fnMasks f n ||
      (if s.fnType f = 4 then !(decide (permClass (s.actMode w) = 1) && !s.safForced w) || decide ((h.fnAt f).st = 2)
       else decide ((h.fnAt f).st = 2) || (s.fnFlag f 2 && Nat.testBit (s.cfg 7 0x12 2) n &&
         (decide (permClass (s.actMode w) = 0) && !s.safForced w) && decide ((h.fnAt f).since < s.stop1)))) = false := by
    rw [List.all_eq_false]
    exact ⟨f, List.mem_range.2 hf, by simp [hm, ht, hc, hr]⟩
  simp only [barred, Bool.and_false, Bool.false_and]

/-- A half that may not release commands nothing (R360, R389). -/
theorem safOutputs_barred (h : s.mayRelease w = false) :
    safOutputs w s = lseCheck s ((fun t : State => if w = .curator then { t with saf := { t.saf with curHold := true } } else t)
      (s.setHalf w { s.half w with lse := 0, pmi := false })) := by
  unfold safOutputs
  rw [h]
  rfl

end

/-! ### Samples, discrepancy and exchanges (R351, R353 to R358) -/

section
variable {s u : State} {w : SafHalf}

/-- A sample reads and filters the inputs, steps the functions that run, commands the outputs and sends the frame (R351). -/
theorem safSample_steps {high low masked : Nat} {h : HalfSt} (hh : h = (List.range 48).foldl
      (fun h k => filterInput (s.siFilt k) k h) { s.half w with read := readInputs (s.half w).read high low masked })
    (hu : u = s.setHalf w h) : safSample w high low masked s = exSend w (acdCheck s (safOutputs w (u.setHalf w
      (if s.bit Reg.SAF.STATUS.RUN then (List.range 24).foldl (fun h f => u.fnSample w f h) h else h)))) := by
  have run : u.bit Reg.SAF.STATUS.RUN = s.bit Reg.SAF.STATUS.RUN := by
    subst hu
    cases w <;> rfl
  rw [← run, hu, hh]
  rfl

section
variable {f : Fin 24} {x : FnSt} {new0 new1 : Bool} {h : HalfSt} (hx : x = (s.half w).fnAt f)
  (h0 : new0 = (decide (s.discLimit f < x.cnt0) && !x.bad0))
  (h1 : new1 = (decide (s.fnType f = 4) && decide (s.discLimit f < x.cnt1) && !x.bad1))
include hx h0 h1

theorem safDiscrepancy_judged (hr : s.running = true)
    (hh : h = (s.half w).setFn f { fnGoto 3 x with bad0 := x.bad0 || new0, bad1 := x.bad1 || new1 }) :
    exec (.safDiscrepancy w f) s = done (if s.fnPaired f && s.fnType f ≠ 0 && (new0 || new1) then
      raise (0x7440 + f) 0 (acdCheck s (safOutputs w ((s.setHalf w
        { h with verdicts := (h.verdicts ++ [f.val]).mergeSort (· ≤ ·) }).setB (Reg.SAF.FN.DISC_STK f) true))) else s) := by
  subst hx h0 h1 hh
  exact congrArg done (if_pos hr)

end

section
variable {frame : Option Nat} {late valid agree : Bool} {v : Nat}

/-- An exchange by whether its frame is valid and agrees: both count, and a valid frame is taken (R355, R356). -/
theorem exchangeFrame_judged {x : State} (hr : s.running = true)
    (hv : valid = frame.any fun v => frameValid (s.half w).rxSeq v && !late)
    (ha : agree = (valid && s.framesAgree (frame.getD 0) (s.half w).sent))
    (hu : u = s.setHalf w { s.half w with disagree := if agree then 0 else (s.half w).disagree + 1 })
    (hx : x = if valid then safOutputs w (exTake w (frame.getD 0) u) else u) :
    exec (.exchangeFrame w frame late) s = done (acdCheck s
      (if x.saf.cur.disagree = 0 ∧ x.saf.kpr.disagree = 0 then setCause 0xB401 0 false x else x)) := by
  subst hv ha hu hx
  refine (congrArg done (if_pos hr)).trans ?_
  simp only [Bool.and_eq_true, decide_eq_true_eq]
  cases frame <;> rfl

/-- A frame that is missing, late or invalid is not taken (R356). -/
theorem frame_invalid
    (hf : frame = none ∨ late = true ∨ ∃ v, frame = some v ∧ frameValid (s.half w).rxSeq v = false) :
    false = frame.any fun v => frameValid (s.half w).rxSeq v && !late := by
  rcases hf with rfl | rfl | ⟨v, rfl, hv⟩
  · rfl
  · cases frame <;> simp
  · simp [hv]

end

/-- One disagreeing exchange raises nothing, nor does a fault that stands (R356). -/
theorem safHalves_idle (h : s.saf.cur.disagree < 2 ∧ s.saf.kpr.disagree < 2 ∨ s.causePresent (0xB401, 0) = true) :
    exec .safHalves s = .next (settle s) := by
  refine ends_live_idle rfl ?_
  have due : ((decide (2 ≤ s.saf.cur.disagree) || decide (2 ≤ s.saf.kpr.disagree)) && !s.causePresent (0xB401, 0)) = false := by
    rcases h with ⟨h1, h2⟩ | h
    · simp [Nat.not_le.2 h1, Nat.not_le.2 h2]
    · simp [h]
  simp only [due]
  rfl

/-- Two disagreeing exchanges raise SAF_HALVES, and within a day of the last one the Grave fault (R356, R357). -/
theorem safHalves_due {again : Bool} (hr : s.running = true) (h : 2 ≤ s.saf.cur.disagree ∨ 2 ≤ s.saf.kpr.disagree)
    (hc : s.causePresent (0xB401, 0) = false)
    (ha : again = s.cat.halvesOpsec.any fun t => s.rd Reg.PWR.OPSEC.SECONDS < t + 86400)
    (hu : u = setCause 0xB401 0 true { s with cat := { s.cat with halvesOpsec := some (s.rd Reg.PWR.OPSEC.SECONDS) } }) :
    exec .safHalves s = done (if again then raise 0xF402 0 u else raise 0xB401 0 (u.inc Reg.SAF.HALVES.COUNT)) := by
  subst ha hu
  refine (congrArg done (if_pos hr)).trans ?_
  have due : ((decide (2 ≤ s.saf.cur.disagree) || decide (2 ≤ s.saf.kpr.disagree)) && !s.causePresent (0xB401, 0)) = true := by
    simpa [hc] using h
  simp only [due]
  rw [if_neg (by decide : ¬ (!true) = true)]
  cases s.cat.halvesOpsec with
  | none => rfl
  | some t => simp only [Option.any_some]

end

/-- Settles O41: a function by its state and its fault, an exchange by its frame, SAF_HALVES by the last one. -/
theorem safetyFunctionsAndHalves : Obligations.SafetyFunctionsAndHalves := by
  unfold Obligations.SafetyFunctionsAndHalves
  refine ⟨⟨fun manual anyD bothD x hx => ?steps, fun jog a0 a1 x => ?hands, pairSample_count,
      fun w s n => ⟨released_none n, fun f hf hm ht hc hr => lseOn_barred hf hm ht hc hr,
        fun h => congrArg (·.half w) (safOutputs_barred h)⟩⟩,
    fun s hr => ⟨fun w high low masked h u hh hu => ⟨fun off => ?sampleOff, fun on => ?sampleOn⟩,
      fun w f x new0 new1 h hx h0 h1 hh => ⟨fun hn => ?counts, fun hp ht hn => ?discrepancy⟩,
      fun dst frame late u hu => ⟨fun hf => ?missed, fun v x hf hl hv hx => ?taken⟩, safHalves_idle,
      fun u hd hc hu => ⟨fun t ht hn => ?again, fun hn => ?first⟩, ends_live hr rfl rfl⟩⟩
  case steps =>
    refine ⟨fun h => by simp [fnStep_fault h], fun h => ⟨fnStep_stays h, ?_, ?_⟩, fun h => ?_, fun h hb => ?_,
      fun h hb => ?_, fun h => ?_, fun h => ⟨?_, ?_⟩⟩
    · simp [fnStep_recovers h]
    · simp [fnStep_recovers h]
    · simp [fnStep_demanded h, h]
    · simp [fnStep_runs h hb]
    · simp [fnStep_awaits h hb]
    · simp [fnStep_ready h]
    · simp [fnStep_ready (.inr h), fnGoto_since h]
    · simp [fnStep_fault (x := x) (by omega), fnGoto_since h]
  case hands =>
    refine ⟨fun h ha => ?_, fun h hs => ?_, fun h => ?_, fun h ha => ?_⟩
    · simp [fnStepHands_moves h ha]
    · simp [fnStepHands_runs h hs]
    · simp [fnStepHands_rests h]
    · simp [fnStepHands_stops h ha]
  case sampleOff =>
    refine ends_if hr rfl ((safSample_steps hh hu).trans ?_)
    rw [if_neg (by simp [off])]
  case sampleOn =>
    refine ends_if hr rfl ((safSample_steps hh hu).trans ?_)
    rw [if_pos on]
  case counts =>
    refine ends_neg (safDiscrepancy_judged hx h0 h1 hr hh) ?_
    rcases hn with hn | hn | ⟨hn0, hn1⟩
    · simp [hn]
    · simp [hn]
    · simp [hn0, hn1]
  case discrepancy => exact ends_pos (safDiscrepancy_judged hx h0 h1 hr hh) (by simp [hp, ht, hn])
  case missed => exact ends (exchangeFrame_judged hr (frame_invalid hf) rfl hu rfl) rfl
  case taken =>
    subst hf hl
    have valid : true = ((some v).any fun v => frameValid (s.half dst).rxSeq v && !false) := by simp [hv]
    refine ends (exchangeFrame_judged (agree := s.framesAgree v (s.half dst).sent) hr valid ?_ rfl
      (hx.trans (if_pos rfl).symm)) rfl
    exact (Bool.true_and _).symm
  case again =>
    have ha : true = s.cat.halvesOpsec.any fun t => s.rd Reg.PWR.OPSEC.SECONDS < t + 86400 := by simp [ht, hn]
    exact ends_pos (safHalves_due hr hd hc ha hu) rfl
  case first =>
    have ha : false = s.cat.halvesOpsec.any fun t => s.rd Reg.PWR.OPSEC.SECONDS < t + 86400 := by
      cases ht : s.cat.halvesOpsec with
      | none => rfl
      | some t => simp [hn t ht]
    exact ends_neg (safHalves_due hr hd hc ha hu) Bool.false_ne_true

end Sys2Proof.Machine
end
section
/-!
PROOF. The statements of the card reader and the embedded tag (chapter 15).
-/
namespace Sys2Proof.Machine

/-! ### The reader (R438 to R446) -/

section
variable {s u : State}

/-- The reader does nothing where it does not run, or in another state. -/
theorem nfc_elsewhere {n : Nat} (h : s.nfcRuns = false ∨ s.rd Reg.NFC.STATUS.STATE ≠ n) :
    (!(s.nfcRuns && decide (s.rd Reg.NFC.STATUS.STATE = n))) = true := by
  rcases h with h | h <;> simp [h]

theorem nfc_here {n : Nat} (hr : s.nfcRuns = true) (hs : s.rd Reg.NFC.STATUS.STATE = n) :
    ¬ (!(s.nfcRuns && decide (s.rd Reg.NFC.STATUS.STATE = n))) = true := by
  simp [hr, hs]

section
variable {amp ph : Int} (hr : s.nfcRuns = true) (hs : s.rd Reg.NFC.STATUS.STATE = 1)
include hr hs

/-- The first ping sets the baseline (R440). -/
theorem nfcPing_first (hb : s.nfc.base = none) :
    nfcPing amp ph s = ((s.wr Reg.NFC.DET_MEAS.AMP_DEV 0).wr Reg.NFC.DET_MEAS.PH_DEV 0).mapNfc fun x =>
      { x with base := some ((amp : Rat), (ph : Rat)) } := by
  refine (if_neg (nfc_here hr hs)).trans ?_
  rw [hb]

/-- A later ping is shown against the baseline; it wakes the reader, or tracks the baseline (R440). -/
theorem nfcPing_judged {ba bp a p : Rat} (hb : s.nfc.base = some (ba, bp)) (ha : a = (amp : Rat) - ba)
    (hp : p = (ph : Rat) - bp)
    (hu : u = (s.wrI Reg.NFC.DET_MEAS.AMP_DEV (Config.rounded a)).wrI Reg.NFC.DET_MEAS.PH_DEV (Config.rounded p)) :
    nfcPing amp ph s =
      if (u.rd Reg.NFC.DET_CFG.WAKE_AMP : Rat) ≤ ratAbs a || (u.rd Reg.NFC.DET_CFG.WAKE_PH : Rat) ≤ ratAbs p then
        if s.nfc.wakes = 0 then u.mapNfc fun x => { x with wakes := 1 }
        else (u.wr Reg.NFC.STATUS.STATE 2).mapNfc fun x => { x with wakes := 0 }
      else u.mapNfc fun x => { x with
        wakes := 0, base := some (ba + a / 2 ^ u.rd Reg.NFC.DET_CFG.TRACK, bp + p / 2 ^ u.rd Reg.NFC.DET_CFG.TRACK) } := by
  refine (if_neg (nfc_here hr hs)).trans ?_
  subst ha hp hu
  rw [hb]
  rfl

end

section
variable {rounds : List PollRound} (hr : s.nfcRuns = true) (hs : s.rd Reg.NFC.STATUS.STATE = 2)
include hr hs

/-- A poll that lists cards enters ACTIVE with them (R441). -/
theorem nfcPoll_finds {l : List (Bool × List Byte)}
    (hl : ((rounds.take 3).map s.pollList).find? (fun l => !l.isEmpty) = some l) :
    nfcPoll rounds s =
      ((s.wr Reg.NFC.STATUS.CARDS l.length).wr Reg.NFC.STATUS.STATE 3).mapNfc fun x => { x with cards := l } := by
  refine (if_neg (nfc_here hr hs)).trans ?_
  rw [hl]

/-- A poll that lists none is a false wake, and the tenth in 60 s raises its fault (R441). -/
theorem nfcPoll_misses {now : Nat} {l : List Nat}
    (hn : ((rounds.take 3).map s.pollList).find? (fun l => !l.isEmpty) = none) (ht : now = s.rd Reg.PWR.OPSEC.SECONDS)
    (hl : l = now :: s.nfc.falseAt.filter (fun t => now < t + 60))
    (hu : u = nfcDetect (((s.wr Reg.NFC.STATUS.CARDS 0).inc Reg.NFC.STATUS.FALSE_WAKES).mapNfc fun x =>
      { x with cards := [] })) :
    nfcPoll rounds s = if 10 ≤ l.length then raise 0x3802 0 (u.mapNfc fun x => { x with falseAt := [] })
      else u.mapNfc fun x => { x with falseAt := l } := by
  refine (if_neg (nfc_here hr hs)).trans ?_
  subst ht hl hu
  rw [hn]

end

/-- ACTIVE ends to DETECT, and no other state (R445). -/
theorem nfcEnd_active (h : s.rd Reg.NFC.STATUS.STATE = 3) : nfcEnd s = nfcDetect s := if_pos h

theorem nfcEnd_other (h : s.rd Reg.NFC.STATUS.STATE ≠ 3) : nfcEnd s = s := if_neg h

/-- The head of Q[11] is taken in ACTIVE alone (R438, R445). -/
theorem contactlessCommand_idle {r : List Nat} {e : Bool}
    (h : s.nfcRuns = false ∨ s.rd Reg.NFC.STATUS.STATE ≠ 3 ∨ takeHead 11 s = none) :
    exec (.contactlessCommand r e) s = .next (settle s) := by
  refine ends rfl ?_
  by_cases k : s.nfcRuns = false ∨ s.rd Reg.NFC.STATUS.STATE ≠ 3
  · exact if_pos (nfc_elsewhere k)
  · rw [(or_assoc.2 h).resolve_left k, ite_self]

theorem contactlessCommand_answers {r : List Nat} {e : Bool} {i : Item} {t : State} (hr : s.nfcRuns = true)
    (hs : s.rd Reg.NFC.STATUS.STATE = 3) (ht : takeHead 11 s = some (i, t))
    (hu : u = hwPost 12 ((List.range 16).map fun w => r.getD w 0 % 2 ^ 64) t) :
    exec (.contactlessCommand r e) s = .next (settle (if e then nfcEnd u else u)) := by
  refine ends rfl ((if_neg (nfc_here hr hs)).trans ?_)
  rw [ht, hu]

end

/-! ### The tag's states (R447 to R449, R451, R455, R456) -/

section
variable {s u : State}

/-- A tag that does not run, or has no field, takes no frame. -/
theorem tagFrame_deaf {f : State → State} (h : s.tagLive = false ∨ s.bit Reg.TAG.STATUS.FIELD = false) :
    tagFrame f s = s := by
  refine if_neg ?_
  rcases h with h | h <;> simp [h]

/-- What a frame error leaves: IDLE with LEVEL 0 from READY, OPEN and SECURED (R449). -/
theorem tagError_eq (hu : u = (if s.tagSt = 2 ∨ s.tagSt = 3 ∨ s.tagSt = 4 then
      tagEnter 1 (((tagAnswer [] s).wr Reg.TAG.STATUS.LEVEL 0).setB Reg.TAG.STATUS.MAPPED false) else tagAnswer [] s)) :
    tagError s = u := by
  subst hu
  unfold tagError State.tagOpen
  refine if_congr ?_ rfl rfl
  simp only [Bool.or_eq_true, decide_eq_true_eq]
  rfl

/-- A command that the state does not know is an error (R449, R450). -/
theorem tagCommand_unknown {f : State → State} (hl : s.tagLive = true) (hf : s.bit Reg.TAG.STATUS.FIELD = true)
    (h3 : s.tagSt ≠ 3) (h4 : s.tagSt ≠ 4) : tagCommand f s = tagError s := by
  refine (if_pos (by simp [hl, hf])).trans (if_neg ?_)
  simp [State.tagOpen, h3, h4]

/-- A write of no field of the mode leaves whether the A16 is in DORMANT. -/
theorem dormant_wr {f : Fld} (h : Reg.MODE.STATUS.MODE.key ≠ f.key) (v : Nat) : (s.wr f v).dormant = s.dormant := by
  unfold State.dormant State.mode
  rw [rd_wr_ne _ _ _ _ h]
  rfl

/-- What a field brings to the tag's registers leaves its state and its field. -/
theorem fieldOn_kept {v : State} {b : Bool}
    (hv : v = (s.setB Reg.TAG.STATUS.FIELD true).setB Reg.TAG.STATUS.BATT b) :
    v.tagSt = s.tagSt ∧ v.bit Reg.TAG.STATUS.FIELD = true := by
  subst hv
  constructor
  · unfold State.tagSt
    rw [rd_setB_ne _ _ _ _ (by decide), rd_setB_ne _ _ _ _ (by decide)]
  · refine (bit_wr_ne _ _ (by decide)).trans (bit_setB_same _ _ _ rfl)

/-- A field is judged: a tag that may run and was without one is IDLE with LEVEL 0 (R449). -/
theorem tagJudge_field {v : State} (hv : v = (s.setB Reg.TAG.STATUS.FIELD true).setB Reg.TAG.STATUS.BATT
      (s.bit Reg.TAG.STATUS.EN && s.dormant)) : tagJudge (s.setB Reg.TAG.STATUS.FIELD true) =
    if v.tagLive && s.tagSt = 0 then tagEnter 1 (v.wr Reg.TAG.STATUS.LEVEL 0) else v := by
  have enabled : (s.setB Reg.TAG.STATUS.FIELD true).bit Reg.TAG.STATUS.EN = s.bit Reg.TAG.STATUS.EN :=
    bit_wr_ne _ _ (by decide)
  have asleep : (s.setB Reg.TAG.STATUS.FIELD true).dormant = s.dormant := dormant_wr (by decide) _
  obtain ⟨kept, field⟩ := fieldOn_kept hv
  have judged : tagJudge (s.setB Reg.TAG.STATUS.FIELD true) =
      if v.tagLive && v.bit Reg.TAG.STATUS.FIELD && v.tagSt = 0 then tagEnter 1 (v.wr Reg.TAG.STATUS.LEVEL 0) else v := by
    rw [hv, ← enabled, ← asleep]
    rfl
  rw [judged, kept, field, Bool.and_true]

end

/-- Settles O43: the reader by its state and what it hears, the tag by its state and its field. -/
theorem readerAndTagStates : Obligations.ReaderAndTagStates := by
  unfold Obligations.ReaderAndTagStates
  refine ⟨fun s => ⟨fun amp ph h => ends rfl (if_pos (nfc_elsewhere h)), fun amp ph hr hs => ⟨fun hb => ?firstPing,
      fun ba bp a p u hb ha hp hu => ⟨fun hw => ⟨fun h0 => ?near, fun h0 => ?wakes⟩, fun hw => ?tracks⟩⟩,
      fun rounds h => ends rfl (if_pos (nfc_elsewhere h)), fun rounds hr hs => ⟨fun l hl => ?finds,
        fun now l u hn ht hl hu => ⟨fun hk => ?falseWake, fun hk => ?falseWakes⟩⟩,
      fun hr => ends_if hr rfl rfl, fun a hw hl => ⟨fun h => ends_gated hw hl rfl (nfcEnd_active h),
        fun h => ends_gated hw hl rfl (nfcEnd_other h)⟩, fun hr => ⟨fun h => ends_live hr rfl (nfcEnd_active h),
        fun h => ends_live hr rfl (nfcEnd_other h)⟩, fun r e => contactlessCommand_idle,
      fun r i t u hr hs ht hu => ⟨contactlessCommand_answers hr hs ht hu, contactlessCommand_answers hr hs ht hu⟩⟩,
    fun s h => ?deaf, fun s ha => ⟨fun v hv => ⟨fun hl h0 => ?enters, fun hn => ?stays⟩, ends_pos rfl ha, ends_pos rfl ha,
      ends_pos rfl ha⟩, fun s u hl hf hu => ?known⟩
  case firstPing => exact ends rfl (nfcPing_first hr hs hb)
  case near =>
    refine ends rfl ((nfcPing_judged hr hs hb ha hp hu).trans ?_)
    rw [if_pos (by simpa using hw), if_pos h0]
  case wakes =>
    refine ends rfl ((nfcPing_judged hr hs hb ha hp hu).trans ?_)
    rw [if_pos (by simpa using hw), if_neg h0]
  case tracks =>
    refine ends rfl ((nfcPing_judged hr hs hb ha hp hu).trans ?_)
    rw [if_neg (by simpa using hw)]
  case finds => exact ends rfl (nfcPoll_finds hr hs hl)
  case falseWake => exact ends rfl ((nfcPoll_misses hr hs hn ht hl hu).trans (if_neg (by omega)))
  case falseWakes => exact ends rfl ((nfcPoll_misses hr hs hn ht hl hu).trans (if_pos hk))
  case deaf =>
    exact ⟨fun _ => ends rfl (tagFrame_deaf h), fun _ => ends rfl (tagFrame_deaf h), fun _ _ => ends rfl (tagFrame_deaf h),
      fun _ _ _ => ends rfl (tagFrame_deaf h), fun _ => ends rfl (tagFrame_deaf h), fun _ _ => ends rfl (tagFrame_deaf h),
      fun _ => ends rfl (tagFrame_deaf h), ends rfl (tagFrame_deaf h), ends rfl (tagFrame_deaf h),
      ends rfl (tagFrame_deaf h)⟩
  case enters => exact ends rfl ((if_pos ha).trans ((tagJudge_field hv).trans (if_pos (by simp [hl, h0]))))
  case stays =>
    refine ends rfl ((if_pos ha).trans ((tagJudge_field hv).trans (if_neg ?_)))
    rcases hn with hn | hn <;> simp [hn]
  case known =>
    have error := tagError_eq hu
    have unknown {f : State → State} (h3 : s.tagSt ≠ 3) (h4 : s.tagSt ≠ 4) : tagCommand f s = u :=
      (tagCommand_unknown hl hf h3 h4).trans error
    refine ⟨fun w h => ends_frame hl hf rfl (if_pos (by simpa using h)),
      fun w h => ends_frame hl hf rfl ((if_neg (by simpa using h)).trans error),
      fun h => ends_frame hl hf rfl ((if_pos h).trans (if_pos rfl)),
      fun x h hx => ends_frame hl hf rfl ((if_pos h).trans (if_neg hx)),
      fun x h => ends_frame hl hf rfl ((if_neg h).trans error),
      fun h => ends_frame hl hf rfl (if_pos ((tagOpen_eq s).2 h)), ends_frame hl hf rfl error, ends_frame hl hf rfl rfl,
      fun h3 h4 => ⟨ends rfl (unknown h3 h4), fun _ _ => ends rfl (unknown h3 h4), fun _ _ _ => ends rfl (unknown h3 h4),
        fun _ => ends rfl (unknown h3 h4), fun _ _ => ends rfl (unknown h3 h4), fun _ => ends rfl (unknown h3 h4)⟩⟩

/-! ### The tag's commands (R450 to R452, R455) -/

section
variable {s : State}

theorem folioRead_range {p c : Nat} (hc : 8 ≤ c) : folioRead p c s = tagAnswer [0xE1] s := if_pos hc

theorem folioRead_barred {p c : Nat} (hc : c < 8) (hp : s.pageOk p false = false) :
    folioRead p c s = tagAnswer [0xE2] s := (if_neg (by omega)).trans (if_pos (by simp [hp]))

theorem folioRead_page {p c : Nat} (hc : c < 8) (hp : s.pageOk p false = true) (h3 : p ≠ 3) :
    folioRead p c s = tagAnswer (0 :: ((s.tagPage p).drop (32 * c)).take 32) s :=
  (if_neg (by omega)).trans ((if_neg (by simp [hp])).trans (if_neg h3))

/-- Page 3 shows the snapshot copy that it is mapped to (R455). -/
theorem folioRead_mapped {p c : Nat} (hc : c < 8) (hp : s.pageOk p false = true) (h3 : p = 3)
    (hm : s.bit Reg.TAG.STATUS.MAPPED = true) : folioRead p c s =
      tagAnswer (0 :: ((s.tagPage (1 + s.rd Reg.TAG.STATUS.MAP_COPY)).drop (32 * c)).take 32) s := by
  have mapped : tagMap s = s := if_pos hm
  refine (if_neg (by omega)).trans ((if_neg (by simp [hp])).trans ((if_pos h3).trans ?_))
  rw [mapped]
  exact if_pos hm

theorem folioWrite_judged {p c : Nat} {d : List Byte} : folioWrite p c d s =
    if 8 ≤ c ∨ d.length ≠ 32 then tagAnswer [0xE1] s else if s.pageOk p true then
      tagAnswer [0x00] (tagWrite p (32 * c) d s) else tagAnswer [0xE2] s := by
  unfold folioWrite
  cases s.pageOk p true <;> simp only [Bool.or_eq_true, decide_eq_true_eq] <;> rfl

/-- PASS outside the lockout and with a password set is judged by it (R450). -/
theorem tagPassword_judged {w : Nat} (hl : s.bit Reg.TAG.STATUS.LOCKED = false) (hp : s.nfc.tagPwd ≠ 0) :
    tagPassword w s = if w ≠ s.nfc.tagPwd then tagFail s
      else if s.tagSt = 4 then tagGrant (s.rd Reg.TAG.STATUS.LEVEL) s else tagGrant 1 s :=
  (if_neg (by simp [hl])).trans (if_neg hp)

theorem tagChal_format {k : Nat} {nr : List Byte} (h : 2 ≤ k ∨ nr.length ≠ 16) : tagChal k nr s = tagAnswer [0xE1] s :=
  if_pos (by simpa using h)

theorem tagChal_noKey {k : Nat} {nr : List Byte} (hk : k < 2) (hn : nr.length = 16) (h : s.tagKey k = []) :
    tagChal k nr s = tagAnswer [0xE2] s :=
  (if_neg (by simp [hn]; omega)).trans (if_pos (by simp [h]))

/-- CHALLENGE draws NT and proves the key (R450). -/
theorem tagChal_proves {k : Nat} {nr nt : List Byte} (hk : k < 2) (hn : nr.length = 16) (h : s.tagKey k ≠ [])
    (ht : nt = beBytes 16 (Config.random s.free % 2 ^ 128)) : tagChal k nr s =
      (tagAnswer (0 :: (nt ++ tagMac (s.tagKey k) 0x54 nr nt)) { s with free := s.free + 1 }).mapNfc fun x =>
        { x with chal := some (k, nr, nt) } := by
  refine (if_neg (by simp [hn]; omega)).trans ((if_neg (by simp [h])).trans ?_)
  rw [ht]
  rfl

/-- PROVE answers the challenge that stands (R450). -/
theorem tagProof_judged {key : Nat} {mr nr nt : List Byte} (h : s.nfc.chal = some (key, nr, nt)) : tagProof mr s =
    if s.bit Reg.TAG.STATUS.LOCKED then tagAnswer [0xE4] s
    else if mr = tagMac (s.tagKey key) 0x52 nt nr then tagGrant (2 + key) s else tagFail s := by
  unfold tagProof
  rw [h]
  rfl

theorem tagProof_none {mr : List Byte} (h : s.nfc.chal = none) : tagProof mr s = tagAnswer [0xE1] s := by
  unfold tagProof
  rw [h]
  rfl

theorem dormant_tagEnter (n : Nat) : (tagEnter n s).dormant = s.dormant := by
  refine (dormant_wr (f := Reg.TAG.STATUS.STATE) (by decide) n).trans ?_
  split <;> rfl

/-- The eighth failure in a row locks the tag, with its fault while the A16 runs (R451). -/
theorem tagFail_judged {u : State} {n : Nat} (hn : n = min 8 (s.rd Reg.TAG.STATUS.AUTH_FAILS + 1))
    (hu : u = tagAnswer [0xE3] (tagEnter 3 ((s.wr Reg.TAG.STATUS.LEVEL 0).wr Reg.TAG.STATUS.AUTH_FAILS n)))
    (hd : s.dormant = false) :
    tagFail s = if n < 8 then u else raise 0x3901 0 (u.setB Reg.TAG.STATUS.LOCKED true) := by
  have awake : (u.setB Reg.TAG.STATUS.LOCKED true).dormant = false := by
    have answered : u.dormant = (tagEnter 3 ((s.wr Reg.TAG.STATUS.LEVEL 0).wr Reg.TAG.STATUS.AUTH_FAILS n)).dormant := by
      rw [hu]
      rfl
    exact (dormant_wr (by decide) _).trans (answered.trans ((dormant_tagEnter 3).trans
      ((dormant_wr (by decide) _).trans ((dormant_wr (by decide) _).trans hd))))
  subst hn hu
  exact if_congr Iff.rfl rfl (if_neg (Bool.eq_false_iff.1 awake))

theorem tagFail_counts {u : State} {n : Nat} (hn : n = min 8 (s.rd Reg.TAG.STATUS.AUTH_FAILS + 1)) (h : n < 8)
    (hu : u = tagAnswer [0xE3] (tagEnter 3 ((s.wr Reg.TAG.STATUS.LEVEL 0).wr Reg.TAG.STATUS.AUTH_FAILS n))) :
    tagFail s = u := by
  subst hn hu
  exact if_pos h

/-- A wired transfer by the level of its agent and the pages it may name (R457). -/
theorem tagWired_judged {a : Agent} {lo hi p : Nat} {f : Nat → State → State} (hw : s.modeWrites = true)
    (hp : p = s.rd Reg.TAG.PAGE.PAGE) : tagWired a lo hi f s =
      if s.level a < 1 ∨ p < lo ∨ hi < p then s.wr Reg.TAG.WSTAT.RESULT 2 else (f p s).wr Reg.TAG.WSTAT.RESULT 0 := by
  subst hp
  refine (if_neg (by simp [hw])).trans (if_congr ?_ rfl rfl)
  simp [or_assoc]

end

/-- Settles O44: a command by its checks in order, a transfer by the level and the page. -/
theorem tagAnswersAndSnapshots : Obligations.TagAnswersAndSnapshots := by
  unfold Obligations.TagAnswersAndSnapshots
  refine ⟨fun s hl hf ho => ?commands, fun s v hv => ?snapshot, fun s => ⟨fun hr hm => ?periodic, fun hm => ?early,
    fun a hw hl => ends_gated hw hl rfl rfl, fun a p hw hp => ⟨fun hl h => ?loads, fun h => ?noLoad, fun hl h h' => ?stores,
      fun h => ?noStore⟩, fun hr => ends_if hr rfl rfl⟩⟩
  case commands =>
    have answers {c : Instr} {f : State → State} {x : State} (e : exec c s = done (tagCommand f s)) (k : f s = x) :
        exec c s = .next (settle x) := ends_command hl hf ho e k
    refine ⟨fun p c => ⟨fun hc => answers rfl (folioRead_range hc), fun hc hp => answers rfl (folioRead_barred hc hp),
        fun hc hp h3 => answers rfl (folioRead_page hc hp h3), fun hc hp h3 hm => answers rfl (folioRead_mapped hc hp h3 hm)⟩,
      fun p c d => ⟨fun h => answers rfl (folioWrite_judged.trans (if_pos h)), fun hc hd hp => ?barred,
        fun hc hd hp => ?writes⟩,
      fun w => ⟨fun h => answers rfl (if_pos h), fun h h0 => answers rfl ((if_neg (by simp [h])).trans (if_pos h0)),
        fun h h0 hw => ?wrong, fun h h0 hw h3 => ?opens, fun h h0 hw h4 => ?again⟩,
      fun k nr => ⟨fun h => answers rfl (tagChal_format h), fun hk hn h => answers rfl (tagChal_noKey hk hn h),
        fun nt hk hn h ht => answers rfl (tagChal_proves hk hn h ht)⟩,
      fun mr => ⟨fun h => answers rfl (tagProof_none h), fun key nr nt hc => ⟨fun h => ?locked, fun h hm => ?proves,
        fun h hm => ?false⟩⟩,
      fun n u hn hu => ⟨fun h => tagFail_counts hn h hu, fun h hd => (tagFail_judged hn hu hd).trans (if_neg (by omega))⟩⟩
    case barred =>
      refine answers rfl (folioWrite_judged.trans ?_)
      rw [if_neg (by omega), if_neg (by simp [hp])]
    case writes =>
      refine answers rfl (folioWrite_judged.trans ?_)
      rw [if_neg (by omega), if_pos hp]
    case wrong => exact answers rfl ((tagPassword_judged h h0).trans (if_pos hw))
    case opens =>
      exact answers rfl ((tagPassword_judged h h0).trans ((if_neg (not_not.2 hw)).trans (if_neg (by omega))))
    case again => exact answers rfl ((tagPassword_judged h h0).trans ((if_neg (not_not.2 hw)).trans (if_pos h4)))
    case locked => exact answers rfl ((tagProof_judged hc).trans (if_pos h))
    case proves => exact answers rfl ((tagProof_judged hc).trans ((if_neg (by simp [h])).trans (if_pos hm)))
    case false => exact answers rfl ((tagProof_judged hc).trans ((if_neg (by simp [h])).trans (if_neg hm)))
  case snapshot =>
    subst hv
    rfl
  case periodic => exact ends_pos rfl (by simp [hr, hm])
  case early => exact ends_neg rfl (by simp; omega)
  case loads => exact ends rfl ((tagWired_judged hw hp).trans (if_neg (by omega)))
  case noLoad => exact ends rfl ((tagWired_judged hw hp).trans (if_pos (by omega)))
  case stores => exact ends rfl ((tagWired_judged hw hp).trans (if_neg (by omega)))
  case noStore => exact ends rfl ((tagWired_judged hw hp).trans (if_pos h))

end Sys2Proof.Machine
end
section
/-!
PROOF. The statement of the key commands, the slots and the life cycle's cancel (chapter 16, first part).
-/
namespace Sys2Proof.Machine

/-- A key command answers by its first failing condition, each of which has a code of its own (R470). -/
theorem keyCommand_answers {c : Instr} {cmd : Nat} {conds : List (Nat × Bool)} {act : State → State} {effect s : State}
    (e : exec c s = done (keyCommand cmd conds act s)) (ha : act s = effect) (hc : ∀ x ∈ conds, x.1 ≠ 0) :
    CommandAnswers c cmd conds effect s := by
  refine ⟨fun hw => ?_, fun x hw hx => ?_, fun hw hall => ?_⟩
  · exact ends e (if_pos (by simp [hw]))
  · refine ends e ((if_neg (by simp [hw])).trans ?_)
    rw [hx]
    exact if_neg (hc x (List.mem_of_find?_eq_some hx))
  · have none : conds.find? (fun x => !x.2) = none := List.find?_eq_none.2 fun x hx => by simp [hall x hx]
    refine ends e ((if_neg (by simp [hw])).trans ?_)
    rw [none, ← ha]
    rfl

/-- KEY_CHANGE with its message taken apart (R473). -/
theorem keyChangeCmd_message {a : Agent} {k gen id : Nat} {ok : Bool} {m : List Byte} {s : State}
    (h : keyChangeMsg s k = (ok, gen, id, m)) : keyChangeCmd a k s =
      keyCommand 5 [(1, decide (2 ≤ s.level a)), (2, s.lc ≠ 0 && s.lc ≠ 5), (4, k ≠ 0 && k ≠ 3),
        (5, ((s.slot k).kind = 3 || (s.slot k).kind = 5 || (s.slot k).kind = 7) &&
          (Nat.testBit (s.slot k).attr 8 || Nat.testBit (s.slot k).attr 9)), (7, ok),
        (8, decide (gen = (s.slot k).gen + 1))]
      (fun t => slotWriteKey k { s.slot k with
        keyId := id, material := m, persist := (s.slot k).persist || k < 4 } t) s := by
  unfold keyChangeCmd
  rw [h]

theorem not_fixedSlot (k : Nat) : (!fixedSlot k) = decide (4 ≤ k) := by
  rw [fixedSlot, ← decide_not, decide_eq_decide]
  exact Nat.not_lt

section
variable {k gen : Nat} {x y : KeySlot} {v : KeyNv} {s : State} (hy : y = { x with kcv := kcvOf x.kind x.material })
include hy

/-- A volatile key is written with GEN one more than the slot's (R474). -/
theorem slotWriteKey_volatile (hp : x.persist = false) :
    slotWriteKey k x s = s.setSlot k { y with gen := ((s.slot k).gen + 1) % 2 ^ 32, copy := 0 } := by
  subst hy
  exact if_neg (by simp [hp])

variable (hv : v = s.keyNv k) (hg : gen = (v.gen + 1) % 2 ^ 32) (hp : x.persist = true)
include hv hg hp

/-- A persistent key goes to copy B while A is in force (R475). -/
theorem slotWriteKey_copyB (hs : v.sel = 1) : slotWriteKey k x s = (s.setKeyNv k
    { v with sel := 2, gen := gen, b := ({ y with gen := gen, copy := 1 } : KeySlot) }).setSlot k
      { y with gen := gen, copy := 1 } := by
  subst hy hg
  refine (if_pos hp).trans ?_
  simp only [← hv, hs, if_true]

/-- A persistent key else goes to copy A (R475). -/
theorem slotWriteKey_copyA (hs : v.sel ≠ 1) : slotWriteKey k x s = (s.setKeyNv k
    { v with sel := 1, gen := gen, a := ({ y with gen := gen, copy := 0 } : KeySlot) }).setSlot k
      { y with gen := gen, copy := 0 } := by
  subst hy hg
  refine (if_pos hp).trans ?_
  simp only [← hv, hs, if_false]

end

section
variable {op : CryptoOp} {slot : Fin 64} {s : State} (hr : s.running = true)
include hr

/-- An engine request takes the head of Q[13] and posts drawn words to Q[14] (R468). -/
theorem cryptoQueueRequest_idle (h : takeHead 13 s = none) :
    exec (.cryptoQueueRequest op slot) s = .next (settle s) := by
  refine ends_live hr rfl ?_
  rw [h]

theorem cryptoQueueRequest_posts {i : Item} {u : State} {p : List Nat × State} (h : takeHead 13 s = some (i, u))
    (hp : p = (List.range 16).foldl (fun (acc : List Nat × State) _ =>
      (acc.1 ++ [acc.2.fresh.1 % 2 ^ 64], acc.2.fresh.2)) (([] : List Nat), u)) :
    exec (.cryptoQueueRequest op slot) s = .next (settle (hwPost 14 p.1 p.2)) := by
  refine ends_live hr rfl ?_
  rw [h, hp]

end

/-- A cancel in the modes that hear it: nothing is pending, or the level decides (R462). -/
theorem lcCancelReq_judged {a : Agent} {s : State} {p : Nat} (hp : p = s.rd Reg.KEY.STATUS.LC_PEND)
    (hm : s.modeWrites = true ∨ s.mode = 1) : lcCancelReq a s = if p = 15 then keyResult 0xFF 0 s
      else if s.level a < (lcLevel s.key.lc p).getD 3 then keyResult 0xFF 1 s
      else keyResult 0xFF 0 (s.wr Reg.KEY.STATUS.LC_PEND 15) := by
  subst hp
  exact if_neg (by rcases hm with hm | hm <;> simp [hm])

/-- Settles O47: every command by its conditions, a slot's write by persistence and the copy in force. -/
theorem keysAreCheckedWrittenAndUsed : Obligations.KeysAreCheckedWrittenAndUsed := by
  unfold Obligations.KeysAreCheckedWrittenAndUsed
  refine ⟨fun s a k aux => ?commands, fun s => ⟨fun k x y v gen hy hv hg => ⟨slotWriteKey_volatile hy,
      slotWriteKey_copyB hy hv hg, slotWriteKey_copyA hy hv hg⟩, fun hr => ends_live hr rfl rfl,
    fun op slot hr => ⟨cryptoQueueRequest_idle hr, fun i u p => cryptoQueueRequest_posts hr⟩,
    fun a p hp => ⟨fun hw hm => ?deaf, fun hm => ⟨fun h => ?nothing, fun h hl => ?low, fun h hl => ?cancels⟩⟩⟩⟩
  case commands =>
    rw [← not_fixedSlot]
    refine ⟨keyCommand_answers rfl rfl (by simp), keyCommand_answers rfl rfl (by simp),
      keyCommand_answers rfl rfl (by simp), fun m hm => ?wrapped, fun ok gen id m h => ?changed,
      keyCommand_answers rfl rfl (by simp), keyCommand_answers rfl rfl (by simp)⟩
    case wrapped =>
      subst hm
      exact keyCommand_answers rfl rfl (by simp)
    case changed => exact keyCommand_answers (congrArg done (keyChangeCmd_message h)) rfl (by simp)
  case deaf => exact ends rfl (if_pos (by simp [hw, hm]))
  case nothing => exact ends rfl ((lcCancelReq_judged hp hm).trans (if_pos h))
  case low => exact ends rfl ((lcCancelReq_judged hp hm).trans ((if_neg h).trans (if_pos hl)))
  case cancels => exact ends rfl ((lcCancelReq_judged hp hm).trans ((if_neg h).trans (if_neg (by omega))))

end Sys2Proof.Machine
end
